-- ==== Sys2Proof/Word.lean ====
section
/-! DEFINITION. The word types of the block and the plainest views of them. Bytes carry frames, images and
memory; audio samples, gains and dictionary values are integer codes, because every rule that computes with
them is stated on exact integers and narrows explicitly (R54, R57, R101). -/

namespace Sys2Proof

/-- One byte. -/
abbrev Byte := BitVec 8
/-- A 24-bit data register of an Anvil core (R210). -/
abbrev Word24 := BitVec 24
/-- A 56-bit accumulator of an Anvil core (R210). -/
abbrev Word56 := BitVec 56
/-- A 48-bit Anvil instruction (R251). -/
abbrev Word48 := BitVec 48

/-- The byte that holds the low eight bits of `n`. -/
def byteOf (n : Nat) : Byte := BitVec.ofNat 8 n

end Sys2Proof
end

