-- ==== Sys2Proof/Syntax.lean ====
section
/-! DEFINITION. The commands of the block: one constructor of `Instr` for each row of the table of operations
and events, with the operands that name what the command is about. A row that a dictionary request performs
takes the request; an event takes the object it happens to and what arrives from outside with it; an Anvil
instruction takes its core and its fields. -/

namespace Sys2Proof

/-- The trailer of an authenticated frame (R458). -/
structure Trailer where
  counter : Nat
  tag : List Byte
deriving DecidableEq, Repr

/-- A take-effect time: a time base and a TIME64 value on it (R121). -/
structure WhenAt where
  tb : Nat
  t : Nat
deriving DecidableEq, Repr

/-- A request frame (R435, R436). `via` is the transport: 0 the SPI host port, 1 to 4 the ports N0 to N3;
`peer` is the source address and port of a datagram. `formed` says that the operation header, its reserved
fields and the modifier layout are as R436 lays down; `signed` are the bytes the tag covers. -/
structure Req where
  via : Nat
  peer : Nat
  src : Nat
  dst : Nat
  seq : Nat
  maxReply : Nat
  session : Nat
  trailer : Option Trailer
  signed : List Byte
  formed : Bool
  op : Nat
  cls : Nat
  inst : Nat
  attr : Nat
  elem : Nat
  count : Nat
  ramp : Option Nat
  shape : Option Nat
  when_ : Option WhenAt
  token : Option (Nat × Nat)
  data : List Byte
deriving DecidableEq, Repr

/-- A parallel memory move (R253): pointer, addressing mode 0 to 5, register code 0 to 7, and the direction. -/
structure Move where
  write : Bool
  p : Fin 8
  mode : Fin 6
  reg : Fin 8
deriving DecidableEq, Repr

/-- The X and Y moves of a format P instruction. -/
structure Moves where
  x : Option Move
  y : Option Move
deriving DecidableEq, Repr

/-- A parameter that Bellows carries as Class R on a ramp slot (R93): a node of a plane, a fader, a row swap. -/
inductive RParam where
  | node (plane s d : Nat)
  | inFader (n : Nat)
  | outFader (n : Nat)
  | swap (slot : Nat)
deriving DecidableEq, Repr

/-- A Class Z parameter (R93). -/
inductive ZParam where
  | trim (n : Nat)
  | polarity (n : Nat)
  | inCut (n : Nat)
  | outCut (n : Nat)
  | preamp (n : Nat)
deriving DecidableEq, Repr

/-- An output that holds and fades (R131): a SAP output channel, a transmit stream channel, a receive stream
channel, or a welded contributor of a destination. -/
inductive OutRef where
  | sapOut (n ch : Nat)
  | sapIn (n ch : Nat)
  | tx (s ch : Nat)
  | rx (s ch : Nat)
  | weld (d m : Nat)
deriving DecidableEq, Repr

/-- An RTP packet that matches a receive stream's addresses (R404, R408): leg, whether its version and payload type are
as the stream requires, sequence number, timestamp, arrival time on the domain's time base in ns, and its samples as
codes of the stream's encoding, channel by channel within each instant. -/
structure RtpPacket where
  leg : Nat
  wellFormed : Bool
  seq : Nat
  ts : Nat
  arrival : Nat
  samples : List (List Int)
deriving DecidableEq, Repr

/-- What a card brings when it is inserted (R504 to R507): the bytes that are not 0xFF, erased flash. -/
structure Card where
  mem : List (Nat × Byte)
deriving DecidableEq, Repr

/-- A march failure (R292): the group, the first failing line, and the XOR of the expected and the read data there. -/
structure MarchFail where
  group : Nat
  line : Nat
  diff : Nat
deriving DecidableEq, Repr

/-- What stands at the pins and in the world when a reset ends (R528 to R536): the cause of the reset (R529), the BOOTSEL
pins, a card inserted since (none: the slot is as it was), whether each firmware slot as the part was delivered passes the
checks of the ROM, the failures of the start-up march, and whether the training of deep memory fails. -/
structure BootIn where
  cause : Nat
  bootsel : Nat
  card : Option Card
  slotGood : List Bool
  marchFail : List MarchFail
  deepFail : Bool
deriving DecidableEq, Repr

/-- What a burst does: a read, a write, or one of the atomic operations of R280. -/
inductive BurstKind where
  | read
  | write
  | addWrapping
  | addSaturating
  | swap
deriving DecidableEq, Repr

/-- A burst that waits at a target of the main matrix (R298, R299): master, byte address, length, what it does, write data or
operand, the byte strobes (R278; bytes beyond the list are on), and the matrix cycles it has waited. -/
structure Burst where
  master : Nat
  addr : Nat
  len : Nat
  kind : BurstKind
  data : List Byte
  strobes : List Bool
  waited : Nat
deriving DecidableEq, Repr

/-- An access of the matrix side that meets a remote access at a bank (R279, R281): its master, and whether it is atomic.
It is presented in the same even cycle at a bank with one port, and touches the same word in the same cycle at SB14 or SB15. -/
structure Clash where
  master : Nat
  atomic : Bool
deriving DecidableEq, Repr

/-- What one remote access meets at its bank (R281, R283): the other cores that hold an access for that port when it
arrives, and the access of the matrix side that it meets. -/
structure Gate where
  others : List Nat
  clash : Option Clash
deriving DecidableEq, Repr

/-- What a core's accesses meet, one after another, of the two lists of a remote instruction's operands. -/
def gatesOf : List (List Nat) → List (Option Clash) → List Gate
  | [], xs => xs.map fun x => ⟨[], x⟩
  | o :: os, xs => ⟨o, xs.headD none⟩ :: gatesOf os xs.tail

/-- The posted writes of a releasing core have drained: the core, and what each of them met (R235). -/
structure Drained where
  core : Nat
  gates : List Gate
deriving DecidableEq, Repr

/-- The phases of a reference's rising and falling edges, in units of 50 ps (R334, R336). -/
structure Phases where
  rise : Int
  fall : Int
deriving DecidableEq, Repr

/-- The request line of a peripheral, with the bytes until it withdraws its request if it will (R325, R326). -/
structure Pace where
  line : Nat
  room : Option Nat
deriving DecidableEq, Repr

/-- A read of a march that differs from what its element expects (R289, R290): element 2 to 6, line, and the XOR of the
expected and the read data of the first word that differs. -/
structure MarchRead where
  element : Nat
  line : Nat
  diff : Nat
deriving DecidableEq, Repr

/-- What an Announce message carries (R372): the sender, grandmaster, clockClass, clockAccuracy, variance, the two
priorities, stepsRemoved, and its log message interval. -/
structure Announce where
  sender : Nat
  grandmaster : Nat
  clockClass : Nat
  accuracy : Nat
  variance : Nat
  priority1 : Nat
  priority2 : Nat
  steps : Nat
  logInterval : Int
deriving DecidableEq, Repr

/-- What the matching of a received Ethernet frame looks at (R399, R400): whether its FCS is good, its length, whether
it is tagged, its EtherType, whether it is an IPv4 fragment, its protocol, addresses and UDP ports. -/
structure EthFrame where
  fcs : Bool
  len : Nat
  tagged : Bool
  etherType : Nat
  fragment : Bool
  proto : Nat
  srcAddr : Nat
  dstAddr : Nat
  srcPort : Nat
  dstPort : Nat
deriving DecidableEq, Repr

/-- A Weld fragment as it arrives (R423), and its arrival time on MD0's time base in ns. -/
structure WeldFrag where
  system : Nat
  version : Nat
  sender : Nat
  n : Nat
  rate : Nat
  frame : Nat
  lane : Nat
  fragment : Nat
  fragments : Nat
  entries : List (Nat × List Int)
  arrival : Nat
deriving DecidableEq, Repr

/-- The commands of the block. (DEDUCED, entry 12) -/
inductive Instr where
  /-- BLOCK_TICK (R12). An MD0 sample whose count is a multiple of N opens a block period: the parameter
  snapshot is taken and the stage work of every frame is scheduled for that period. -/
  | blockTick (count : Nat) (latch : List Nat)
  /-- DEADLINE_MISS (R31). A stage that has not finished its frame at the tick ending its period repeats
  its last sample, is counted and is logged as ERROR. -/
  | deadlineMiss (outs : List Nat)
  /-- GO (R33). The go action moves the engine between CONFIG, RUN and HALT after admission, starting or
  stopping the tick with fades. -/
  | goAction (q : Req)
  /-- FADE_COMPLETE (R133). The 5 ms entry or exit fade reaches its last sample, and on exit the tick then
  stops. -/
  | fadeComplete
  /-- WATCHDOG_EXPIRY (R529). The supervisor watchdog expires: the engine halts or gives up, then resets
  with cause 3. -/
  | watchdogExpiry
  /-- CLEAR_COUNTS (R452). A clear action (clear_counts, clear_sat, clear, clear_max) sets the named
  counters of its class to zero. -/
  | clearCounts (q : Req)
  /-- GAIN (R60). A write to a live-plane node gain, in G24 or centi-dB form, starts or retargets a Class
  R ramp. -/
  | gain (q : Req)
  /-- IDLE_GAIN (R64). A write to an idle-plane node takes effect at once, never ramps and cancels any
  leftover ramp. -/
  | idleGain (q : Req)
  /-- OCCUPANT (R41). A write of a slot occupant, or of an in-strip source, rebinds the slot by one or two
  row swaps after admission. -/
  | occupant (q : Req)
  /-- ROW_SWAP_END (R84). A row swap delivers its last crossfade sample and frees its ramp slot. -/
  | rowSwapEnd (slot : Nat)
  /-- STRIKE (R68). The strike action starts a crossfade from the live plane to the idle plane, or sets it
  pending for a timed strike. -/
  | strike (q : Req)
  /-- STRIKE_END (R75). After sample L-1 only the target plane is evaluated, strike_state returns to IDLE
  and strike_count rises. -/
  | strikeEnd
  /-- CANCEL_STRIKE (R77). Withdraws a pending strike, whose ticket completes with STATE. -/
  | cancelStrike (q : Req)
  /-- COPY_LIVE_TO_IDLE (R66). Copies the target of every live node into the idle plane through TC15,
  holding idle_busy. -/
  | copyLiveToIdle (q : Req)
  /-- CLEAR_IDLE (R607). Zeroes every idle-plane node through TC15, holding idle_busy. -/
  | clearIdle (q : Req)
  /-- IDLE_LOAD_COMPLETE (R607). A copy, clear or stage writes its last row, its ticket completes and
  idle_busy returns to 0. -/
  | idleLoadComplete
  /-- FADER (R109). A write of an in-strip or out-strip fader starts, queues or retargets a Class R ramp. -/
  | fader (q : Req)
  /-- QUEUED_GROUP_START (R107). At a tick, the head group of the queue moves into free slots once the
  whole group fits. -/
  | queuedGroupStart
  /-- RAMP_END (R104). A ramp delivers its final sample, its slot is freed and the RAMP bit clears. -/
  | rampEnd (p : RParam)
  /-- TRIM (R118). An in-strip trim write arms a Class Z change that waits for a zero crossing. -/
  | trim (q : Req)
  /-- POLARITY (R118). An in-strip polarity write arms a Class Z change. -/
  | polarity (q : Req)
  /-- CUT (R118). An in-strip or out-strip cut write arms a Class Z change. -/
  | cut (q : Req)
  /-- PREAMP_GAIN (R140). A remote preamplifier gain write arms a Class Z change on the returning signal. -/
  | preampGain (q : Req)
  /-- ZERO_CROSSING (R116). The watched signal crosses zero and the pending Class Z change steps from that
  sample. -/
  | zeroCrossing (p : ZParam)
  /-- ZC_TIMEOUT (R117). No crossing occurs within Lz samples, so the change steps at F+Lz and zc_timeouts
  rises. -/
  | zcTimeout (p : ZParam)
  /-- PREAMP_RELEASE (R140). At the end of the period that holds the crossing, preamp_released takes the
  gain and its count rises. -/
  | preampRelease (n : Nat)
  /-- TIMED_HANDOVER (R126). At a tick, the supervisor hands held timed changes to free hardware places
  within the 2 s window. -/
  | timedHandover
  /-- TIMED_CHANGE_DUE (R121). A pending timed change reaches its due sample and applies, or steps under
  R108 when no slot is free. -/
  | timedChangeDue (id : Nat)
  /-- CANCEL_TIMED (R128). Withdraws every pending timed change due at or after the given MD0 instant. -/
  | cancelTimed (q : Req)
  /-- HOLD_TIME_EXPIRY (R131). An output that has held its last value for its hold time starts its hold
  fade. -/
  | holdTimeExpiry (o : OutRef)
  /-- HOLD_FADE_END (R131). The hold fade reaches sample Lh and the output delivers zero. -/
  | holdFadeEnd (o : OutRef)
  /-- RESUME_FADE_END (R132). The 32-sample resume fade ends and the output carries live audio alone. -/
  | resumeFadeEnd (o : OutRef)
  /-- COEF (R149). A coefficient write is checked for stability and then crossfaded over one block. -/
  | coef (q : Req)
  /-- SECTION_BYPASS (R148). A write of section bypass bits crossfades the affected sections over one
  block. -/
  | sectionBypass (q : Req)
  /-- DELAY_ENABLE (R141). Enabling or disabling an alignment delay line passes admission, places or frees
  the line, and crossfades. -/
  | delayEnable (q : Req)
  /-- DELAY (R143). A delay write reads the line at the old and the new position and crossfades over one
  block. -/
  | delay (q : Req)
  /-- COMP_KEY (R150). A key word write selects the own, external or linked detector for the compressor. -/
  | compKey (q : Req)
  /-- INSERT (R157). A write of the insert word binds, unbinds or rebinds an Anvil insert with a one-block
  crossfade, after admission. -/
  | insertWrite (q : Req)
  /-- INSERT_BYPASS (R156). A bypass change crossfades between the return and the delayed insert front. -/
  | insertBypass (q : Req)
  /-- PEAK_HOLD_EXPIRY (R164). A meter's peak hold runs out and the reading starts to fall at peak_fall. -/
  | peakHoldExpiry (m : Nat)
  /-- LOUDNESS_UPDATE (R167). Every 100 ms of audio the momentary, short-term and integrated values are
  updated. -/
  | loudnessUpdate
  /-- LOUDNESS_START (R168). The start action starts or resumes integration. -/
  | loudnessStart (q : Req)
  /-- LOUDNESS_STOP (R168). The stop action stops integration. -/
  | loudnessStop (q : Req)
  /-- LOUDNESS_RESET (R168). The reset action clears the integrated value, the maxima and integrated_time. -/
  | loudnessReset (q : Req)
  /-- SILENCE_DETECTOR_SETTING (R169). A write of a detector's tap, threshold or hold restarts its run and
  returns it to signal present. -/
  | silenceDetectorSetting (q : Req)
  /-- SILENT (R169). A detector's run of samples below threshold reaches H in a frame with no sample above
  threshold. -/
  | silent (k : Nat)
  /-- STRIP_MAP (R180). A write of in_strip_map or out_strip_map activates or deactivates strips after
  admission. -/
  | stripMap (q : Req)
  /-- MOVE_PLAN_TAKES_EFFECT (R188). At the first tick after the last move switches, the change takes
  effect and its ticket completes. -/
  | movePlanTakesEffect
  /-- STRIP_MOVE_SWITCH (R193). TC14 copies a strip's context record and the new lane runs the strip from
  the next tick. -/
  | stripMoveSwitch (strip : Nat)
  /-- PRE_COPY_COMPLETE (R196). The TC15 pre-copy of a module's program and CONST regions completes, so
  the next block is the final one on the old core. -/
  | preCopyComplete (m : Nat)
  /-- REGION_COPY_COMPLETE (R197). A region copy completes and the region base is switched at the next
  switch point. -/
  | regionCopyComplete
  /-- ZERO_FILL_COMPLETE (R185). A freed deep-memory region finishes its background zero-fill and becomes
  zero-filled free space. -/
  | zeroFillComplete
  /-- CORE_RETIREMENT (R200). A condemned core is stopped at offset W and retired, and its modules are
  sent to the spare core. -/
  | coreRetirement (c : Nat)
  /-- RETIREMENT_COPY_COMPLETE (R201). The retirement copy finishes and the modules resume on the spare at
  the next offset W. -/
  | retirementCopyComplete (c : Nat)
  /-- DEFRAGMENT (R205). Repacks the current topology fresh and runs the move plan under a ticket. -/
  | defragment (q : Req)
  /-- REINSTATE_CORE (R204). Runs a destructive march on a retired core and makes it usable if the march
  passes. -/
  | reinstateCore (q : Req)
  /-- OFFSET_TICK (R233). At offset W the gateway copies released outputs and the sequencer starts each
  core's modules in turn. -/
  | offsetTick
  /-- METER_LIMIT (R234). A module's cycle meter reaches its declared cycles without RELEASE, so the
  module is stopped. -/
  | meterLimit (c : Nat)
  /-- MODULE_OVERRUN (R32). A module that has not released by offset W repeats its outputs and counts an
  overrun, and three overruns in 64 blocks condemn the core. -/
  | moduleOverrun (c : Nat)
  /-- OUTPUT_RELEASED (R235). RELEASE completes once the write buffer has drained, and the output frame
  counts as released. -/
  | outputReleased (d : Drained)
  /-- LOAD (R248). Validates the staged Xixon image and declares the module under a ticket, after
  admission. -/
  | loadModule (q : Req)
  /-- UNLOAD (R250). Removes the module, aborts its descriptors and frees its regions at the tick at which
  it leaves its core. -/
  | unloadModule (q : Req)
  /-- IN_SRC (R241). Binds a module input port to a destination sum or to none. -/
  | inSrc (q : Req)
  /-- CONST (R243). A const write is queued per core and applied at the entry of the block it belongs to. -/
  | constWrite (q : Req)
  /-- NOP (R256). Performs no operation; its parallel moves still run. -/
  | nop (c : Nat) (mv : Moves)
  /-- MUL (R256). da := plus or minus s1 times s2. -/
  | mul (c : Nat) (da s1 s2 : Fin 4) (n1 : Bool) (mv : Moves)
  /-- MAC (R256). da := da plus or minus s1 times s2, clamped under R213. -/
  | mac (c : Nat) (da s1 s2 : Fin 4) (n1 : Bool) (mv : Moves)
  /-- MUL2 (R256). da := the sum of two signed products. -/
  | mul2 (c : Nat) (da s1 s2 s3 s4 : Fin 4) (n1 n2 : Bool) (mv : Moves)
  /-- MAC2 (R256). Adds two signed products to da in one exact step. -/
  | mac2 (c : Nat) (da s1 s2 s3 s4 : Fin 4) (n1 n2 : Bool) (mv : Moves)
  /-- DMUL (R256). Writes one product into each of two accumulators. -/
  | dmul (c : Nat) (da db s1 s2 s3 s4 : Fin 4) (n1 n2 : Bool) (mv : Moves)
  /-- DMAC (R256). Accumulates one product into each of two accumulators. -/
  | dmac (c : Nat) (da db s1 s2 s3 s4 : Fin 4) (n1 n2 : Bool) (mv : Moves)
  /-- MACRN (R256). Multiply-accumulates, then rounds at bit 24. -/
  | macrn (c : Nat) (da s1 s2 : Fin 4) (n1 : Bool) (mv : Moves)
  /-- ADD (R256). da := da + db. -/
  | add (c : Nat) (da db : Fin 4) (mv : Moves)
  /-- SUB (R256). da := da - db. -/
  | sub (c : Nat) (da db : Fin 4) (mv : Moves)
  /-- ADDSUB (R256). Forms the sum and the difference of two accumulators from their old values. -/
  | addsub (c : Nat) (da db : Fin 4) (mv : Moves)
  /-- ADDX (R256). Adds an aligned data register to da. -/
  | addx (c : Nat) (da s1 : Fin 4) (mv : Moves)
  /-- SUBX (R256). Subtracts an aligned data register from da. -/
  | subx (c : Nat) (da s1 : Fin 4) (mv : Moves)
  /-- MOVA (R256). Copies db into da. -/
  | mova (c : Nat) (da db : Fin 4) (mv : Moves)
  /-- CLR (R256). Clears da. -/
  | clr (c : Nat) (da : Fin 4) (mv : Moves)
  /-- NEG (R256). Negates da. -/
  | neg (c : Nat) (da : Fin 4) (mv : Moves)
  /-- ABS (R256). Takes the magnitude of da. -/
  | abs (c : Nat) (da : Fin 4) (mv : Moves)
  /-- MAX (R256). da := the larger of da and db. -/
  | max (c : Nat) (da db : Fin 4) (mv : Moves)
  /-- MIN (R256). da := the smaller of da and db. -/
  | min (c : Nat) (da db : Fin 4) (mv : Moves)
  /-- CMP (R256). Sets flags from the exact difference da - db. -/
  | cmp (c : Nat) (da db : Fin 4) (mv : Moves)
  /-- CMPX (R256). Sets flags from da minus an aligned data register. -/
  | cmpx (c : Nat) (da s1 : Fin 4) (mv : Moves)
  /-- TST (R256). Sets flags from da. -/
  | tst (c : Nat) (da : Fin 4) (mv : Moves)
  /-- RND (R216). Rounds da at bit 24 under RM and clears AL. -/
  | rnd (c : Nat) (da : Fin 4) (mv : Moves)
  /-- SCALEI (R218). Shifts da by an immediate k. -/
  | scalei (c : Nat) (da : Fin 4) (k : BitVec 8) (mv : Moves)
  /-- SCALER (R218). Shifts da by a data register value. -/
  | scaler (c : Nat) (da s1 : Fin 4) (mv : Moves)
  /-- NORM (R219). Normalises da and writes its exponent to a data register. -/
  | norm (c : Nat) (da s2 : Fin 4) (mv : Moves)
  /-- DIVS (R220). Performs one non-restoring division step. -/
  | divs (c : Nat) (da s1 : Fin 4) (mv : Moves)
  /-- BEXP (R217). Copies BX into a data register and sets BX to 23. -/
  | bexp (c : Nat) (s2 : Fin 4) (mv : Moves)
  /-- ANDX (R256). ANDs a data register into bits [47:24] of da. -/
  | andx (c : Nat) (da s1 : Fin 4) (mv : Moves)
  /-- ORX (R256). ORs a data register into bits [47:24] of da. -/
  | orx (c : Nat) (da s1 : Fin 4) (mv : Moves)
  /-- XORX (R256). XORs a data register into bits [47:24] of da. -/
  | xorx (c : Nat) (da s1 : Fin 4) (mv : Moves)
  /-- LDI (R262). Loads an immediate into a register. -/
  | ldi (c : Nat) (dst : BitVec 6) (imm : Word24)
  /-- MOVE (R261). Moves one register to another, with a rounded store where an accumulator narrows. -/
  | move (c : Nat) (dst src : BitVec 6)
  /-- MOVC (R242). Reads a control register. -/
  | movc (c : Nat) (dst : BitVec 6) (cr : BitVec 8)
  /-- LDX (R262). Loads a register from an absolute X address. -/
  | ldx (c : Nat) (dst : BitVec 6) (addr : BitVec 15)
  /-- LDY (R262). Loads a register from an absolute Y address. -/
  | ldy (c : Nat) (dst : BitVec 6) (addr : BitVec 15)
  /-- STX (R262). Stores a register to an absolute X address. -/
  | stx (c : Nat) (src : BitVec 6) (addr : BitVec 15)
  /-- STY (R262). Stores a register to an absolute Y address. -/
  | sty (c : Nat) (src : BitVec 6) (addr : BitVec 15)
  /-- LEA (R262). Post-modifies a pointer by a signed offset under its Kn. -/
  | lea (c : Nat) (p : Fin 8) (off : BitVec 16)
  /-- ADDI (R262). Adds an aligned immediate to an accumulator. -/
  | addi (c : Nat) (da : Fin 4) (imm : Word24)
  /-- CMPI (R262). Sets flags from an accumulator minus an aligned immediate. -/
  | cmpi (c : Nat) (da : Fin 4) (imm : Word24)
  /-- BRA (R265). Branches to target if the condition holds. -/
  | bra (c : Nat) (cond : Fin 15) (target : BitVec 14)
  /-- CALL (R265). Pushes a return entry and branches if the condition holds. -/
  | call (c : Nat) (cond : Fin 15) (target : BitVec 14)
  /-- RET (R265). Pops the return entry and branches to it if the condition holds. -/
  | ret (c : Nat) (cond : Fin 15)
  /-- LOOP (R229). Starts a hardware loop with an immediate count. -/
  | loop (c : Nat) (target : BitVec 14) (count : BitVec 16)
  /-- LOOPR (R265). Starts a hardware loop with its count taken from a register. -/
  | loopr (c : Nat) (target : BitVec 14) (reg : BitVec 6)
  /-- LOOPN (R265). Starts a hardware loop with N as its count. -/
  | loopn (c : Nat) (target : BitVec 14)
  /-- BREAK (R229). Pops the innermost loop. -/
  | breakOp (c : Nat)
  /-- EVWAIT (R232). Clears a latched event line, or stalls until a pulse sets it. -/
  | evwait (c : Nat) (j : BitVec 8)
  /-- EVWAIT_WAKE (R232). A pulse sets the line on which the core stalls, and EVWAIT clears it and
  continues. -/
  | evwaitWake (c waited : Nat)
  /-- EVPULSE (R270). Pulses an event line of the module's own, latching it on every core and triggering
  Tongs. -/
  | evpulse (c : Nat) (j : BitVec 8)
  /-- RELEASE (R235). Ends the module's block, clearing the loop stack and waiting for the write buffer to
  drain. -/
  | release (c : Nat)
  /-- REMOTE_READ (R230). Reads a scratch-bank word into an accumulator, stalling for 16 cycles plus bank
  stalls. -/
  | remoteRead (c : Nat) (others : List (List Nat)) (clashes : List (Option Clash)) (rb : Fin 8) (acc : Fin 4) (ix : Bool) (xr : Fin 4) (off : BitVec 18)
  /-- REMOTE_WRITE (R230). Posts a rounded, saturated word to a scratch-bank region. -/
  | remoteWrite (c : Nat) (others : List (List Nat)) (clashes : List (Option Clash)) (rb : Fin 8) (acc : Fin 4) (ix : Bool) (xr : Fin 4) (off : BitVec 18)
  /-- ATOMIC_ADD_WRAPPING (R280). Adds modulo 2^32 at the bank and returns the old word. -/
  | atomicAddWrapping (c : Nat) (others : List (List Nat)) (clashes : List (Option Clash)) (rb : Fin 8) (acc : Fin 4) (ix : Bool) (xr : Fin 4) (off : BitVec 18)
  /-- ATOMIC_ADD_SATURATING (R280). Adds with saturation at the bank, counting atomic_sat, and returns the
  old word. -/
  | atomicAddSaturating (c : Nat) (others : List (List Nat)) (clashes : List (Option Clash)) (rb : Fin 8) (acc : Fin 4) (ix : Bool) (xr : Fin 4) (off : BitVec 18)
  /-- ATOMIC_SWAP (R280). Swaps a word at the bank and returns the old word. -/
  | atomicSwap (c : Nat) (others : List (List Nat)) (clashes : List (Option Clash)) (rb : Fin 8) (acc : Fin 4) (ix : Bool) (xr : Fin 4) (off : BitVec 18)
  /-- UNDEFINED_INSTRUCTION (R274). An undefined encoding or a forbidden field is a module fault with
  last_fault 1. -/
  | undefinedInstruction (c : Nat)
  /-- MATRIX_BURST_GRANT (R299). A target grants a waiting burst by QoS, ageing and round-robin, and the
  burst runs to its last beat. -/
  | matrixBurstGrant (t cycles : Nat) (arrivals : List Burst) (upsets : List (Nat × Nat)) (beats : Nat)
  /-- ECC_WRITEBACK (R285). The corrected word is written back in the next cycle in which the port is
  free. -/
  | eccWriteback (addr : Nat)
  /-- MARCH_RUN (R291). Starts a destructive or preserving march of one SRAM group under a ticket. -/
  | marchRun (q : Req)
  /-- MARCH_COMPLETE (R292). A march finishes, and a failure is recorded, logged and acted on by group. -/
  | marchComplete (reads : List MarchRead)
  /-- DEEP_MEMORY_FILL_COMPLETE (R295). The zero-fill of deep memory after training completes and masters
  may access it. -/
  | deepMemoryFillComplete
  /-- DOORBELL_TRIGGER (R321). A pulse on a module's line queues its doorbell slot on the module's
  channel, or is dropped at a full queue. -/
  | doorbellTrigger (line : Nat)
  /-- DESCRIPTOR_TAKE (R321). A channel takes a queued slot, discards it if go is 0, and otherwise clears
  go and runs the descriptor. -/
  | descriptorTake (ch addr : Nat)
  /-- DESCRIPTOR_COMPLETE (R324). Once all writes respond, the marker is written, done_line is pulsed and
  the chain is followed. -/
  | descriptorComplete (ch : Nat)
  /-- PACE_REQUEST (R325). A peripheral asserts its request and the paced channel issues its next burst. -/
  | paceRequest (p : Pace)
  /-- TONGS_RESET (R331). A reset of Tongs aborts every channel and empties every queue. -/
  | tongsReset (beats : Nat)
  /-- PHASE_SAMPLE (R336). A reference delivers a phase sample, which updates y_r, validity and the lock
  and lock-loss tests. -/
  | phaseSample (r : Nat) (phase : Phases) (time : Int)
  /-- REFERENCE_QUALIFIED (R338). A reference valid for its qualification time becomes qualified, and a
  returning one starts its wait. -/
  | referenceQualified (r : Nat)
  /-- REFERENCE_DISQUALIFIED (R338). A reference stops being valid, for example when no edge arrives in
  time, and is disqualified and counted. -/
  | referenceDisqualified (r : Nat)
  /-- WTR_EXPIRY (R339). The wait-to-restore of a returning reference runs out. -/
  | wtrExpiry (r : Nat)
  /-- CLEAR_WTR (R339). Ends a running wait-to-restore at once. -/
  | clearWtr (q : Req)
  /-- DISAGREE (R343). Two equal-rank references have disagreed, or agreed, for 10 s, and DISAGREE is set
  or cleared. -/
  | disagree (a b : Nat) (set : Bool)
  /-- SELECTOR_RUN (R342). Every 10 ms, or on a change, the selector picks a target and starts a switch,
  acquisition or holdover. -/
  | selectorRun (now : Nat)
  /-- SWITCH_COMPLETE (R345). After 16 phase samples the offset is absorbed, the loop closes on the new
  reference and switches rises. -/
  | switchComplete
  /-- HOLDOVER_STEER_UPDATE (R359). Each second in HOLDOVER the steer is recomputed from the filtered
  temperature and the model age. -/
  | holdoverSteerUpdate
  /-- HOLDOVER_LIMIT (R354). holdover_elapsed reaches holdover_limit, or the temperature leaves the
  modelled range, so Hearth enters LOST. -/
  | holdoverLimit
  /-- TRAINING_SAMPLE (R357). Every 16 s a candidate training sample is formed and, if eligible, refits
  the model. -/
  | trainingSample
  /-- MODEL_JOURNAL (R360). The supervisor writes the model to the journal once per hour of training. -/
  | modelJournal
  /-- MODEL_RESET (R360). Clears the coefficients, range, history and age of the holdover model. -/
  | modelReset (q : Req)
  /-- HOST_TEMPERATURE_TIMEOUT (R362). No host_temperature write arrives for 10 s with model_sensor at 8,
  so the model is withheld. -/
  | hostTemperatureTimeout
  /-- SYNC_RECEIVED (R372). A PTP Sync message is timestamped and yields a phase sample and, with a delay
  measurement, a source event. -/
  | syncReceived (pp : Nat) (t1 hearthTime : Nat) (latched : List Nat) (delay : Option Int) (logInt : Int)
  /-- ANNOUNCE_RECEIVED (R372). An Announce message updates master selection, clockClass and accuracy. -/
  | announceReceived (pp : Nat) (a : Announce)
  /-- ANNOUNCE_RECEIPT_TIMEOUT (R366). No Announce arrives within the timeout, so the reference is invalid
  and the time base enters HOLD. -/
  | announceReceiptTimeout (pp : Nat)
  /-- DELAY_REQ (R372). The instance sends a Delay_Req at its interval for the end-to-end delay
  measurement. -/
  | delayReq (pp : Nat)
  /-- SOURCE_READY (R366). The source has been in SLAVE for 2 s with 4 Announce messages, and the time
  base steps or waits. -/
  | sourceReady (t : Nat)
  /-- COUNTER_POLL (R364). At least every millisecond the supervisor reads each counter and extends it to
  TIME64. -/
  | counterPoll (values : List Nat)
  /-- TIME_BASE_ENABLE (R366). Enabling starts the counter at 0 in FREE, and disabling moves the time base
  to OFF. -/
  | timeBaseEnable (q : Req)
  /-- SOURCE (R366). A write of a time base's source sends a synchronised time base to HOLD. -/
  | sourceWrite (q : Req)
  /-- RESTEP (R369). Steps the time base to its source at the next event, or to a given TIME64 at once. -/
  | restep (q : Req)
  /-- RATE (R377). A rate write on a free-running time base sets rho and moves its domains' counts. -/
  | rateWrite (q : Req)
  /-- TIME_BASE (R376). A write of a domain's time_base or rate moves its sample count, and its ports take
  the jump as an underrun. -/
  | timeBase (q : Req)
  /-- SAP_FRAME (R381). A port frame completes on a SAP: samples enter the slip buffer and d is updated. -/
  | sapFrame (n : Nat) (s0 s1 : Int) (drift offset : Int) (glitch : Bool)
  /-- CLOCK_STOPPED (R389). A slave port sees no WS edge for 2 nominal frame periods and faults as an
  underrun. -/
  | clockStopped (n : Nat)
  /-- RATE_FAULT (R389). The frame period has been more than 2 % off for 8 frames, so the port faults. -/
  | rateFault (n : Nat)
  /-- PORT_RECOVERY (R390). After 16 (or 64) valid frames a port leaves its fault and is centred or
  rejoined to its group. -/
  | portRecovery (n : Nat) (skew : Int)
  /-- CENTRED (R388). A centring port reaches d = 2.0 and begins to read live samples. -/
  | centred (n : Nat)
  /-- SAP_SETTING (R384). A write of a port's enable, domain or group re-evaluates rate mismatch and group
  membership. -/
  | sapSetting (q : Req)
  /-- ETHERNET_FRAME_RECEIVED (R400). A frame is matched to a stream, Weld lane, PTP, Yugal, ARP or ICMP,
  or is discarded and counted. -/
  | ethernetFrameReceived (p : Nat) (f : EthFrame)
  /-- LINK_CHANGE (R401). A port's link goes up or down, including through SFP LOS or MODABS. -/
  | linkChange (p : Nat) (up : Bool)
  /-- RTP_PACKET_RECEIVED (R410). A matching packet is stored in the ring by timestamp, or is counted as
  late, out of window or bad. -/
  | rtpPacketReceived (s : Nat) (pkt : RtpPacket)
  /-- STREAM_LOST (R411). No packet is stored for 100 ms, so the stream enters LOST and is logged. -/
  | streamLost (s : Nat)
  /-- LEG_TIMEOUT (R413). A 2022-7 leg has no packet for 100 ms, so its status bit clears and a NOTICE is
  logged. -/
  | legTimeout (s leg : Nat)
  /-- RTP_PACKET_SEND (R405). A packet leaves within 1 µs of the sample edge after its last sample, on one
  or both legs. -/
  | rtpPacketSend (s : Nat)
  /-- STREAM_ENABLE (R417). Enabling or changing a stream passes admission against channel and line-rate
  limits. -/
  | streamEnable (q : Req)
  /-- WELD_FRAGMENT_RECEIVED (R424). A fragment is taken once from either port, or discarded as a
  duplicate, mismatch, late or overflow. -/
  | weldFragmentReceived (p : Nat) (f : WeldFrag)
  /-- WELD_DEADLINE (R426). At the tick that opens period k+3 missing parts hold, and the total is formed. -/
  | weldDeadline
  /-- MEMBER_ABSENT (R426). A member sends no fragment for 64 frames and its members_absent bit is set. -/
  | memberAbsent (m : Nat)
  /-- BINDING (R419). A Weld binding or contributors write, in CONFIG, passes admission. -/
  | binding (q : Req)
  /-- YUGAL_FRAME_ARRIVAL (R445). A frame arrives over UDP or SPI and joins the queue of 32, or is
  dropped. -/
  | yugalFrameArrival (via peer : Nat) (bytes : List Byte)
  /-- KEPT_REPLY_EXPIRY (R448). A kept reply reaches 2 s and is discarded. -/
  | keptReplyExpiry
  /-- READ (R441). The engine takes a READ from the queue, checks it and returns the committed value. -/
  | readAttr (q : Req)
  /-- READ_ARRAY (R447). Returns as many elements as fit, with a continuation token for the rest. -/
  | readArray (q : Req)
  /-- TICKET_READ (R450). A READ_ARRAY of the ticket query returns progress and the pending, final or
  stale result. -/
  | ticketRead (q : Req)
  /-- WRITE (R441). A WRITE or WRITE_ARRAY of an attribute with no row of its own is checked and committed
  whole. -/
  | writeAttr (q : Req)
  /-- WRITE_FRAME (R461). An SPI transaction delivers a request frame. -/
  | writeFrame (bytes : List Byte)
  /-- READ_STATE (R461). An SPI transaction returns reply-ready, in-progress and the reply length. -/
  | readState
  /-- READ_REPLY (R462). An SPI transaction returns the held reply. -/
  | readReply (wanted : Nat)
  /-- SPI_BAD_COMMAND (R461). An undefined SPI command byte is ignored and counted in bad_frames. -/
  | spiBadCommand (command : Byte)
  /-- OPEN_SESSION (R457). Opens a session, returning its ID and a device nonce, from which both sides
  derive a key. -/
  | openSession (q : Req)
  /-- CLOSE_SESSION (R457). Closes the named session. -/
  | closeSession (q : Req)
  /-- SESSION_TIMEOUT (R457). A session with no valid frame for 60 s closes. -/
  | sessionTimeout (id : Nat)
  /-- KEY (R456). Writes a 32-byte key into a key slot in the boot flash. -/
  | keyWrite (q : Req)
  /-- KEY_ERASE (R456). Erases a key slot and closes its sessions. -/
  | keyErase (q : Req)
  /-- NODE_ID (R466). A write of node_id or udp_port takes effect after its reply is sent. -/
  | nodeId (q : Req)
  /-- RENEW_INTERVAL (R476). Every 24 µs the ACTIVE sends a RENEW carrying armed and the lease. -/
  | renewInterval (now : Nat)
  /-- HELLO (R468). A HELLO frame is received, and roles settle under formation and the transition table. -/
  | hello (now lane : Nat) (frame : List Byte)
  /-- RENEW (R477). A STANDBY receives a RENEW, restarts its lease and answers with an ACK. -/
  | renew (now lane : Nat) (frame : List Byte)
  /-- ACK (R477). The ACTIVE receives an ACK and sets t_a and armed for its next renewals. -/
  | ack (now lane : Nat) (frame : List Byte)
  /-- TETHER_RELEASE (R469). A RELEASE is received, and the STANDBY takes over or becomes ORPHAN. -/
  | tetherRelease (now lane : Nat) (frame : List Byte)
  /-- TAKE (R470). A TAKE is received during formation and is answered with GRANT. -/
  | take (now lane : Nat) (frame : List Byte)
  /-- GRANT (R470). A GRANT is received and the taker becomes ACTIVE with a new epoch. -/
  | grant (now lane : Nat) (frame : List Byte)
  /-- MIRROR (R483). The STANDBY applies a MIRROR record in seq order, or re-enrols on a gap. -/
  | mirror (now lane : Nat) (frame : List Byte)
  /-- DIGEST (R487). A DIGEST fragment is received toward the digest of a period. -/
  | digest (now lane : Nat) (frame : List Byte)
  /-- ENROL (R485). An ENROL fragment is received, acknowledged and applied to the enrolling state. -/
  | enrol (now lane : Nat) (frame : List Byte)
  /-- ENROLMENT_COMPLETE (R485). The STANDBY applies the state and the queued records, enters RUN and
  becomes warming. -/
  | enrolmentComplete
  /-- ADOPT (R486). An ADOPT item is compared, and a differing strip or module is adopted. -/
  | adopt (now lane : Nat) (frame : List Byte)
  /-- LEASE_LAPSE (R477). The ACTIVE reaches t_a + L - G with armed renewals unacknowledged, gives up and
  becomes ORPHAN. -/
  | leaseLapse (now : Nat)
  /-- LEASE_EXPIRY (R477). The STANDBY reaches t_r + L + G, takes over if armed and entitled, and
  otherwise becomes ORPHAN. -/
  | leaseExpiry (now : Nat)
  /-- GIVE_UP (R496). At the first tick after a self-diagnosis condition, an armed ACTIVE sends RELEASE
  and becomes FAULTED. -/
  | giveUp
  /-- LANE_CHANGE (R501). A Tether lane gains or loses block lock. -/
  | laneChange (lane : Nat) (up : Bool)
  /-- CONVERGENCE_EXPIRY (R492). The STANDBY's convergence period runs out. -/
  | convergenceExpiry
  /-- SWITCHOVER (R497). Hands the token over by RELEASE and becomes a warming STANDBY. -/
  | switchover (q : Req)
  /-- REJOIN (R497). Returns a FAULTED engine with no condition present to ORPHAN. -/
  | rejoin (q : Req)
  /-- FORCE_ACTIVE (R479). Takes the token with armed 0 on an ORPHAN or STANDBY whose lanes are both down. -/
  | forceActive (q : Req)
  /-- PAIR_ENABLE (R468). A write of pair_enable in CONFIG makes the engine SOLO or ORPHAN. -/
  | pairEnable (q : Req)
  /-- GROUP_DURABLE (R511). The page programs of a journal group complete and durable_seq advances. -/
  | groupDurable
  /-- CARD_DETECT (R519). BIL_DET shows a card inserted or removed, and the journal moves to RAM or back
  to the card. -/
  | cardDetect (card : Option Card)
  /-- CARD_IO_ERROR (R518). A card access fails through three retries, and the journal passes to RAM. -/
  | cardIoError
  /-- COMPACT (R514). Starts a compaction under a ticket. -/
  | compact (q : Req)
  /-- COMPACTION_COMPLETE (R514). The new superblock is programmed, the old sectors are freed and
  compactions rises. -/
  | compactionComplete
  /-- WEAR_LEVELLING_MOVE (R516). At most once a second, the least-erased scene sector is copied when the
  erase counts spread beyond 1000. -/
  | wearLevellingMove
  /-- FORMAT (R525). Erases every sector but 0 and writes superblock A at generation 1. -/
  | format (q : Req)
  /-- ADOPT_CARD (R519). Writes a snapshot of the engine's state to a foreign card, keeping its scenes. -/
  | adoptCard (q : Req)
  /-- SAVE (R521). Writes a plane as a scene, then its directory group, under a ticket. -/
  | save (q : Req)
  /-- STAGE (R522). Clears the idle plane and loads a scene into it through TC12 or TC13 and TC15. -/
  | stage (q : Req)
  /-- DELETE (R526). Removes a scene's directory entry. -/
  | deleteScene (q : Req)
  /-- SCENE_COMPLETE (R524). A save completes when its directory group is durable, or fails with NO_BILLET
  or RANGE. -/
  | sceneComplete
  /-- POWER_ON_RESET (R529). PORn rises, or a reset of another cause acts as one: memories clear and boot
  begins. -/
  | powerOnReset (b : BootIn)
  /-- PORN_PULSE (R528). A low pulse on PORn of 10 µs or longer is a full reset. -/
  | pornPulse (ns : Nat) (b : BootIn)
  /-- SYNC_WAIT_EXPIRY (R539). MD0's time base has not reached SYNC within sync_wait, so the engine enters
  RUN anyway. -/
  | syncWaitExpiry
  /-- ENTER_LOW (R541). enter with argument 2 clock-stops the processing blocks and keeps the memories. -/
  | enterLow (q : Req)
  /-- ENTER_OFF (R542). enter with argument 3 waits for durability, completes its ticket and asserts
  PWR_OFF. -/
  | enterOff (q : Req)
  /-- WAKE_FROM_LOW (R541). enter with argument 0 returns the chip from LOW to RUN within 2 ms. -/
  | wakeFromLow (q : Req)
  /-- WAKE (R542). A WAKE edge or an SPI transaction in OFF wakes the chip with reset cause 4. -/
  | wake (b : BootIn)
  /-- RESTART (R529). Gives up if ACTIVE, waits up to 1 s for durability, then resets with cause 2. -/
  | restart (q : Req)
  /-- INSTALL (R543). Verifies the staged firmware and writes it to the slot that is not running. -/
  | install (q : Req)
  /-- ACTIVATE (R544). Marks the installed slot as the trial slot for the next restart. -/
  | activate (q : Req)
  /-- CONFIRM (R544). Makes the running trial slot permanent and raises the fuse security_version. -/
  | confirm (q : Req)
  /-- RUN_IMAGE (R535). In recovery, checks the staged image and runs it without writing flash. -/
  | runImage (q : Req)
  /-- TEMPERATURE_SAMPLE (R548). Every 10 ms each sensor is sampled against warn_high and the critical
  threshold. -/
  | temperatureSample (readings : List Int)
  /-- VOLTAGE_SAMPLE (R550). Every 100 µs each monitor is checked against its warning and fault windows. -/
  | voltageSample (readings : List Nat)
  /-- PROCESS_SAMPLE (R551). Every second each ring oscillator is compared with its factory reading. -/
  | processSample (readings : List Nat) (deviations : List Int)
  /-- CLEAR_CONDITIONS (R554). Clears the latches of conditions 0, 1 and 6 where allowed. -/
  | clearConditions (q : Req)
  /-- CONTROL (R555). A counter control write selects an event, chain and enable. -/
  | control (q : Req)
  /-- CLEAR_MASK (R569). Zeroes every counter whose bit is 1, in one fabric cycle. -/
  | clearMask (q : Req)
  /-- TAG_CLEAR (R569). Empties the tag buffer and clears tags_skipped. -/
  | tagClear (q : Req)
  /-- ISSUE_CHALLENGE (R564). Returns a 32-byte challenge valid for 60 s. -/
  | issueChallenge (q : Req)
  /-- CHALLENGE_EXPIRY (R564). A challenge reaches 60 s and is no longer valid. -/
  | challengeExpiry
  /-- UNLOCK (R565). Verifies a signed challenge and unlocks development access, or counts a failure. -/
  | unlock (q : Req)
  /-- UNLOCK_LOCKOUT_EXPIRY (R565). The 60 s refusal of issue_challenge after four failures ends. -/
  | unlockLockoutExpiry
  /-- LOCK (R570). Locks development access and drives TMUX0 to TMUX7 low. -/
  | lock (q : Req)
  /-- TMUX_SELECT (R566). Selects the internal signal on each TMUX pin, refused while locked. -/
  | tmuxSelect (q : Req)
  /-- FORMAT_COMPLETE (R525). The format of the card finishes erasing every sector but 0 and writing
  superblock A, and its ticket completes. -/
  | formatComplete
  /-- INSTALL_COMPLETE (R543). The staged firmware image has been written to the slot that is not running,
  the slot is marked valid and untried, and the install ticket completes. -/
  | installComplete
  /-- RESTART_DURABLE_WAIT_EXPIRY (R529). The 1 s wait of a restart for durable_seq to reach committed_seq
  runs out, and the reset with cause 2 proceeds anyway. -/
  | restartDurableWaitExpiry (b : BootIn)
  /-- RESTORED_MODEL_WITHHOLD_END (R360). Hearth has been LOCKED for 300 s in the current run, so a
  holdover model restored by replay is no longer withheld from validity. -/
  | restoredModelWithholdEnd
deriving DecidableEq, Repr

end Sys2Proof
end

