-- ==== Sys2Proof/Decode.lean ====
section
/-! DEFINITION. Decoding. The table of operations and events gives its rows no bits, so `decodeTableWord`
reads none of them. The encodings the spec does give are here too: the 48-bit words of the Anvil instructions
(R251 to R274), with the encoder beside the decoder. The decoder is total: a word with an undefined class,
operation, condition or register code, or a field that breaks R274, decodes to none. -/

namespace Sys2Proof

/-- The command a word spells by the table's bits. No row of the table carries bits, so no word spells one.
(DESIGN CHOICE, entry 65) -/
def decodeTableWord (_nbits _w : Nat) : Option Instr := none

/-- Bits `lo + len − 1` … `lo` of an instruction word. -/
def wordField (w : Word48) (lo len : Nat) : Nat := w.toNat / 2 ^ lo % 2 ^ len

/-- The low `n + 1` values as a register index. -/
def fin4 (v : Nat) : Fin 4 := ⟨v % 4, Nat.mod_lt _ (by decide)⟩
/-- A value as one of eight. -/
def fin8 (v : Nat) : Fin 8 := ⟨v % 8, Nat.mod_lt _ (by decide)⟩

/-- A move field of 11 bits (R253): none where it is undefined, `some none` for no move. -/
def decodeMove (f : Nat) : Option (Option Move) :=
  let dir := f / 512 % 4
  if dir = 0 then if f = 0 then some none else none
  else if dir = 3 then none
  else if h : f / 8 % 8 < 6 then
    some (some ⟨dir == 2, fin8 (f / 64), ⟨f / 8 % 8, h⟩, fin8 f⟩)
  else none

/-- A move post-modifies its pointer in modes 1 to 4 (R253). -/
def Move.postModifies (m : Move) : Bool := decide (1 ≤ m.mode.val ∧ m.mode.val ≤ 4)

/-- Both fields of one instruction may not post-modify one pointer (R254). -/
def Moves.ok (mv : Moves) : Bool :=
  match mv.x, mv.y with
  | some a, some b => !(a.postModifies && b.postModifies && a.p == b.p)
  | _, _ => true

/-- Both move fields of a format P word (R252, R254). -/
def decodeMoves (w : Word48) : Option Moves :=
  match decodeMove (wordField w 11 11), decodeMove (wordField w 0 11) with
  | some x, some y => if Moves.ok ⟨x, y⟩ then some ⟨x, y⟩ else none
  | _, _ => none

/-- Which of the P fields an operation uses: da, db, s1, s2, s3, s4, n1, n2 (R252, R256). -/
structure PUse where
  da : Bool
  db : Bool
  s1 : Bool
  s2 : Bool
  s34 : Bool
  n1 : Bool
  n2 : Bool
deriving DecidableEq, Repr

/-- The P fields of a word. -/
structure PFields where
  da : Fin 4
  db : Fin 4
  s1 : Fin 4
  s2 : Fin 4
  s3 : Fin 4
  s4 : Fin 4
  n1 : Bool
  n2 : Bool
deriving DecidableEq, Repr

/-- Reads the P fields of a word. -/
def pFields (w : Word48) : PFields :=
  ⟨fin4 (wordField w 37 2), fin4 (wordField w 35 2), fin4 (wordField w 33 2), fin4 (wordField w 31 2),
   fin4 (wordField w 29 2), fin4 (wordField w 27 2), wordField w 26 1 == 1, wordField w 25 1 == 1⟩

/-- Fields that an operation does not use are 0 (R252). -/
def PFields.unusedZero (f : PFields) (u : PUse) : Bool :=
  (u.da || f.da == 0) && (u.db || f.db == 0) && (u.s1 || f.s1 == 0) && (u.s2 || f.s2 == 0) &&
  (u.s34 || (f.s3 == 0 && f.s4 == 0)) && (u.n1 || !f.n1) && (u.n2 || !f.n2)

/-- Field use of each P operation (R256). -/
def pUse (op : Nat) : PUse :=
  match op with
  | 0x00 => ⟨false, false, false, false, false, false, false⟩
  | 0x01 | 0x02 | 0x07 => ⟨true, false, true, true, false, true, false⟩
  | 0x03 | 0x04 => ⟨true, false, true, true, true, true, true⟩
  | 0x05 | 0x06 => ⟨true, true, true, true, true, true, true⟩
  | 0x08 | 0x09 | 0x0A | 0x0D | 0x11 | 0x12 | 0x13 => ⟨true, true, false, false, false, false, false⟩
  | 0x0B | 0x0C | 0x14 | 0x18 | 0x1A | 0x1C | 0x1D | 0x1E => ⟨true, false, true, false, false, false, false⟩
  | 0x0E | 0x0F | 0x10 | 0x15 | 0x16 => ⟨true, false, false, false, false, false, false⟩
  | 0x19 => ⟨true, false, false, true, false, false, false⟩
  | 0x1B => ⟨false, false, false, true, false, false, false⟩
  | _ => ⟨false, false, false, false, false, false, false⟩

/-- The instruction of a P operation other than SCALEI, from its fields. -/
def pInstr (c op : Nat) (f : PFields) (mv : Moves) : Option Instr :=
  match op with
  | 0x00 => some (.nop c mv)
  | 0x01 => some (.mul c f.da f.s1 f.s2 f.n1 mv)
  | 0x02 => some (.mac c f.da f.s1 f.s2 f.n1 mv)
  | 0x03 => some (.mul2 c f.da f.s1 f.s2 f.s3 f.s4 f.n1 f.n2 mv)
  | 0x04 => some (.mac2 c f.da f.s1 f.s2 f.s3 f.s4 f.n1 f.n2 mv)
  | 0x05 => if f.da = f.db then none else some (.dmul c f.da f.db f.s1 f.s2 f.s3 f.s4 f.n1 f.n2 mv)
  | 0x06 => if f.da = f.db then none else some (.dmac c f.da f.db f.s1 f.s2 f.s3 f.s4 f.n1 f.n2 mv)
  | 0x07 => some (.macrn c f.da f.s1 f.s2 f.n1 mv)
  | 0x08 => some (.add c f.da f.db mv)
  | 0x09 => some (.sub c f.da f.db mv)
  | 0x0A => if f.da = f.db then none else some (.addsub c f.da f.db mv)
  | 0x0B => some (.addx c f.da f.s1 mv)
  | 0x0C => some (.subx c f.da f.s1 mv)
  | 0x0D => some (.mova c f.da f.db mv)
  | 0x0E => some (.clr c f.da mv)
  | 0x0F => some (.neg c f.da mv)
  | 0x10 => some (.abs c f.da mv)
  | 0x11 => some (.max c f.da f.db mv)
  | 0x12 => some (.min c f.da f.db mv)
  | 0x13 => some (.cmp c f.da f.db mv)
  | 0x14 => some (.cmpx c f.da f.s1 mv)
  | 0x15 => some (.tst c f.da mv)
  | 0x16 => some (.rnd c f.da mv)
  | 0x18 => some (.scaler c f.da f.s1 mv)
  | 0x19 => some (.norm c f.da f.s2 mv)
  | 0x1A => some (.divs c f.da f.s1 mv)
  | 0x1B => some (.bexp c f.s2 mv)
  | 0x1C => some (.andx c f.da f.s1 mv)
  | 0x1D => some (.orx c f.da f.s1 mv)
  | 0x1E => some (.xorx c f.da f.s1 mv)
  | _ => none

/-- Format P (R252). -/
def decodeP (c : Nat) (w : Word48) : Option Instr :=
  let op := wordField w 39 5
  let f := pFields w
  if wordField w 22 3 ≠ 0 then none
  else match decodeMoves w with
    | none => none
    | some mv =>
      if op = 0x17 then
        if f.db = 0 ∧ f.n1 = false ∧ f.n2 = false then
          some (.scalei c f.da (BitVec.ofNat 8 (wordField w 27 8)) mv)
        else none
      else if f.unusedZero (pUse op) then pInstr c op f mv else none

/-- A destination register code of format I (R260): defined, and neither LC nor BX. -/
def dstOk (r : BitVec 6) : Bool := decide (r.toNat ≤ 44)
/-- A source register code of format I (R260). -/
def srcOk (r : BitVec 6) : Bool := decide (r.toNat ≤ 46)

/-- Format I (R259, R262). -/
def decodeI (c : Nat) (w : Word48) : Option Instr :=
  let dst : BitVec 6 := BitVec.ofNat 6 (wordField w 34 6)
  let src : BitVec 6 := BitVec.ofNat 6 (wordField w 28 6)
  let imm := wordField w 0 24
  if wordField w 24 4 ≠ 0 then none
  else match wordField w 40 4 with
    | 0x0 => if src = 0 ∧ dstOk dst then some (.ldi c dst (BitVec.ofNat 24 imm)) else none
    | 0x1 => if imm = 0 ∧ dstOk dst ∧ srcOk src then some (.move c dst src) else none
    | 0x2 => if src = 0 ∧ imm < 256 ∧ dstOk dst then some (.movc c dst (BitVec.ofNat 8 imm)) else none
    | 0x3 => if src = 0 ∧ imm < 32768 ∧ dstOk dst then some (.ldx c dst (BitVec.ofNat 15 imm)) else none
    | 0x4 => if src = 0 ∧ imm < 32768 ∧ dstOk dst then some (.ldy c dst (BitVec.ofNat 15 imm)) else none
    | 0x5 => if dst = 0 ∧ imm < 32768 ∧ srcOk src then some (.stx c src (BitVec.ofNat 15 imm)) else none
    | 0x6 => if dst = 0 ∧ imm < 32768 ∧ srcOk src then some (.sty c src (BitVec.ofNat 15 imm)) else none
    | 0x7 =>
      if src = 0 ∧ imm < 65536 ∧ 20 ≤ dst.toNat ∧ dst.toNat ≤ 27 then
        some (.lea c (fin8 (dst.toNat - 20)) (BitVec.ofNat 16 imm))
      else none
    | 0x8 =>
      if src = 0 ∧ 4 ≤ dst.toNat ∧ dst.toNat ≤ 7 then some (.addi c (fin4 (dst.toNat - 4)) (BitVec.ofNat 24 imm))
      else none
    | 0x9 =>
      if src = 0 ∧ 4 ≤ dst.toNat ∧ dst.toNat ≤ 7 then some (.cmpi c (fin4 (dst.toNat - 4)) (BitVec.ofNat 24 imm))
      else none
    | _ => none

/-- Format B at logical address `pc` (R264, R265, R269). -/
def decodeB (c pc : Nat) (w : Word48) : Option Instr :=
  let cond := wordField w 35 5
  let target : BitVec 14 := BitVec.ofNat 14 (wordField w 16 14)
  let imm := wordField w 0 16
  if wordField w 30 5 ≠ 0 then none
  else match wordField w 40 4 with
    | 0x0 => if h : cond < 15 then if imm = 0 then some (.bra c ⟨cond, h⟩ target) else none else none
    | 0x1 => if h : cond < 15 then if imm = 0 then some (.call c ⟨cond, h⟩ target) else none else none
    | 0x2 => if h : cond < 15 then if imm = 0 ∧ target = 0 then some (.ret c ⟨cond, h⟩) else none else none
    | 0x3 => if cond = 0 ∧ pc + 1 ≤ target.toNat then some (.loop c target (BitVec.ofNat 16 imm)) else none
    | 0x4 =>
      if cond = 0 ∧ pc + 1 ≤ target.toNat ∧ imm < 64 ∧ srcOk (BitVec.ofNat 6 imm) then
        some (.loopr c target (BitVec.ofNat 6 imm))
      else none
    | 0x5 => if cond = 0 ∧ imm = 0 ∧ pc + 1 ≤ target.toNat then some (.loopn c target) else none
    | 0x6 => if cond = 0 ∧ imm = 0 ∧ target = 0 then some (.breakOp c) else none
    | 0x7 => if cond = 0 ∧ imm < 256 ∧ target = 0 then some (.evwait c (BitVec.ofNat 8 imm)) else none
    | 0x8 => if cond = 0 ∧ imm < 256 ∧ target = 0 then some (.evpulse c (BitVec.ofNat 8 imm)) else none
    | 0x9 => if cond = 0 ∧ imm = 0 ∧ target = 0 then some (.release c) else none
    | _ => none

/-- Remote format (R271). The cycles a command names are no part of the word; decoding gives 0. -/
def decodeR (c : Nat) (w : Word48) : Option Instr :=
  let rb := fin8 (wordField w 37 3)
  let acc := fin4 (wordField w 35 2)
  let ix := wordField w 34 1 == 1
  let xr := fin4 (wordField w 32 2)
  let off : BitVec 18 := BitVec.ofNat 18 (wordField w 0 18)
  if wordField w 18 14 ≠ 0 then none
  else match wordField w 40 4 with
    | 0x0 => some (.remoteRead c [] [] rb acc ix xr off)
    | 0x1 => some (.remoteWrite c [] [] rb acc ix xr off)
    | 0x2 => some (.atomicAddWrapping c [] [] rb acc ix xr off)
    | 0x3 => some (.atomicAddSaturating c [] [] rb acc ix xr off)
    | 0x4 => some (.atomicSwap c [] [] rb acc ix xr off)
    | _ => none

/-- The instruction a 48-bit word at logical address `pc` stands for on core `c`; none where it is undefined
(R251, R274). (DESIGN CHOICE, entry 65) -/
def decodeAnvil (c pc : Nat) (w : Word48) : Option Instr :=
  match wordField w 44 4 with
  | 0x1 => decodeP c w
  | 0x2 => decodeI c w
  | 0x3 => decodeB c pc w
  | 0x4 => decodeR c w
  | _ => none

/-! The encoder, from the same tables. -/

/-- The 11 bits of a move field (R253). -/
def encodeMove : Option Move → Nat
  | none => 0
  | some m => (if m.write then 1024 else 512) + m.p.val * 64 + m.mode.val * 8 + m.reg.val

/-- A format P word (R252). -/
def encodeP (op : Nat) (f : PFields) (mv : Moves) : Word48 :=
  BitVec.ofNat 48 (2 ^ 44 + op * 2 ^ 39 + f.da.val * 2 ^ 37 + f.db.val * 2 ^ 35 + f.s1.val * 2 ^ 33 +
    f.s2.val * 2 ^ 31 + f.s3.val * 2 ^ 29 + f.s4.val * 2 ^ 27 + (if f.n1 then 2 ^ 26 else 0) +
    (if f.n2 then 2 ^ 25 else 0) + encodeMove mv.x * 2 ^ 11 + encodeMove mv.y)

/-- A format I word (R259). -/
def encodeI (op dst src imm : Nat) : Word48 :=
  BitVec.ofNat 48 (2 * 2 ^ 44 + op * 2 ^ 40 + dst * 2 ^ 34 + src * 2 ^ 28 + imm)

/-- A format B word (R264). -/
def encodeB (op cond target imm : Nat) : Word48 :=
  BitVec.ofNat 48 (3 * 2 ^ 44 + op * 2 ^ 40 + cond * 2 ^ 35 + target * 2 ^ 16 + imm)

/-- A remote word (R271). -/
def encodeR (op : Nat) (rb : Fin 8) (acc : Fin 4) (ix : Bool) (xr : Fin 4) (off : BitVec 18) : Word48 :=
  BitVec.ofNat 48 (4 * 2 ^ 44 + op * 2 ^ 40 + rb.val * 2 ^ 37 + acc.val * 2 ^ 35 +
    (if ix then 2 ^ 34 else 0) + xr.val * 2 ^ 32 + off.toNat)

/-- The word of an Anvil instruction; none for the other commands, which have no encoding. -/
def encodeAnvil : Instr → Option Word48
  | .nop _ mv => some (encodeP 0x00 ⟨0, 0, 0, 0, 0, 0, false, false⟩ mv)
  | .mul _ da s1 s2 n1 mv => some (encodeP 0x01 ⟨da, 0, s1, s2, 0, 0, n1, false⟩ mv)
  | .mac _ da s1 s2 n1 mv => some (encodeP 0x02 ⟨da, 0, s1, s2, 0, 0, n1, false⟩ mv)
  | .mul2 _ da s1 s2 s3 s4 n1 n2 mv => some (encodeP 0x03 ⟨da, 0, s1, s2, s3, s4, n1, n2⟩ mv)
  | .mac2 _ da s1 s2 s3 s4 n1 n2 mv => some (encodeP 0x04 ⟨da, 0, s1, s2, s3, s4, n1, n2⟩ mv)
  | .dmul _ da db s1 s2 s3 s4 n1 n2 mv => some (encodeP 0x05 ⟨da, db, s1, s2, s3, s4, n1, n2⟩ mv)
  | .dmac _ da db s1 s2 s3 s4 n1 n2 mv => some (encodeP 0x06 ⟨da, db, s1, s2, s3, s4, n1, n2⟩ mv)
  | .macrn _ da s1 s2 n1 mv => some (encodeP 0x07 ⟨da, 0, s1, s2, 0, 0, n1, false⟩ mv)
  | .add _ da db mv => some (encodeP 0x08 ⟨da, db, 0, 0, 0, 0, false, false⟩ mv)
  | .sub _ da db mv => some (encodeP 0x09 ⟨da, db, 0, 0, 0, 0, false, false⟩ mv)
  | .addsub _ da db mv => some (encodeP 0x0A ⟨da, db, 0, 0, 0, 0, false, false⟩ mv)
  | .addx _ da s1 mv => some (encodeP 0x0B ⟨da, 0, s1, 0, 0, 0, false, false⟩ mv)
  | .subx _ da s1 mv => some (encodeP 0x0C ⟨da, 0, s1, 0, 0, 0, false, false⟩ mv)
  | .mova _ da db mv => some (encodeP 0x0D ⟨da, db, 0, 0, 0, 0, false, false⟩ mv)
  | .clr _ da mv => some (encodeP 0x0E ⟨da, 0, 0, 0, 0, 0, false, false⟩ mv)
  | .neg _ da mv => some (encodeP 0x0F ⟨da, 0, 0, 0, 0, 0, false, false⟩ mv)
  | .abs _ da mv => some (encodeP 0x10 ⟨da, 0, 0, 0, 0, 0, false, false⟩ mv)
  | .max _ da db mv => some (encodeP 0x11 ⟨da, db, 0, 0, 0, 0, false, false⟩ mv)
  | .min _ da db mv => some (encodeP 0x12 ⟨da, db, 0, 0, 0, 0, false, false⟩ mv)
  | .cmp _ da db mv => some (encodeP 0x13 ⟨da, db, 0, 0, 0, 0, false, false⟩ mv)
  | .cmpx _ da s1 mv => some (encodeP 0x14 ⟨da, 0, s1, 0, 0, 0, false, false⟩ mv)
  | .tst _ da mv => some (encodeP 0x15 ⟨da, 0, 0, 0, 0, 0, false, false⟩ mv)
  | .rnd _ da mv => some (encodeP 0x16 ⟨da, 0, 0, 0, 0, 0, false, false⟩ mv)
  | .scalei _ da k mv =>
    some (encodeP 0x17 ⟨da, 0, fin4 (k.toNat / 64), fin4 (k.toNat / 16), fin4 (k.toNat / 4), fin4 k.toNat,
      false, false⟩ mv)
  | .scaler _ da s1 mv => some (encodeP 0x18 ⟨da, 0, s1, 0, 0, 0, false, false⟩ mv)
  | .norm _ da s2 mv => some (encodeP 0x19 ⟨da, 0, 0, s2, 0, 0, false, false⟩ mv)
  | .divs _ da s1 mv => some (encodeP 0x1A ⟨da, 0, s1, 0, 0, 0, false, false⟩ mv)
  | .bexp _ s2 mv => some (encodeP 0x1B ⟨0, 0, 0, s2, 0, 0, false, false⟩ mv)
  | .andx _ da s1 mv => some (encodeP 0x1C ⟨da, 0, s1, 0, 0, 0, false, false⟩ mv)
  | .orx _ da s1 mv => some (encodeP 0x1D ⟨da, 0, s1, 0, 0, 0, false, false⟩ mv)
  | .xorx _ da s1 mv => some (encodeP 0x1E ⟨da, 0, s1, 0, 0, 0, false, false⟩ mv)
  | .ldi _ dst imm => some (encodeI 0 dst.toNat 0 imm.toNat)
  | .move _ dst src => some (encodeI 1 dst.toNat src.toNat 0)
  | .movc _ dst cr => some (encodeI 2 dst.toNat 0 cr.toNat)
  | .ldx _ dst a => some (encodeI 3 dst.toNat 0 a.toNat)
  | .ldy _ dst a => some (encodeI 4 dst.toNat 0 a.toNat)
  | .stx _ src a => some (encodeI 5 0 src.toNat a.toNat)
  | .sty _ src a => some (encodeI 6 0 src.toNat a.toNat)
  | .lea _ p off => some (encodeI 7 (20 + p.val) 0 off.toNat)
  | .addi _ da imm => some (encodeI 8 (4 + da.val) 0 imm.toNat)
  | .cmpi _ da imm => some (encodeI 9 (4 + da.val) 0 imm.toNat)
  | .bra _ cond t => some (encodeB 0 cond.val t.toNat 0)
  | .call _ cond t => some (encodeB 1 cond.val t.toNat 0)
  | .ret _ cond => some (encodeB 2 cond.val 0 0)
  | .loop _ t n => some (encodeB 3 0 t.toNat n.toNat)
  | .loopr _ t r => some (encodeB 4 0 t.toNat r.toNat)
  | .loopn _ t => some (encodeB 5 0 t.toNat 0)
  | .breakOp _ => some (encodeB 6 0 0 0)
  | .evwait _ j => some (encodeB 7 0 0 j.toNat)
  | .evpulse _ j => some (encodeB 8 0 0 j.toNat)
  | .release _ => some (encodeB 9 0 0 0)
  | .remoteRead _ _ _ rb acc ix xr off => some (encodeR 0 rb acc ix xr off)
  | .remoteWrite _ _ _ rb acc ix xr off => some (encodeR 1 rb acc ix xr off)
  | .atomicAddWrapping _ _ _ rb acc ix xr off => some (encodeR 2 rb acc ix xr off)
  | .atomicAddSaturating _ _ _ rb acc ix xr off => some (encodeR 3 rb acc ix xr off)
  | .atomicSwap _ _ _ rb acc ix xr off => some (encodeR 4 rb acc ix xr off)
  | _ => none

/-- A word at logical address `pc` of core `c` can spell the instruction: it is that core's, it names no stall cycles, and the
target of a loop is past the loop (R269, R271). -/
def Instr.spelledAt (c pc : Nat) : Instr → Bool
  | .nop d _ | .mul d _ _ _ _ _ | .mac d _ _ _ _ _ | .mul2 d _ _ _ _ _ _ _ _ | .mac2 d _ _ _ _ _ _ _ _
  | .dmul d _ _ _ _ _ _ _ _ _ | .dmac d _ _ _ _ _ _ _ _ _ | .macrn d _ _ _ _ _ | .add d _ _ _ | .sub d _ _ _
  | .addsub d _ _ _ | .addx d _ _ _ | .subx d _ _ _ | .mova d _ _ _ | .clr d _ _ | .neg d _ _ | .abs d _ _
  | .max d _ _ _ | .min d _ _ _ | .cmp d _ _ _ | .cmpx d _ _ _ | .tst d _ _ | .rnd d _ _ | .scalei d _ _ _
  | .scaler d _ _ _ | .norm d _ _ _ | .divs d _ _ _ | .bexp d _ _ | .andx d _ _ _ | .orx d _ _ _ | .xorx d _ _ _
  | .ldi d _ _ | .move d _ _ | .movc d _ _ | .ldx d _ _ | .ldy d _ _ | .stx d _ _ | .sty d _ _ | .lea d _ _
  | .addi d _ _ | .cmpi d _ _ | .bra d _ _ | .call d _ _ | .ret d _ | .breakOp d | .evwait d _ | .evpulse d _
  | .release d => d == c
  | .loop d t _ | .loopr d t _ | .loopn d t => d == c && decide (pc + 1 ≤ t.toNat)
  | .remoteRead d os xs _ _ _ _ _ | .remoteWrite d os xs _ _ _ _ _ | .atomicAddWrapping d os xs _ _ _ _ _
  | .atomicAddSaturating d os xs _ _ _ _ _ | .atomicSwap d os xs _ _ _ _ _ => d == c && os == [] && xs == []
  | _ => false

end Sys2Proof
end

