-- ==== Sys2Proof/Config.lean ====
section
/-! DEFINITION. What an implementation fixes and what the spec leaves open. Each value the spec gives no rule for
is a constant without a body here, so nothing can be proved of it: a claim holds whatever it is. A constant that
takes a first argument `k` is applied to the free-value counter of the state, so that each use is a fresh value. -/

namespace Sys2Proof.Config

/-- Random start of the ticket serial in run `r` (R449). (DESIGN CHOICE, entry 4) -/
opaque ticketSerial : (r : Nat) → Nat
/-- A device nonce of `n` bytes (R457), or a challenge (R564): random bytes. (DESIGN CHOICE, entry 4) -/
opaque randomBytes : (k n : Nat) → List Byte
/-- Silicon stepping, from fuses (R577). (DESIGN CHOICE, entry 5) -/
opaque stepping : Nat
/-- The chip's identity serial, from fuses (R577, R564). (DESIGN CHOICE, entry 5) -/
opaque uid : Nat
/-- Boot ROM version (R577). (DESIGN CHOICE, entry 5) -/
opaque romVersion : Nat
/-- MAC address of port N0, from the factory; the other ports have those that follow (R429). (DESIGN CHOICE, entry 5) -/
opaque macAddress : Nat
/-- The fuses' four key hashes (R533). (DESIGN CHOICE, entry 5) -/
opaque fuseKeyHash : (i : Nat) → List Byte
/-- The fuses' revocation mask (R533). (DESIGN CHOICE, entry 5) -/
opaque fuseRevoked : Nat
/-- The fuse security_version as the part leaves the factory (R533). (DESIGN CHOICE, entry 5) -/
opaque fuseSecurity : Nat
/-- The development-key hash in fuses (R565). (DESIGN CHOICE, entry 5) -/
opaque devKeyHash : List Byte
/-- Factory reading of process monitor `x` in kHz (R551). (DESIGN CHOICE, entry 5) -/
opaque pxFactory : (x : Nat) → Nat
/-- Fitted deep memory: 4, 8 or 16 GiB as 0, 1, 2 (R294). (DESIGN CHOICE, entry 5) -/
opaque fittedCode : Nat
/-- The choice of a base among the eligible places of a region (R183 to R185 leave it to the manager).
(DESIGN CHOICE, entry 6) -/
opaque regionChoice : (k n : Nat) → Nat
/-- The deviation of a dynamics gain from the exact law, in dB with 96 fraction bits, as a function of that gain: R154
bounds it by 0.002 dB and leaves the rest to the fixed point. (DESIGN CHOICE, entry 7) -/
opaque dynError : (g : Int) → Int
/-- The K-weighting coefficients at an engine rate other than 48 kHz (R167): b0, b1, b2, a1, a2 of two sections, with
48 fraction bits. (PRESUMED, entry 8) -/
opaque kFilter : (fs : Nat) → List Int

/-- What CYC reads (R242): fabric cycles since the reset, which the model does not count.
(DESIGN CHOICE, entry 20) -/
opaque cycleCount : (k : Nat) → Nat
/-- A byte read from a register behind a bridge that the spec does not lay out (R275, R302), or from a FIFO there (R325).
(DESIGN CHOICE, entry 27) -/
opaque registerByte : (k a : Nat) → Byte
/-- What last_ce_addr and last_ue_addr show for a word of groups 67 to 91, which the address map does not hold (R275, R288).
(DESIGN CHOICE, entry 25) -/
opaque sramAddress : (w : Nat) → Nat
/-- Byte `i` of the stage counts of a tag record (R562): how an instruction's cycles divide over the six stages.
(DESIGN CHOICE, entry 23) -/
opaque tagStage : (k i : Nat) → Byte
/-- Measured use of resource `i` in a block period, in units of 0.01 % of its budget (R37): the model counts no cycles of
the Crucible, Temper, Tongs or deep memory. (DESIGN CHOICE, entry 24) -/
opaque measuredUse : (k i : Nat) → Nat
/-- Fabric cycles of a block period in which Temper lane `i` is busy, or for `i` = 24 any Crucible lane (R556).
(DESIGN CHOICE, entry 24) -/
opaque busyCycles : (k i : Nat) → Nat
/-- Slope in units of 10 ^ -12 of phase samples (time in ns, phase in 10 ^ -21 s) that lie on no straight line: R336 names
no estimator. (DEDUCED, entry 32) -/
opaque phaseSlope : (window : List (Int × Int)) → Int
/-- The steer that the loop filter sets at a phase sample, before its limits (R350 gives its bandwidth and damping).
(DESIGN CHOICE, entry 33) -/
opaque loopSteer : (k : Nat) → Int
/-- Coefficient `i` of a model restored by replay when training refits it: the samples before are not kept (R358, R360).
(DEDUCED, entry 34) -/
opaque refit : (k i : Nat) → Int
/-- The level on a test ball of an internal signal that is a clock, an edge or a pulse (R566). (DESIGN CHOICE, entry 66) -/
opaque testPulse : (k i : Nat) → Bool
/-- Whether the SFP module of port `n`, whose link is down, is absent (R592). (DESIGN CHOICE, entry 66) -/
opaque moduleAbsent : (k n : Nat) → Bool

end Sys2Proof.Config
end

