-- ==== Sys2Proof/Machine/Num.lean ====
section
/-! DEFINITION. Exact arithmetic: rounding and limiting, gain codes against centi-dB, fade weights and ramp
shapes, decibel readings, and fixed-point functions for the laws stated with real numbers. Where a rule asks
for the nearest code of a root or a power of ten the comparison is made on integer powers, so it is exact. -/

namespace Sys2Proof.Machine

/-- Limits `x` to `lo`…`hi`. -/
def clampInt (lo hi x : Int) : Int := if x < lo then lo else if hi < x then hi else x

/-- The W32 range (R6). -/
def clampW32 (x : Int) : Int := clampInt (-2147483648) 2147483647 x
/-- The G24 range (R4). -/
def clampG24 (x : Int) : Int := clampInt (-8388608) 8388607 x
/-- The S24 range (R7). -/
def clampS24 (x : Int) : Int := clampInt (-8388608) 8388607 x

/-- `a` divided by 2 ^ `k`, rounded to nearest with ties to even: the convergent rounding of R57. -/
def roundEven (a : Int) (k : Nat) : Int :=
  let q := a / (2 ^ k : Nat)
  let r := a % (2 ^ k : Nat)
  let half : Int := ((2 ^ k : Nat) : Int)
  if half < 2 * r then q + 1
  else if 2 * r = half ∧ q % 2 = 1 then q + 1
  else q

/-- The largest number below 2 ^ `bits` with `p`, for a `p` that holds from 0 up to some point; 0 when none does. -/
def searchUp (p : Nat → Bool) : Nat → Nat → Nat
  | 0, acc => acc
  | b + 1, acc => searchUp p b (if p (acc + 2 ^ b) then acc + 2 ^ b else acc)

/-- Sign of an integer as −1, 0 or 1. -/
def sgn (x : Int) : Int := if x < 0 then -1 else if x = 0 then 0 else 1

/-- The largest code below 2 ^ 24 whose lower edge, half a step below it, is at most 2 ^ 19 × 10 ^ (v / f).
(DEDUCED, entry 9) -/
def codeAt (f : Nat) (v : Int) : Int :=
  (searchUp (fun c => decide ((2 * c - 1) ^ f * 10 ^ (-v).toNat ≤ 2 ^ (20 * f) * 10 ^ v.toNat)) 24 0 : Nat)

/-- The G24 code nearest to 10 ^ (v / 2000), a tie to the higher code (R5); −32768 gives 0. -/
def codeOfCdb (v : Int) : Int := if v = -32768 then 0 else codeAt 2000 v

/-- The integer nearest to `f` × log10 (a / b), halfway cases up, searched from `lo` over 2 ^ 16 values.
(DEDUCED, entry 9) -/
def nearestLog (f a b : Nat) (lo : Int) : Int :=
  lo + (searchUp (fun k =>
    let e : Int := 2 * (lo + k) - 1
    decide (10 ^ e.toNat * b ^ (2 * f) ≤ a ^ (2 * f) * 10 ^ (-e).toNat)) 16 0 : Nat)

/-- The centi-dB reading of a G24 code (R5): −32768 for code 0, else that of the magnitude. -/
def cdbOfCode (g : Int) : Int :=
  if g = 0 then -32768 else nearestLog 2000 g.natAbs (2 ^ 19) (-12000)

/-- The level of a W32 magnitude against full scale in centi-dB, −32768 for zero (R163). -/
def cdbOfPeak (x : Nat) : Int :=
  if x = 0 then -32768 else nearestLog 2000 x (2 ^ 23) (-20000)

/-- Ten times the base-ten logarithm of the ratio `a / b` of powers in centi-dB, −32768 for zero. -/
def cdbOfPower (a b : Nat) : Int :=
  if a = 0 then -32768 else nearestLog 1000 a b (-32000)

/-- A time in µs as samples at `fs` (R98). -/
def samplesOf (t fs : Nat) : Nat := (t * fs + 500000) / 1000000

/-! Fixed point with 96 fraction bits, for the laws stated on real numbers. -/

/-- One, with 96 fraction bits. -/
def fxOne : Int := ((2 ^ 96 : Nat) : Int)
/-- π with 96 fraction bits. -/
def fxPi : Int := 0x3243f6a8885a308d313198a2e
/-- The natural logarithm of 2 with 96 fraction bits. -/
def fxLn2 : Int := 0xb17217f7d1cf79abc9e3b398
/-- The natural logarithm of 10 with 96 fraction bits. -/
def fxLn10 : Int := 0x24d763776aaa2b05ba95b58ae
/-- log10 of 2 with 96 fraction bits. -/
def fxLog2 : Int := 0x4d104d427de7fbcc47c4acd6

/-- Product of two fixed-point numbers. -/
def fxMul (a b : Int) : Int := a * b / fxOne
/-- Quotient of two fixed-point numbers. -/
def fxDiv (a b : Int) : Int := a * fxOne / b

/-- Sum of the alternating series t − t x²/((k+1)(k+2)) + … over `n` terms. -/
def fxSeries (x2 : Int) : Nat → Nat → Int → Int
  | 0, _, _ => 0
  | n + 1, k, t => t + fxSeries x2 n (k + 2) (-(fxMul t x2) / ((k + 1) * (k + 2) : Nat))

/-- Sine of an angle between 0 and π/2. (DEDUCED, entry 9) -/
def fxSin (x : Int) : Int := fxSeries (fxMul x x) 24 1 x
/-- Cosine of an angle between 0 and π/2. -/
def fxCos (x : Int) : Int := fxSeries (fxMul x x) 24 0 fxOne

/-- Sum of t + t x/k + … over `n` terms: the exponential series. -/
def fxExpSeries (x : Int) : Nat → Nat → Int → Int
  | 0, _, _ => 0
  | n + 1, k, t => t + fxExpSeries x n (k + 1) (fxMul t x / (k : Nat))

/-- e to the power `x`: reduced by multiples of ln 2, then the series. (DEDUCED, entry 9) -/
def fxExp (x : Int) : Int :=
  let n := x / fxLn2
  let r := x - n * fxLn2
  let y := fxExpSeries r 40 1 fxOne
  if 0 ≤ n then y * ((2 ^ n.toNat : Nat) : Int) else y / ((2 ^ (-n).toNat : Nat) : Int)

/-- Ten to the power `x`. -/
def fxPow10 (x : Int) : Int := fxExp (fxMul x fxLn10)

/-- Binary digits of log2 of a mantissa between 1 and 2, by repeated squaring. -/
def fxLogDigits : Nat → Int → Int
  | 0, _ => 0
  | n + 1, m =>
    let s := fxMul m m
    if 2 * fxOne ≤ s then ((2 ^ n : Nat) : Int) + fxLogDigits n (s / 2) else fxLogDigits n s

/-- log10 of a positive fixed-point number. (DEDUCED, entry 9) -/
def fxLog10 (x : Int) : Int :=
  let e : Nat := x.toNat.log2
  let m := if 96 ≤ e then x / ((2 ^ (e - 96) : Nat) : Int) else x * ((2 ^ (96 - e) : Nat) : Int)
  fxMul ((e : Int) * fxOne - 96 * fxOne + fxLogDigits 96 m) fxLog2

/-- Rounds a fixed-point number to the nearest integer, halves up. -/
def fxRound (x : Int) : Int := (2 * x + fxOne) / (2 * fxOne)

/-! Fade weights (R72), unsigned codes with 2 ^ 23 for one. -/

/-- The target weight of the linear-gain law at sample `i` of `l`. -/
def linearT (i l : Nat) : Int := (((i + 1) * 2 ^ 24 + l) / (2 * l) : Nat)

/-- The weights (source, target) of law `law` (0 linear gain, 1 constant power) at sample `i` of `l`.
(DEDUCED, entry 9) -/
def weights (law i l : Nat) : Int × Int :=
  if law = 1 then
    let x := fxPi * ((i + 1 : Nat) : Int) / ((2 * l : Nat) : Int)
    (fxRound (8388608 * fxCos x), fxRound (8388608 * fxSin x))
  else (8388608 - linearT i l, linearT i l)

/-- A sample or gain faded from `a` to `b` by the linear-gain law (R84, R131, R132). -/
def fadeLinear (i l : Nat) (a b : Int) : Int :=
  roundEven ((weights 0 i l).1 * a + (weights 0 i l).2 * b) 23

/-- The dB-linear shape at sample `i` of `l` (R102), for codes of one sign or with a zero among them: the
largest code whose lower edge is at or below the exact level. A zero stands at −130 dB, the square of which
is 2 ^ 38 / 10 ^ 13. -/
def dbLinear (g0 g1 : Int) (i l : Nat) : Int :=
  let m := i + 1
  let p (g : Int) (e : Nat) : Nat := if g = 0 then (2 ^ 38) ^ e else g.natAbs ^ (2 * e)
  let q (g : Int) (e : Nat) : Nat := if g = 0 then (10 ^ 13) ^ e else 1
  let rhs := 2 ^ (2 * l) * p g0 (l - m) * p g1 m
  let lhs := q g0 (l - m) * q g1 m
  let c := searchUp (fun c => decide ((2 * c - 1) ^ (2 * l) * lhs ≤ rhs)) 24 0
  (if g0 ≠ 0 then sgn g0 else sgn g1) * (c : Int)

/-- The value a ramp of shape `shape` delivers at its sample `i` of `l`, from `g0` to `g1` (R100 to R102). -/
def rampGain (shape : Nat) (g0 g1 : Int) (i l : Nat) : Int :=
  if l ≤ i + 1 then g1
  else if shape = 2 ∧ ¬ (sgn g0 * sgn g1 = -1) then dbLinear g0 g1 i l
  else
    let w := weights (if shape = 1 then 1 else 0) i l
    clampG24 (roundEven (w.1 * g0 + w.2 * g1) 23)

/-- Little-endian value of bytes. -/
def leNat : List Byte → Nat
  | [] => 0
  | b :: bs => b.toNat + 256 * leNat bs

/-- `n` little-endian bytes of a value. -/
def leBytes : Nat → Nat → List Byte
  | 0, _ => []
  | n + 1, v => byteOf (v % 256) :: leBytes n (v / 256)

/-- Big-endian value of bytes. -/
def beNat (l : List Byte) : Nat := l.foldl (fun a b => a * 256 + b.toNat) 0

/-- `n` big-endian bytes of a value. -/
def beBytes (n v : Nat) : List Byte := (leBytes n v).reverse

/-- The value of `n` bits read as two's complement. -/
def signed (bits : Nat) (v : Nat) : Int :=
  let w := v % 2 ^ bits
  if 2 * w < 2 ^ bits then (w : Int) else (w : Int) - ((2 ^ bits : Nat) : Int)

/-- The `bits` low bits of an integer in two's complement. -/
def toBits (bits : Nat) (v : Int) : Nat := (v % ((2 ^ bits : Nat) : Int)).toNat

/-- Bit `b` of a value. -/
def bit (v b : Nat) : Bool := v / 2 ^ b % 2 == 1

/-- Bits `lo + len − 1` down to `lo` of a value. -/
def field (v lo len : Nat) : Nat := v / 2 ^ lo % 2 ^ len

/-- 1 for true. -/
def b2n (b : Bool) : Nat := if b then 1 else 0
/-- 1 for true, as a dictionary value. -/
def b2i (b : Bool) : Int := if b then 1 else 0

/-- `n` rounded up to a whole quotient by `d`. -/
def ceilDiv (n d : Nat) : Nat := (n + d - 1) / d

/-- One step of the dither generator (R161). -/
def ditherStep (w : Nat) : Nat := if w % 2 = 1 then (w / 2) ^^^ 0x80200003 else w / 2

/-- Zeros for a frame. -/
def zeros (n : Nat) : List Int := List.replicate n 0

end Sys2Proof.Machine
end

