-- ==== Sys2Proof/Machine/Flags.lean ====
section
/-! DEFINITION. The status register of an Anvil core and every flag computation (R213, R214, R216, R257):
the result of an arithmetic operation is formed on exact integers, clamped once, and described by flags. -/

namespace Sys2Proof.Machine

/-- The value of an accumulator code as an integer in units of 2 ^ -47 (R211). -/
def accInt (a : Word56) : Int := a.toInt
/-- The accumulator code of an integer, modulo 2 ^ 56. -/
def accOf (x : Int) : Word56 := BitVec.ofInt 56 x
/-- The accumulator range (R211). -/
def clampAcc (x : Int) : Int := clampInt (-36028797018963968) 36028797018963967 x

/-- Flag bits of an instruction: the five result flags, and whether the sticky AOV is set (R214). -/
structure FlagBits where
  z : Bool
  n : Bool
  e : Bool
  c : Bool
  l : Bool
  aov : Bool
deriving DecidableEq, Repr

/-- Bit positions of the status register (R214). -/
def srZ : Nat := 0
def srN : Nat := 1
def srE : Nat := 2
def srC : Nat := 3
def srL : Nat := 4
def srAOV : Nat := 8
def srSOV : Nat := 9
def srRM : Nat := 12

/-- The writable bits of SR (R214, R261). -/
def srMask : Word24 := 0x00131F

/-- A flag of the status register. -/
def srBit (sr : Word24) (b : Nat) : Bool := sr.getLsbD b

/-- Takes the result flags and ORs the sticky AOV. -/
def srFlags (sr : Word24) (f : FlagBits) : Word24 :=
  (sr &&& 0xFFFFE0) |||
  BitVec.ofNat 24 (b2n f.z + 2 * b2n f.n + 4 * b2n f.e + 8 * b2n f.c + 16 * b2n f.l + 256 * b2n f.aov)

/-- Sets the sticky SOV (R216). -/
def srSetSov (sr : Word24) (sat : Bool) : Word24 := if sat then sr ||| 0x000200 else sr

/-- E of a result: bits [55:47] not all equal (R214). -/
def extInUse (a : Word56) : Bool :=
  decide (accInt a < -140737488355328 ∨ 140737488355327 < accInt a)

/-- Group ar of R257: the exact result, clamped once (R213), with its carry or borrow. -/
def arFlags (exact : Int) (c : Bool) : Word56 × FlagBits :=
  let r := clampAcc exact
  let a := accOf r
  (a, ⟨a == 0, decide (r < 0), extInUse a, c, decide (r ≠ exact), decide (r ≠ exact)⟩)

/-- Group ar2 of R257: Z, N, E and C of da; L and AOV from either accumulator. -/
def ar2Flags (ea eb : Int) (c : Bool) : Word56 × Word56 × FlagBits :=
  let ra := arFlags ea c
  let rb := arFlags eb false
  (ra.1, rb.1, { ra.2 with l := ra.2.l || rb.2.l, aov := ra.2.aov || rb.2.aov })

/-- Group mv of R257: Z, N and E of the whole value; C and L 0. -/
def mvFlags (a : Word56) : FlagBits := ⟨a == 0, a.msb, extInUse a, false, false, false⟩

/-- Group cmp of R257: Z and N of the exact difference, C its borrow; E and L 0. -/
def cmpFlags (a b : Word56) : FlagBits :=
  let d := accInt a - accInt b
  ⟨d == 0, decide (d < 0), false, decide (a.toNat < b.toNat), false, false⟩

/-- Carry out of bit 55 of the unsigned addition of `a` and the 56-bit code of `t` (R257). -/
def carryOf (a : Word56) (t : Int) : Bool := decide (2 ^ 56 ≤ a.toNat + (accOf t).toNat)
/-- Borrow out of bit 55 of `a` − `u`, with `u` as a 56-bit code (R257). -/
def borrowOf (a : Word56) (u : Int) : Bool := decide (a.toNat < (accOf u).toNat)

/-- A division by 2 ^ `k` under the rounding mode: convergent, or half up (R216). -/
def roundRM (rm : Bool) (x : Int) (k : Nat) : Int :=
  if k = 0 then x
  else if rm then (x + ((2 ^ (k - 1) : Nat) : Int)) / ((2 ^ k : Nat) : Int)
  else roundEven x k

/-- The rounded store of an accumulator: the data word and whether it saturated (R216). -/
def roundedStore (rm : Bool) (a : Word56) : Word24 × Bool :=
  let q := roundRM rm (accInt a) 24
  let s := clampS24 q
  (BitVec.ofInt 24 s, decide (s ≠ q))

/-- The remote word of an accumulator: bits [55:24], rounded at bit 24 and saturated to 32 bits (R230). -/
def remoteWord (rm : Bool) (a : Word56) : BitVec 32 × Bool :=
  let q := roundRM rm (accInt a) 24
  let s := clampW32 q
  (BitVec.ofInt 32 s, decide (s ≠ q))

/-- An accumulator rounded at bit 24 under RM with AL cleared, before the clamp (R216). -/
def rndExact (rm : Bool) (x : Int) : Int := roundRM rm x 24 * 16777216

/-- A shift by `k` places, left for a positive `k`; right shifts round under RM (R218). -/
def scaleExact (rm : Bool) (x k : Int) : Int :=
  let k := clampInt (-47) 47 k
  if 0 ≤ k then x * ((2 ^ k.toNat : Nat) : Int) else roundRM rm x (-k).toNat

/-- Bits after the sign bit that equal it, of an `n + 1`-bit code with value `x`. -/
def headroom (n : Nat) (x : Int) : Nat :=
  let m := if x < 0 then (-x - 1).toNat else x.toNat
  if m = 0 then n else n - (m.log2 + 1)

/-- Headroom of a stored data word (R217). -/
def wordHeadroom (w : Word24) : Nat := headroom 23 w.toInt

/-- NORM: the normalised value and the exponent (R219). -/
def normalise (rm : Bool) (a : Word56) : Word56 × Int :=
  if a = 0 then (a, 0)
  else
    let k : Int := (headroom 55 (accInt a) : Int) - 8
    let x := if 0 ≤ k then accInt a * ((2 ^ k.toNat : Nat) : Int) else roundRM rm (accInt a) (-k).toNat
    (accOf x, k)

/-- One non-restoring division step with its C (R220). -/
def divStep (a : Word56) (d : Word24) : Word56 × Bool :=
  let agree := a.msb == d.msb
  let a2 := a <<< 1
  let hi : BitVec 32 := a2.extractLsb' 24 32
  let de : BitVec 32 := d.signExtend 32
  let r := if agree then hi - de else hi + de
  let c := if agree then decide (hi.toNat < de.toNat) else decide (2 ^ 32 ≤ hi.toNat + de.toNat)
  let out : Word56 := r ++ a2.extractLsb' 0 24
  (if r.msb == d.msb then out ||| 1 else out, c)

/-- Group dv of R257: C, N and Z alone. -/
def srDiv (sr : Word24) (a : Word56) (c : Bool) : Word24 :=
  (sr &&& 0xFFFFF4) ||| BitVec.ofNat 24 (b2n (a == 0) + 2 * b2n a.msb + 8 * b2n c)

/-- Whether condition code `cond` holds (R266). -/
def condHolds (sr : Word24) (cond : Fin 15) : Bool :=
  let z := srBit sr srZ
  let n := srBit sr srN
  match cond.val with
  | 0 => true
  | 1 => z
  | 2 => !z
  | 3 => n
  | 4 => !n
  | 5 => !n && !z
  | 6 => n || z
  | 7 => srBit sr srC
  | 8 => !srBit sr srC
  | 9 => srBit sr srE
  | 10 => !srBit sr srE
  | 11 => srBit sr srL
  | 12 => !srBit sr srL
  | 13 => srBit sr srAOV
  | _ => srBit sr srSOV

end Sys2Proof.Machine
end

