-- ==== Sys2Proof/Machine/Attr.lean ====
section
/-! DEFINITION. Names of the dictionary attributes (R571 to R573): the class in the high byte and the attribute
number in the low byte, as the chapters' tables give them. -/

namespace Sys2Proof.Machine.Attr

/-! Class 0x01. -/

abbrev idVendor : Nat := 0x0101
abbrev idPart : Nat := 0x0102
abbrev idStepping : Nat := 0x0103
abbrev idUid : Nat := 0x0104
abbrev idRomVersion : Nat := 0x0105
abbrev idFwVersion : Nat := 0x0106
abbrev idDictionaryVersion : Nat := 0x0107
abbrev idDirectoryCount : Nat := 0x0108
abbrev idDirectory : Nat := 0x0109

/-! Class 0x02. -/

abbrev sesKey : Nat := 0x0201
abbrev sesKeyPresent : Nat := 0x0202
abbrev sesKeyErase : Nat := 0x0203
abbrev sesOpenSession : Nat := 0x0201
abbrev sesCloseSession : Nat := 0x0202
abbrev sesSessionsOpen : Nat := 0x0203
abbrev sesAuthPolicy : Nat := 0x0204
abbrev sesAuthFailures : Nat := 0x0205
abbrev sesClearCounts : Nat := 0x0206

/-! Class 0x03. -/

abbrev staSummary : Nat := 0x0301
abbrev staLogNewest : Nat := 0x0302
abbrev staLogOldest : Nat := 0x0303
abbrev staLog : Nat := 0x0304

/-! Class 0x04. -/

abbrev tktTicket : Nat := 0x0401
abbrev tktState : Nat := 0x0402
abbrev tktResult : Nat := 0x0403
abbrev tktOrigin : Nat := 0x0404
abbrev tktQuery : Nat := 0x0401

/-! Class 0x10. -/

abbrev engFamily : Nat := 0x1001
abbrev engRateBase : Nat := 0x1002
abbrev engBlockSize : Nat := 0x1003
abbrev engShape : Nat := 0x1004
abbrev engState : Nat := 0x1005
abbrev engGo : Nat := 0x1006
abbrev engAdmittedLoad : Nat := 0x1007
abbrev engPeakLoad : Nat := 0x1008
abbrev engBlockCount : Nat := 0x1009
abbrev engDeadlineMisses : Nat := 0x100A
abbrev engClearCounts : Nat := 0x100B
abbrev engAdmissionLimit : Nat := 0x100C

/-! Class 0x11. -/

abbrev plcInStripMap : Nat := 0x1101
abbrev plcOutStripMap : Nat := 0x1102
abbrev plcSpareCores : Nat := 0x1103
abbrev plcMigrationPolicy : Nat := 0x1104
abbrev plcInStripLane : Nat := 0x1105
abbrev plcOutStripLane : Nat := 0x1106
abbrev plcModuleCore : Nat := 0x1107
abbrev plcLaneLoad : Nat := 0x1108
abbrev plcCoreLoad : Nat := 0x1109
abbrev plcRetiredCores : Nat := 0x110A
abbrev plcSpareNow : Nat := 0x110B
abbrev plcPlanPending : Nat := 0x110C
abbrev plcMovesDone : Nat := 0x110D
abbrev plcRetirements : Nat := 0x110E
abbrev plcBankFree : Nat := 0x110F
abbrev plcDeepFree : Nat := 0x1110
abbrev plcDeepZeroing : Nat := 0x1111
abbrev plcDefragment : Nat := 0x1112
abbrev plcReinstateCore : Nat := 0x1113
abbrev plcClearCounts : Nat := 0x1114

/-! Class 0x20. -/

abbrev nodeGain : Nat := 0x2001
abbrev nodeGainCdb : Nat := 0x2002
abbrev nodeIdleGain : Nat := 0x2003
abbrev nodeIdleGainCdb : Nat := 0x2004
abbrev nodeGainNow : Nat := 0x2005
abbrev nodeRamping : Nat := 0x2006

/-! Class 0x21. -/

abbrev slotOccupant : Nat := 0x2101
abbrev slotSwapTime : Nat := 0x2102
abbrev slotGated : Nat := 0x2103
abbrev slotSwapping : Nat := 0x2104

/-! Class 0x22. -/

abbrev dstSumSatCount : Nat := 0x2201
abbrev dstReturnSlot : Nat := 0x2202
abbrev dstClearSat : Nat := 0x2203

/-! Class 0x23. -/

abbrev cruLivePlane : Nat := 0x2301
abbrev cruStrikeState : Nat := 0x2302
abbrev cruIdleBusy : Nat := 0x2303
abbrev cruStrikeTime : Nat := 0x2304
abbrev cruStrikeLaw : Nat := 0x2305
abbrev cruStrike : Nat := 0x2306
abbrev cruCancelStrike : Nat := 0x2307
abbrev cruCopyLiveToIdle : Nat := 0x2308
abbrev cruClearIdle : Nat := 0x2309
abbrev cruStrikeCount : Nat := 0x230A
abbrev cruStrikePosition : Nat := 0x230B
abbrev cruGatedRows : Nat := 0x230C
abbrev cruPlaneWriteRejects : Nat := 0x230D
abbrev cruClearCounts : Nat := 0x230E

/-! Class 0x28. -/

abbrev belDefaultRampTime : Nat := 0x2801
abbrev belDefaultRampShape : Nat := 0x2802
abbrev belZcTimeout : Nat := 0x2803
abbrev belHoldFadeTime : Nat := 0x2804
abbrev belLatePolicy : Nat := 0x2805
abbrev belSlotsInUse : Nat := 0x2806
abbrev belSlotsPeak : Nat := 0x2807
abbrev belQueueDepth : Nat := 0x2808
abbrev belQueuePeak : Nat := 0x2809
abbrev belRampFullCount : Nat := 0x280A
abbrev belZcTimeouts : Nat := 0x280B
abbrev belTimedPending : Nat := 0x280C
abbrev belLateCount : Nat := 0x280D
abbrev belCancelTimed : Nat := 0x280E
abbrev belClearCounts : Nat := 0x280F

/-! Class 0x30. -/

abbrev insInput : Nat := 0x3001
abbrev insSource : Nat := 0x3002
abbrev insTrim : Nat := 0x3003
abbrev insPolarity : Nat := 0x3004
abbrev insPreampGain : Nat := 0x3005
abbrev insPreampReleased : Nat := 0x3006
abbrev insInsert : Nat := 0x3007
abbrev insInsertBypass : Nat := 0x3008
abbrev insFader : Nat := 0x3010
abbrev insFaderCdb : Nat := 0x3011
abbrev insCut : Nat := 0x3012
abbrev insCoef : Nat := 0x3013
abbrev insSectionBypass : Nat := 0x3014
abbrev insDelayEnable : Nat := 0x3015
abbrev insDelay : Nat := 0x3016
abbrev insSatCount : Nat := 0x3017
abbrev insClearSat : Nat := 0x3018
abbrev insCompEnable : Nat := 0x3020
abbrev insCompThreshold : Nat := 0x3021
abbrev insCompRatio : Nat := 0x3022
abbrev insCompKnee : Nat := 0x3023
abbrev insCompAttack : Nat := 0x3024
abbrev insCompRelease : Nat := 0x3025
abbrev insCompMakeup : Nat := 0x3026
abbrev insCompDetector : Nat := 0x3027
abbrev insCompKey : Nat := 0x3028
abbrev insCompKeyCoef : Nat := 0x3029
abbrev insCompGain : Nat := 0x302A
abbrev insGateEnable : Nat := 0x3030
abbrev insGateThreshold : Nat := 0x3031
abbrev insGateRange : Nat := 0x3032
abbrev insGateRatio : Nat := 0x3033
abbrev insGateAttack : Nat := 0x3034
abbrev insGateHold : Nat := 0x3035
abbrev insGateRelease : Nat := 0x3036
abbrev insGateGain : Nat := 0x3037

/-! Class 0x31. -/

abbrev outsFader : Nat := 0x3110
abbrev outsFaderCdb : Nat := 0x3111
abbrev outsCut : Nat := 0x3112
abbrev outsCoef : Nat := 0x3113
abbrev outsSectionBypass : Nat := 0x3114
abbrev outsDelayEnable : Nat := 0x3115
abbrev outsDelay : Nat := 0x3116
abbrev outsSatCount : Nat := 0x3117
abbrev outsClearSat : Nat := 0x3118
abbrev outsCompEnable : Nat := 0x3120
abbrev outsCompThreshold : Nat := 0x3121
abbrev outsCompRatio : Nat := 0x3122
abbrev outsCompKnee : Nat := 0x3123
abbrev outsCompAttack : Nat := 0x3124
abbrev outsCompRelease : Nat := 0x3125
abbrev outsCompMakeup : Nat := 0x3126
abbrev outsCompDetector : Nat := 0x3127
abbrev outsCompKey : Nat := 0x3128
abbrev outsCompKeyCoef : Nat := 0x3129
abbrev outsCompGain : Nat := 0x312A
abbrev outsQuenchEnable : Nat := 0x3101
abbrev outsQuenchCeiling : Nat := 0x3102
abbrev outsQuenchRelease : Nat := 0x3103
abbrev outsQuenchGain : Nat := 0x3104
abbrev outsDither : Nat := 0x3105
abbrev outsConvSatCount : Nat := 0x3106

/-! Class 0x32. -/

abbrev mtrPeak : Nat := 0x3201
abbrev mtrRms : Nat := 0x3202
abbrev mtrMaxPeak : Nat := 0x3203
abbrev mtrOvers : Nat := 0x3204
abbrev mtrTruePeak : Nat := 0x3205
abbrev mtrMaxTruePeak : Nat := 0x3206
abbrev mtrTap : Nat := 0x3207
abbrev mtrClear : Nat := 0x3208
abbrev mtrPeakHold : Nat := 0x3201
abbrev mtrPeakFall : Nat := 0x3202
abbrev mtrRmsWindow : Nat := 0x3203

/-! Class 0x33. -/

abbrev loudChannels : Nat := 0x3301
abbrev loudWeights : Nat := 0x3302
abbrev loudMomentary : Nat := 0x3303
abbrev loudShortTerm : Nat := 0x3304
abbrev loudIntegrated : Nat := 0x3305
abbrev loudMaxMomentary : Nat := 0x3306
abbrev loudMaxShortTerm : Nat := 0x3307
abbrev loudRunning : Nat := 0x3308
abbrev loudIntegratedTime : Nat := 0x3309
abbrev loudStart : Nat := 0x330A
abbrev loudStop : Nat := 0x330B
abbrev loudReset : Nat := 0x330C

/-! Class 0x34. -/

abbrev silTap : Nat := 0x3401
abbrev silThreshold : Nat := 0x3402
abbrev silHold : Nat := 0x3403
abbrev silPin : Nat := 0x3404
abbrev silSeverity : Nat := 0x3405
abbrev silState : Nat := 0x3406
abbrev silPinPolarity : Nat := 0x3401
abbrev silPinState : Nat := 0x3402

/-! Class 0x40. -/

abbrev coreStatus : Nat := 0x4001
abbrev coreModuleCount : Nat := 0x4002
abbrev coreOverruns : Nat := 0x4003
abbrev coreOverrunsRecent : Nat := 0x4004
abbrev coreCyclesLast : Nat := 0x4005
abbrev coreCyclesPeak : Nat := 0x4006
abbrev coreEvCoalesced : Nat := 0x4007
abbrev coreWindowRejects : Nat := 0x4008
abbrev coreClearCounts : Nat := 0x4009

/-! Class 0x41. -/

abbrev modImage : Nat := 0x4101
abbrev modLoad : Nat := 0x4102
abbrev modUnload : Nat := 0x4103
abbrev modState : Nat := 0x4104
abbrev modName : Nat := 0x4105
abbrev modModuleVersion : Nat := 0x4106
abbrev modImageCrc : Nat := 0x4107
abbrev modNIn : Nat := 0x4108
abbrev modNOut : Nat := 0x4109
abbrev modInSrc : Nat := 0x410A
abbrev modConst : Nat := 0x410B
abbrev modDeclaredCycles : Nat := 0x410C
abbrev modCyclesPeak : Nat := 0x410D
abbrev modOverruns : Nat := 0x410E
abbrev modLastOverrun : Nat := 0x410F
abbrev modLastFault : Nat := 0x4110
abbrev modPortSat : Nat := 0x4111
abbrev modClearCounts : Nat := 0x4112

/-! Class 0x48. -/

abbrev tngLevel : Nat := 0x4801
abbrev tngOwner : Nat := 0x4802
abbrev tngState : Nat := 0x4803
abbrev tngQueueDepth : Nat := 0x4804
abbrev tngDescriptors : Nat := 0x4805
abbrev tngBytes : Nat := 0x4806
abbrev tngPreemptions : Nat := 0x4807
abbrev tngDescErrors : Nat := 0x4808
abbrev tngLastError : Nat := 0x4809
abbrev tngOverlapRuns : Nat := 0x480A
abbrev tngReverseRuns : Nat := 0x480B
abbrev tngOvershootBursts : Nat := 0x480C
abbrev tngBudgetPauses : Nat := 0x480D
abbrev tngIdleTriggers : Nat := 0x480E
abbrev tngQueueDrops : Nat := 0x480F
abbrev tngClearCounts : Nat := 0x4810
abbrev tngModuleChannel : Nat := 0x4801
abbrev tngTongsResets : Nat := 0x4802
abbrev tngClearCountsAll : Nat := 0x4803

/-! Class 0x4C. -/

abbrev memConflictStalls : Nat := 0x4C01
abbrev memAtomicSat : Nat := 0x4C02
abbrev memClearCounts : Nat := 0x4C03
abbrev memCe : Nat := 0x4C01
abbrev memUe : Nat := 0x4C02
abbrev memLastCeAddr : Nat := 0x4C03
abbrev memLastUeAddr : Nat := 0x4C04
abbrev memRun : Nat := 0x4C05
abbrev memFailMap : Nat := 0x4C06
abbrev memLastFail : Nat := 0x4C07
abbrev memStartupMarch : Nat := 0x4C08
abbrev memClearCountsMarch : Nat := 0x4C09
abbrev memFittedBytes : Nat := 0x4C01
abbrev memUsableBytes : Nat := 0x4C02
abbrev memCeDeep : Nat := 0x4C03
abbrev memUeDeep : Nat := 0x4C04
abbrev memLastErrorAddr : Nat := 0x4C05
abbrev memClearCountsDeep : Nat := 0x4C06
abbrev memParkMaster : Nat := 0x4C01
abbrev memDecodeErrors : Nat := 0x4C02
abbrev memProtectRejects : Nat := 0x4C03
abbrev memResetCompletions : Nat := 0x4C04
abbrev memClearCountsMatrix : Nat := 0x4C05

/-! Class 0x50. -/

abbrev refKind : Nat := 0x5001
abbrev refEnable : Nat := 0x5002
abbrev refNominalHz : Nat := 0x5003
abbrev refEdge : Nat := 0x5004
abbrev refQuality : Nat := 0x5005
abbrev refPriority : Nat := 0x5006
abbrev refWtrTime : Nat := 0x5007
abbrev refStatus : Nat := 0x5008
abbrev refWtrLeft : Nat := 0x5009
abbrev refFreqOffset : Nat := 0x500A
abbrev refPhaseOffset : Nat := 0x500B
abbrev refClearWtr : Nat := 0x500C
abbrev refDisqualifications : Nat := 0x500D
abbrev refPtpClass : Nat := 0x500E
abbrev refPtpAccuracy : Nat := 0x500F
abbrev refClearCounts : Nat := 0x5010

/-! Class 0x51. -/

abbrev heaState : Nat := 0x5101
abbrev heaCurrent : Nat := 0x5102
abbrev heaSwitching : Nat := 0x5103
abbrev heaMode : Nat := 0x5104
abbrev heaForcedRef : Nat := 0x5105
abbrev heaBandwidth : Nat := 0x5106
abbrev heaBandwidthUsed : Nat := 0x5107
abbrev heaFreqTolerance : Nat := 0x5108
abbrev heaDisagreeTol : Nat := 0x5109
abbrev heaLockWindow : Nat := 0x510A
abbrev heaPhaseWalk : Nat := 0x510B
abbrev heaAcquireRate : Nat := 0x510C
abbrev heaHoldoverLimit : Nat := 0x510D
abbrev heaHoldoverElapsed : Nat := 0x510E
abbrev heaSteer : Nat := 0x510F
abbrev heaAbsorbedOffset : Nat := 0x5110
abbrev heaPhaseError : Nat := 0x5111
abbrev heaModelValid : Nat := 0x5112
abbrev heaModelCoef : Nat := 0x5113
abbrev heaModelT0 : Nat := 0x5114
abbrev heaModelRange : Nat := 0x5115
abbrev heaModelHistory : Nat := 0x5116
abbrev heaModelAge : Nat := 0x5117
abbrev heaModelRms : Nat := 0x5118
abbrev heaHoldBias : Nat := 0x5119
abbrev heaModelSensor : Nat := 0x511A
abbrev heaHostTemperature : Nat := 0x511B
abbrev heaModelLag : Nat := 0x511C
abbrev heaModelMemory : Nat := 0x511D
abbrev heaHistoryMin : Nat := 0x511E
abbrev heaModelReset : Nat := 0x511F
abbrev heaSwitches : Nat := 0x5120
abbrev heaLockLosses : Nat := 0x5121
abbrev heaClearCounts : Nat := 0x5122

/-! Class 0x52. -/

abbrev tbEnable : Nat := 0x5201
abbrev tbSource : Nat := 0x5202
abbrev tbState : Nat := 0x5203
abbrev tbNow : Nat := 0x5204
abbrev tbTickTime : Nat := 0x5205
abbrev tbRate : Nat := 0x5206
abbrev tbMaxRate : Nat := 0x5207
abbrev tbServoBw : Nat := 0x5208
abbrev tbCaptureLimit : Nat := 0x5209
abbrev tbOffset : Nat := 0x520A
abbrev tbStatus : Nat := 0x520B
abbrev tbRestep : Nat := 0x520C
abbrev tbSteps : Nat := 0x520D
abbrev tbHolds : Nat := 0x520E
abbrev tbMasterId : Nat := 0x520F
abbrev tbClearCounts : Nat := 0x5210
abbrev ptpEnable : Nat := 0x5201
abbrev ptpProfile : Nat := 0x5202
abbrev ptpDomain : Nat := 0x5203
abbrev ptpDelayReqMode : Nat := 0x5204
abbrev ptpAnnounceTimeout : Nat := 0x5205
abbrev ptpAsymmetry : Nat := 0x5206
abbrev ptpPortState : Nat := 0x5207
abbrev ptpGrandmaster : Nat := 0x5208
abbrev ptpMeanPathDelay : Nat := 0x5209
abbrev ptpSyncInterval : Nat := 0x520A
abbrev ptpBadMessages : Nat := 0x520B
abbrev ptpClearCounts : Nat := 0x520C

/-! Class 0x53. -/

abbrev mdEnable : Nat := 0x5301
abbrev mdTimeBase : Nat := 0x5302
abbrev mdRate : Nat := 0x5303
abbrev mdSampleCount : Nat := 0x5304
abbrev mdUsers : Nat := 0x5305

/-! Class 0x58. -/

abbrev sapEnable : Nat := 0x5801
abbrev sapClocking : Nat := 0x5802
abbrev sapFormat : Nat := 0x5803
abbrev sapSlot : Nat := 0x5804
abbrev sapDomain : Nat := 0x5805
abbrev sapGroup : Nat := 0x5806
abbrev sapOutSrc : Nat := 0x5807
abbrev sapHoldSamples : Nat := 0x5808
abbrev sapState : Nat := 0x5809
abbrev sapStatus : Nat := 0x580A
abbrev sapDistance : Nat := 0x580B
abbrev sapRateOffset : Nat := 0x580C
abbrev sapSlipsSlow : Nat := 0x580D
abbrev sapSlipsFast : Nat := 0x580E
abbrev sapUnderruns : Nat := 0x580F
abbrev sapOverruns : Nat := 0x5810
abbrev sapRateFaults : Nat := 0x5811
abbrev sapWsGlitches : Nat := 0x5812
abbrev sapClearCounts : Nat := 0x5813
abbrev sapPortMembers : Nat := 0x5801
abbrev sapDomainGroup : Nat := 0x5802
abbrev sapReference : Nat := 0x5803
abbrev sapSlipsSlowGroup : Nat := 0x5804
abbrev sapSlipsFastGroup : Nat := 0x5805
abbrev sapClearCountsGroup : Nat := 0x5806

/-! Class 0x60. -/

abbrev portEnable : Nat := 0x6001
abbrev portMode : Nat := 0x6002
abbrev portLink : Nat := 0x6003
abbrev portMac : Nat := 0x6004
abbrev portIpAddr : Nat := 0x6005
abbrev portIpMask : Nat := 0x6006
abbrev portGateway : Nat := 0x6007
abbrev portDscpMedia : Nat := 0x6008
abbrev portDscpPtp : Nat := 0x6009
abbrev portTxAdmitted : Nat := 0x600A
abbrev portRxAdmitted : Nat := 0x600B
abbrev portRxFrames : Nat := 0x600C
abbrev portTxFrames : Nat := 0x600D
abbrev portRxErrors : Nat := 0x600E
abbrev portRxDiscards : Nat := 0x600F
abbrev portClearCounts : Nat := 0x6010

/-! Class 0x61. -/

abbrev rxEnable : Nat := 0x6101
abbrev rxPort : Nat := 0x6102
abbrev rxDstAddr : Nat := 0x6103
abbrev rxSrcAddr : Nat := 0x6104
abbrev rxUdpPort : Nat := 0x6105
abbrev rxChannels : Nat := 0x6106
abbrev rxEncoding : Nat := 0x6107
abbrev rxPacketTime : Nat := 0x6108
abbrev rxPayloadType : Nat := 0x6109
abbrev rxDomain : Nat := 0x610A
abbrev rxLinkOffset : Nat := 0x610B
abbrev rxGroup : Nat := 0x610C
abbrev rxHoldSamples : Nat := 0x610D
abbrev rxState : Nat := 0x610E
abbrev rxStatus : Nat := 0x610F
abbrev rxMargin : Nat := 0x6110
abbrev rxPackets : Nat := 0x6111
abbrev rxLegGaps : Nat := 0x6112
abbrev rxLateSamples : Nat := 0x6113
abbrev rxWindowErrors : Nat := 0x6114
abbrev rxHolds : Nat := 0x6115
abbrev rxLosses : Nat := 0x6116
abbrev rxDistance : Nat := 0x6117
abbrev rxSlipsSlow : Nat := 0x6118
abbrev rxSlipsFast : Nat := 0x6119
abbrev rxBadPackets : Nat := 0x611A
abbrev rxClearCounts : Nat := 0x611B

/-! Class 0x62. -/

abbrev txEnable : Nat := 0x6201
abbrev txPort : Nat := 0x6202
abbrev txDstAddr : Nat := 0x6203
abbrev txUdpPort : Nat := 0x6204
abbrev txSrcUdp : Nat := 0x6205
abbrev txChannels : Nat := 0x6206
abbrev txEncoding : Nat := 0x6207
abbrev txPacketTime : Nat := 0x6208
abbrev txPayloadType : Nat := 0x6209
abbrev txDomain : Nat := 0x620A
abbrev txSsrc : Nat := 0x620B
abbrev txTtl : Nat := 0x620C
abbrev txChSrc : Nat := 0x620D
abbrev txState : Nat := 0x620E
abbrev txPackets : Nat := 0x620F
abbrev txDistance : Nat := 0x6210
abbrev txSlipsSlow : Nat := 0x6211
abbrev txSlipsFast : Nat := 0x6212
abbrev txUnderruns : Nat := 0x6213
abbrev txClearCounts : Nat := 0x6214

/-! Class 0x63. -/

abbrev weldBinding : Nat := 0x6301
abbrev weldContributors : Nat := 0x6302
abbrev weldPresent : Nat := 0x6303
abbrev weldWeldId : Nat := 0x6301
abbrev weldSystemId : Nat := 0x6302
abbrev weldGroupBase : Nat := 0x6303
abbrev weldUdpPort : Nat := 0x6304
abbrev weldWeldHold : Nat := 0x6305
abbrev weldMembersPresent : Nat := 0x6306
abbrev weldMembersAbsent : Nat := 0x6307
abbrev weldMargin : Nat := 0x6308
abbrev weldMissing : Nat := 0x6309
abbrev weldLate : Nat := 0x630A
abbrev weldMismatches : Nat := 0x630B
abbrev weldOverflow : Nat := 0x630C
abbrev weldClearCounts : Nat := 0x630D

/-! Class 0x68. -/

abbrev yugNodeId : Nat := 0x6801
abbrev yugUdpPort : Nat := 0x6802
abbrev yugEnable : Nat := 0x6803
abbrev yugRxFrames : Nat := 0x6804
abbrev yugBadFrames : Nat := 0x6805
abbrev yugOtherNode : Nat := 0x6806
abbrev yugDupRequests : Nat := 0x6807
abbrev yugQueueDrops : Nat := 0x6808
abbrev yugSpiOverruns : Nat := 0x6809
abbrev yugClearCounts : Nat := 0x680A

/-! Class 0x70. -/

abbrev pairPairEnable : Nat := 0x7001
abbrev pairPreference : Nat := 0x7002
abbrev pairLeaseTime : Nat := 0x7003
abbrev pairWarmTakeover : Nat := 0x7004
abbrev pairRole : Nat := 0x7005
abbrev pairStandbyState : Nat := 0x7006
abbrev pairEntitled : Nat := 0x7007
abbrev pairEpoch : Nat := 0x7008
abbrev pairPeerNode : Nat := 0x7009
abbrev pairPeerRole : Nat := 0x700A
abbrev pairLanes : Nat := 0x700B
abbrev pairTetherRtt : Nat := 0x700C
abbrev pairTickSkew : Nat := 0x700D
abbrev pairConvergeTime : Nat := 0x700E
abbrev pairConvergeLeft : Nat := 0x700F
abbrev pairMatchRun : Nat := 0x7010
abbrev pairEnrolProgress : Nat := 0x7011
abbrev pairDigestCharge : Nat := 0x7012
abbrev pairDigestPeak : Nat := 0x7013
abbrev pairMismatches : Nat := 0x7014
abbrev pairLastMismatch : Nat := 0x7015
abbrev pairUnconfirmed : Nat := 0x7016
abbrev pairTakeovers : Nat := 0x7017
abbrev pairGiveUps : Nat := 0x7018
abbrev pairLeaseLapses : Nat := 0x7019
abbrev pairFrameErrors : Nat := 0x701A
abbrev pairMirrorLate : Nat := 0x701B
abbrev pairSwitchover : Nat := 0x701C
abbrev pairRejoin : Nat := 0x701D
abbrev pairForceActive : Nat := 0x701E
abbrev pairClearCounts : Nat := 0x701F

/-! Class 0x78. -/

abbrev jrnCardState : Nat := 0x7801
abbrev jrnCardId : Nat := 0x7802
abbrev jrnSectors : Nat := 0x7803
abbrev jrnRatedCycles : Nat := 0x7804
abbrev jrnLifeUsed : Nat := 0x7805
abbrev jrnJournalState : Nat := 0x7806
abbrev jrnCommittedSeq : Nat := 0x7807
abbrev jrnDurableSeq : Nat := 0x7808
abbrev jrnRingFill : Nat := 0x7809
abbrev jrnRamFill : Nat := 0x780A
abbrev jrnNobilletPolicy : Nat := 0x780B
abbrev jrnCompact : Nat := 0x780C
abbrev jrnFormat : Nat := 0x780D
abbrev jrnAdoptCard : Nat := 0x780E
abbrev jrnCompactions : Nat := 0x780F
abbrev jrnTornRecords : Nat := 0x7810
abbrev jrnIoErrors : Nat := 0x7811
abbrev jrnLostRecords : Nat := 0x7812
abbrev jrnClearCounts : Nat := 0x7813

/-! Class 0x79. -/

abbrev scnPresent : Nat := 0x7901
abbrev scnName : Nat := 0x7902
abbrev scnSize : Nat := 0x7903
abbrev scnNodes : Nat := 0x7904
abbrev scnShape : Nat := 0x7905
abbrev scnCrc : Nat := 0x7906
abbrev scnSave : Nat := 0x7907
abbrev scnStage : Nat := 0x7908
abbrev scnDelete : Nat := 0x7909
abbrev scnFreeSectors : Nat := 0x7901

/-! Class 0x7C. -/

abbrev powPowerState : Nat := 0x7C01
abbrev powEnter : Nat := 0x7C02
abbrev powRestart : Nat := 0x7C03
abbrev powLastResetCause : Nat := 0x7C04
abbrev powBringUpStep : Nat := 0x7C05
abbrev powStartupTime : Nat := 0x7C06
abbrev powSyncWait : Nat := 0x7C07

/-! Class 0x80. -/

abbrev monReading : Nat := 0x8001
abbrev monMaxReading : Nat := 0x8002
abbrev monWarnHigh : Nat := 0x8003
abbrev monClearMax : Nat := 0x8004
abbrev vmReading : Nat := 0x8001
abbrev vmNominal : Nat := 0x8002
abbrev vmWarnPct : Nat := 0x8003
abbrev vmMinReading : Nat := 0x8004
abbrev vmMaxReading : Nat := 0x8005
abbrev vmClearMax : Nat := 0x8006
abbrev pxReading : Nat := 0x8001
abbrev pxFactory : Nat := 0x8002
abbrev pxDeviation : Nat := 0x8003

/-! Class 0x81. -/

abbrev diaPresent : Nat := 0x8101
abbrev diaLatched : Nat := 0x8102
abbrev diaCounts : Nat := 0x8103
abbrev diaLastTime : Nat := 0x8104
abbrev diaClearConditions : Nat := 0x8105
abbrev diaClearCounts : Nat := 0x8106

/-! Class 0x82. -/

abbrev cntControl : Nat := 0x8201
abbrev cntValue : Nat := 0x8202
abbrev cntClear : Nat := 0x8203
abbrev cntValues : Nat := 0x8201
abbrev cntPair64 : Nat := 0x8202
abbrev cntClearMask : Nat := 0x8203
abbrev cntTagCores : Nat := 0x8201
abbrev cntTagK : Nat := 0x8202
abbrev cntTagSeed : Nat := 0x8203
abbrev cntTagMode : Nat := 0x8204
abbrev cntRecords : Nat := 0x8205
abbrev cntTagNewest : Nat := 0x8206
abbrev cntTagOldest : Nat := 0x8207
abbrev cntTagsSkipped : Nat := 0x8208
abbrev cntTagClear : Nat := 0x8209

/-! Class 0x83. -/

abbrev devUnlocked : Nat := 0x8301
abbrev devIssueChallenge : Nat := 0x8302
abbrev devUnlock : Nat := 0x8303
abbrev devLock : Nat := 0x8304
abbrev devTmuxSelect : Nat := 0x8305
abbrev devDevFailures : Nat := 0x8306

/-! Class 0x90. -/

abbrev fwImage : Nat := 0x9001
abbrev fwInstall : Nat := 0x9002
abbrev fwActivate : Nat := 0x9003
abbrev fwConfirm : Nat := 0x9004
abbrev fwRunningSlot : Nat := 0x9005
abbrev fwSlotState : Nat := 0x9006
abbrev fwSlotVersion : Nat := 0x9007
abbrev fwBootStatus : Nat := 0x9008
abbrev fwRunImage : Nat := 0x9009
abbrev fwSecurityVersion : Nat := 0x900A

end Sys2Proof.Machine.Attr
end

