-- ==== Sys2Proof/Machine/Store.lean ====
section
/-! DEFINITION. Sparse data by key: a list of key and value pairs with strictly rising keys, in which no
entry equals what an unlisted key reads as. Memories, frame buffers, the object dictionary and every other
keyed table of the state are stores, so that equal tables are equal data. -/

namespace Sys2Proof.Machine

/-- Values by natural-number key. -/
abbrev Store (α : Type) := List (Nat × α)

/-- The entry listed at `k`, if there is one. -/
def Store.find? {α : Type} : Store α → Nat → Option α
  | [], _ => none
  | (j, v) :: m, k => if j = k then some v else Store.find? m k

/-- The value at `k`; `d` is what an unlisted key reads as. -/
def Store.get {α : Type} (d : α) (m : Store α) (k : Nat) : α := (Store.find? m k).getD d

/-- Lists `v` at `k`, keeping the keys rising. -/
def Store.put {α : Type} : Store α → Nat → α → Store α
  | [], k, v => [(k, v)]
  | (j, w) :: m, k, v =>
    if k < j then (k, v) :: (j, w) :: m
    else if k = j then (k, v) :: m
    else (j, w) :: Store.put m k v

/-- Takes every entry at `k` out. -/
def Store.del {α : Type} : Store α → Nat → Store α
  | [], _ => []
  | (j, w) :: m, k => if k = j then Store.del m k else (j, w) :: Store.del m k

/-- Writes `v` at `k`; writing what an unlisted key reads as removes the entry. -/
def Store.set {α : Type} [DecidableEq α] (d : α) (m : Store α) (k : Nat) (v : α) : Store α :=
  if v = d then Store.del m k else Store.put m k v

/-- Every listed key exceeds `k`. -/
def Store.above {α : Type} (k : Nat) (m : Store α) : Bool := m.all fun e => decide (k < e.1)

/-- Keys strictly rising. -/
def Store.rising {α : Type} : Store α → Bool
  | [] => true
  | (k, _) :: m => Store.above k m && Store.rising m

/-- The canonical form against the default `d` of each key. -/
def Store.wf {α : Type} [DecidableEq α] (d : Nat → α) (m : Store α) : Bool :=
  Store.rising m && m.all fun e => decide (e.2 ≠ d e.1)

/-- Writes the values of `vs` at `k`, `k + 1`, … -/
def Store.setMany {α : Type} [DecidableEq α] (d : α) (m : Store α) (k : Nat) : List α → Store α
  | [] => m
  | v :: vs => Store.setMany d (Store.set d m k v) (k + 1) vs

/-- The `n` values at `k`, `k + 1`, … -/
def Store.getMany {α : Type} (d : α) (m : Store α) (k : Nat) : Nat → List α
  | 0 => []
  | n + 1 => Store.get d m k :: Store.getMany d m (k + 1) n

/-- Keeps the entries whose key satisfies `p`. -/
def Store.keep {α : Type} (p : Nat → Bool) (m : Store α) : Store α := m.filter fun e => p e.1

end Sys2Proof.Machine
end

