-- ==== Sys2Proof/Machine/AttrTable.lean ====
section
/-! DEFINITION. The object dictionary as data (R571 to R580): for every class the attributes with their
instance runs, type, element count, access, default and permitted values. Each class table is the defining
table of its chapter, in the order the directory gives it (R579). A default the spec prints as a dash
stands as 0 here; where such an attribute can be read, the read supplies the value from its own source. -/

namespace Sys2Proof.Machine

/-- Last instance of a run (R571, R572): fixed, the last source slot, an offset plus the last destination,
or the last in-strip of the family. -/
inductive Bound where
  | fix (n : Nat)
  | src
  | dst (base : Nat)
  | ins
deriving DecidableEq, Repr

/-- How many elements an attribute has (R574). -/
inductive Len where
  | scalar
  | arr (n : Nat)
  | perDst
  | dyn
deriving DecidableEq, Repr

/-- Access codes (R575). -/
inductive Acc where
  | r | w | rw | rwc | x
deriving DecidableEq, Repr

/-- Permitted values of a written attribute. -/
inductive Vals where
  | any
  | rng (lo hi : Int)
  | rngOr (lo hi also_ : Int)
  | among (l : List Int)
  | step (lo hi by_ : Int)
deriving DecidableEq, Repr

/-- One attribute over one run of instances. -/
structure ARow where
  attr : Nat
  first : Nat
  last : Bound
  ty : Nat
  len : Len
  acc : Acc
  dflt : Int
  vals : Vals
deriving DecidableEq, Repr

/-- Class 0x01, Identity attributes (R577). -/
def rowsIdentity : List ARow := [
  ⟨1, 0, .fix 0, 11, .arr 16, .r, 0, .any⟩,  -- vendor
  ⟨2, 0, .fix 0, 11, .arr 16, .r, 0, .any⟩,  -- part
  ⟨3, 0, .fix 0, 2, .scalar, .r, 0, .any⟩,  -- stepping
  ⟨4, 0, .fix 0, 4, .scalar, .r, 0, .any⟩,  -- uid
  ⟨5, 0, .fix 0, 3, .scalar, .r, 0, .any⟩,  -- rom_version
  ⟨6, 0, .fix 0, 3, .scalar, .r, 0, .any⟩,  -- fw_version
  ⟨7, 0, .fix 0, 2, .scalar, .r, 1, .any⟩,  -- dictionary_version
  ⟨8, 0, .fix 0, 3, .scalar, .r, 0, .any⟩,  -- directory_count
  ⟨9, 0, .fix 0, 12, .dyn, .r, 0, .any⟩]  -- directory

/-- Class 0x02, Session attributes (R463). -/
def rowsSession : List ARow := [
  ⟨1, 0, .fix 7, 1, .arr 32, .w, 0, .any⟩,  -- key
  ⟨1, 65535, .fix 0xFFFF, 1, .arr 17, .x, 0, .any⟩,  -- open_session
  ⟨2, 0, .fix 7, 1, .scalar, .r, 0, .any⟩,  -- key_present
  ⟨2, 65535, .fix 0xFFFF, 2, .scalar, .x, 0, .any⟩,  -- close_session
  ⟨3, 0, .fix 7, 1, .scalar, .x, 0, .any⟩,  -- key_erase
  ⟨3, 65535, .fix 0xFFFF, 1, .scalar, .r, 0, .any⟩,  -- sessions_open
  ⟨4, 65535, .fix 0xFFFF, 1, .arr 5, .rw, 0, .rng 0 2⟩,  -- auth_policy
  ⟨5, 65535, .fix 0xFFFF, 3, .scalar, .r, 0, .any⟩,  -- auth_failures
  ⟨6, 65535, .fix 0xFFFF, 1, .scalar, .x, 0, .any⟩]  -- clear_counts

/-- Class 0x03, Status attributes (R464). -/
def rowsStatus : List ARow := [
  ⟨1, 0, .fix 0, 2, .scalar, .r, 0, .any⟩,  -- summary
  ⟨2, 0, .fix 0, 3, .scalar, .r, 0, .any⟩,  -- log_newest
  ⟨3, 0, .fix 0, 3, .scalar, .r, 0, .any⟩,  -- log_oldest
  ⟨4, 0, .fix 0, 12, .dyn, .r, 0, .any⟩]  -- log

/-- Class 0x04, Ticket attributes (R465). -/
def rowsTicket : List ARow := [
  ⟨1, 0, .fix 15, 3, .scalar, .r, 0, .any⟩,  -- ticket
  ⟨1, 65535, .fix 0xFFFF, 4, .dyn, .r, 0, .any⟩,  -- query
  ⟨2, 0, .fix 15, 1, .scalar, .r, 0, .any⟩,  -- state
  ⟨3, 0, .fix 15, 1, .scalar, .r, 0, .any⟩,  -- result
  ⟨4, 0, .fix 15, 3, .scalar, .r, 0, .any⟩]  -- origin

/-- Class 0x10, Engine attributes (R37). -/
def rowsEngine : List ARow := [
  ⟨1, 0, .fix 0, 1, .scalar, .rwc, 0, .rng 0 2⟩,  -- family
  ⟨2, 0, .fix 0, 1, .scalar, .rwc, 1, .rng 0 1⟩,  -- rate_base
  ⟨3, 0, .fix 0, 1, .scalar, .rwc, 8, .among [4, 8, 16]⟩,  -- block_size
  ⟨4, 0, .fix 0, 1, .scalar, .rwc, 0, .rng 0 1⟩,  -- shape
  ⟨5, 0, .fix 0, 1, .scalar, .r, 0, .any⟩,  -- state
  ⟨6, 0, .fix 0, 1, .scalar, .x, 0, .any⟩,  -- go
  ⟨7, 0, .fix 0, 2, .arr 7, .r, 0, .any⟩,  -- admitted_load
  ⟨8, 0, .fix 0, 2, .arr 7, .r, 0, .any⟩,  -- peak_load
  ⟨9, 0, .fix 0, 4, .scalar, .r, 0, .any⟩,  -- block_count
  ⟨10, 0, .fix 0, 3, .scalar, .r, 0, .any⟩,  -- deadline_misses
  ⟨11, 0, .fix 0, 1, .scalar, .x, 0, .any⟩,  -- clear_counts
  ⟨12, 0, .fix 0, 2, .scalar, .r, 9000, .any⟩]  -- admission_limit

/-- Class 0x11, Placement attributes (R206). -/
def rowsPlacement : List ARow := [
  ⟨1, 0, .fix 0, 3, .arr 64, .rw, 0, .any⟩,  -- in_strip_map
  ⟨2, 0, .fix 0, 3, .arr 64, .rw, 0, .any⟩,  -- out_strip_map
  ⟨3, 0, .fix 0, 1, .scalar, .rw, 2, .rng 0 8⟩,  -- spare_cores
  ⟨4, 0, .fix 0, 1, .scalar, .rw, 0, .rng 0 1⟩,  -- migration_policy
  ⟨5, 0, .fix 0, 1, .arr 2048, .r, 255, .any⟩,  -- in_strip_lane
  ⟨6, 0, .fix 0, 1, .arr 2048, .r, 255, .any⟩,  -- out_strip_lane
  ⟨7, 0, .fix 0, 1, .arr 256, .r, 255, .any⟩,  -- module_core
  ⟨8, 0, .fix 0, 2, .arr 24, .r, 0, .any⟩,  -- lane_load
  ⟨9, 0, .fix 0, 2, .arr 48, .r, 0, .any⟩,  -- core_load
  ⟨10, 0, .fix 0, 4, .scalar, .r, 0, .any⟩,  -- retired_cores
  ⟨11, 0, .fix 0, 1, .scalar, .r, 48, .any⟩,  -- spare_now
  ⟨12, 0, .fix 0, 2, .scalar, .r, 0, .any⟩,  -- plan_pending
  ⟨13, 0, .fix 0, 3, .scalar, .r, 0, .any⟩,  -- moves_done
  ⟨14, 0, .fix 0, 3, .scalar, .r, 0, .any⟩,  -- retirements
  ⟨15, 0, .fix 0, 3, .arr 16, .r, 262144, .any⟩,  -- bank_free
  ⟨16, 0, .fix 0, 4, .scalar, .r, 0, .any⟩,  -- deep_free
  ⟨17, 0, .fix 0, 4, .scalar, .r, 0, .any⟩,  -- deep_zeroing
  ⟨18, 0, .fix 0, 1, .scalar, .x, 0, .any⟩,  -- defragment
  ⟨19, 0, .fix 0, 1, .scalar, .x, 0, .any⟩,  -- reinstate_core
  ⟨20, 0, .fix 0, 1, .scalar, .x, 0, .any⟩]  -- clear_counts

/-- Class 0x20, Node attributes (R89). -/
def rowsNode : List ARow := [
  ⟨1, 0, .src, 8, .perDst, .rw, 0, .any⟩,  -- gain
  ⟨2, 0, .src, 5, .perDst, .rw, -32768, .rng (-32768) 2408⟩,  -- gain_cdb
  ⟨3, 0, .src, 8, .perDst, .rw, 0, .any⟩,  -- idle_gain
  ⟨4, 0, .src, 5, .perDst, .rw, -32768, .rng (-32768) 2408⟩,  -- idle_gain_cdb
  ⟨5, 0, .src, 8, .perDst, .r, 0, .any⟩,  -- gain_now
  ⟨6, 0, .src, 1, .perDst, .r, 0, .any⟩]  -- ramping

/-- Class 0x21, Source attributes (R90). -/
def rowsSource : List ARow := [
  ⟨1, 0, .src, 3, .scalar, .rw, 0, .any⟩,  -- occupant
  ⟨2, 0, .src, 3, .scalar, .rw, 5000, .rng 0 10000000⟩,  -- swap_time
  ⟨3, 0, .src, 1, .scalar, .r, 1, .any⟩,  -- gated
  ⟨4, 0, .src, 1, .scalar, .r, 0, .any⟩]  -- swapping

/-- Class 0x22, Destination attributes (R91). -/
def rowsDestination : List ARow := [
  ⟨1, 0, .dst 0, 3, .scalar, .r, 0, .any⟩,  -- sum_sat_count
  ⟨2, 0, .dst 0, 2, .scalar, .r, 65535, .any⟩,  -- return_slot
  ⟨3, 0, .dst 0, 1, .scalar, .x, 0, .any⟩]  -- clear_sat

/-- Class 0x23, Plane attributes (R92). -/
def rowsPlane : List ARow := [
  ⟨1, 0, .fix 0, 1, .scalar, .r, 0, .any⟩,  -- live_plane
  ⟨2, 0, .fix 0, 1, .scalar, .r, 0, .any⟩,  -- strike_state
  ⟨3, 0, .fix 0, 1, .scalar, .r, 0, .any⟩,  -- idle_busy
  ⟨4, 0, .fix 0, 3, .scalar, .rw, 5000, .rng 0 10000000⟩,  -- strike_time
  ⟨5, 0, .fix 0, 1, .scalar, .rw, 0, .rng 0 1⟩,  -- strike_law
  ⟨6, 0, .fix 0, 1, .scalar, .x, 0, .any⟩,  -- strike
  ⟨7, 0, .fix 0, 1, .scalar, .x, 0, .any⟩,  -- cancel_strike
  ⟨8, 0, .fix 0, 1, .scalar, .x, 0, .any⟩,  -- copy_live_to_idle
  ⟨9, 0, .fix 0, 1, .scalar, .x, 0, .any⟩,  -- clear_idle
  ⟨10, 0, .fix 0, 3, .scalar, .r, 0, .any⟩,  -- strike_count
  ⟨11, 0, .fix 0, 3, .scalar, .r, 0, .any⟩,  -- strike_position
  ⟨12, 0, .fix 0, 2, .scalar, .r, 0, .any⟩,  -- gated_rows
  ⟨13, 0, .fix 0, 3, .scalar, .r, 0, .any⟩,  -- plane_write_rejects
  ⟨14, 0, .fix 0, 1, .scalar, .x, 0, .any⟩]  -- clear_counts

/-- Class 0x28, Bellows attributes (R134). -/
def rowsBellows : List ARow := [
  ⟨1, 0, .fix 0, 3, .scalar, .rw, 5000, .rng 0 10000000⟩,  -- default_ramp_time
  ⟨2, 0, .fix 0, 1, .scalar, .rw, 0, .rng 0 2⟩,  -- default_ramp_shape
  ⟨3, 0, .fix 0, 3, .scalar, .rw, 10000, .rng 1000 100000⟩,  -- zc_timeout
  ⟨4, 0, .fix 0, 3, .scalar, .rw, 5000, .rng 0 1000000⟩,  -- hold_fade_time
  ⟨5, 0, .fix 0, 1, .scalar, .rw, 0, .rng 0 1⟩,  -- late_policy
  ⟨6, 0, .fix 0, 2, .scalar, .r, 0, .any⟩,  -- slots_in_use
  ⟨7, 0, .fix 0, 2, .scalar, .r, 0, .any⟩,  -- slots_peak
  ⟨8, 0, .fix 0, 2, .scalar, .r, 0, .any⟩,  -- queue_depth
  ⟨9, 0, .fix 0, 2, .scalar, .r, 0, .any⟩,  -- queue_peak
  ⟨10, 0, .fix 0, 3, .scalar, .r, 0, .any⟩,  -- ramp_full_count
  ⟨11, 0, .fix 0, 3, .scalar, .r, 0, .any⟩,  -- zc_timeouts
  ⟨12, 0, .fix 0, 2, .scalar, .r, 0, .any⟩,  -- timed_pending
  ⟨13, 0, .fix 0, 3, .scalar, .r, 0, .any⟩,  -- late_count
  ⟨14, 0, .fix 0, 10, .scalar, .x, 0, .any⟩,  -- cancel_timed
  ⟨15, 0, .fix 0, 1, .scalar, .x, 0, .any⟩]  -- clear_counts

/-- Class 0x30, InStrip attributes (R173, R174). -/
def rowsInStrip : List ARow := [
  ⟨1, 0, .ins, 3, .scalar, .rw, 0, .any⟩,  -- input
  ⟨2, 0, .ins, 2, .scalar, .rw, 65535, .any⟩,  -- source
  ⟨3, 0, .ins, 5, .scalar, .rw, 0, .rng (-2400) 2400⟩,  -- trim
  ⟨4, 0, .ins, 1, .scalar, .rw, 0, .rng 0 1⟩,  -- polarity
  ⟨5, 0, .ins, 5, .scalar, .rw, 0, .rng 0 7500⟩,  -- preamp_gain
  ⟨6, 0, .ins, 3, .scalar, .r, 0, .any⟩,  -- preamp_released
  ⟨7, 0, .ins, 3, .scalar, .rw, 0, .any⟩,  -- insert
  ⟨8, 0, .ins, 1, .scalar, .rw, 0, .rng 0 1⟩,  -- insert_bypass
  ⟨16, 0, .ins, 8, .scalar, .rw, 524288, .any⟩,  -- fader
  ⟨17, 0, .ins, 5, .scalar, .rw, 0, .rng (-32768) 2408⟩,  -- fader_cdb
  ⟨18, 0, .ins, 1, .scalar, .rw, 0, .rng 0 1⟩,  -- cut
  ⟨19, 0, .ins, 6, .arr 60, .rw, 0, .any⟩,  -- coef
  ⟨20, 0, .ins, 2, .scalar, .rw, 4095, .rng 0 4095⟩,  -- section_bypass
  ⟨21, 0, .ins, 1, .scalar, .rw, 0, .rng 0 1⟩,  -- delay_enable
  ⟨22, 0, .ins, 3, .scalar, .rw, 0, .any⟩,  -- delay
  ⟨23, 0, .ins, 3, .scalar, .r, 0, .any⟩,  -- sat_count
  ⟨24, 0, .ins, 1, .scalar, .x, 0, .any⟩,  -- clear_sat
  ⟨32, 0, .ins, 1, .scalar, .rw, 0, .rng 0 1⟩,  -- comp_enable
  ⟨33, 0, .ins, 5, .scalar, .rw, -2000, .rng (-6000) 2000⟩,  -- comp_threshold
  ⟨34, 0, .ins, 2, .scalar, .rw, 400, .rngOr (100) 10000 65535⟩,  -- comp_ratio
  ⟨35, 0, .ins, 2, .scalar, .rw, 600, .rng 0 2400⟩,  -- comp_knee
  ⟨36, 0, .ins, 3, .scalar, .rw, 10000, .rng 20 300000⟩,  -- comp_attack
  ⟨37, 0, .ins, 3, .scalar, .rw, 100000, .rng 5000 5000000⟩,  -- comp_release
  ⟨38, 0, .ins, 5, .scalar, .rw, 0, .rng 0 2400⟩,  -- comp_makeup
  ⟨39, 0, .ins, 1, .scalar, .rw, 0, .rng 0 1⟩,  -- comp_detector
  ⟨40, 0, .ins, 3, .scalar, .rw, 0, .any⟩,  -- comp_key
  ⟨41, 0, .ins, 6, .arr 5, .rw, 0, .any⟩,  -- comp_key_coef
  ⟨42, 0, .ins, 5, .scalar, .r, 0, .any⟩,  -- comp_gain
  ⟨48, 0, .ins, 1, .scalar, .rw, 0, .rng 0 1⟩,  -- gate_enable
  ⟨49, 0, .ins, 5, .scalar, .rw, -6000, .rng (-12000) 0⟩,  -- gate_threshold
  ⟨50, 0, .ins, 2, .scalar, .rw, 8000, .rng 0 12000⟩,  -- gate_range
  ⟨51, 0, .ins, 2, .scalar, .rw, 65535, .rngOr (100) 10000 65535⟩,  -- gate_ratio
  ⟨52, 0, .ins, 3, .scalar, .rw, 500, .rng 20 100000⟩,  -- gate_attack
  ⟨53, 0, .ins, 3, .scalar, .rw, 50000, .rng 0 5000000⟩,  -- gate_hold
  ⟨54, 0, .ins, 3, .scalar, .rw, 200000, .rng 5000 5000000⟩,  -- gate_release
  ⟨55, 0, .ins, 5, .scalar, .r, 0, .any⟩]  -- gate_gain

/-- Class 0x31, OutStrip attributes (R173, R175). -/
def rowsOutStrip : List ARow := [
  ⟨1, 0, .dst 0, 1, .scalar, .rw, 0, .rng 0 1⟩,  -- quench_enable
  ⟨2, 0, .dst 0, 5, .scalar, .rw, -100, .rng (-2000) 0⟩,  -- quench_ceiling
  ⟨3, 0, .dst 0, 3, .scalar, .rw, 100000, .rng 1000 2000000⟩,  -- quench_release
  ⟨4, 0, .dst 0, 5, .scalar, .r, 0, .any⟩,  -- quench_gain
  ⟨5, 0, .dst 0, 1, .scalar, .rw, 0, .rng 0 2⟩,  -- dither
  ⟨6, 0, .dst 0, 3, .scalar, .r, 0, .any⟩,  -- conv_sat_count
  ⟨16, 0, .dst 0, 8, .scalar, .rw, 524288, .any⟩,  -- fader
  ⟨17, 0, .dst 0, 5, .scalar, .rw, 0, .rng (-32768) 2408⟩,  -- fader_cdb
  ⟨18, 0, .dst 0, 1, .scalar, .rw, 0, .rng 0 1⟩,  -- cut
  ⟨19, 0, .dst 0, 6, .arr 80, .rw, 0, .any⟩,  -- coef
  ⟨20, 0, .dst 0, 2, .scalar, .rw, 65535, .any⟩,  -- section_bypass
  ⟨21, 0, .dst 0, 1, .scalar, .rw, 0, .rng 0 1⟩,  -- delay_enable
  ⟨22, 0, .dst 0, 3, .scalar, .rw, 0, .any⟩,  -- delay
  ⟨23, 0, .dst 0, 3, .scalar, .r, 0, .any⟩,  -- sat_count
  ⟨24, 0, .dst 0, 1, .scalar, .x, 0, .any⟩,  -- clear_sat
  ⟨32, 0, .dst 0, 1, .scalar, .rw, 0, .rng 0 1⟩,  -- comp_enable
  ⟨33, 0, .dst 0, 5, .scalar, .rw, -2000, .rng (-6000) 2000⟩,  -- comp_threshold
  ⟨34, 0, .dst 0, 2, .scalar, .rw, 400, .rngOr (100) 10000 65535⟩,  -- comp_ratio
  ⟨35, 0, .dst 0, 2, .scalar, .rw, 600, .rng 0 2400⟩,  -- comp_knee
  ⟨36, 0, .dst 0, 3, .scalar, .rw, 10000, .rng 20 300000⟩,  -- comp_attack
  ⟨37, 0, .dst 0, 3, .scalar, .rw, 100000, .rng 5000 5000000⟩,  -- comp_release
  ⟨38, 0, .dst 0, 5, .scalar, .rw, 0, .rng 0 2400⟩,  -- comp_makeup
  ⟨39, 0, .dst 0, 1, .scalar, .rw, 0, .rng 0 1⟩,  -- comp_detector
  ⟨40, 0, .dst 0, 3, .scalar, .rw, 0, .any⟩,  -- comp_key
  ⟨41, 0, .dst 0, 6, .arr 5, .rw, 0, .any⟩,  -- comp_key_coef
  ⟨42, 0, .dst 0, 5, .scalar, .r, 0, .any⟩]  -- comp_gain

/-- Class 0x32, Meter attributes (R176). -/
def rowsMeter : List ARow := [
  ⟨1, 0, .ins, 5, .scalar, .r, -32768, .any⟩,  -- peak
  ⟨1, 4096, .dst 0x1000, 5, .scalar, .r, -32768, .any⟩,  -- peak
  ⟨1, 8192, .dst 0x2000, 5, .scalar, .r, -32768, .any⟩,  -- peak
  ⟨1, 65535, .fix 0xFFFF, 3, .scalar, .rw, 1000, .rng 0 10000⟩,  -- peak_hold
  ⟨2, 0, .ins, 5, .scalar, .r, -32768, .any⟩,  -- rms
  ⟨2, 4096, .dst 0x1000, 5, .scalar, .r, -32768, .any⟩,  -- rms
  ⟨2, 8192, .dst 0x2000, 5, .scalar, .r, -32768, .any⟩,  -- rms
  ⟨2, 65535, .fix 0xFFFF, 2, .scalar, .rw, 200, .rng 10 1000⟩,  -- peak_fall
  ⟨3, 0, .ins, 5, .scalar, .r, -32768, .any⟩,  -- max_peak
  ⟨3, 4096, .dst 0x1000, 5, .scalar, .r, -32768, .any⟩,  -- max_peak
  ⟨3, 8192, .dst 0x2000, 5, .scalar, .r, -32768, .any⟩,  -- max_peak
  ⟨3, 65535, .fix 0xFFFF, 3, .scalar, .rw, 300, .rng 10 3000⟩,  -- rms_window
  ⟨4, 0, .ins, 3, .scalar, .r, 0, .any⟩,  -- overs
  ⟨4, 4096, .dst 0x1000, 3, .scalar, .r, 0, .any⟩,  -- overs
  ⟨4, 8192, .dst 0x2000, 3, .scalar, .r, 0, .any⟩,  -- overs
  ⟨5, 8192, .dst 0x2000, 5, .scalar, .r, -32768, .any⟩,  -- true_peak
  ⟨6, 8192, .dst 0x2000, 5, .scalar, .r, -32768, .any⟩,  -- max_true_peak
  ⟨7, 0, .ins, 1, .scalar, .rw, 3, .rng 1 3⟩,  -- tap
  ⟨8, 0, .ins, 1, .scalar, .x, 0, .any⟩,  -- clear
  ⟨8, 4096, .dst 0x1000, 1, .scalar, .x, 0, .any⟩,  -- clear
  ⟨8, 8192, .dst 0x2000, 1, .scalar, .x, 0, .any⟩]  -- clear

/-- Class 0x33, Loudness attributes (R177). -/
def rowsLoudness : List ARow := [
  ⟨1, 0, .fix 63, 3, .arr 24, .rw, 0, .any⟩,  -- channels
  ⟨2, 0, .fix 63, 2, .arr 24, .rw, 1000, .rng 0 2000⟩,  -- weights
  ⟨3, 0, .fix 63, 5, .scalar, .r, -32768, .any⟩,  -- momentary
  ⟨4, 0, .fix 63, 5, .scalar, .r, -32768, .any⟩,  -- short_term
  ⟨5, 0, .fix 63, 5, .scalar, .r, -32768, .any⟩,  -- integrated
  ⟨6, 0, .fix 63, 5, .scalar, .r, -32768, .any⟩,  -- max_momentary
  ⟨7, 0, .fix 63, 5, .scalar, .r, -32768, .any⟩,  -- max_short_term
  ⟨8, 0, .fix 63, 1, .scalar, .r, 0, .any⟩,  -- running
  ⟨9, 0, .fix 63, 3, .scalar, .r, 0, .any⟩,  -- integrated_time
  ⟨10, 0, .fix 63, 1, .scalar, .x, 0, .any⟩,  -- start
  ⟨11, 0, .fix 63, 1, .scalar, .x, 0, .any⟩,  -- stop
  ⟨12, 0, .fix 63, 1, .scalar, .x, 0, .any⟩]  -- reset

/-- Class 0x34, Silence attributes (R178). -/
def rowsSilence : List ARow := [
  ⟨1, 0, .fix 255, 3, .scalar, .rw, 0, .any⟩,  -- tap
  ⟨1, 65535, .fix 0xFFFF, 2, .scalar, .rw, 0, .any⟩,  -- pin_polarity
  ⟨2, 0, .fix 255, 5, .scalar, .rw, -9000, .rng (-14400) 0⟩,  -- threshold
  ⟨2, 65535, .fix 0xFFFF, 2, .scalar, .r, 0, .any⟩,  -- pin_state
  ⟨3, 0, .fix 255, 3, .scalar, .rw, 5000, .rng 0 60000⟩,  -- hold
  ⟨4, 0, .fix 255, 1, .scalar, .rw, 255, .rngOr (0) 15 255⟩,  -- pin
  ⟨5, 0, .fix 255, 1, .scalar, .rw, 0, .rng 0 2⟩,  -- severity
  ⟨6, 0, .fix 255, 1, .scalar, .r, 0, .any⟩]  -- state

/-- Class 0x40, Core attributes (R249). -/
def rowsCore : List ARow := [
  ⟨1, 0, .fix 47, 1, .scalar, .r, 0, .any⟩,  -- status
  ⟨2, 0, .fix 47, 1, .scalar, .r, 0, .any⟩,  -- module_count
  ⟨3, 0, .fix 47, 3, .scalar, .r, 0, .any⟩,  -- overruns
  ⟨4, 0, .fix 47, 1, .scalar, .r, 0, .any⟩,  -- overruns_recent
  ⟨5, 0, .fix 47, 3, .scalar, .r, 0, .any⟩,  -- cycles_last
  ⟨6, 0, .fix 47, 3, .scalar, .r, 0, .any⟩,  -- cycles_peak
  ⟨7, 0, .fix 47, 3, .scalar, .r, 0, .any⟩,  -- ev_coalesced
  ⟨8, 0, .fix 47, 3, .scalar, .r, 0, .any⟩,  -- window_rejects
  ⟨9, 0, .fix 47, 1, .scalar, .x, 0, .any⟩]  -- clear_counts

/-- Class 0x41, Module attributes (R250). -/
def rowsModule : List ARow := [
  ⟨1, 0, .fix 255, 12, .dyn, .rw, 0, .any⟩,  -- image
  ⟨2, 0, .fix 255, 1, .scalar, .x, 0, .any⟩,  -- load
  ⟨3, 0, .fix 255, 1, .scalar, .x, 0, .any⟩,  -- unload
  ⟨4, 0, .fix 255, 1, .scalar, .r, 0, .any⟩,  -- state
  ⟨5, 0, .fix 255, 11, .arr 16, .r, 0, .any⟩,  -- name
  ⟨6, 0, .fix 255, 3, .scalar, .r, 0, .any⟩,  -- module_version
  ⟨7, 0, .fix 255, 3, .scalar, .r, 0, .any⟩,  -- image_crc
  ⟨8, 0, .fix 255, 1, .scalar, .r, 0, .any⟩,  -- n_in
  ⟨9, 0, .fix 255, 1, .scalar, .r, 0, .any⟩,  -- n_out
  ⟨10, 0, .fix 255, 3, .arr 64, .rw, 0, .any⟩,  -- in_src
  ⟨11, 0, .fix 255, 6, .dyn, .rw, 0, .rng (-8388608) 8388607⟩,  -- const
  ⟨12, 0, .fix 255, 3, .scalar, .r, 0, .any⟩,  -- declared_cycles
  ⟨13, 0, .fix 255, 3, .scalar, .r, 0, .any⟩,  -- cycles_peak
  ⟨14, 0, .fix 255, 3, .scalar, .r, 0, .any⟩,  -- overruns
  ⟨15, 0, .fix 255, 1, .scalar, .r, 0, .any⟩,  -- last_overrun
  ⟨16, 0, .fix 255, 1, .scalar, .r, 0, .any⟩,  -- last_fault
  ⟨17, 0, .fix 255, 3, .scalar, .r, 0, .any⟩,  -- port_sat
  ⟨18, 0, .fix 255, 1, .scalar, .x, 0, .any⟩]  -- clear_counts

/-- Class 0x48, Tongs attributes (R332). -/
def rowsTongs : List ARow := [
  ⟨1, 0, .fix 15, 1, .scalar, .r, 0, .any⟩,  -- level
  ⟨1, 65535, .fix 0xFFFF, 1, .arr 256, .r, 255, .any⟩,  -- module_channel
  ⟨2, 0, .fix 15, 1, .scalar, .r, 0, .any⟩,  -- owner
  ⟨2, 65535, .fix 0xFFFF, 3, .scalar, .r, 0, .any⟩,  -- tongs_resets
  ⟨3, 0, .fix 15, 1, .scalar, .r, 0, .any⟩,  -- state
  ⟨3, 65535, .fix 0xFFFF, 1, .scalar, .x, 0, .any⟩,  -- clear_counts
  ⟨4, 0, .fix 15, 1, .scalar, .r, 0, .any⟩,  -- queue_depth
  ⟨5, 0, .fix 15, 3, .scalar, .r, 0, .any⟩,  -- descriptors
  ⟨6, 0, .fix 15, 4, .scalar, .r, 0, .any⟩,  -- bytes
  ⟨7, 0, .fix 15, 3, .scalar, .r, 0, .any⟩,  -- preemptions
  ⟨8, 0, .fix 15, 3, .scalar, .r, 0, .any⟩,  -- desc_errors
  ⟨9, 0, .fix 15, 1, .scalar, .r, 0, .any⟩,  -- last_error
  ⟨10, 0, .fix 15, 3, .scalar, .r, 0, .any⟩,  -- overlap_runs
  ⟨11, 0, .fix 15, 3, .scalar, .r, 0, .any⟩,  -- reverse_runs
  ⟨12, 0, .fix 15, 3, .scalar, .r, 0, .any⟩,  -- overshoot_bursts
  ⟨13, 0, .fix 15, 3, .scalar, .r, 0, .any⟩,  -- budget_pauses
  ⟨14, 0, .fix 15, 3, .scalar, .r, 0, .any⟩,  -- idle_triggers
  ⟨15, 0, .fix 15, 3, .scalar, .r, 0, .any⟩,  -- queue_drops
  ⟨16, 0, .fix 15, 1, .scalar, .x, 0, .any⟩]  -- clear_counts

/-- Class 0x4C, Memory attributes (R304). -/
def rowsMemory : List ARow := [
  ⟨1, 0, .fix 15, 3, .scalar, .r, 0, .any⟩,  -- conflict_stalls
  ⟨1, 256, .fix 0x0100, 3, .arr 92, .r, 0, .any⟩,  -- ce
  ⟨1, 512, .fix 0x0200, 4, .scalar, .r, 0, .any⟩,  -- fitted_bytes
  ⟨1, 768, .fix 0x0300, 1, .arr 24, .rwc, 255, .rngOr (0) 4 255⟩,  -- park_master
  ⟨2, 0, .fix 15, 3, .scalar, .r, 0, .any⟩,  -- atomic_sat
  ⟨2, 256, .fix 0x0100, 3, .arr 92, .r, 0, .any⟩,  -- ue
  ⟨2, 512, .fix 0x0200, 4, .scalar, .r, 0, .any⟩,  -- usable_bytes
  ⟨2, 768, .fix 0x0300, 3, .arr 5, .r, 0, .any⟩,  -- decode_errors
  ⟨3, 0, .fix 15, 1, .scalar, .x, 0, .any⟩,  -- clear_counts
  ⟨3, 256, .fix 0x0100, 4, .scalar, .r, 0, .any⟩,  -- last_ce_addr
  ⟨3, 512, .fix 0x0200, 3, .scalar, .r, 0, .any⟩,  -- ce
  ⟨3, 768, .fix 0x0300, 3, .scalar, .r, 0, .any⟩,  -- protect_rejects
  ⟨4, 256, .fix 0x0100, 4, .scalar, .r, 0, .any⟩,  -- last_ue_addr
  ⟨4, 512, .fix 0x0200, 3, .scalar, .r, 0, .any⟩,  -- ue
  ⟨4, 768, .fix 0x0300, 3, .scalar, .r, 0, .any⟩,  -- reset_completions
  ⟨5, 256, .fix 0x0100, 2, .scalar, .x, 0, .any⟩,  -- run
  ⟨5, 512, .fix 0x0200, 4, .scalar, .r, 0, .any⟩,  -- last_error_addr
  ⟨5, 768, .fix 0x0300, 1, .scalar, .x, 0, .any⟩,  -- clear_counts
  ⟨6, 256, .fix 0x0100, 3, .arr 3, .r, 0, .any⟩,  -- fail_map
  ⟨6, 512, .fix 0x0200, 1, .scalar, .x, 0, .any⟩,  -- clear_counts
  ⟨7, 256, .fix 0x0100, 4, .scalar, .r, 0, .any⟩,  -- last_fail
  ⟨8, 256, .fix 0x0100, 1, .scalar, .rw, 1, .rng 0 1⟩,  -- startup_march
  ⟨9, 256, .fix 0x0100, 1, .scalar, .x, 0, .any⟩]  -- clear_counts

/-- Class 0x50, Reference attributes (R361). -/
def rowsReference : List ARow := [
  ⟨1, 0, .fix 7, 1, .scalar, .r, 0, .any⟩,  -- kind
  ⟨2, 0, .fix 7, 1, .scalar, .rw, 0, .rng 0 1⟩,  -- enable
  ⟨3, 0, .fix 3, 3, .scalar, .rw, 48000, .rng 1 25000000⟩,  -- nominal_hz
  ⟨4, 0, .fix 3, 1, .scalar, .rw, 0, .rng 0 1⟩,  -- edge
  ⟨5, 0, .fix 3, 2, .scalar, .rw, 33022, .any⟩,  -- quality
  ⟨5, 4, .fix 7, 2, .scalar, .r, 33022, .any⟩,  -- quality
  ⟨6, 0, .fix 7, 1, .scalar, .rw, 128, .any⟩,  -- priority
  ⟨7, 0, .fix 7, 2, .scalar, .rw, 30, .rng 0 3600⟩,  -- wtr_time
  ⟨8, 0, .fix 7, 1, .scalar, .r, 0, .any⟩,  -- status
  ⟨9, 0, .fix 7, 2, .scalar, .r, 0, .any⟩,  -- wtr_left
  ⟨10, 0, .fix 7, 6, .scalar, .r, 0, .any⟩,  -- freq_offset
  ⟨11, 0, .fix 7, 6, .scalar, .r, 0, .any⟩,  -- phase_offset
  ⟨12, 0, .fix 7, 1, .scalar, .x, 0, .any⟩,  -- clear_wtr
  ⟨13, 0, .fix 7, 3, .scalar, .r, 0, .any⟩,  -- disqualifications
  ⟨14, 4, .fix 7, 1, .scalar, .r, 255, .any⟩,  -- ptp_class
  ⟨15, 4, .fix 7, 1, .scalar, .r, 254, .any⟩,  -- ptp_accuracy
  ⟨16, 0, .fix 7, 1, .scalar, .x, 0, .any⟩]  -- clear_counts

/-- Class 0x51, Hearth attributes (R362). -/
def rowsHearth : List ARow := [
  ⟨1, 0, .fix 0, 1, .scalar, .r, 0, .any⟩,  -- state
  ⟨2, 0, .fix 0, 1, .scalar, .r, 255, .any⟩,  -- current
  ⟨3, 0, .fix 0, 1, .scalar, .r, 0, .any⟩,  -- switching
  ⟨4, 0, .fix 0, 1, .scalar, .rw, 0, .rng 0 2⟩,  -- mode
  ⟨5, 0, .fix 0, 1, .scalar, .rw, 0, .rng 0 7⟩,  -- forced_ref
  ⟨6, 0, .fix 0, 2, .scalar, .rw, 100, .rng 10 1000⟩,  -- bandwidth
  ⟨7, 0, .fix 0, 2, .scalar, .r, 0, .any⟩,  -- bandwidth_used
  ⟨8, 0, .fix 0, 3, .scalar, .rw, 2000, .rng 1 20000⟩,  -- freq_tolerance
  ⟨9, 0, .fix 0, 2, .scalar, .rw, 50, .rng 1 1000⟩,  -- disagree_tol
  ⟨10, 0, .fix 0, 3, .scalar, .rw, 1000, .rng 10 100000⟩,  -- lock_window
  ⟨11, 0, .fix 0, 3, .scalar, .rw, 10, .rng 0 10000⟩,  -- phase_walk
  ⟨12, 0, .fix 0, 3, .scalar, .rw, 1000, .rng 10 10000⟩,  -- acquire_rate
  ⟨13, 0, .fix 0, 3, .scalar, .rw, 86400, .rng 60 604800⟩,  -- holdover_limit
  ⟨14, 0, .fix 0, 3, .scalar, .r, 0, .any⟩,  -- holdover_elapsed
  ⟨15, 0, .fix 0, 6, .scalar, .r, 0, .any⟩,  -- steer
  ⟨16, 0, .fix 0, 6, .scalar, .r, 0, .any⟩,  -- absorbed_offset
  ⟨17, 0, .fix 0, 6, .scalar, .r, 0, .any⟩,  -- phase_error
  ⟨18, 0, .fix 0, 1, .scalar, .r, 0, .any⟩,  -- model_valid
  ⟨19, 0, .fix 0, 6, .arr 4, .r, 0, .any⟩,  -- model_coef
  ⟨20, 0, .fix 0, 5, .scalar, .r, 0, .any⟩,  -- model_t0
  ⟨21, 0, .fix 0, 5, .arr 2, .r, 0, .any⟩,  -- model_range
  ⟨22, 0, .fix 0, 3, .scalar, .r, 0, .any⟩,  -- model_history
  ⟨23, 0, .fix 0, 3, .scalar, .r, 0, .any⟩,  -- model_age
  ⟨24, 0, .fix 0, 3, .scalar, .r, 0, .any⟩,  -- model_rms
  ⟨25, 0, .fix 0, 6, .scalar, .r, 0, .any⟩,  -- hold_bias
  ⟨26, 0, .fix 0, 1, .scalar, .rw, 0, .rng 0 8⟩,  -- model_sensor
  ⟨27, 0, .fix 0, 5, .scalar, .rw, 2500, .rng (-4000) 12500⟩,  -- host_temperature
  ⟨28, 0, .fix 0, 3, .scalar, .rw, 300, .rng 0 3600⟩,  -- model_lag
  ⟨29, 0, .fix 0, 3, .scalar, .rw, 604800, .rng 86400 2592000⟩,  -- model_memory
  ⟨30, 0, .fix 0, 3, .scalar, .rw, 3600, .rng 600 86400⟩,  -- history_min
  ⟨31, 0, .fix 0, 1, .scalar, .x, 0, .any⟩,  -- model_reset
  ⟨32, 0, .fix 0, 3, .scalar, .r, 0, .any⟩,  -- switches
  ⟨33, 0, .fix 0, 3, .scalar, .r, 0, .any⟩,  -- lock_losses
  ⟨34, 0, .fix 0, 1, .scalar, .x, 0, .any⟩]  -- clear_counts

/-- Class 0x52, TimeBase attributes (R377). -/
def rowsTimeBase : List ARow := [
  ⟨1, 0, .fix 7, 1, .scalar, .rw, 0, .rng 0 1⟩,  -- enable
  ⟨1, 256, .fix 0x103, 1, .scalar, .rw, 1, .rng 0 1⟩,  -- enable
  ⟨2, 0, .fix 7, 1, .scalar, .rw, 0, .rng 0 4⟩,  -- source
  ⟨2, 256, .fix 0x103, 1, .scalar, .rw, 0, .rng 0 1⟩,  -- profile
  ⟨3, 0, .fix 7, 1, .scalar, .r, 0, .any⟩,  -- state
  ⟨3, 256, .fix 0x103, 1, .scalar, .rw, 127, .rng 0 127⟩,  -- domain
  ⟨4, 0, .fix 7, 10, .scalar, .r, 0, .any⟩,  -- now
  ⟨4, 256, .fix 0x103, 1, .scalar, .rw, 0, .rng 0 1⟩,  -- delay_req_mode
  ⟨5, 0, .fix 7, 3, .scalar, .r, 0, .any⟩,  -- tick_time
  ⟨5, 256, .fix 0x103, 1, .scalar, .rw, 3, .rng 2 10⟩,  -- announce_timeout
  ⟨6, 0, .fix 7, 7, .scalar, .rw, 0, .any⟩,  -- rate
  ⟨6, 256, .fix 0x103, 6, .scalar, .rw, 0, .rng (-1000000) 1000000⟩,  -- asymmetry
  ⟨7, 0, .fix 7, 3, .scalar, .rw, 50000, .rng 1 50000⟩,  -- max_rate
  ⟨7, 256, .fix 0x103, 1, .scalar, .r, 1, .any⟩,  -- port_state
  ⟨8, 0, .fix 7, 2, .scalar, .rw, 100, .rng 1 1000⟩,  -- servo_bw
  ⟨8, 256, .fix 0x103, 4, .scalar, .r, 0, .any⟩,  -- grandmaster
  ⟨9, 0, .fix 7, 3, .scalar, .rw, 10000, .rng 100 1000000000⟩,  -- capture_limit
  ⟨9, 256, .fix 0x103, 6, .scalar, .r, 0, .any⟩,  -- mean_path_delay
  ⟨10, 0, .fix 7, 7, .scalar, .r, 0, .any⟩,  -- offset
  ⟨10, 256, .fix 0x103, 5, .scalar, .r, 0, .any⟩,  -- sync_interval
  ⟨11, 0, .fix 7, 1, .scalar, .r, 0, .any⟩,  -- status
  ⟨11, 256, .fix 0x103, 3, .scalar, .r, 0, .any⟩,  -- bad_messages
  ⟨12, 0, .fix 7, 10, .scalar, .x, 0, .any⟩,  -- restep
  ⟨12, 256, .fix 0x103, 1, .scalar, .x, 0, .any⟩,  -- clear_counts
  ⟨13, 0, .fix 7, 3, .scalar, .r, 0, .any⟩,  -- steps
  ⟨14, 0, .fix 7, 3, .scalar, .r, 0, .any⟩,  -- holds
  ⟨15, 0, .fix 7, 4, .scalar, .r, 0, .any⟩,  -- master_id
  ⟨16, 0, .fix 7, 1, .scalar, .x, 0, .any⟩]  -- clear_counts

/-- Class 0x53, Domain attributes (R378). -/
def rowsDomain : List ARow := [
  ⟨1, 0, .fix 0, 1, .scalar, .r, 0, .rng 0 1⟩,  -- enable
  ⟨1, 1, .fix 15, 1, .scalar, .rw, 0, .rng 0 1⟩,  -- enable
  ⟨2, 0, .fix 0, 1, .scalar, .rwc, 0, .rng 0 7⟩,  -- time_base
  ⟨2, 1, .fix 15, 1, .scalar, .rw, 0, .rng 0 7⟩,  -- time_base
  ⟨3, 0, .fix 0, 1, .scalar, .r, 1, .rng 0 5⟩,  -- rate
  ⟨3, 1, .fix 15, 1, .scalar, .rw, 1, .rng 0 5⟩,  -- rate
  ⟨4, 0, .fix 15, 4, .scalar, .r, 0, .any⟩,  -- sample_count
  ⟨5, 0, .fix 15, 2, .scalar, .r, 0, .any⟩]  -- users

/-- Class 0x58, Sap attributes (R397, R398). -/
def rowsSap : List ARow := [
  ⟨1, 0, .fix 31, 1, .scalar, .rw, 0, .rng 0 1⟩,  -- enable
  ⟨1, 256, .fix 0x107, 3, .scalar, .r, 0, .any⟩,  -- port_members
  ⟨2, 0, .fix 31, 1, .scalar, .rw, 0, .rng 0 1⟩,  -- clocking
  ⟨2, 256, .fix 0x107, 1, .scalar, .r, 255, .any⟩,  -- domain
  ⟨3, 0, .fix 31, 1, .scalar, .rw, 0, .rng 0 1⟩,  -- format
  ⟨3, 256, .fix 0x107, 2, .scalar, .r, 65535, .any⟩,  -- reference
  ⟨4, 0, .fix 31, 1, .scalar, .rw, 32, .among [16, 24, 32]⟩,  -- slot
  ⟨4, 256, .fix 0x107, 3, .scalar, .r, 0, .any⟩,  -- slips_slow
  ⟨5, 0, .fix 31, 1, .scalar, .rw, 0, .rng 0 15⟩,  -- domain
  ⟨5, 256, .fix 0x107, 3, .scalar, .r, 0, .any⟩,  -- slips_fast
  ⟨6, 0, .fix 31, 1, .scalar, .rw, 255, .rngOr (0) 7 255⟩,  -- group
  ⟨6, 256, .fix 0x107, 1, .scalar, .x, 0, .any⟩,  -- clear_counts
  ⟨7, 0, .fix 31, 2, .arr 2, .rw, 65535, .any⟩,  -- out_src
  ⟨8, 0, .fix 31, 2, .scalar, .rw, 256, .rng 0 48000⟩,  -- hold_samples
  ⟨9, 0, .fix 31, 1, .scalar, .r, 0, .any⟩,  -- state
  ⟨10, 0, .fix 31, 1, .scalar, .r, 0, .any⟩,  -- status
  ⟨11, 0, .fix 31, 2, .scalar, .r, 512, .any⟩,  -- distance
  ⟨12, 0, .fix 31, 6, .scalar, .r, 0, .any⟩,  -- rate_offset
  ⟨13, 0, .fix 31, 3, .scalar, .r, 0, .any⟩,  -- slips_slow
  ⟨14, 0, .fix 31, 3, .scalar, .r, 0, .any⟩,  -- slips_fast
  ⟨15, 0, .fix 31, 3, .scalar, .r, 0, .any⟩,  -- underruns
  ⟨16, 0, .fix 31, 3, .scalar, .r, 0, .any⟩,  -- overruns
  ⟨17, 0, .fix 31, 3, .scalar, .r, 0, .any⟩,  -- rate_faults
  ⟨18, 0, .fix 31, 3, .scalar, .r, 0, .any⟩,  -- ws_glitches
  ⟨19, 0, .fix 31, 1, .scalar, .x, 0, .any⟩]  -- clear_counts

/-- Class 0x60, Port attributes (R429). -/
def rowsPort : List ARow := [
  ⟨1, 0, .fix 3, 1, .scalar, .rw, 0, .rng 0 1⟩,  -- enable
  ⟨2, 0, .fix 3, 1, .scalar, .rw, 0, .rng 0 1⟩,  -- mode
  ⟨3, 0, .fix 3, 1, .scalar, .r, 0, .any⟩,  -- link
  ⟨4, 0, .fix 3, 4, .scalar, .r, 0, .any⟩,  -- mac
  ⟨5, 0, .fix 3, 3, .scalar, .rw, 0, .any⟩,  -- ip_addr
  ⟨6, 0, .fix 3, 3, .scalar, .rw, 0, .any⟩,  -- ip_mask
  ⟨7, 0, .fix 3, 3, .scalar, .rw, 0, .any⟩,  -- gateway
  ⟨8, 0, .fix 3, 1, .scalar, .rw, 34, .rng 0 63⟩,  -- dscp_media
  ⟨9, 0, .fix 3, 1, .scalar, .rw, 46, .rng 0 63⟩,  -- dscp_ptp
  ⟨10, 0, .fix 3, 2, .scalar, .r, 0, .any⟩,  -- tx_admitted
  ⟨11, 0, .fix 3, 2, .scalar, .r, 0, .any⟩,  -- rx_admitted
  ⟨12, 0, .fix 3, 4, .scalar, .r, 0, .any⟩,  -- rx_frames
  ⟨13, 0, .fix 3, 4, .scalar, .r, 0, .any⟩,  -- tx_frames
  ⟨14, 0, .fix 3, 3, .scalar, .r, 0, .any⟩,  -- rx_errors
  ⟨15, 0, .fix 3, 3, .scalar, .r, 0, .any⟩,  -- rx_discards
  ⟨16, 0, .fix 3, 1, .scalar, .x, 0, .any⟩]  -- clear_counts

/-- Class 0x61, RxStream attributes (R430). -/
def rowsRxStream : List ARow := [
  ⟨1, 0, .fix 511, 1, .scalar, .rw, 0, .rng 0 1⟩,  -- enable
  ⟨2, 0, .fix 511, 1, .scalar, .rw, 0, .rng 0 4⟩,  -- port
  ⟨3, 0, .fix 511, 3, .arr 2, .rw, 0, .any⟩,  -- dst_addr
  ⟨4, 0, .fix 511, 3, .arr 2, .rw, 0, .any⟩,  -- src_addr
  ⟨5, 0, .fix 511, 2, .arr 2, .rw, 5004, .any⟩,  -- udp_port
  ⟨6, 0, .fix 511, 1, .scalar, .rw, 2, .rng 1 64⟩,  -- channels
  ⟨7, 0, .fix 511, 1, .scalar, .rw, 1, .rng 0 1⟩,  -- encoding
  ⟨8, 0, .fix 511, 1, .scalar, .rw, 3, .rng 0 3⟩,  -- packet_time
  ⟨9, 0, .fix 511, 1, .scalar, .rw, 97, .rng 96 127⟩,  -- payload_type
  ⟨10, 0, .fix 511, 1, .scalar, .rw, 0, .rng 0 15⟩,  -- domain
  ⟨11, 0, .fix 511, 3, .scalar, .rw, 2000, .any⟩,  -- link_offset
  ⟨12, 0, .fix 511, 1, .scalar, .rw, 255, .rngOr (0) 7 255⟩,  -- group
  ⟨13, 0, .fix 511, 2, .scalar, .rw, 256, .rng 0 48000⟩,  -- hold_samples
  ⟨14, 0, .fix 511, 1, .scalar, .r, 0, .any⟩,  -- state
  ⟨15, 0, .fix 511, 1, .scalar, .r, 0, .any⟩,  -- status
  ⟨16, 0, .fix 511, 6, .scalar, .r, 0, .any⟩,  -- margin
  ⟨17, 0, .fix 511, 3, .arr 2, .r, 0, .any⟩,  -- packets
  ⟨18, 0, .fix 511, 3, .arr 2, .r, 0, .any⟩,  -- leg_gaps
  ⟨19, 0, .fix 511, 3, .scalar, .r, 0, .any⟩,  -- late_samples
  ⟨20, 0, .fix 511, 3, .scalar, .r, 0, .any⟩,  -- window_errors
  ⟨21, 0, .fix 511, 3, .scalar, .r, 0, .any⟩,  -- holds
  ⟨22, 0, .fix 511, 3, .scalar, .r, 0, .any⟩,  -- losses
  ⟨23, 0, .fix 511, 2, .scalar, .r, 512, .any⟩,  -- distance
  ⟨24, 0, .fix 511, 3, .scalar, .r, 0, .any⟩,  -- slips_slow
  ⟨25, 0, .fix 511, 3, .scalar, .r, 0, .any⟩,  -- slips_fast
  ⟨26, 0, .fix 511, 3, .scalar, .r, 0, .any⟩,  -- bad_packets
  ⟨27, 0, .fix 511, 1, .scalar, .x, 0, .any⟩]  -- clear_counts

/-- Class 0x62, TxStream attributes (R431). -/
def rowsTxStream : List ARow := [
  ⟨1, 0, .fix 511, 1, .scalar, .rw, 0, .rng 0 1⟩,  -- enable
  ⟨2, 0, .fix 511, 1, .scalar, .rw, 0, .rng 0 4⟩,  -- port
  ⟨3, 0, .fix 511, 3, .arr 2, .rw, 0, .any⟩,  -- dst_addr
  ⟨4, 0, .fix 511, 2, .arr 2, .rw, 5004, .any⟩,  -- udp_port
  ⟨5, 0, .fix 511, 2, .scalar, .rw, 5004, .any⟩,  -- src_udp
  ⟨6, 0, .fix 511, 1, .scalar, .rw, 2, .rng 1 64⟩,  -- channels
  ⟨7, 0, .fix 511, 1, .scalar, .rw, 1, .rng 0 1⟩,  -- encoding
  ⟨8, 0, .fix 511, 1, .scalar, .rw, 3, .rng 0 3⟩,  -- packet_time
  ⟨9, 0, .fix 511, 1, .scalar, .rw, 97, .rng 96 127⟩,  -- payload_type
  ⟨10, 0, .fix 511, 1, .scalar, .rw, 0, .rng 0 15⟩,  -- domain
  ⟨11, 0, .fix 511, 3, .scalar, .rw, 0, .any⟩,  -- ssrc
  ⟨12, 0, .fix 511, 1, .scalar, .rw, 64, .rng 1 255⟩,  -- ttl
  ⟨13, 0, .fix 511, 2, .arr 64, .rw, 65535, .any⟩,  -- ch_src
  ⟨14, 0, .fix 511, 1, .scalar, .r, 0, .any⟩,  -- state
  ⟨15, 0, .fix 511, 3, .arr 2, .r, 0, .any⟩,  -- packets
  ⟨16, 0, .fix 511, 2, .scalar, .r, 512, .any⟩,  -- distance
  ⟨17, 0, .fix 511, 3, .scalar, .r, 0, .any⟩,  -- slips_slow
  ⟨18, 0, .fix 511, 3, .scalar, .r, 0, .any⟩,  -- slips_fast
  ⟨19, 0, .fix 511, 3, .scalar, .r, 0, .any⟩,  -- underruns
  ⟨20, 0, .fix 511, 1, .scalar, .x, 0, .any⟩]  -- clear_counts

/-- Class 0x63, Weld attributes (R432). -/
def rowsWeld : List ARow := [
  ⟨1, 0, .dst 0, 3, .scalar, .rwc, 0, .any⟩,  -- binding
  ⟨1, 65535, .fix 0xFFFF, 1, .scalar, .rwc, 255, .rngOr (0) 31 255⟩,  -- weld_id
  ⟨2, 0, .dst 0, 3, .scalar, .rwc, 0, .any⟩,  -- contributors
  ⟨2, 65535, .fix 0xFFFF, 3, .scalar, .rwc, 0, .any⟩,  -- system_id
  ⟨3, 0, .dst 0, 3, .scalar, .r, 0, .any⟩,  -- present
  ⟨3, 65535, .fix 0xFFFF, 3, .scalar, .rwc, 4026488576, .any⟩,  -- group_base
  ⟨4, 65535, .fix 0xFFFF, 2, .scalar, .rwc, 40963, .any⟩,  -- udp_port
  ⟨5, 65535, .fix 0xFFFF, 2, .scalar, .rw, 256, .rng 0 48000⟩,  -- weld_hold
  ⟨6, 65535, .fix 0xFFFF, 3, .scalar, .r, 0, .any⟩,  -- members_present
  ⟨7, 65535, .fix 0xFFFF, 3, .scalar, .r, 0, .any⟩,  -- members_absent
  ⟨8, 65535, .fix 0xFFFF, 6, .scalar, .r, 0, .any⟩,  -- margin
  ⟨9, 65535, .fix 0xFFFF, 3, .arr 32, .r, 0, .any⟩,  -- missing
  ⟨10, 65535, .fix 0xFFFF, 3, .arr 32, .r, 0, .any⟩,  -- late
  ⟨11, 65535, .fix 0xFFFF, 3, .scalar, .r, 0, .any⟩,  -- mismatches
  ⟨12, 65535, .fix 0xFFFF, 3, .scalar, .r, 0, .any⟩,  -- overflow
  ⟨13, 65535, .fix 0xFFFF, 1, .scalar, .x, 0, .any⟩]  -- clear_counts

/-- Class 0x68, Yugal attributes (R466). -/
def rowsYugal : List ARow := [
  ⟨1, 0, .fix 0, 2, .scalar, .rw, 2047, .rng 1 2047⟩,  -- node_id
  ⟨2, 0, .fix 0, 2, .scalar, .rw, 40961, .rng 1024 65535⟩,  -- udp_port
  ⟨3, 0, .fix 0, 1, .arr 4, .rw, 1, .rng 0 1⟩,  -- enable
  ⟨4, 0, .fix 0, 3, .arr 5, .r, 0, .any⟩,  -- rx_frames
  ⟨5, 0, .fix 0, 3, .arr 5, .r, 0, .any⟩,  -- bad_frames
  ⟨6, 0, .fix 0, 3, .arr 5, .r, 0, .any⟩,  -- other_node
  ⟨7, 0, .fix 0, 3, .scalar, .r, 0, .any⟩,  -- dup_requests
  ⟨8, 0, .fix 0, 3, .scalar, .r, 0, .any⟩,  -- queue_drops
  ⟨9, 0, .fix 0, 3, .scalar, .r, 0, .any⟩,  -- spi_overruns
  ⟨10, 0, .fix 0, 1, .scalar, .x, 0, .any⟩]  -- clear_counts

/-- Class 0x70, Pair attributes (R503). -/
def rowsPair : List ARow := [
  ⟨1, 0, .fix 0, 1, .scalar, .rwc, 0, .rng 0 1⟩,  -- pair_enable
  ⟨2, 0, .fix 0, 1, .scalar, .rwc, 0, .rng 0 1⟩,  -- preference
  ⟨3, 0, .fix 0, 2, .scalar, .rwc, 96, .step 48 480 8⟩,  -- lease_time
  ⟨4, 0, .fix 0, 1, .scalar, .rw, 0, .rng 0 1⟩,  -- warm_takeover
  ⟨5, 0, .fix 0, 1, .scalar, .r, 0, .any⟩,  -- role
  ⟨6, 0, .fix 0, 1, .scalar, .r, 0, .any⟩,  -- standby_state
  ⟨7, 0, .fix 0, 1, .scalar, .r, 0, .any⟩,  -- entitled
  ⟨8, 0, .fix 0, 3, .scalar, .r, 0, .any⟩,  -- epoch
  ⟨9, 0, .fix 0, 2, .scalar, .r, 0, .any⟩,  -- peer_node
  ⟨10, 0, .fix 0, 1, .scalar, .r, 255, .any⟩,  -- peer_role
  ⟨11, 0, .fix 0, 1, .scalar, .r, 0, .any⟩,  -- lanes
  ⟨12, 0, .fix 0, 3, .scalar, .r, 0, .any⟩,  -- tether_rtt
  ⟨13, 0, .fix 0, 6, .scalar, .r, 0, .any⟩,  -- tick_skew
  ⟨14, 0, .fix 0, 3, .scalar, .r, 0, .any⟩,  -- converge_time
  ⟨15, 0, .fix 0, 3, .scalar, .r, 0, .any⟩,  -- converge_left
  ⟨16, 0, .fix 0, 2, .scalar, .r, 0, .any⟩,  -- match_run
  ⟨17, 0, .fix 0, 2, .scalar, .r, 0, .any⟩,  -- enrol_progress
  ⟨18, 0, .fix 0, 3, .scalar, .r, 0, .any⟩,  -- digest_charge
  ⟨19, 0, .fix 0, 3, .scalar, .r, 0, .any⟩,  -- digest_peak
  ⟨20, 0, .fix 0, 3, .scalar, .r, 0, .any⟩,  -- mismatches
  ⟨21, 0, .fix 0, 4, .scalar, .r, 0, .any⟩,  -- last_mismatch
  ⟨22, 0, .fix 0, 3, .scalar, .r, 0, .any⟩,  -- unconfirmed
  ⟨23, 0, .fix 0, 3, .scalar, .r, 0, .any⟩,  -- takeovers
  ⟨24, 0, .fix 0, 3, .scalar, .r, 0, .any⟩,  -- give_ups
  ⟨25, 0, .fix 0, 3, .scalar, .r, 0, .any⟩,  -- lease_lapses
  ⟨26, 0, .fix 0, 3, .arr 2, .r, 0, .any⟩,  -- frame_errors
  ⟨27, 0, .fix 0, 3, .scalar, .r, 0, .any⟩,  -- mirror_late
  ⟨28, 0, .fix 0, 1, .scalar, .x, 0, .any⟩,  -- switchover
  ⟨29, 0, .fix 0, 1, .scalar, .x, 0, .any⟩,  -- rejoin
  ⟨30, 0, .fix 0, 1, .scalar, .x, 0, .any⟩,  -- force_active
  ⟨31, 0, .fix 0, 1, .scalar, .x, 0, .any⟩]  -- clear_counts

/-- Class 0x78, Journal attributes (R525). -/
def rowsJournal : List ARow := [
  ⟨1, 0, .fix 0, 1, .scalar, .r, 0, .any⟩,  -- card_state
  ⟨2, 0, .fix 0, 4, .scalar, .r, 0, .any⟩,  -- card_id
  ⟨3, 0, .fix 0, 3, .scalar, .r, 0, .any⟩,  -- sectors
  ⟨4, 0, .fix 0, 3, .scalar, .r, 0, .any⟩,  -- rated_cycles
  ⟨5, 0, .fix 0, 2, .scalar, .r, 0, .any⟩,  -- life_used
  ⟨6, 0, .fix 0, 1, .scalar, .r, 1, .any⟩,  -- journal_state
  ⟨7, 0, .fix 0, 3, .scalar, .r, 0, .any⟩,  -- committed_seq
  ⟨8, 0, .fix 0, 3, .scalar, .r, 0, .any⟩,  -- durable_seq
  ⟨9, 0, .fix 0, 2, .scalar, .r, 0, .any⟩,  -- ring_fill
  ⟨10, 0, .fix 0, 3, .scalar, .r, 0, .any⟩,  -- ram_fill
  ⟨11, 0, .fix 0, 1, .scalar, .rw, 1, .rng 0 1⟩,  -- nobillet_policy
  ⟨12, 0, .fix 0, 1, .scalar, .x, 0, .any⟩,  -- compact
  ⟨13, 0, .fix 0, 1, .scalar, .x, 0, .any⟩,  -- format
  ⟨14, 0, .fix 0, 1, .scalar, .x, 0, .any⟩,  -- adopt_card
  ⟨15, 0, .fix 0, 3, .scalar, .r, 0, .any⟩,  -- compactions
  ⟨16, 0, .fix 0, 3, .scalar, .r, 0, .any⟩,  -- torn_records
  ⟨17, 0, .fix 0, 3, .scalar, .r, 0, .any⟩,  -- io_errors
  ⟨18, 0, .fix 0, 3, .scalar, .r, 0, .any⟩,  -- lost_records
  ⟨19, 0, .fix 0, 1, .scalar, .x, 0, .any⟩]  -- clear_counts

/-- Class 0x79, Scene attributes (R526). -/
def rowsScene : List ARow := [
  ⟨1, 0, .fix 1023, 1, .scalar, .r, 0, .any⟩,  -- present
  ⟨1, 65535, .fix 0xFFFF, 3, .scalar, .r, 0, .any⟩,  -- free_sectors
  ⟨2, 0, .fix 1023, 11, .arr 16, .rw, 0, .any⟩,  -- name
  ⟨3, 0, .fix 1023, 3, .scalar, .r, 0, .any⟩,  -- size
  ⟨4, 0, .fix 1023, 3, .scalar, .r, 0, .any⟩,  -- nodes
  ⟨5, 0, .fix 1023, 3, .scalar, .r, 0, .any⟩,  -- shape
  ⟨6, 0, .fix 1023, 3, .scalar, .r, 0, .any⟩,  -- crc
  ⟨7, 0, .fix 1023, 1, .scalar, .x, 0, .any⟩,  -- save
  ⟨8, 0, .fix 1023, 1, .scalar, .x, 0, .any⟩,  -- stage
  ⟨9, 0, .fix 1023, 1, .scalar, .x, 0, .any⟩]  -- delete

/-- Class 0x7C, Power attributes (R545). -/
def rowsPower : List ARow := [
  ⟨1, 0, .fix 0, 1, .scalar, .r, 0, .any⟩,  -- power_state
  ⟨2, 0, .fix 0, 1, .scalar, .x, 0, .any⟩,  -- enter
  ⟨3, 0, .fix 0, 1, .scalar, .x, 0, .any⟩,  -- restart
  ⟨4, 0, .fix 0, 1, .scalar, .r, 0, .any⟩,  -- last_reset_cause
  ⟨5, 0, .fix 0, 1, .scalar, .r, 0, .any⟩,  -- bring_up_step
  ⟨6, 0, .fix 0, 3, .scalar, .r, 0, .any⟩,  -- startup_time
  ⟨7, 0, .fix 0, 2, .scalar, .rw, 10, .rng 0 600⟩]  -- sync_wait

/-- Class 0x80, Monitor attributes (R567). -/
def rowsMonitor : List ARow := [
  ⟨1, 0, .fix 7, 5, .scalar, .r, 0, .any⟩,  -- reading
  ⟨1, 16, .fix 0x19, 2, .scalar, .r, 0, .any⟩,  -- reading
  ⟨1, 32, .fix 0x23, 3, .scalar, .r, 0, .any⟩,  -- reading
  ⟨2, 0, .fix 7, 5, .scalar, .r, 0, .any⟩,  -- max_reading
  ⟨2, 16, .fix 0x19, 2, .scalar, .r, 0, .any⟩,  -- nominal
  ⟨2, 32, .fix 0x23, 3, .scalar, .r, 0, .any⟩,  -- factory
  ⟨3, 0, .fix 7, 5, .scalar, .rw, 9500, .rng 6000 10500⟩,  -- warn_high
  ⟨3, 16, .fix 0x19, 2, .scalar, .rw, 300, .rng 100 500⟩,  -- warn_pct
  ⟨3, 32, .fix 0x23, 5, .scalar, .r, 0, .any⟩,  -- deviation
  ⟨4, 0, .fix 7, 1, .scalar, .x, 0, .any⟩,  -- clear_max
  ⟨4, 16, .fix 0x19, 2, .scalar, .r, 0, .any⟩,  -- min_reading
  ⟨5, 16, .fix 0x19, 2, .scalar, .r, 0, .any⟩,  -- max_reading
  ⟨6, 16, .fix 0x19, 1, .scalar, .x, 0, .any⟩]  -- clear_max

/-- Class 0x81, Diagnosis attributes (R568). -/
def rowsDiagnosis : List ARow := [
  ⟨1, 0, .fix 0, 2, .scalar, .r, 0, .any⟩,  -- present
  ⟨2, 0, .fix 0, 2, .scalar, .r, 0, .any⟩,  -- latched
  ⟨3, 0, .fix 0, 3, .arr 7, .r, 0, .any⟩,  -- counts
  ⟨4, 0, .fix 0, 10, .arr 7, .r, 0, .any⟩,  -- last_time
  ⟨5, 0, .fix 0, 1, .scalar, .x, 0, .any⟩,  -- clear_conditions
  ⟨6, 0, .fix 0, 1, .scalar, .x, 0, .any⟩]  -- clear_counts

/-- Class 0x82, Counter attributes (R569). -/
def rowsCounter : List ARow := [
  ⟨1, 0, .fix 63, 3, .scalar, .rw, 0, .any⟩,  -- control
  ⟨1, 256, .fix 0x0100, 4, .scalar, .rw, 0, .any⟩,  -- tag_cores
  ⟨1, 65535, .fix 0xFFFF, 3, .arr 64, .r, 0, .any⟩,  -- values
  ⟨2, 0, .fix 63, 3, .scalar, .r, 0, .any⟩,  -- value
  ⟨2, 256, .fix 0x0100, 1, .scalar, .rw, 12, .rng 8 20⟩,  -- tag_k
  ⟨2, 65535, .fix 0xFFFF, 4, .arr 32, .r, 0, .any⟩,  -- pair64
  ⟨3, 0, .fix 63, 1, .scalar, .x, 0, .any⟩,  -- clear
  ⟨3, 256, .fix 0x0100, 3, .scalar, .rw, 1, .any⟩,  -- tag_seed
  ⟨3, 65535, .fix 0xFFFF, 4, .scalar, .x, 0, .any⟩,  -- clear_mask
  ⟨4, 256, .fix 0x0100, 1, .scalar, .rw, 0, .rng 0 1⟩,  -- tag_mode
  ⟨5, 256, .fix 0x0100, 12, .dyn, .r, 0, .any⟩,  -- records
  ⟨6, 256, .fix 0x0100, 3, .scalar, .r, 0, .any⟩,  -- tag_newest
  ⟨7, 256, .fix 0x0100, 3, .scalar, .r, 0, .any⟩,  -- tag_oldest
  ⟨8, 256, .fix 0x0100, 3, .scalar, .r, 0, .any⟩,  -- tags_skipped
  ⟨9, 256, .fix 0x0100, 1, .scalar, .x, 0, .any⟩]  -- tag_clear

/-- Class 0x83, Access attributes (R570). -/
def rowsAccess : List ARow := [
  ⟨1, 0, .fix 0, 1, .scalar, .r, 0, .any⟩,  -- unlocked
  ⟨2, 0, .fix 0, 1, .scalar, .x, 0, .any⟩,  -- issue_challenge
  ⟨3, 0, .fix 0, 1, .arr 128, .x, 0, .any⟩,  -- unlock
  ⟨4, 0, .fix 0, 1, .scalar, .x, 0, .any⟩,  -- lock
  ⟨5, 0, .fix 0, 2, .arr 8, .rw, 503, .rng 0 511⟩,  -- tmux_select
  ⟨6, 0, .fix 0, 3, .scalar, .r, 0, .any⟩]  -- dev_failures

/-- Class 0x90, Firmware attributes (R546). -/
def rowsFirmware : List ARow := [
  ⟨1, 0, .fix 0, 12, .dyn, .w, 0, .any⟩,  -- image
  ⟨2, 0, .fix 0, 1, .scalar, .x, 0, .any⟩,  -- install
  ⟨3, 0, .fix 0, 1, .scalar, .x, 0, .any⟩,  -- activate
  ⟨4, 0, .fix 0, 1, .scalar, .x, 0, .any⟩,  -- confirm
  ⟨5, 0, .fix 0, 1, .scalar, .r, 0, .any⟩,  -- running_slot
  ⟨6, 0, .fix 0, 1, .arr 2, .r, 0, .any⟩,  -- slot_state
  ⟨7, 0, .fix 0, 3, .arr 2, .r, 0, .any⟩,  -- slot_version
  ⟨8, 0, .fix 0, 1, .scalar, .r, 0, .any⟩,  -- boot_status
  ⟨9, 0, .fix 0, 1, .scalar, .x, 0, .any⟩,  -- run_image
  ⟨10, 0, .fix 0, 3, .scalar, .r, 0, .any⟩]  -- security_version

/-- The attribute rows of a class; no row for a class the dictionary lacks (R572). -/
def classRows (cls : Nat) : List ARow :=
  match cls with
  | 0x01 => rowsIdentity
  | 0x02 => rowsSession
  | 0x03 => rowsStatus
  | 0x04 => rowsTicket
  | 0x10 => rowsEngine
  | 0x11 => rowsPlacement
  | 0x20 => rowsNode
  | 0x21 => rowsSource
  | 0x22 => rowsDestination
  | 0x23 => rowsPlane
  | 0x28 => rowsBellows
  | 0x30 => rowsInStrip
  | 0x31 => rowsOutStrip
  | 0x32 => rowsMeter
  | 0x33 => rowsLoudness
  | 0x34 => rowsSilence
  | 0x40 => rowsCore
  | 0x41 => rowsModule
  | 0x48 => rowsTongs
  | 0x4C => rowsMemory
  | 0x50 => rowsReference
  | 0x51 => rowsHearth
  | 0x52 => rowsTimeBase
  | 0x53 => rowsDomain
  | 0x58 => rowsSap
  | 0x60 => rowsPort
  | 0x61 => rowsRxStream
  | 0x62 => rowsTxStream
  | 0x63 => rowsWeld
  | 0x68 => rowsYugal
  | 0x70 => rowsPair
  | 0x78 => rowsJournal
  | 0x79 => rowsScene
  | 0x7C => rowsPower
  | 0x80 => rowsMonitor
  | 0x81 => rowsDiagnosis
  | 0x82 => rowsCounter
  | 0x83 => rowsAccess
  | 0x90 => rowsFirmware
  | _ => []

/-- The class numbers of the dictionary, ascending (R571). -/
def classNumbers : List Nat :=
  [0x01, 0x02, 0x03, 0x04, 0x10, 0x11, 0x20, 0x21, 0x22, 0x23, 0x28, 0x30, 0x31, 0x32, 0x33, 0x34, 0x40, 0x41, 0x48, 0x4C, 0x50, 0x51, 0x52, 0x53, 0x58, 0x60, 0x61, 0x62, 0x63, 0x68, 0x70, 0x78, 0x79, 0x7C, 0x80, 0x81, 0x82, 0x83, 0x90]

end Sys2Proof.Machine
end

