-- ==== Sys2Proof/Machine/State.lean ====
section
/-! DEFINITION. The state of the block as plain data: one structure for each unit the spec describes, the object
dictionary that holds every attribute (R571 to R580), and the queue of commands. Every attribute of the
dictionary has its one home in `attrs` (or `blobs`, for strings and byte objects); the unit structures hold the
state that no attribute shows. -/

namespace Sys2Proof.Machine

/-- Why the machine stops: for no reason. The spec gives every command of the table an effect. -/
inductive Fault where
deriving DecidableEq, Repr

/-- Why a command has no meaning. -/
inductive Refusal where
  /-- Raised by an arm of `exec` for a command that is not modelled; none is left. Safe: the run stops there. -/
  | notModelled (mnemonic : String)
deriving DecidableEq, Repr

/-! ### Yugal (R433 to R466) -/

/-- A kept reply (R448), keyed by transport, source node and sequence number. -/
structure Kept where
  via : Nat
  src : Nat
  seq : Nat
  counter : Option Nat
  bytes : List Byte
deriving DecidableEq, Repr

/-- An open session (R457): its ID, key slot, session key, the last counter accepted and the engine's own. -/
structure Session where
  id : Nat
  slot : Nat
  key : List Byte
  rx : Option Nat
  tx : Nat
deriving DecidableEq, Repr

/-- An entry of the event log (R454). -/
structure LogEntry where
  seq : Nat
  severity : Nat
  time : Int
  cls : Nat
  inst : Nat
  attr : Nat
  elem : Nat
  value : Int
deriving DecidableEq, Repr

/-- What a ticket slot holds beside its attributes (R450, R451): progress, total, and when it completed. -/
structure TicketAux where
  progress : Nat
  total : Nat
  doneAt : Nat
deriving DecidableEq, Repr

/-- The protocol unit. `queue` is the queue of 32 frames (R445); `kept` the last 64 replies, newest first;
`udpOut` the reply frame last sent over UDP with its port and peer; `spiBusy`, `spiReply` and `spiReady` the SPI
host port's request in progress and held reply (R462), `miso` the bytes it last returned; `aux` and `issued` the
ticket slots and the tickets issued in this run, `done` the tickets completed; `log` the newest 1024 entries,
newest first; `attention` the count of R443; `keys` the key slots; `runs` the start-ups so far. -/
structure Yug where
  queue : List Req
  kept : List Kept
  udpOut : Option (Nat × Nat × List Byte)
  spiBusy : Bool
  spiReply : List Byte
  spiReady : Bool
  miso : List Byte
  aux : Store TicketAux
  issued : Nat
  done : Nat
  log : List LogEntry
  nextSeq : Nat
  attention : Nat
  sessions : List Session
  nextSession : Nat
  keys : Store (List Byte)
  runs : Nat
deriving DecidableEq, Repr

/-! ### The engine (R10 to R37) -/

/-- The configuration in force (R35): family, rate base, block size and shape of the last entry into RUN. -/
structure InForce where
  family : Nat
  rate : Nat
  n : Nat
  shape : Nat
deriving DecidableEq, Repr

/-- The tick and the frames in work. `running`: the tick runs (R33). `count`: the MD0 sample count of the last
tick (R12). `frames`: ticks since the entry into RUN, so that a frame before it is known to be silent. `fade`:
0 none, 1 entry, 2 exit, from output sample `fadeAt`; `target` the state an exit leads to; `goTicket` its ticket.
`missed` the out-strips whose frame is incomplete (R31), `peakUse` the highest measured use of each resource since the
last clear, by its index (R37). `offset` says that the offset tick of the period has passed (R17). -/
structure Eng where
  running : Bool
  offset : Bool
  count : Nat
  frames : Nat
  cfg : InForce
  fade : Nat
  fadeAt : Nat
  target : Nat
  goTicket : Option Nat
  missed : List Nat
  peakUse : Store Nat
deriving DecidableEq, Repr

/-! ### Bellows (R93 to R134) -/

/-- One stretch of a ramp (R100): from `g0` to `g1` over `len` samples from sample `first` with a shape. For a
row swap `g0` and `g1` are occupant words. `ord` is its place in the order of acceptance (R112). -/
structure Seg where
  g0 : Int
  g1 : Int
  len : Nat
  shape : Nat
  first : Nat
  ord : Nat
deriving DecidableEq, Repr

/-- A ramp: its parameter, its stretches in falling order of first sample (each retargets the one after it in the list,
R109), and whether it holds a ramp slot (a step of length 0 holds none, R104). -/
structure Ramp where
  param : RParam
  segs : List Seg
  slot : Bool
deriving DecidableEq, Repr

/-- A ramp asked for by a write: target, length and shape (R97), the value applied while it waits (R107), and its place
in the order of acceptance (R112). -/
structure NewRamp where
  param : RParam
  target : Int
  len : Nat
  shape : Nat
  g0 : Int
  ord : Nat
deriving DecidableEq, Repr

/-- A queued group (R106), with the due sample of a timed one (R127). -/
structure Group where
  ramps : List NewRamp
  due : Option Nat
deriving DecidableEq, Repr

/-- A pending Class Z change (R117, R118): the value applied until the step, the value written, the first
sample and length of the search, the sample at which it steps once that is found, whether that was the timeout,
and whether a preamplifier's release is due (R120). -/
structure ZPend where
  param : ZParam
  old : Int
  new : Int
  first : Nat
  len : Nat
  stepAt : Option Nat
  timedOut : Bool
  release : Bool
deriving DecidableEq, Repr

/-- A pending timed change (R121 to R128): its place in the order of acceptance, the request, its due MD0 sample, whether
the hardware or the supervisor holds it, and its time on MD0's time base as converted at acceptance (R122). -/
structure Timed where
  id : Nat
  req : Req
  due : Nat
  inHardware : Bool
  at_ : Nat
deriving DecidableEq, Repr

/-- A hold or a fade of an output (R131, R132): 0 live, 1 holding, 2 fading, 3 silent, 4 resuming; the value held
or resumed from, the samples spent in the phase, the hold time of the phase, and the value delivered last. -/
structure Hold where
  phase : Nat
  value : Int
  pos : Nat
  holdFor : Nat
  out : Int
deriving DecidableEq, Repr

/-- Bellows: the ramps, the queue of groups, Class Z changes, timed changes in acceptance order, held outputs; and the
elements that changes of neither class have written in the running period, by key, with the order of acceptance of the
last (R137). -/
structure Bel where
  ramps : List Ramp
  queue : List Group
  zs : List ZPend
  timed : List Timed
  nextId : Nat
  holds : List (OutRef × Hold)
  stored : List (Nat × Nat)
deriving DecidableEq, Repr

/-! ### Crucible (R38 to R92, R607) -/

/-- A strike pending or running (R68 to R78): first sample, length, law, ticket slot. -/
structure Strike where
  first : Nat
  len : Nat
  law : Nat
  ticket : Nat
deriving DecidableEq, Repr

/-- A strike that has ended (R75) and whose last frame is still to be evaluated: its samples, its law, its ticket, and its
source plane as it stood at its end, with the ramps on it. -/
structure PastStrike where
  strike : Strike
  source : Nat
  words : Store Nat
  ramps : List Ramp
deriving DecidableEq, Repr

/-- A loading of the idle plane (R65, R66, R607): 0 copy, 1 clear, 2 scene staging, 3 march; the rows done, the
words still to be written as they stood at acceptance, the bytes of reserve not yet spent, and the ticket. -/
structure IdleLoad where
  kind : Nat
  rowsDone : Nat
  words : Store Nat
  ticket : Nat
  bytesDone : Nat
  scene : Nat
deriving DecidableEq, Repr

/-- The Crucible. `planeA` and `planeB` hold node words, keyed by 2048 × source + destination; `sums` the sums of the
last evaluated frame by destination; `past` the strikes that have ended and are still heard in a frame to be evaluated,
oldest first. -/
structure Cru where
  planeA : Store Nat
  planeB : Store Nat
  strike : Option Strike
  past : List PastStrike
  load : Option IdleLoad
  sums : Store (List Int)
deriving DecidableEq, Repr

/-! ### Temper strips (R135 to R162) -/

/-- The lane-resident context of a strip (R193): section histories x1, x2, y1, y2; key filter histories of the
own and the external signal; mean squares of the RMS detectors; compressor and gate gains in dB and the gate's
hold counter; the Quench gain; the read and write positions in the delay line, in words; and the last sample at each
watched point (R116). Gains and mean squares are fixed-point numbers with 96 fraction bits. -/
structure StripCtx where
  hist : List (List Int)
  keyOwn : List Int
  keyExt : List Int
  msOwn : Int
  msExt : Int
  comp : Int
  gate : Int
  gateHold : Nat
  quench : Int
  readPos : Nat
  writePos : Nat
  watch : List Int
  lastOut : Int
deriving DecidableEq, Repr

/-- Temper. `inCtx` and `outCtx` are the contexts by strip; `cap` the captured input frame by input key;
`front` and `frontPrev` the insert fronts of the frame in work and of the one before; `pre` the pre-fader and
`outIn` the output frames of the in-strips; `outs` the S24 output frames by out-strip, `emit` those being
emitted; `inputs` the input frame before trim by strip, `inputs1` and `inputs2` those of the two frames before;
`emitPrev` the frame
emitted before; `inEnd` the in-strip contexts at the end of the last period. -/
structure Tmp where
  inCtx : Store StripCtx
  outCtx : Store StripCtx
  cap : Store (List Int)
  front : Store (List Int)
  frontPrev : Store (List Int)
  inputs : Store (List Int)
  inputs1 : Store (List Int)
  inputs2 : Store (List Int)
  pre : Store (List Int)
  outIn : Store (List Int)
  outs : Store (List Int)
  emit : Store (List Int)
  emitPrev : Store (List Int)
  inEnd : Store StripCtx
deriving DecidableEq, Repr

/-! ### Measurement (R163 to R171) -/

/-- Ballistics of a level meter (R164, R165): the held level in units of 1/fs centi-dB above −32768, the samples of
its hold that are left, the same for the held true peak, the energies of the frames in the RMS window newest
first, and the last samples of the signal newest first for the true-peak filter. -/
structure MeterCtx where
  held : Int
  holdLeft : Nat
  tpHeld : Int
  tpLeft : Nat
  squares : List Nat
  history : List Int
deriving DecidableEq, Repr

/-- A loudness meter (R167, R168): the weighted energies of the last 100 ms parts, newest first; for each channel the
filter histories and the energy of the running part; the energies of the 400 ms blocks of the integration; and the
parts integrated since the last start. -/
structure LoudCtx where
  powers : List Nat
  running : List (List Int)
  blocks : List Nat
  since : Nat
deriving DecidableEq, Repr

/-- The meter unit. `sil` counts each silence detector's run (R169); `silFound` the detectors whose run has reached
their hold in the last frame; `peaksDone` the meters whose hold has run out, true-peak holds numbered from 2 ^ 16;
`loudDue` a 100 ms part is complete. -/
structure Mtr where
  meters : Store MeterCtx
  loud : Store LoudCtx
  sil : Store Nat
  silFound : List Nat
  peaksDone : List Nat
  loudDue : Bool
deriving DecidableEq, Repr

/-! ### Placement (R179 to R206) -/

/-- Who a region belongs to: a module's scratch-bank or deep-memory region by index, or a strip's delay line. -/
inductive Owner where
  | rb (m i : Nat)
  | db (m i : Nat)
  | inLine (n : Nat)
  | outLine (n : Nat)
deriving DecidableEq, Repr

/-- A placed region: its owner, base address and size in bytes, and the bases it is still to move to, in order (R197). -/
structure Region where
  owner : Owner
  base : Nat
  size : Nat
  moving : List Nat
deriving DecidableEq, Repr

/-- A move of a plan (R189). -/
inductive PMove where
  | inStrip (n lane : Nat)
  | outStrip (n lane : Nat)
  | module (m core : Nat)
  | region (o : Owner) (base : Nat)
deriving DecidableEq, Repr

/-- A change waiting on moves (R188): its moves still to run, how many are done, its ticket if it has one, and
the written attributes (key and value) that take effect when it does. -/
structure Plan where
  moves : List PMove
  done : Nat
  ticket : Option Nat
  effect : List (Nat × Int)
deriving DecidableEq, Repr

/-- A retirement under way (R201): the condemned core, the spare if there is one, whether its copy is made,
whether a march failure condemned it, and its modules. -/
structure Retire where
  core : Nat
  spare : Option Nat
  copied : Bool
  march : Bool
  modules : List Nat
deriving DecidableEq, Repr

/-- The placement manager. `zeroing` are freed runs awaiting zero-fill (base, bytes); `preCopied` says whether
the module move in flight has its pre-copy, `finalBlock` whether its final block on the old core has begun, `copied`
whether the region move in flight has its copy; `withheld` the groups a
failed march withholds; `switched` counts the strip moves made since the last tick (R189). -/
structure Plc where
  regions : List Region
  plans : List Plan
  zeroing : List (Nat × Nat)
  retiring : List Retire
  preCopied : Bool
  finalBlock : Bool
  copied : Bool
  withheld : List Nat
  reinstating : Option (Nat × Nat)
  switched : Nat
deriving DecidableEq, Repr

/-! ### Anvil (R207 to R274) -/

/-- An entry of the four-deep stack (R267): a hardware loop or a return. -/
inductive StackEntry where
  | loop (start end_ count : Nat)
  | ret (addr : Nat)
deriving DecidableEq, Repr

/-- What the instruction before wrote, for the stalls of R228 and R273: register codes of pointers, increments
and buffer words; accumulators; flags. -/
structure Hazard where
  regs : List Nat
  accs : List Nat
  flags : Bool
deriving DecidableEq, Repr

/-- A const word waiting for its module's entry (R243): module, memory, logical address, word, first block. -/
structure ConstWord where
  m : Nat
  inY : Bool
  addr : Nat
  word : Word24
  block : Nat
deriving DecidableEq, Repr

/-- An Anvil core: its registers (R210), memories (R207), write buffer (R231), event latches (R232), const queue
(R243), the module it runs and those still to run in the block (R233), the line it stalls on, a RELEASE waiting
for its drain, the hazard record, the module's meter and the core's cycles, whether the block counts as an
overrun, and the periods of its recent overruns (R32), and whether it is condemned and, since, stopped (R200). -/
structure CoreSt where
  v : Store Word24
  acc : Store Word56
  p : Store (BitVec 15)
  i : Store (BitVec 16)
  k : Store Word24
  sr : Word24
  bx : Nat
  pc : Nat
  stack : List StackEntry
  pm : Store Word48
  x : Store Word24
  y : Store Word24
  wbuf : List (Nat × BitVec 32)
  latch : Store Bool
  constQ : List ConstWord
  run : Option Nat
  todo : List Nat
  stall : Option Nat
  draining : Bool
  haz : Hazard
  meter : Nat
  cycles : Nat
  blockOver : Bool
  overAt : List Nat
  condemned : Bool
  halted : Bool
deriving DecidableEq, Repr

/-- A data region of an image (R246): memory, kind (0 CONST, 1 STATE, 2 SCRATCH), logical base, size, words. -/
structure XRegion where
  inY : Bool
  kind : Nat
  base : Nat
  size : Nat
  words : List Word24
deriving DecidableEq, Repr

/-- A budget entry (R246). -/
structure Budget where
  family : Nat
  n : Nat
  cycles : Nat
  deep : Nat
  tongs : Nat
deriving DecidableEq, Repr

/-- A loaded Xixon image (R245, R246). -/
structure Image where
  crc : Nat
  name : List Byte
  version : Nat
  entry : Nat
  nIn : Nat
  nOut : Nat
  inY : Bool
  inArea : Nat
  outY : Bool
  outArea : Nat
  sIn : Nat
  sOut : Nat
  events : Nat
  progBase : Nat
  prog : List Word48
  data : List XRegion
  banks : List (Bool × Nat)
  deeps : List Nat
  budget : List Budget
deriving DecidableEq, Repr

/-- A declared module: its image, segment bases on its core (PM, X, Y), first event line, blocks since its load
(R242), whether a block has begun for it that is not yet counted, whether it released its last block and whether it ever has, the output frame buffer by port (R239), and
the hold of a retirement (R201): whether it is held, the last sample of each port, and the samples of the resume
fade delivered. -/
structure Mod where
  image : Image
  pBase : Nat
  xBase : Nat
  yBase : Nat
  evb : Option Nat
  blocks : Nat
  begun : Bool
  released : Bool
  half : Nat
  frame : Store (List Int)
  retired : Bool
  resume : Store Int
  resumePos : Option Nat
deriving DecidableEq, Repr

/-- Anvil: the cores and the declared modules. -/
structure Anv where
  cores : Store CoreSt
  mods : Store (Option Mod)
deriving DecidableEq, Repr

/-! ### Memory fabric (R275 to R304) -/

/-- A march in progress (R288 to R292): group, mode, ticket, and the fabric cycles it has run. -/
structure March where
  group : Nat
  preserving : Bool
  ticket : Nat
  cycles : Nat
deriving DecidableEq, Repr

/-- A burst that a target has taken, or that Tongs has issued to one (R299, R309): target, master, Tongs channel (16 where it
has been aborted, so that what is read is discarded), QoS, module whose bytes it moves, next address, whether it writes, the
bytes left to write (none where a strobe is off) or the count left to read, how many of those the source still has to give
(R326), the bytes read, what they are for (0 the master, 1 the channel's buffer, 2 and 3 the table entry of the source and of
the destination), and the matrix cycles it has waited. -/
structure OpenBurst where
  target : Nat
  master : Nat
  chan : Nat
  qos : Nat
  module : Option Nat
  addr : Nat
  write : Bool
  data : List (Option Byte)
  len : Nat
  live : Nat
  got : List Byte
  use : Nat
  waited : Nat
deriving DecidableEq, Repr

/-- The fabric. `mem` holds the bytes of the scratch banks, deep memory and the Temper parameters; `upset` the
words in error by address, each with the inverted bits of its data and check bits, the check bits above the data (R284 to
R286; where they are two or more, the data stand inverted); `wback` the words awaiting write-back; `waiting` the bursts
waiting at the targets; `opened` those that have begun and not ended; `rr` the round-robin pointers of the targets, `gateRr`
those of the gateway sides of the bank ports (R283); `clock` the fabric cycles that have passed since the last tick; `posted` the 32-bit writes that wait in the bridges' buffers, oldest
first (R302); `readData` and `error` what the last granted burst of a master other than Tongs returned. -/
structure Fab where
  mem : Store Byte
  upset : Store Nat
  wback : List Nat
  waiting : List Burst
  opened : List OpenBurst
  rr : Store Nat
  gateRr : Store Nat
  clock : Nat
  posted : List (Nat × List (Option Byte))
  readData : List Byte
  error : Bool
  march : Option March
  deepReady : Bool
deriving DecidableEq, Repr

/-! ### Tongs (R305 to R332) -/

/-- A descriptor as it lies in memory (R311), with its module if a trigger started it. -/
structure Desc where
  bytes : List Byte
  module : Option Nat
deriving DecidableEq, Repr

/-- A side of a descriptor as it was resolved when the descriptor was taken (R313): the base, the bounds it must stay within
(R314, R317), and the address of its index table. A side that is not used has bounds of 0. -/
structure Side where
  base : Nat
  lo : Nat
  hi : Nat
  tab : Nat
deriving DecidableEq, Repr

/-- A descriptor that runs: its two sides, the addresses of its marker and of the next descriptor where it has them, its traversal (0 streaming,
1 overlap, 2 reverse), the elements whose read and whose write has been issued, the buffer (R309), the table entries read for
the next element of each side (R315), and an error met in reading ahead, which waits for the writes before it. -/
structure Running where
  desc : Desc
  src : Side
  dst : Side
  marker : Option Nat
  next : Option Nat
  mode : Nat
  rk : Nat
  k : Nat
  buf : List Byte
  srcEnt : Option Nat
  dstEnt : Option Nat
  fail : Option Nat
deriving DecidableEq, Repr

/-- A channel: pending slots (address, module, R322), the running descriptor, whether it pauses on budget, and whether a
higher level has pre-empted it since its last burst (R310). -/
structure TChan where
  queue : List (Nat × Nat)
  run : Option Running
  paused : Bool
  preempted : Bool
deriving DecidableEq, Repr

/-- Tongs. `bytes` counts each module's bytes since its offset tick (R327); `pulses` the line pulses not yet
turned into triggers; `pace` the request lines held, each with the bytes its peripheral can still give or take if it will
withdraw the request then (R325, R326); `issued` the bursts that wait, oldest first; `lastR` and `lastW` the channel of the
last burst of each path; `rr` the pointers of the levels, 4 added for the read path (R309). -/
structure Tng where
  chans : Store TChan
  bytes : Store Nat
  pulses : List Nat
  pace : List (Nat × Option Nat)
  issued : List OpenBurst
  lastR : Option Nat
  lastW : Option Nat
  rr : Store Nat
deriving DecidableEq, Repr

/-! ### Hearth (R333 to R362) -/

/-- A reference: its phase samples newest first as (output time in ns, phase in units of 50 ps, the same without what the steer
has added, in units of 10 ^ -21 s), whether edges or
Sync messages arrive, whether its frequency is within tolerance, whether it is qualified, whether it has been since
start-up, and the end of a running wait in ms of `now`. -/
structure RefSt where
  window : List (Int × Int × Int)
  present : Bool
  inTol : Bool
  qualified : Bool
  ever : Bool
  waitEnd : Option Nat
deriving DecidableEq, Repr

/-- A switch or re-acquisition that runs (R345): the reference switched to, the phase samples taken of it newest first,
the old reference, and whether the loop bridges because the old one is lost (R346). -/
structure Switch where
  to_ : Nat
  samples : List Int
  old : Option Nat
  bridge : Bool
deriving DecidableEq, Repr

/-- A used training sample (R357): the sums over its 16 seconds of y, of the filtered temperature in units of
2 ^ -16 × 0.01 °C, and of the model age in s. -/
structure TrainSample where
  y : Int
  t : Int
  age : Int
deriving DecidableEq, Repr

/-- Hearth. `now` is the running time in ms at the last selector run; `disagree` the pairs in DISAGREE, the lower
first; `everLocked` since start-up; `inLock` and `outLock` the consecutive phase samples inside and outside the
windows of R353; `lockedSince` when LOCKED was entered; `anchor` the locked seconds of the last 62 s, newest first, as
(ms, y, ŷ); `temp` the filtered temperature and `ticks` the samples since its last update; `clean` the seconds for
which the conditions of R357 have held; `acc` the seconds of the present 16 s, newest first; `train` the used samples,
newest first; `restored` a model withheld after replay, `resumed` that it came from replay; `stale` host_temperature is overdue; `written` the history
at the last journal record; `holdSince` when HOLDOVER began and `lostAt` when a bridged switch lost its old reference;
`bias` the anchor b in use; `walk` the part of a ns of the walk not yet taken, in 1/1000; `steered` the phase that the steer
has added to the outputs until the output time `steeredAt`, in units of 10 ^ -21 s (R336). -/
structure Hea where
  now : Nat
  refs : Store RefSt
  disagree : List (Nat × Nat)
  switch : Option Switch
  everLocked : Bool
  inLock : Nat
  outLock : Nat
  lockedSince : Option Nat
  anchor : List (Nat × Int × Int)
  temp : Int
  ticks : Nat
  clean : Nat
  acc : List TrainSample
  train : List TrainSample
  restored : Bool
  resumed : Bool
  stale : Bool
  written : Nat
  holdSince : Option Nat
  lostAt : Option Nat
  bias : Int
  walk : Nat
  steered : Int
  steeredAt : Int
deriving DecidableEq, Repr

/-! ### Time bases, PTP and domains (R363 to R378) -/

/-- A time base counter (R364): the high word, the last low word read, the frequency integrator of the servo in rate
codes with 96 fraction bits, the output time of the last source event, and a restep waiting for its source. -/
structure TbSt where
  hi : Nat
  lastLo : Nat
  integ : Int
  lastEvent : Option Nat
  restep : Bool
deriving DecidableEq, Repr

/-- A PTP instance (R372): the masters heard, the one followed, the ms of `now` since it has been in SLAVE with the
present grandmaster, the Announce messages of that grandmaster, the mean path delay once measured, the sequence of
its Delay_Req and whether one is outstanding. -/
structure PtpSt where
  masters : List Announce
  follows : Option Nat
  slaveSince : Option Nat
  announces : Nat
  delay : Option Int
  reqSeq : Nat
  reqOpen : Bool
deriving DecidableEq, Repr

/-- Time bases and PTP instances. -/
structure Tbs where
  tb : Store TbSt
  ptp : Store PtpSt
deriving DecidableEq, Repr

/-! ### Serial audio ports (R379 to R398) -/

/-- A port: the pairs read at MD0 samples and not yet captured, oldest first; the last pair read; the samples
waiting to be sent, one pair for each MD0 sample; the last pair sent; consecutive valid frames, consecutive frames
within 2 % and consecutive frames outside 2 % or with a glitch; why it faulted (0 none, 1 underrun, 2 clock stopped,
3 overrun, 4 rate fault, 5 domain step); whether the warning of a rejoin that fails was given (R394); and whether no
live sample has been delivered since the port was centred (R388). -/
structure SapSt where
  rx : List (Int × Int)
  last : Int × Int
  tx : List (Int × Int)
  sent : Int × Int
  good : Nat
  near : Nat
  far : Nat
  fault : Nat
  warned : Bool
  fresh : Bool
deriving DecidableEq, Repr

/-! ### Network media and Weld (R399 to R432) -/

/-- A receive stream: its ring by due domain count (R409), the next count to be released, the last released frame,
consecutive missing samples, the packets in the ring as (last due count, legs it came on) (R413), the margins of the
last second as (arrival, ns); and for the slip buffer of R415 the frames released and not yet read, the domain's
progress at the last tick in 1/256 frame, the frames released since a fault, and whether it is in fault. `live` says
that a sample has been released since it started. -/
structure RxSt where
  ring : Store (List Int)
  next : Nat
  last : List Int
  missing : Nat
  got : List (Nat × Nat)
  margins : List (Nat × Int)
  fifo : List (List Int)
  phase : Nat
  good : Nat
  fault : Bool
  live : Bool
deriving DecidableEq, Repr

/-- A transmit stream: the frames not yet sent, oldest first, and the domain count of the first of them; the last
frame; and for the slip buffer of R415 the frames between MD0 and the domain, the domain's progress at the last tick,
the frames since a fault, and whether it is in fault. -/
structure TxSt where
  buf : List (List Int)
  first : Nat
  last : List Int
  fifo : List (List Int)
  phase : Nat
  good : Nat
  fault : Bool
deriving DecidableEq, Repr

/-- A contributor's part of a summed index for one frame (R420). -/
structure Part where
  member : Nat
  index : Nat
  frame : Nat
  samples : List Int
deriving DecidableEq, Repr

/-- The network engine. `seen` the fragments taken of frames still open, as sender, frame, lane and fragment (R424);
`parts` the parts that have arrived; `own` the partials held for one block; `welded` the totals formed for the
out-strips; `last` the last sample of a part, by 32 × destination + member; `gone` the frames each member has been
silent for; `heard` the members heard in this block; `entries` the entries processed in it (R428); `due` the frame
whose total is to be formed; `margins` those of the last second; `frags` the fragments last sent; `sentRtp` the RTP
packet last sent as (port, bytes). -/
structure Net where
  rx : Store RxSt
  tx : Store TxSt
  seen : List (Nat × Nat × Nat × Nat)
  parts : List Part
  own : Store (List Int)
  welded : Store (List Int)
  last : Store Int
  gone : Store Nat
  heard : List Nat
  entries : Nat
  due : Option Nat
  margins : List (Nat × Int)
  frags : List (List Byte)
  sentRtp : List (Nat × List Byte)
deriving DecidableEq, Repr

/-! ### The pair (R467 to R503) -/

/-- A RENEW sent (R477): its sequence number, send time on the pair clock, and armed flag. -/
structure Renewal where
  seq : Nat
  sent : Nat
  armed : Bool
deriving DecidableEq, Repr

/-- A MIRROR record at a STANDBY (R483, R485): sequence, stamped MD0 count, and request body. -/
structure MirrorRec where
  seq : Nat
  period : Nat
  body : List Byte
deriving DecidableEq, Repr

/-- A slip that takes effect at a tick of both engines (R484): the MD0 count of that tick, the counter that names it,
its instance, and whether it is slow. -/
structure PairSlip where
  count : Nat
  code : Nat
  inst : Nat
  slow : Bool
deriving DecidableEq, Repr

/-- The pair engine. `now` the pair clock in ns at the last pair event (R475); `seqOut` and `seqIn` the sequence
numbers by frame type, sent and received; `renewals` the RENEW frames at or after the last acknowledged;
`lastAcked`, `tAck`, `armedNext`, `tRen`, `arm`, `lease` the variables of R477; `peerEpoch`, `peerPref`,
`peerEntitled`, `peerState` what the peer last said; `out` the frames the last command sent, as lane and bytes;
`taking` the seq of a TAKE that awaits its GRANT; `mirror` the records a STANDBY holds for its next tick or its
enrolment; `lastApplied` the last record committed; `sE` the seq of the enrolled state, `enrol` its bytes by offset,
`enrolLen` its length and `acked` the bytes acknowledged; `convergeEnd` when the convergence period ends, 0 once it
has; `giveUpDue` why the next tick gives up (0 not, 1 a condition, 2 switchover); `resumeFrom` the MD0 count of the
tick from which outputs resume; `slips` the slips decided and not yet made. -/
structure Pair where
  now : Nat
  seqOut : Store Nat
  seqIn : Store Nat
  renewals : List Renewal
  lastAcked : Option Nat
  tAck : Nat
  armedNext : Bool
  tRen : Option Nat
  arm : Bool
  lease : Nat
  peerEpoch : Nat
  peerPref : Nat
  peerEntitled : Bool
  peerState : Nat
  out : List (Nat × List Byte)
  taking : Option Nat
  mirror : List MirrorRec
  lastApplied : Nat
  sE : Option Nat
  enrol : Store Byte
  enrolLen : Nat
  acked : Nat
  convergeEnd : Nat
  giveUpDue : Nat
  resumeFrom : Option Nat
  slips : List PairSlip
deriving DecidableEq, Repr

/-- A module that a STANDBY runs on a spare core from a STATE received (R486): the module, the core, and whether its
block has been released there. -/
structure Shadow where
  m : Nat
  core : Nat
  done : Bool
deriving DecidableEq, Repr

/-- The lockstep half of the pair engine (R486 to R494). `events`, `timed` and `counters` what the digest of the running
period will list; `own` this engine's newest digests, newest first: the count of the period, whether a
mirrored write of it failed, the bytes; `digIn` the digest
being received and `digFor` the count its frames carry, `adIn` and `adFor` the same of an adoption item; `judged` the
newest 64 judgements (0 unconfirmed, 1 mismatched, 2 matched), newest first; `mirrorBad` a mirrored write of the period
failed; `skewSince` the pair clock since which the skew has kept its side of 2000 ns and `skewOver` which; `rotEnv`,
`rotMods`, `rotAdopt` where the rotations of the envelope slice, the module slices and the adoption stand; `converged`
the items converged in this pass and `passDone` that a pass has ended in which every item was; `adopting` the strip
contexts to be adopted at the next tick, with bit 15 of the strip number for an out-strip and the insert front frame; `shadow` the module that runs on a spare core; `states` the STATE words of the modules as their last
blocks released them. -/
structure Lock where
  events : List (Nat × Nat × Nat × Nat)
  timed : List (Nat × Nat × Nat × Nat × Nat)
  counters : List (Nat × Nat)
  own : List (Nat × Bool × List Byte)
  digIn : Store Byte
  digFor : Nat
  adIn : Store Byte
  adFor : Nat
  judged : List Nat
  mirrorBad : Bool
  skewSince : Nat
  skewOver : Bool
  rotEnv : Nat
  rotMods : Store Nat
  rotAdopt : Nat
  converged : List Nat
  passDone : Bool
  adopting : List (Nat × StripCtx × List Int)
  shadow : Option Shadow
  states : Store (List Nat)
deriving DecidableEq, Repr

/-! ### Journal and Billet card (R504 to R526) -/

/-- A card as the engine sees it: the identity block's serial number, sectors and rated cycles (0 where the block is
wrong, R505), and its contents (an unlisted byte reads 0xFF, erased flash). -/
structure CardSt where
  id : Nat
  sectors : Nat
  rated : Nat
  mem : Store Byte
deriving DecidableEq, Repr

/-- A record of a group (R509): its type and payload. -/
structure Rec where
  typ : Nat
  payload : List Byte
deriving DecidableEq, Repr

/-- A committed group (R510): the sequence of its first record, its records, and the MD0 count of the tick that opened
the period it was committed in, where the tick ran (R22). -/
structure JGroup where
  first : Nat
  recs : List Rec
  period : Option Nat
deriving DecidableEq, Repr

/-- A scene of the directory (R520, R526): its sectors in order and its save serial. -/
structure SceneEnt where
  sectors : List Nat
  serial : Nat
deriving DecidableEq, Repr

/-- A compaction or a fresh snapshot under way (R514, R519): snapshot number, its records, the sequence it stands
at, its ticket, whether a card is adopted (R519), and the serial of the ring sector that opened with the record after
it, once there is one. -/
structure Compaction where
  snapshot : Nat
  recs : List Rec
  at_ : Nat
  ticket : Option Nat
  adopting : Bool
  start : Option Nat
deriving DecidableEq, Repr

/-- A save under way (R521): scene, ticket, the payload of its directory record (empty where the free sectors cannot
hold the scene). -/
structure Saving where
  scene : Nat
  ticket : Nat
  entry : List Byte
deriving DecidableEq, Repr

/-- The journal. `gen` and `snapshot` those of the current superblock; `ring` the ring sectors in serial order as
(serial, sector) with `ringOff` the next free byte in the last; `pend` the groups committed and not durable, oldest
first; `dir` the scene directory; `spare` the sectors freed at the next compaction; `lastCard` the card journalled
earlier in this run; `full` the ring has no room; `format` the ticket of a format;
`serial` the last save serial. -/
structure Jrn where
  card : Option CardSt
  gen : Nat
  snapshot : Nat
  ring : List (Nat × Nat)
  ringOff : Nat
  nextSerial : Nat
  pend : List JGroup
  nextSeq : Nat
  dir : Store SceneEnt
  spare : List Nat
  compaction : Option Compaction
  saving : Option Saving
  lastCard : Option Nat
  full : Bool
  format : Option Nat
  serial : Nat
deriving DecidableEq, Repr

/-! ### Start-up and power (R527 to R546) -/

/-- A copy of the boot parameter block (R537): generation and values by dictionary key; none where its CRC fails. -/
structure ParamBlock where
  gen : Nat
  values : List (Nat × Int)
deriving DecidableEq, Repr

/-- The start-up unit. `params` the two copies of the boot parameter block; `slots` the images of the firmware
slots; `trial` the trial slot and `tried` that it has been tried once; `boot` the slot named to boot; `fuse` the fuse security_version once confirm has raised it; `recovery` the ROM serves recovery;
`broken` a bring-up fault stops after step 3; `go` the state of the last go record that bring-up still has to
enter; `offDue` the ticket of an OFF that waits for durability; `restartDue` a restart that waits; `installing` the
ticket and image of an install; `waitingIn` what stood at the pins when the ROM entered recovery; `pwrOff` the PWR_OFF ball; `entryDue` the entry into RUN of bring-up waits under R539, or is
under its fade. -/
structure Pow where
  params : List (Option ParamBlock)
  slots : List (List Byte)
  trial : Option Nat
  tried : Bool
  boot : Nat
  fuse : Option Nat
  recovery : Bool
  broken : Bool
  go : Option Nat
  offDue : Option Nat
  restartDue : Bool
  installing : Option (Nat × List Byte)
  waitingIn : Option BootIn
  pwrOff : Bool
  entryDue : Bool
deriving DecidableEq, Repr

/-! ### Health (R547 to R570) -/

/-- Monitors, counters, tagging and development access. `hot` and `cool` count consecutive samples of each sensor
at the critical threshold and below its release; `out` and `in_` the same for the fault windows and `wOut`, `wIn`
for the warning windows; `warned` the monitors whose warning stands, `px` the process monitors warned of in this
run; `alert` the ALERT ball driven low; `lfsr` the tagging generators by core, `tags` the record buffer newest
first, `tagSeq` the next sequence number, `tagEnd` the cycle at which a core's tag in flight leaves E2; `challenge`
the valid challenge; `fails` consecutive unlock failures and `lockout` the refusal they cause; `fatalMarch` a latched
failure that only a restart clears; `seen` the monitors with a reading since their last clear. -/
structure Hlt where
  hot : Store Nat
  cool : Store Nat
  out : Store Nat
  in_ : Store Nat
  wOut : Store Nat
  wIn : Store Nat
  warned : List Nat
  px : List Nat
  alert : Bool
  lfsr : Store Nat
  tags : List (List Byte)
  tagSeq : Nat
  tagEnd : Store Nat
  challenge : Option (List Byte)
  fails : Nat
  lockout : Bool
  fatalMarch : Bool
  seen : List Nat
deriving DecidableEq, Repr

/-! ### The machine -/

/-- The machine. `pending` is the queue of commands, first in first out; `attrs` the values of the dictionary by
key, `blobs` its strings and byte objects; `snap` the parameter snapshot of the running period and `snapPrev`
that of the period before (R21); `free` counts the free values used, and is the model's own (DESIGN CHOICE, entry 4). -/
structure State where
  /-- The commands that wait, first in, first out (DESIGN CHOICE, entry 1). -/
  pending : List Instr
  attrs : Store Int
  blobs : Store (List Byte)
  snap : Store Int
  snapPrev : Store Int
  free : Nat
  yug : Yug
  eng : Eng
  cru : Cru
  bel : Bel
  tmp : Tmp
  mtr : Mtr
  plc : Plc
  anv : Anv
  fab : Fab
  tng : Tng
  hea : Hea
  tbs : Tbs
  sap : Store SapSt
  net : Net
  pair : Pair
  lck : Lock
  jrn : Jrn
  pow : Pow
  hlt : Hlt
deriving DecidableEq, Repr

/-! ### Reset -/

/-- `Hazard` at reset. -/
def Hazard.reset : Hazard :=
  { regs := [], accs := [], flags := false }

/-- `InForce` at reset. -/
def InForce.reset : InForce :=
  { family := 0, rate := 1, n := 8, shape := 0 }

/-- `Eng` at reset. -/
def Eng.reset : Eng :=
  { running := false, offset := false, count := 0, frames := 0, cfg := InForce.reset, fade := 0,
    fadeAt := 0, target := 0, goTicket := none, missed := [], peakUse := [] }

/-- `Bel` at reset. -/
def Bel.reset : Bel :=
  { ramps := [], queue := [], zs := [], timed := [], nextId := 0, holds := [], stored := [] }

/-- `Cru` at reset. -/
def Cru.reset : Cru :=
  { planeA := [], planeB := [], strike := none, past := [], load := none, sums := [] }

/-- `Tmp` at reset. -/
def Tmp.reset : Tmp :=
  { inCtx := [], outCtx := [], cap := [], front := [], frontPrev := [], inputs := [], inputs1 := [],
    inputs2 := [],
    pre := [], outIn := [], outs := [], emit := [], emitPrev := [], inEnd := [] }

/-- `Mtr` at reset. -/
def Mtr.reset : Mtr :=
  { meters := [], loud := [], sil := [], silFound := [], peaksDone := [], loudDue := false }

/-- `Plc` at reset. -/
def Plc.reset : Plc :=
  { regions := [], plans := [], zeroing := [], retiring := [], preCopied := false, finalBlock := false,
    copied := false, withheld := [], reinstating := none, switched := 0 }

/-- `Anv` at reset. -/
def Anv.reset : Anv :=
  { cores := [], mods := [] }

/-- `Fab` at reset. -/
def Fab.reset : Fab :=
  { mem := [], upset := [], wback := [], waiting := [], opened := [], rr := [], gateRr := [], clock := 0,
    posted := [], readData := [], error := false, march := none, deepReady := true }

/-- `Tng` at reset. -/
def Tng.reset : Tng :=
  { chans := [], bytes := [], pulses := [], pace := [], issued := [], lastR := none, lastW := none,
    rr := [] }

/-- `Hea` at reset. -/
def Hea.reset : Hea :=
  { now := 0, refs := [], disagree := [], switch := none, everLocked := false, inLock := 0,
    outLock := 0, lockedSince := none, anchor := [], temp := 0, ticks := 0, clean := 0,
    acc := [], train := [], restored := false, resumed := false, stale := false, written := 0,
    holdSince := none, lostAt := none, bias := 0, walk := 0, steered := 0, steeredAt := 0 }

/-- `Tbs` at reset. -/
def Tbs.reset : Tbs :=
  { tb := [], ptp := [] }

/-- `Net` at reset. -/
def Net.reset : Net :=
  { rx := [], tx := [], seen := [], parts := [], own := [], welded := [],
    last := [], gone := [], heard := [], entries := 0, due := none, margins := [],
    frags := [], sentRtp := [] }

/-- `Yug` at reset. -/
def Yug.reset : Yug :=
  { queue := [], kept := [], udpOut := none, spiBusy := false, spiReply := [], spiReady := false,
    miso := [], aux := [], issued := 0, done := 0, log := [], nextSeq := 1,
    attention := 0, sessions := [], nextSession := 1, keys := [], runs := 0 }

/-- `Pair` at reset. -/
def Pair.reset : Pair :=
  { now := 0, seqOut := [], seqIn := [], renewals := [], lastAcked := none, tAck := 0,
    armedNext := false, tRen := none, arm := false, lease := 96, peerEpoch := 0, peerPref := 0,
    peerEntitled := false, peerState := 0, out := [], taking := none, mirror := [], lastApplied := 0,
    sE := none, enrol := [], enrolLen := 0, acked := 0, convergeEnd := 0, giveUpDue := 0,
    resumeFrom := none, slips := [] }

/-- `Lock` at reset. -/
def Lock.reset : Lock :=
  { events := [], timed := [], counters := [], own := [], digIn := [], digFor := 0,
    adIn := [], adFor := 0, judged := [], mirrorBad := false, skewSince := 0, skewOver := false,
    rotEnv := 0, rotMods := [], rotAdopt := 0, converged := [], passDone := false, adopting := [],
    shadow := none, states := [] }

/-- `Jrn` at reset. (DESIGN CHOICE, entry 2) -/
def Jrn.reset : Jrn :=
  { card := none, gen := 0, snapshot := 0, ring := [], ringOff := 0, nextSerial := 0,
    pend := [], nextSeq := 1, dir := [], spare := [], compaction := none, saving := none,
    lastCard := none, full := false, format := none, serial := 0 }

/-- `Pow` at reset. (DESIGN CHOICE, entry 2) -/
def Pow.reset : Pow :=
  { params := [none, none], slots := [[], []], trial := none, tried := false, boot := 0, fuse := none,
    recovery := false, broken := false, go := none, offDue := none, restartDue := false, installing := none,
    waitingIn := none, pwrOff := false, entryDue := false }

/-- `Hlt` at reset. (DESIGN CHOICE, entry 2) -/
def Hlt.reset : Hlt :=
  { hot := [], cool := [], out := [], in_ := [], wOut := [], wIn := [],
    warned := [], px := [], alert := false, lfsr := [], tags := [], tagSeq := 1,
    tagEnd := [], challenge := none, fails := 0, lockout := false, fatalMarch := false, seen := [] }

/-- A core at reset (R287): registers, memories and queue zero. (DESIGN CHOICE, entry 2) -/
def CoreSt.reset : CoreSt :=
  { v := [], acc := [], p := [], i := [], k := [], sr := 0,
    bx := 0, pc := 0, stack := [], pm := [], x := [], y := [],
    wbuf := [], latch := [], constQ := [], run := none, todo := [], stall := none,
    draining := false, haz := Hazard.reset, meter := 0, cycles := 0, blockOver := false, overAt := [],
    condemned := false, halted := false }

/-- A strip context as a strip starts with it: all zero (R193). -/
def StripCtx.reset : StripCtx :=
  { hist := [], keyOwn := [], keyExt := [], msOwn := 0, msExt := 0, comp := 0,
    gate := 0, gateHold := 0, quench := 0, readPos := 0, writePos := 0, watch := [], lastOut := 0 }

/-- `MeterCtx` at reset. -/
def MeterCtx.reset : MeterCtx :=
  { held := 0, holdLeft := 0, tpHeld := 0, tpLeft := 0, squares := [], history := [] }

/-- `LoudCtx` at reset. -/
def LoudCtx.reset : LoudCtx :=
  { powers := [], running := [], blocks := [], since := 0 }

/-- `SapSt` at reset. -/
def SapSt.reset : SapSt :=
  { rx := [], last := (0, 0), tx := [], sent := (0, 0), good := 0, near := 0,
    far := 0, fault := 0, warned := false, fresh := false }

/-- `RefSt` at reset. -/
def RefSt.reset : RefSt :=
  { window := [], present := false, inTol := false, qualified := false, ever := false, waitEnd := none }

/-- `TbSt` at reset. -/
def TbSt.reset : TbSt :=
  { hi := 0, lastLo := 0, integ := 0, lastEvent := none, restep := false }

/-- `PtpSt` at reset. -/
def PtpSt.reset : PtpSt :=
  { masters := [], follows := none, slaveSince := none, announces := 0, delay := none, reqSeq := 0,
    reqOpen := false }

/-- `RxSt` at reset. -/
def RxSt.reset : RxSt :=
  { ring := [], next := 0, last := [], missing := 0, got := [], margins := [],
    fifo := [], phase := 0, good := 0, fault := false, live := false }

/-- `TxSt` at reset. -/
def TxSt.reset : TxSt :=
  { buf := [], first := 0, last := [], fifo := [], phase := 0, good := 0,
    fault := false }

/-- `TChan` at reset. -/
def TChan.reset : TChan :=
  { queue := [], run := none, paused := false, preempted := false }

/-- The machine right after reset: brought up with the defaults, no card, in CONFIG (R33, R287, R295, R518, R536).
`attrs` lists bring_up_step at 6, "done"; every other attribute reads its default. (DESIGN CHOICE, entry 2) -/
def State.reset : State :=
  { pending := [], attrs := [(0x7C00000500000000, 6)], blobs := [], snap := [], snapPrev := [], free := 0, yug := Yug.reset,
    eng := Eng.reset, cru := Cru.reset, bel := Bel.reset, tmp := Tmp.reset, mtr := Mtr.reset,
    plc := Plc.reset, anv := Anv.reset, fab := Fab.reset, tng := Tng.reset, hea := Hea.reset,
    tbs := Tbs.reset, sap := [], net := Net.reset, pair := Pair.reset, lck := Lock.reset,
    jrn := Jrn.reset, pow := Pow.reset, hlt := Hlt.reset }

end Sys2Proof.Machine
end

