-- ==== Sys2Proof/Machine/Ops.lean ====
section
/-! DEFINITION. Operations every unit uses: reading and writing the object dictionary, counters, the sizes and
rates of the configured engine, the event log (R453, R454), tickets (R449 to R451), self-diagnosis (R553, R554). -/

namespace Sys2Proof.Machine

/-! ### The dictionary -/

/-- Key of an attribute's element: class, instance, attribute, element (R8). -/
def attrKey (code inst elem : Nat) : Nat :=
  ((code / 256 * 65536 + inst) * 256 + code % 256) * 4294967296 + elem

/-- Class and attribute of a key. -/
def keyCode (k : Nat) : Nat := k / 2 ^ 56 * 256 + k / 2 ^ 32 % 256
/-- Instance of a key. -/
def keyInst (k : Nat) : Nat := k / 2 ^ 40 % 65536
/-- Element of a key. -/
def keyElem (k : Nat) : Nat := k % 2 ^ 32

/-- The address of an attribute as frames carry it (R436). -/
def address (code inst : Nat) : Nat := (code / 256 * 65536 + inst) * 256 + code % 256

/-- Whether a table row covers an attribute at an instance, at the largest shape. -/
def ARow.covers (r : ARow) (attr inst : Nat) : Bool :=
  r.attr == attr && decide (r.first ≤ inst) &&
    (match r.last with
     | .fix n => decide (inst ≤ n)
     | .src => decide (inst < 4096)
     | .dst b => decide (inst < b + 2048)
     | .ins => decide (inst < 2048))

/-- The table row of an attribute at an instance. -/
def rowAt (code inst : Nat) : Option ARow := (classRows (code / 256)).find? (·.covers (code % 256) inst)

/-- The default of an attribute's element (R574, R576), for the defaults that name elements or instances first.
(DESIGN CHOICE, entry 2) -/
def dfltAt (code inst elem : Nat) : Int :=
  if code = Attr.insCoef ∨ code = Attr.outsCoef ∨ code = Attr.insCompKeyCoef ∨ code = Attr.outsCompKeyCoef then
    if elem % 5 = 0 then 536870912 else 0
  else if inst = 0 ∧ (code = Attr.tbEnable ∨ code = Attr.mdEnable ∨ code = Attr.tbState) then 1
  else if code = Attr.txSsrc then (inst : Int)
  else match rowAt code inst with
    | some r => r.dflt
    | none => 0

/-- A value of the dictionary in a store. -/
def attrIn (m : Store Int) (code inst elem : Nat) : Int :=
  (Store.find? m (attrKey code inst elem)).getD (dfltAt code inst elem)

/-- The committed value of an attribute's element. -/
def State.a (s : State) (code inst elem : Nat) : Int := attrIn s.attrs code inst elem
/-- The same as a natural number. -/
def State.n (s : State) (code inst elem : Nat) : Nat := (s.a code inst elem).toNat
/-- The value in the parameter snapshot of the running period (R21). -/
def State.sn (s : State) (code inst elem : Nat) : Int := attrIn s.snap code inst elem
/-- The value in the snapshot of the period before. -/
def State.sp (s : State) (code inst elem : Nat) : Int := attrIn s.snapPrev code inst elem

/-- Writes an attribute's element. -/
def State.set (s : State) (code inst elem : Nat) (v : Int) : State :=
  { s with attrs := Store.set (dfltAt code inst elem) s.attrs (attrKey code inst elem) v }

/-- Writes consecutive elements. -/
def State.setList (s : State) (code inst elem : Nat) : List Int → State
  | [] => s
  | v :: vs => State.setList (s.set code inst elem v) code inst (elem + 1) vs

/-- Bytes of a value of a type (R573). -/
def tyBytes (ty : Nat) : Nat :=
  match ty with
  | 1 | 11 | 12 => 1
  | 2 | 5 => 2
  | 3 | 6 | 8 | 9 => 4
  | _ => 8

/-- Whether a type is signed (R573). -/
def tySigned (ty : Nat) : Bool := ty == 5 || ty == 6 || ty == 7 || ty == 8 || ty == 9

/-- The classes whose writable attributes and actions are replicated (R481). (DEDUCED, entry 56) -/
def replicatedClass (code : Nat) : Bool :=
  [0x10, 0x20, 0x21, 0x22, 0x23, 0x28, 0x30, 0x31, 0x41, 0x58, 0x61, 0x62, 0x63, 0x79].contains (code / 256)

/-- Notes a change of a replicated counter for the digest of an ACTIVE (R488). (DEDUCED, entry 56) -/
def State.noteCounter (s : State) (code inst elem : Nat) : State :=
  if s.n Attr.pairRole 0 0 = 1 ∧ replicatedClass code ∧ ¬ s.lck.counters.contains (address code inst, elem) then
    { s with lck := { s.lck with counters := s.lck.counters ++ [(address code inst, elem)] } }
  else s

/-- Adds `d` to a counter, which wraps at its width. -/
def State.add (s : State) (code inst elem d : Nat) : State :=
  let w := match rowAt code inst with
    | some r => 8 * tyBytes r.ty
    | none => 32
  (s.set code inst elem (((s.n code inst elem + d) % 2 ^ w : Nat) : Int)).noteCounter code inst elem

/-- Adds one to a counter. -/
def State.bump (s : State) (code inst elem : Nat) : State := s.add code inst elem 1

/-- Raises an attribute to a value if that is greater. -/
def State.peak (s : State) (code inst elem : Nat) (v : Int) : State :=
  if s.a code inst elem < v then s.set code inst elem v else s

/-- The next use of a free value: the counter it is applied to, and the state with it advanced. -/
def State.fresh (s : State) : Nat × State := (s.free, { s with free := s.free + 1 })

/-- The instances and elements listed for an attribute, with their values: those not at the default. -/
def State.listed (s : State) (code : Nat) : List (Nat × Nat × Int) :=
  (s.attrs.filter fun e => keyCode e.1 == code).map fun e => (keyInst e.1, keyElem e.1, e.2)

/-- Sets every listed element of an attribute at one instance to its default. -/
def State.clearAttr (s : State) (code inst : Nat) : State :=
  { s with attrs := s.attrs.filter fun e => !(keyCode e.1 == code && keyInst e.1 == inst) }

/-! ### Sizes and rates (R2, R10, R23, R38) -/

/-- Source slots. -/
def numSrc (fam shape : Nat) : Nat :=
  if fam = 0 then (if shape = 1 then 2048 else 4096) else if fam = 1 then 2048 else 1024
/-- Destinations. -/
def numDst (fam shape : Nat) : Nat := if fam = 0 ∧ shape = 1 then 2048 else 1024
/-- In-strips of a family. -/
def numIns (fam : Nat) : Nat := 2048 / 2 ^ fam
/-- The engine rate (R10). -/
def fsOf (fam rate : Nat) : Nat := (if rate = 0 then 44100 else 48000) * 2 ^ fam

/-- Family, shape and their sizes as the attributes stand (R572). -/
def State.fam (s : State) : Nat := s.n Attr.engFamily 0 0
def State.shape (s : State) : Nat := s.n Attr.engShape 0 0
def State.S (s : State) : Nat := numSrc s.fam s.shape
def State.D (s : State) : Nat := numDst s.fam s.shape
def State.ins (s : State) : Nat := numIns s.fam
/-- The block size as written. -/
def State.blk (s : State) : Nat := s.n Attr.engBlockSize 0 0
/-- The engine rate as written. -/
def State.fs (s : State) : Nat := fsOf s.fam (s.n Attr.engRateBase 0 0)

/-- Sizes of the configuration in force (R35). -/
def InForce.S (c : InForce) : Nat := numSrc c.family c.shape
def InForce.D (c : InForce) : Nat := numDst c.family c.shape
def InForce.ins (c : InForce) : Nat := numIns c.family
def InForce.fs (c : InForce) : Nat := fsOf c.family c.rate

/-- Fabric cycles of a block period at the 48 kHz base (R13): the budget of one core and of one lane. -/
def blockCycles (fam n : Nat) : Nat := n * 25000 / 2 ^ fam
/-- Tongs bytes of a block period (R23). -/
def tongsBudget (fam n : Nat) : Nat := n * 400000 / 2 ^ fam
/-- Deep-memory bytes of a block period (R23). -/
def deepBudget (fam n : Nat) : Nat := n * 800000 / 2 ^ fam
/-- Tether payload bytes of a block period (R23). -/
def tetherBudget (fam n : Nat) : Nat := n * 50000 / 2 ^ fam

/-- Whether a Weld binding word gives its destination a role: it sends or sums (R419). -/
def weldRole (w : Int) : Bool := decide (1073741824 ≤ w)

/-- Engine state code: 0 CONFIG, 1 RUN, 2 HALT (R33). -/
def State.engState (s : State) : Nat := s.n Attr.engState 0 0
/-- Whether the chip is in LOW, where Anvil, Temper, the Crucible and Tongs are clock-stopped (R541). -/
def State.low (s : State) : Bool := s.n Attr.powPowerState 0 0 == 2
/-- Pair role code (R467): 0 SOLO, 1 ACTIVE, 2 STANDBY, 3 ORPHAN, 4 FAULTED. -/
def State.role (s : State) : Nat := s.n Attr.pairRole 0 0

/-! ### Time (R364, R365, R454) -/

/-- The running TIME64 of time base `t` as last read. -/
def State.tbNow (s : State) (t : Nat) : Nat :=
  let x := Store.get TbSt.reset s.tbs.tb t
  x.hi * 4294967296 + x.lastLo

/-- The TIME64 that time base `t` held at the last tick (R365). -/
def State.tbAtTick (s : State) (t : Nat) : Nat :=
  let now := s.tbNow t
  let lo := s.n Attr.tbTickTime t 0
  let hi := now / 4294967296
  if now % 4294967296 < lo then (hi - 1) * 4294967296 + lo else hi * 4294967296 + lo

/-- The time base of MD0. -/
def State.md0Tb (s : State) : Nat := s.n Attr.mdTimeBase 0 0
/-- The present time on MD0's time base. -/
def State.mdTime (s : State) : Nat := s.tbNow s.md0Tb
/-- The sample count that stands at time `t` at rate `fs` (R376). -/
def countAt (fs t : Nat) : Nat := t * fs / 1000000000
/-- The first sample at or after time `t` (R121). -/
def firstAt (fs t : Nat) : Nat := ceilDiv (t * fs) 1000000000

/-! ### The event log (R453, R454) -/

/-- Severities. -/
def sevInfo : Nat := 0
def sevNotice : Nat := 1
def sevWarning : Nat := 2
def sevError : Nat := 3

/-- Adds an entry to the event log; NOTICE and above raise the attention count (R443). -/
def State.log (s : State) (sev code inst elem : Nat) (value : Int) : State :=
  let e : LogEntry := ⟨s.yug.nextSeq, sev, (s.mdTime : Int), code / 256, inst, code % 256, elem, value⟩
  { s with yug := { s.yug with
      log := (e :: s.yug.log).take 1024
      nextSeq := (s.yug.nextSeq + 1) % 2 ^ 32
      attention := if 1 ≤ sev then (s.yug.attention + 1) % 16 else s.yug.attention } }

/-- Adds an entry that names an attribute's element at its present value. -/
def State.logAt (s : State) (sev code inst elem : Nat) : State := s.log sev code inst elem (s.a code inst elem)

/-! ### Tickets (R449 to R451) -/

/-- Result codes (R444). -/
def rOk : Nat := 0
def rPending : Nat := 1
def rBusy : Nat := 2
def rNoObject : Nat := 3
def rAccess : Nat := 4
def rRange : Nat := 5
def rType : Nat := 6
def rState : Nat := 7
def rTooBig : Nat := 8
def rAuth : Nat := 9
def rRampFull : Nat := 10
def rNoBillet : Nat := 11
def rStale : Nat := 12
def rAdmission : Nat := 13

/-- What a slot that never held a ticket holds. -/
def TicketAux.none : TicketAux := ⟨0, 0, 0⟩

/-- The free slot that completed longest ago (R451), searched among the slots below `n`. -/
def State.freeSlot (s : State) : Nat → Option Nat
  | 0 => none
  | n + 1 =>
    let here := s.n Attr.tktState n 0
    match s.freeSlot n with
    | none => if here = 1 then none else some n
    | some m =>
      if here ≠ 1 ∧ (Store.get TicketAux.none s.yug.aux n).doneAt < (Store.get TicketAux.none s.yug.aux m).doneAt
      then some n else some m

/-- The next ticket word for a slot (R449). -/
def State.ticketWord (s : State) (slot : Nat) : Nat :=
  slot + 16 * ((Config.ticketSerial s.yug.runs + s.yug.issued) % 2 ^ 28)

/-- Opens a ticket for an operation at `origin` with a total; none when no slot is free. -/
def State.openTicket (s : State) (origin total : Nat) : Option (Nat × State) :=
  match s.freeSlot 16 with
  | none => none
  | some k =>
    let s1 := (((s.set Attr.tktTicket k 0 (s.ticketWord k)).set Attr.tktState k 0 1).set Attr.tktResult k 0 1).set
      Attr.tktOrigin k 0 origin
    some (k, { s1 with yug := { s1.yug with
      issued := s1.yug.issued + 1
      aux := Store.put s1.yug.aux k ⟨0, total, 0⟩ } })

/-- Sets a ticket's progress. -/
def State.ticketProgress (s : State) (k progress : Nat) : State :=
  let x := Store.get TicketAux.none s.yug.aux k
  { s with yug := { s.yug with aux := Store.put s.yug.aux k { x with progress := progress } } }

/-- Completes a pending ticket with a result; progress then equals total (R450). -/
def State.completeTicket (s : State) (k result : Nat) : State :=
  if s.n Attr.tktState k 0 = 1 then
    let x := Store.get TicketAux.none s.yug.aux k
    let s1 := (s.set Attr.tktState k 0 2).set Attr.tktResult k 0 result
    { s1 with yug := { s1.yug with
      done := s1.yug.done + 1
      aux := Store.put s1.yug.aux k { x with progress := x.total, doneAt := s1.yug.done + 1 } } }
  else s

/-- Completes a ticket if there is one. -/
def State.completeTicket? (s : State) (k : Option Nat) (result : Nat) : State :=
  match k with
  | some k => s.completeTicket k result
  | none => s

/-! ### Held outputs (R131, R132) -/

/-- The hold of an output, if it is not live. -/
def State.holdOf (s : State) (o : OutRef) : Option Hold := s.bel.holds.lookup o

/-- Replaces the hold of an output. -/
def State.setHold (s : State) (o : OutRef) (h : Option Hold) : State :=
  let rest := s.bel.holds.filter fun e => e.1 != o
  { s with bel := { s.bel with holds := match h with | some h => (o, h) :: rest | none => rest } }

/-- Whether an output is live or resumes. -/
def State.liveOut (s : State) (o : OutRef) : Bool :=
  match s.holdOf o with
  | some h => h.phase == 4
  | none => true

/-- Starts holding an output at `v` for `holdFor` samples (R131); an output that already holds or fades keeps its
hold, and one that resumes holds anew. -/
def State.startHold (s : State) (o : OutRef) (v : Int) (holdFor : Nat) : State :=
  if s.liveOut o then s.setHold o (some ⟨1, v, 0, holdFor, v⟩) else s

/-- The value an output delivered last: what its resume fade has given (R132), else `v`. -/
def State.lastOut (s : State) (o : OutRef) (v : Int) : Int :=
  match s.holdOf o with
  | some h => if h.phase = 4 then h.out else v
  | none => v

/-- Starts the resume fade of an output that is not live (R132), from the value it delivers. -/
def State.startResume (s : State) (o : OutRef) (c : Int) : State :=
  match s.holdOf o with
  | some _ => s.setHold o (some ⟨4, c, 0, 0, c⟩)
  | none => s

/-- Sample `i` of the hold fade of a held output (R131); `lh` is its length. -/
def Hold.fadeAt (h : Hold) (lh i : Nat) : Int := if lh ≤ i then 0 else roundEven ((weights 0 i lh).1 * h.value) 23

/-- One sample of a held output: the value delivered for live sample `x`, and the hold after it (R131, R132). The ends of
the phases are events of their own, which change no sample. -/
def Hold.sample (h : Hold) (lh : Nat) (x : Int) : Int × Hold :=
  let y := match h.phase with
    | 1 => if h.pos < h.holdFor then h.value else h.fadeAt lh (h.pos - h.holdFor)
    | 2 => h.fadeAt lh h.pos
    | 3 => 0
    | 4 => if 32 ≤ h.pos then x else fadeLinear h.pos 32 h.value x
    | _ => x
  (y, { h with pos := if h.phase = 1 ∨ h.phase = 2 ∨ h.phase = 4 then h.pos + 1 else h.pos, out := y })

/-- The value a held output delivered last. -/
def Hold.current (h : Hold) (lh : Nat) : Int :=
  match h.phase with
  | 1 => if h.pos ≤ h.holdFor then h.value else h.fadeAt lh (h.pos - 1 - h.holdFor)
  | 2 => if h.pos = 0 then h.value else h.fadeAt lh (h.pos - 1)
  | 4 => h.out
  | _ => 0

/-! ### Self-diagnosis (R553, R554) -/

/-- Whether condition `b` is present. -/
def State.condition (s : State) (b : Nat) : Bool := bit (s.n Attr.diaPresent 0 0) b

/-- Whether the renewals of an ACTIVE carry armed 1 (R477): the last one sent does. -/
def State.armed (s : State) : Bool := s.role == 1 && s.pair.renewals.getLast?.any (·.armed)

/-- Holds both outputs of SAP port `n` from now on (R467, R498): the samples still waiting give way to the hold, and count
towards it. -/
def State.holdSap (s : State) (n : Nat) : State :=
  let x := Store.get SapSt.reset s.sap n
  let h := s.n Attr.sapHoldSamples n 0
  let live (ch : Nat) : Bool := s.liveOut (.sapOut n ch)
  let hold (s : State) (ch : Nat) (v : Int) : State :=
    if live ch then s.setHold (.sapOut n ch) (some ⟨1, v, x.tx.length, h, v⟩) else s
  let tx := x.tx.map fun p => (if live 0 then x.sent.1 else p.1, if live 1 then x.sent.2 else p.2)
  hold (hold { s with sap := Store.set SapSt.reset s.sap n { x with tx := tx } } 0 x.sent.1) 1 x.sent.2

/-- Holds the outputs of every SAP port from now on. -/
def State.holdSaps (s : State) : State := (List.range 32).foldl State.holdSap s

/-- The MAC address of a port (R429). -/
def macOf (p : Nat) : Nat := Config.macAddress % (2 ^ 48 - 3) + p

/-- Enters a role, with its substate. -/
def State.setRole (s : State) (role standby : Nat) : State :=
  (s.set Attr.pairRole 0 0 role).set Attr.pairStandbyState 0 0 standby

/-- Drops to ORPHAN (3) or FAULTED (4): the outputs hold (R467) and the silence pins are de-asserted (R468). -/
def State.dropRole (s : State) (role : Nat) : State :=
  ((s.setRole role 0).set Attr.silPinState 0xFFFF 0 0).holdSaps

/-- A condition rises (R553): it is counted, timed, logged as ERROR, latched where the catalogue says so, and
has its outcome by role: a STANDBY becomes FAULTED, an ACTIVE with armed 1 gives up at the next tick (R496). -/
def State.raise (s : State) (b : Nat) : State :=
  if s.condition b then s
  else
    let p := s.n Attr.diaPresent 0 0 + 2 ^ b
    let s := s.set Attr.diaPresent 0 0 p
    let s := if b = 0 ∨ b = 1 ∨ b = 5 ∨ b = 6 then
        s.set Attr.diaLatched 0 0 ((s.n Attr.diaLatched 0 0 ||| 2 ^ b : Nat) : Int) else s
    let s := (s.bump Attr.diaCounts 0 b).set Attr.diaLastTime 0 b s.mdTime
    let s := s.log sevError Attr.diaPresent 0 0 p
    if s.role = 2 then s.dropRole 4
    else if s.armed then { s with pair := { s.pair with giveUpDue := 1 } }
    else s

/-- A level condition falls (R554). -/
def State.fall (s : State) (b : Nat) : State :=
  if s.condition b then s.set Attr.diaPresent 0 0 ((s.n Attr.diaPresent 0 0 - 2 ^ b : Nat) : Int) else s

/-! ### Event counters (R555 to R557) -/

/-- Adds `d` to the counters below `k` whose event is `e`; an even counter that wraps carries into its chained
partner (R557). -/
def countEvent (e d : Nat) : Nat → State → State
  | 0, s => s
  | k + 1, s =>
    let s := countEvent e d k s
    let w := s.n Attr.cntControl k 0
    if bit w 31 && !(bit w 30 && k % 2 == 1) && w % 512 == e then
      let v := s.n Attr.cntValue k 0
      let s1 := s.add Attr.cntValue k 0 d
      let w2 := s.n Attr.cntControl (k + 1) 0
      if decide (4294967296 ≤ v + d) && k % 2 == 0 && bit w2 31 && bit w2 30 then s1.bump Attr.cntValue (k + 1) 0
      else s1
    else s

/-- An event of the catalogue occurs in `d` fabric cycles: every counter that counts it rises (R555). Where no control
word is set the state is unchanged. -/
def State.events (s : State) (e d : Nat) : State :=
  if s.listed Attr.cntControl = [] ∨ d = 0 then s else countEvent e d 64 s

/-- An event of the catalogue occurs once. -/
def State.event (s : State) (e : Nat) : State := s.events e 1

/-- A charge as a share of a budget in units of 0.01 %, to the nearest, as the shares of the worked example after R30 are
printed. (DEDUCED, entry 61) -/
def centiPercent (a b : Nat) : Nat := (20000 * a + b) / (2 * b)

end Sys2Proof.Machine
end

