-- ==== Sys2Proof/Machine/Admission.lean ====
section
/-! DEFINITION. Admission (R23 to R30, R181 to R190): the declared topology, its charges, the packing of strips onto
lanes and of modules onto cores, and the chain test. -/

namespace Sys2Proof.Machine

/-! ### Images -/

/-- The port areas and regions of an image in X (`y` false) or Y, those of no words left out (R237). -/
def Image.runsIn (g : Image) (y : Bool) : List (Nat × Nat) :=
  let rs := (g.data.filter (·.inY == y)).map fun r => (r.base, r.size)
  let rs := if g.inY == y then (g.inArea, 32 * g.nIn) :: rs else rs
  let rs := if g.outY == y then (g.outArea, 32 * g.nOut) :: rs else rs
  rs.filter fun r => r.2 != 0

/-- Sx or Sy: the highest end of the X (`y` false) or Y regions and port areas of an image; an area of no words has no
end (R247). (DEDUCED, entry 18) -/
def Image.dataEnd (g : Image) (y : Bool) : Nat := ((g.runsIn y).map fun r => r.1 + r.2).foldl Nat.max 0

/-- Sp, the words of program segment (R247). -/
def Image.sp (g : Image) : Nat := g.progBase + g.prog.length
/-- Words of STATE (R194). -/
def Image.stateWords (g : Image) : Nat := ((g.data.filter (·.kind == 1)).map (·.size)).sum
/-- The budget entry of a family and N (R246). -/
def Image.budgetFor (g : Image) (fam n : Nat) : Option Budget :=
  g.budget.find? fun b => b.family == fam && b.n == n

/-! ### The declared topology (R179) -/

/-- A module's charges. -/
structure ModLoad where
  m : Nat
  cycles : Nat
  deep : Nat
  tongs : Nat
  sp : Nat
  x : Nat
  y : Nat
  state : Nat
deriving DecidableEq, Repr

/-- The declared work. `plain` in-strips without insert, `fronts` in-strips with one, `outs` out-strips, each
ascending; `lines` the delay lines in use; `slots` the occupied source slots with their words. -/
structure Topo where
  fam : Nat
  n : Nat
  S : Nat
  D : Nat
  plain : List Nat
  fronts : List Nat
  outs : List Nat
  lines : Nat
  mods : List ModLoad
  unbudgeted : Bool
  slots : List (Nat × Nat)
  spare : Nat
  pair : Bool
  policy : Nat
deriving DecidableEq, Repr

/-- Whether a strip's bit is set in a map (R180). -/
def inMap (m : Store Int) (code n : Nat) : Bool := bit (attrIn m code 0 (n / 32)).toNat (n % 32)

/-- The strips whose bit is set in a map, ascending. -/
def mapStrips (m : Store Int) (code : Nat) : List Nat :=
  (m.filter fun e => keyCode e.1 == code).flatMap fun e =>
    ((List.range 32).filter fun b => bit e.2.toNat b).map fun b => 32 * keyElem e.1 + b

/-- The declared modules. -/
def State.modules (s : State) : List (Nat × Mod) :=
  s.anv.mods.filterMap fun e => match e.2 with
    | some m => some (e.1, m)
    | none => none

/-- A declared module. -/
def State.mod? (s : State) (m : Nat) : Option Mod := (Store.find? s.anv.mods m).getD none

/-- Whether an unload of module `m` waits for its tick: a plan whose effect is that its state reads 2 till then
(R188, R250). -/
def State.leaving (s : State) (m : Nat) : Bool :=
  s.plc.plans.any fun p => p.effect.contains (attrKey Attr.modState m 0, 2)
/-- Whether module `m` waits for the plan that adds it: its state reads 0 till then. -/
def State.arriving (s : State) (m : Nat) : Bool :=
  s.plc.plans.any fun p => p.effect.contains (attrKey Attr.modState m 0, 0)

/-- Whether two parameters are one where they wait: a node's plane is resolved when its ramp starts (R80). -/
def sameParam (a b : RParam) : Bool :=
  match a, b with
  | .node _ x y, .node _ u v => x == u && y == v
  | _, _ => a == b

/-- The waiting ramp of a parameter. -/
def State.queued? (s : State) (p : RParam) : Option NewRamp :=
  (s.bel.queue.flatMap (·.ramps)).find? fun r => sameParam r.param p

/-- The slots with a row swap that waits, and their new occupants (R86, R107). -/
def State.waitingSwaps (s : State) : List (Nat × Nat) :=
  (s.bel.queue.flatMap (·.ramps)).filterMap fun r => match r.param with
    | .swap k => some (k, r.target.toNat)
    | _ => none

/-- The occupied slots with their words, each with the occupant last bound to it. -/
def State.bound (s : State) : List (Nat × Nat) :=
  let new := s.waitingSwaps
  let old := (s.listed Attr.slotOccupant).filterMap fun e =>
    if new.any (·.1 == e.1) then none else some (e.1, e.2.2.toNat)
  old ++ new.filter (·.2 != 0)

/-- The attributes as the audio takes them: a change still pending shows its old values (R188). -/
def State.inForce (s : State) : Store Int :=
  (s.plc.plans.flatMap (·.effect)).reverse.foldl
    (fun m e => Store.set (dfltAt (keyCode e.1) (keyInst e.1) (keyElem e.1)) m e.1 e.2) s.attrs

/-- The topology that a store of attributes, the modules `mods` and the occupants `slots` make. -/
def State.topoOf (s : State) (m : Store Int) (mods : List (Nat × Mod)) (slots : List (Nat × Nat)) : Topo :=
  let fam := s.fam
  let n := s.blk
  let ins := (mapStrips m Attr.plcInStripMap).filter (· < numIns fam)
  let outs := (mapStrips m Attr.plcOutStripMap).filter (· < s.D)
  { fam := fam, n := n, S := s.S, D := s.D
    plain := ins.filter fun i => attrIn m Attr.insInsert i 0 == 0
    fronts := ins.filter fun i => attrIn m Attr.insInsert i 0 != 0
    outs := outs
    lines := (ins.filter fun i => attrIn m Attr.insDelayEnable i 0 == 1).length +
      (outs.filter fun i => attrIn m Attr.outsDelayEnable i 0 == 1).length
    mods := mods.filterMap fun e => (e.2.image.budgetFor fam n).map fun b =>
      ⟨e.1, b.cycles, b.deep, b.tongs, e.2.image.sp, e.2.image.dataEnd false, e.2.image.dataEnd true,
        e.2.image.stateWords⟩
    unbudgeted := mods.any fun e => (e.2.image.budgetFor fam n).isNone
    slots := slots.filter fun e => decide (e.1 < s.S)
    spare := s.n Attr.plcSpareCores 0 0
    pair := s.role != 0
    policy := s.n Attr.plcMigrationPolicy 0 0 }

/-- The declared topology (R179), with every change still pending (R188). -/
def State.topo (s : State) : Topo := s.topoOf s.attrs (s.modules.filter fun e => !s.leaving e.1) s.bound

/-- The topology that runs: the attributes in force, with the modules that still run (R188). -/
def State.runningTopo (s : State) : Topo :=
  s.topoOf s.inForce (s.modules.filter fun e => !s.arriving e.1)
    ((s.inForce.filter fun e => keyCode e.1 == Attr.slotOccupant).map fun e => (keyInst e.1, e.2.toNat))

/-! ### Charges (R24, R25, R27) -/

/-- Fabric cycles of the period. -/
def Topo.pc (t : Topo) : Nat := blockCycles t.fam t.n

/-- The digest charge (R490). -/
def Topo.digest (t : Topo) : Nat :=
  64 + 4 * ceilDiv t.D 16 + 8192 + 4096 + 1536 + 32 * ceilDiv (t.plain.length + t.fronts.length + t.outs.length) 16 +
    (t.mods.map fun m => 8 + 4 * ceilDiv m.state 16).sum

/-- Temper charge of all strips, in lane-cycles per sample (R24). -/
def Topo.temper (t : Topo) : Nat := 64 * t.plain.length + 72 * t.fronts.length + 96 * t.outs.length
/-- Tongs bytes charged. -/
def Topo.tongs (t : Topo) : Nat := tongsBudget t.fam t.n / 4 + (t.mods.map (·.tongs)).sum
/-- Deep-memory bytes charged. -/
def Topo.deep (t : Topo) : Nat := deepBudget t.fam t.n / 10 + 8 * t.n * t.lines + (t.mods.map (·.deep)).sum

/-- Tests 1 and 3 of R27, and a budget for every module (R35). -/
def Topo.totals (t : Topo) : Bool :=
  !t.unbudgeted &&
  decide (10 * (2 * t.S * t.D * t.n) ≤ 9 * (384 * t.pc)) &&
  decide (10 * (t.temper * t.n) ≤ 9 * (24 * t.pc)) &&
  decide (10 * t.tongs ≤ 9 * tongsBudget t.fam t.n) &&
  decide (10 * t.deep ≤ 9 * deepBudget t.fam t.n) &&
  (!t.pair || decide (t.digest ≤ 49152 ∧ 10 * t.digest ≤ 9 * tetherBudget t.fam t.n))

/-! ### Packing (R181 to R186) -/

/-- What a lane carries: lane-cycles per sample, and insert fronts. -/
structure Lane where
  charge : Nat
  fronts : Nat
deriving DecidableEq, Repr

/-- What a core carries. -/
structure CoreLoad where
  usable : Bool
  mods : Nat
  cycles : Nat
  sp : Nat
  x : Nat
  y : Nat
deriving DecidableEq, Repr

/-- Where items stand: strips by number to lanes, modules to cores. -/
structure Place where
  ins : Store Nat
  outs : Store Nat
  mods : Store Nat
deriving DecidableEq, Repr

/-- A strip item: 0 insert-carrying in-strip, 1 out-strip, 2 plain in-strip; its charge and fronts (R181). -/
def itemCharge (kind : Nat) : Nat := if kind = 0 then 72 else if kind = 1 then 96 else 64
/-- Whether the item has an insert front. -/
def itemFronts (kind : Nat) : Nat := if kind = 0 then 1 else 0

/-- R181 and R182 on one lane. -/
def Topo.laneOk (t : Topo) (l : Lane) : Bool :=
  decide (10 * (l.charge * t.n) ≤ 9 * t.pc) && decide (80 * (32 * l.fronts * t.n) ≤ 9 * t.pc)

/-- The lane with an item added. -/
def Lane.plus (l : Lane) (kind : Nat) : Lane := ⟨l.charge + itemCharge kind, l.fronts + itemFronts kind⟩

/-- The fitting lane with the lowest charge, ties to the lowest lane; `i` numbers the first of `ls`.
(DEDUCED, entry 17) -/
def Topo.bestLane (t : Topo) (kind : Nat) : Nat → List Lane → Option (Nat × Nat) → Option Nat
  | _, [], best => best.map (·.1)
  | i, l :: ls, best =>
    let fits := t.laneOk (l.plus kind)
    let better := match best with
      | none => true
      | some (_, c) => decide (l.charge < c)
    t.bestLane kind (i + 1) ls (if fits && better then some (i, l.charge) else best)

/-- Adds an item to lane `k`. -/
def addLane (kind k : Nat) (ls : List Lane) : List Lane :=
  ls.mapIdx fun i l => if i = k then l.plus kind else l

/-- Packs strip items one by one; none when one fits no lane. -/
def Topo.packStrips (t : Topo) : List (Nat × Nat) → List Lane → Place → Option (List Lane × Place)
  | [], ls, p => some (ls, p)
  | (kind, i) :: rest, ls, p =>
    match t.bestLane kind 0 ls none with
    | none => none
    | some k =>
      t.packStrips rest (addLane kind k ls)
        (if kind = 1 then { p with outs := Store.put p.outs i k } else { p with ins := Store.put p.ins i k })

/-- R183 on one core with a module added. -/
def Topo.coreFits (t : Topo) (c : CoreLoad) (m : ModLoad) : Bool :=
  c.usable && decide (10 * (c.cycles + m.cycles) ≤ 9 * t.pc ∧ c.sp + m.sp ≤ 16384 ∧ c.x + m.x ≤ 32768 ∧
    c.y + m.y ≤ 32768)

/-- Usable cores without a module. -/
def emptyCores (cs : List CoreLoad) : Nat := (cs.filter fun c => c.usable && c.mods == 0).length

/-- A core with a module added. -/
def CoreLoad.plus (c : CoreLoad) (m : ModLoad) : CoreLoad :=
  ⟨c.usable, c.mods + 1, c.cycles + m.cycles, c.sp + m.sp, c.x + m.x, c.y + m.y⟩

/-- The lowest core that takes a module and leaves the spares; `i` numbers the first of `cs`.
(DEDUCED, entry 17) -/
def Topo.bestCore (t : Topo) (all : List CoreLoad) (m : ModLoad) : Nat → List CoreLoad → Option Nat
  | _, [] => none
  | i, c :: cs =>
    if t.coreFits c m && decide (t.spare + b2n (c.mods == 0) ≤ emptyCores all) then some i
    else t.bestCore all m (i + 1) cs

/-- Packs modules one by one. -/
def Topo.packMods (t : Topo) : List ModLoad → List CoreLoad → Place → Option (List CoreLoad × Place)
  | [], cs, p => some (cs, p)
  | m :: rest, cs, p =>
    match t.bestCore cs m 0 cs with
    | none => none
    | some k =>
      t.packMods rest (cs.mapIdx fun i c => if i = k then c.plus m else c) { p with mods := Store.put p.mods m.m k }

/-- The strip items in packing order (R186). -/
def Topo.items (t : Topo) : List (Nat × Nat) :=
  t.fronts.map (fun i => (0, i)) ++ t.outs.map (fun i => (1, i)) ++ t.plain.map (fun i => (2, i))

/-- Inserts a module into a list sorted by cycles descending, ties by instance. -/
def insertMod (m : ModLoad) : List ModLoad → List ModLoad
  | [] => [m]
  | a :: l => if a.cycles < m.cycles ∨ (a.cycles = m.cycles ∧ m.m < a.m) then m :: a :: l else a :: insertMod m l

/-- Where nothing stands. -/
def Place.empty : Place := ⟨[], [], []⟩
/-- Empty lanes. -/
def freshLanes : List Lane := List.replicate 24 ⟨0, 0⟩
/-- Empty cores; a retired one is not usable (R183). -/
def freshCores (retired : Nat) : List CoreLoad := (List.range 48).map fun c => ⟨!bit retired c, 0, 0, 0, 0, 0⟩

/-- The fresh packing (R186). -/
def Topo.fresh (t : Topo) (retired : Nat) : Option Place :=
  match t.packStrips t.items freshLanes Place.empty with
  | none => none
  | some (_, p) =>
    match t.packMods (t.mods.foldl (fun l m => insertMod m l) []) (freshCores retired) p with
    | none => none
    | some (cs, q) => if t.spare ≤ emptyCores cs then some q else none

/-- The reference packing of R29: the fresh packing of the strips, from the declared topology alone.
(DEDUCED, entry 17) -/
def Topo.reference (t : Topo) : Option Place := (t.packStrips t.items freshLanes Place.empty).map (·.2)

/-- The lanes as a placement loads them, with the items of `t` that it places. -/
def Topo.lanesOf (t : Topo) (p : Place) : List Lane :=
  t.items.foldl (fun ls e =>
    match Store.find? (if e.1 = 1 then p.outs else p.ins) e.2 with
    | some k => addLane e.1 k ls
    | none => ls) freshLanes

/-- The cores as a placement loads them. -/
def Topo.coresOf (t : Topo) (p : Place) (retired : Nat) : List CoreLoad :=
  t.mods.foldl (fun cs m =>
    match Store.find? p.mods m.m with
    | some k => cs.mapIdx fun i c => if i = k then c.plus m else c
    | none => cs) (freshCores retired)

/-- The lanes with a moving item charged on its other place as well (R189). -/
def Topo.lanesWith (t : Topo) (p : Place) (mv : Option PMove) : List Lane :=
  match mv with
  | some (.inStrip n l) => addLane (if t.fronts.contains n then 0 else 2) l (t.lanesOf p)
  | some (.outStrip _ l) => addLane 1 l (t.lanesOf p)
  | _ => t.lanesOf p

/-- The cores with a moving module charged on its other core as well (R189, R196). -/
def Topo.coresWith (t : Topo) (p : Place) (retired : Nat) (mv : Option PMove) : List CoreLoad :=
  let cores := t.coresOf p retired
  match mv with
  | some (.module m c) =>
    (match t.mods.find? (fun (x : ModLoad) => x.m == m) with
     | some x => cores.mapIdx fun i (k : CoreLoad) => if i = c then k.plus x else k
     | none => cores)
  | _ => cores

/-- The bindings of a placement that some topologies still have. -/
def Place.only (p : Place) (ts : List Topo) : Place :=
  ⟨p.ins.filter fun e => ts.any fun t => t.plain.contains e.1 || t.fronts.contains e.1,
   p.outs.filter fun e => ts.any fun t => t.outs.contains e.1,
   p.mods.filter fun e => ts.any fun t => t.mods.any (·.m == e.1)⟩

/-- The incremental packing (R186): every binding of `p` that the topology still has stays, and only the items
without one are placed; an item in flight is charged on its other place `mv` as well. (DEDUCED, entry 17) -/
def Topo.incremental (t : Topo) (p : Place) (retired : Nat) (mv : Option PMove) : Option Place :=
  let keep := p.only [t]
  let lanes := t.lanesWith keep mv
  let cores := t.coresWith keep retired mv
  let newItems := t.items.filter fun e => (Store.find? (if e.1 = 1 then keep.outs else keep.ins) e.2).isNone
  let newMods := t.mods.filter fun m => (Store.find? keep.mods m.m).isNone
  if ¬ lanes.all (t.laneOk ·) then none
  else match t.packStrips newItems lanes keep with
    | none => none
    | some (_, q) =>
      match t.packMods newMods cores q with
      | none => none
      | some (cs, q) => if t.spare ≤ emptyCores cs then some q else none

/-! ### The chain test (R28, R29) -/

/-- A row of the Crucible: its key for ties (class, then number), and when it is ready, in 384ths of a cycle. -/
structure RowTime where
  ready : Nat
  tie : Nat
deriving DecidableEq, Repr

/-- Inserts by ready, ties to the lower tie key. -/
def insertRow (r : RowTime) : List RowTime → List RowTime
  | [] => [r]
  | a :: l =>
    if r.ready < a.ready ∨ (r.ready = a.ready ∧ r.tie < a.tie) then r :: a :: l else a :: insertRow r l

/-- When each strip of a lane is ready: the fronts first, then the plain strips, then the insert backs from W; a strip that
moves runs on both its lanes (R189). -/
def Topo.laneReady (t : Topo) (p : Place) (mv : Option PMove) (lane : Nat) : List (Nat × Nat) :=
  let on (l : List Nat) := l.filter fun i => Store.find? p.ins i == some lane || mv == some (.inStrip i lane)
  let t0 := 32 * t.n * (on t.fronts).length
  let plain := (on t.plain).mapIdx fun k i => (i, t0 + 64 * t.n * (k + 1))
  let t1 := t0 + 64 * t.n * (on t.plain).length
  let t2 := Nat.max t1 (t.pc / 8)
  plain ++ (on t.fronts).mapIdx fun k i => (i, t2 + 40 * t.n * (k + 1))

/-- Completion of the Crucible evaluation over its rows in order, in 384ths of a cycle. -/
def chainDone (r : Nat) : List RowTime → Nat → Nat
  | [], t => t
  | x :: xs, t => chainDone r xs (Nat.max t x.ready + r)

/-- The time at which the Crucible completes on a placement, in 384ths of a cycle (R29); a strip that moves delivers its
row from the lane it leaves. -/
def Topo.crucibleDone (t : Topo) (p : Place) (mv : Option PMove) : Nat :=
  let ready := (List.range 24).flatMap fun l =>
    (t.laneReady p mv l).filter fun e => Store.find? p.ins e.1 == some l
  let rows (k : Nat) (f : Nat × Nat → Option RowTime) : List RowTime :=
    (t.slots.filter fun e => e.2 / 2 ^ 28 == k).filterMap f
  let stripRow (fronts : Bool) (e : Nat × Nat) : Option RowTime :=
    let i := e.2 % 2 ^ 28
    if t.fronts.contains i == fronts then
      (ready.lookup i).map fun x => ⟨384 * x, if fronts then e.1 else i⟩
    else none
  let first := rows 1 (stripRow false)
  let bus := rows 2 fun e => some ⟨0, e.1⟩
  let last := rows 1 (stripRow true) ++ rows 3 fun e => some ⟨384 * (t.pc / 8), t.S + e.1⟩
  let sort (l : List RowTime) := l.foldl (fun a x => insertRow x a) []
  chainDone (2 * t.D * t.n) (sort first ++ sort bus ++ sort last) 0

/-- The chain test on a placement (R28), with an item that moves (R189). -/
def Topo.chain (t : Topo) (p : Place) (mv : Option PMove) : Bool :=
  (t.lanesWith p mv).all (fun l => decide (80 * (32 * l.fronts * t.n) ≤ 9 * t.pc)) &&
    decide (10 * t.crucibleDone p mv ≤ 9 * (384 * t.pc))

/-! ### Admission and its result -/

/-- The present placement, from its attributes. -/
def State.place (s : State) : Place :=
  let bind (code : Nat) : Store Nat := (s.listed code).map fun e => (e.2.1, e.2.2.toNat)
  ⟨bind Attr.plcInStripLane, bind Attr.plcOutStripLane, bind Attr.plcModuleCore⟩

/-- A placement after a move. -/
def Place.apply (p : Place) : PMove → Place
  | .inStrip n l => { p with ins := Store.put p.ins n l }
  | .outStrip n l => { p with outs := Store.put p.outs n l }
  | .module m c => { p with mods := Store.put p.mods m c }
  | .region _ _ => p

/-- A placement with the modules of every retirement under way on their spare core (R200). -/
def State.onSpares (s : State) (p : Place) : Place :=
  s.plc.retiring.foldl (fun p r => match r.spare with
    | some c => r.modules.foldl (fun p m => p.apply (.module m c)) p
    | none => p) p

/-- The placement once every retirement under way and every plan has run. -/
def State.futurePlace (s : State) : Place :=
  (s.plc.plans.flatMap (·.moves)).foldl Place.apply (s.onSpares s.place)

/-- Cores that take no module: the retired ones (R183), and one under march, which counts as holding a module (R291). -/
def State.retired (s : State) : Nat :=
  s.n Attr.plcRetiredCores 0 0 ||| (match s.fab.march with
    | some m => if 16 ≤ m.group ∧ m.group < 64 then 2 ^ (m.group - 16) else 0
    | none => 0)

/-- The head move of the running plans. -/
def State.headMove (s : State) : Option PMove := s.plc.plans.findSome? fun p => p.moves.head?

/-- The item in flight on the place it stands at (R189, R196): what a change accepted meanwhile finds charged beside the
place it moves to. -/
def State.movingItem (s : State) : Option PMove :=
  let p := s.place
  match s.headMove with
  | some (.inStrip n _) => (Store.find? p.ins n).map (.inStrip n ·)
  | some (.outStrip n _) => (Store.find? p.outs n).map (.outStrip n ·)
  | some (.module m _) => (Store.find? p.mods m).map (.module m ·)
  | _ => none

/-- Loads per resource in units of 0.01 % (R37), an item that moves on both its places (R198). -/
def Topo.loads (t : Topo) (p : Place) (mv : Option PMove) : List Int :=
  let pct (a b : Nat) : Int := (centiPercent a b : Nat)
  [pct (2 * t.S * t.D * t.n) (384 * t.pc),
   pct (((t.lanesWith p mv).map (·.charge)).foldl Nat.max 0 * t.n) t.pc,
   pct (((t.coresWith p 0 mv).map (·.cycles)).foldl Nat.max 0) t.pc,
   pct t.tongs (tongsBudget t.fam t.n), pct t.deep (deepBudget t.fam t.n),
   if t.pair then pct t.digest (tetherBudget t.fam t.n) else 0, pct (t.crucibleDone p mv) (384 * t.pc)]

end Sys2Proof.Machine
end

