-- ==== Sys2Proof/Machine/Crypto.lean ====
section
/-! DEFINITION. The check and authentication codes the frames and images name: CRC-32 with the IEEE 802.3
polynomial (R435), HMAC-SHA-256 (R457, R458) and ECDSA on P-256 (R533, R564). The spec names these standards and does
not print them; their text here is the standards' (PRESUMED, log entry 3). -/

namespace Sys2Proof.Machine

/-- One bit of the reflected CRC-32. -/
def crcBit (c : Nat) : Nat := if c % 2 = 1 then (c / 2) ^^^ 0xEDB88320 else c / 2

/-- CRC-32 register after the bytes of `l`. -/
def crcStep (c : Nat) (l : List Byte) : Nat :=
  l.foldl (fun c b =>
    crcBit (crcBit (crcBit (crcBit (crcBit (crcBit (crcBit (crcBit (c ^^^ b.toNat))))))))) c

/-- CRC-32 of a byte string. (PRESUMED, entry 3) -/
def crc32 (l : List Byte) : Nat := crcStep 0xFFFFFFFF l ^^^ 0xFFFFFFFF

/-- A 32-bit word of SHA-256. -/
abbrev W := BitVec 32

/-- Integer square root by binary search, for numbers below 2 ^ 72. -/
def isqrt (n : Nat) : Nat := searchUp (fun x => decide (x * x ≤ n)) 36 0
/-- Integer cube root by binary search, for numbers below 2 ^ 108. -/
def icbrt (n : Nat) : Nat := searchUp (fun x => decide (x * x * x ≤ n)) 36 0

/-- The first 64 primes. -/
def shaPrimes : List Nat :=
  [2, 3, 5, 7, 11, 13, 17, 19, 23, 29, 31, 37, 41, 43, 47, 53, 59, 61, 67, 71, 73, 79, 83, 89, 97, 101,
   103, 107, 109, 113, 127, 131] ++
  [137, 139, 149, 151, 157, 163, 167, 173, 179, 181, 191, 193, 197, 199, 211, 223, 227, 229, 233, 239, 241,
   251, 257, 263, 269, 271, 277, 281, 283, 293, 307, 311]

/-- Round constants: fraction bits of the cube roots of the primes. -/
def shaK : List W := shaPrimes.map fun p => BitVec.ofNat 32 (icbrt (p * 2 ^ 96))
/-- Initial words: fraction bits of the square roots of the first eight primes. -/
def shaInit : List W := (shaPrimes.take 8).map fun p => BitVec.ofNat 32 (isqrt (p * 2 ^ 64))

/-- The `i`-th word of a list, 0 beyond it. -/
def wAt (l : List W) (i : Nat) : W := l.getD i 0

/-- Extends the message schedule by `n` words; `w` holds the newest word first. -/
def shaSchedule : Nat → List W → List W
  | 0, w => w
  | n + 1, w =>
    let s0 := fun (x : W) => x.rotateRight 7 ^^^ x.rotateRight 18 ^^^ (x >>> 3)
    let s1 := fun (x : W) => x.rotateRight 17 ^^^ x.rotateRight 19 ^^^ (x >>> 10)
    shaSchedule n ((s1 (wAt w 1) + wAt w 6 + s0 (wAt w 14) + wAt w 15) :: w)

/-- One round of SHA-256. -/
def shaRound (h : List W) (kw : W × W) : List W :=
  let a := wAt h 0; let b := wAt h 1; let c := wAt h 2; let e := wAt h 4
  let s1 := e.rotateRight 6 ^^^ e.rotateRight 11 ^^^ e.rotateRight 25
  let ch := (e &&& wAt h 5) ^^^ (~~~ e &&& wAt h 6)
  let t1 := wAt h 7 + s1 + ch + kw.1 + kw.2
  let s0 := a.rotateRight 2 ^^^ a.rotateRight 13 ^^^ a.rotateRight 22
  let mj := (a &&& b) ^^^ (a &&& c) ^^^ (b &&& c)
  [t1 + s0 + mj, a, b, c, wAt h 3 + t1, e, wAt h 5, wAt h 6]

/-- Splits bytes into big-endian 32-bit words. -/
def shaWords : List Byte → List W
  | a :: b :: c :: d :: l => BitVec.ofNat 32 (beNat [a, b, c, d]) :: shaWords l
  | _ => []

/-- Runs the blocks of a padded message, at most `fuel` of them. -/
def shaBlocks : Nat → List W → List W → List W
  | 0, h, _ => h
  | fuel + 1, h, w =>
    if w = [] then h
    else
      let sched := (shaSchedule 48 (w.take 16).reverse).reverse
      let h' := (shaK.zip sched).foldl shaRound h
      shaBlocks fuel (List.zipWith (· + ·) h h') (w.drop 16)

/-- SHA-256 of a byte string. (PRESUMED, entry 3) -/
def sha256 (m : List Byte) : List Byte :=
  let z := (119 - m.length % 64) % 64
  let p := m ++ [byteOf 0x80] ++ List.replicate z (byteOf 0) ++ beBytes 8 (8 * m.length)
  (shaBlocks (p.length / 64) shaInit (shaWords p)).flatMap fun w => beBytes 4 w.toNat

/-- HMAC-SHA-256 for keys of at most 64 bytes. (PRESUMED, entry 3) -/
def hmac (key msg : List Byte) : List Byte :=
  let k := key ++ List.replicate (64 - key.length) (byteOf 0)
  sha256 (k.map (· ^^^ byteOf 0x5C) ++ sha256 (k.map (· ^^^ byteOf 0x36) ++ msg))

/-! ### ECDSA on the curve P-256 -/

/-- The prime of the field. -/
def p256P : Nat := 0xffffffff00000001000000000000000000000000ffffffffffffffffffffffff
/-- The order of the base point. -/
def p256N : Nat := 0xffffffff00000000ffffffffffffffffbce6faada7179e84f3b9cac2fc632551
/-- The constant term of the curve y² = x³ − 3x + b. -/
def p256B : Nat := 0x5ac635d8aa3a93e7b3ebbd55769886bc651d06b0cc53b0f63bce3c3e27d2604b
/-- The base point. -/
def p256G : Nat × Nat :=
  (0x6b17d1f2e12c4247f8bce6e563a440f277037d812deb33a0f4a13945d898c296,
   0x4fe342e2fe1a7f9b8ee7eb4a7c0f9e162bce33576b315ececbb6406837bf51f5)

/-- `b` to the power `e` modulo `m`, for `e` below 2 ^ fuel. -/
def powMod (m : Nat) : (fuel b e : Nat) → Nat
  | 0, _, _ => 1 % m
  | f + 1, b, e =>
    let r := powMod m f (b * b % m) (e / 2)
    if e % 2 = 1 then r * b % m else r

/-- The inverse modulo a prime of at most 256 bits. -/
def invMod (m a : Nat) : Nat := powMod m 256 (a % m) (m - 2)

/-- The difference modulo `m` of two numbers below it. -/
def subMod (m a b : Nat) : Nat := (a + (m - b % m)) % m

/-- The sum of two points of the curve; none is the point at infinity. -/
def pointAdd (a b : Option (Nat × Nat)) : Option (Nat × Nat) :=
  match a, b with
  | none, q => q
  | q, none => q
  | some (x1, y1), some (x2, y2) =>
    let p := p256P
    let slope : Option Nat :=
      if x1 ≠ x2 then some (subMod p y2 y1 * invMod p (subMod p x2 x1) % p)
      else if y1 = y2 ∧ y1 ≠ 0 then some (subMod p (3 * x1 * x1 % p) 3 * invMod p (2 * y1) % p)
      else none
    match slope with
    | none => none
    | some l =>
      let x := subMod p (subMod p (l * l % p) x1) x2
      some (x, subMod p (l * subMod p x1 x % p) y1)

/-- `k` times a point, for `k` below 2 ^ fuel. -/
def pointMul : (fuel k : Nat) → Option (Nat × Nat) → Option (Nat × Nat)
  | 0, _, _ => none
  | f + 1, k, q =>
    let r := pointMul f (k / 2) (pointAdd q q)
    if k % 2 = 1 then pointAdd r q else r

/-- Whether a point lies on the curve. -/
def onCurve (x y : Nat) : Bool :=
  decide (x < p256P ∧ y < p256P) && y * y % p256P == (subMod p256P (x * x % p256P * x % p256P) (3 * x % p256P) + p256B) % p256P

/-- ECDSA verification on P-256 (R533, R564): the public key as x then y, the digest, and the signature as r then s, each
a big-endian integer of 32 bytes. (PRESUMED, entry 3) -/
def ecdsaVerify (pub digest sig : List Byte) : Bool :=
  let x := beNat (pub.take 32)
  let y := beNat ((pub.drop 32).take 32)
  let r := beNat (sig.take 32)
  let k := beNat ((sig.drop 32).take 32)
  let z := beNat (digest.take 32)
  let w := invMod p256N k
  decide (0 < r ∧ r < p256N ∧ 0 < k ∧ k < p256N) && onCurve x y &&
    (match pointAdd (pointMul 256 (z * w % p256N) (some p256G)) (pointMul 256 (r * w % p256N) (some (x, y))) with
     | some (v, _) => v % p256N == r
     | none => false)

end Sys2Proof.Machine
end

