-- ==== Sys2Proof/Machine/Commit.lean ====
section
/-! DEFINITION. What a committed change leaves behind: journal groups (R508 to R511, R518), MIRROR records and the
Tether frames that carry them (R472 to R474, R482), and the events the cycle-end digest lists (R488). -/

namespace Sys2Proof.Machine

/-! ### Journal groups -/

/-- Bytes of a record on the card (R509). -/
def Rec.size (r : Rec) : Nat := 12 + 4 * ceilDiv r.payload.length 4

/-- Bytes of a group. -/
def groupSize (l : List Rec) : Nat := (l.map Rec.size).sum

/-- A WRITE record (R509). -/
def writeRec (code inst elem count : Nat) (data : List Byte) : Rec :=
  ⟨1, leBytes 4 (address code inst) ++ leBytes 4 elem ++ leBytes 4 count ++ data⟩

/-- An ACTION record. -/
def actionRec (code inst : Nat) (arg : List Byte) : Rec := ⟨2, leBytes 4 (address code inst) ++ arg⟩

/-- The records of a write of `count` elements of `w` bytes, split so that no payload exceeds 4064 bytes. -/
def writeRecs (code inst w : Nat) : (fuel elem count : Nat) → (data : List Byte) → List Rec
  | 0, _, _, _ => []
  | f + 1, elem, count, data =>
    let most := (4064 - 12) / w
    if count ≤ most then [writeRec code inst elem count data]
    else writeRec code inst elem most (data.take (most * w)) ::
      writeRecs code inst w f (elem + most) (count - most) (data.drop (most * w))

/-- Records of an object of bytes, `head` in front of each with the offset after it. -/
def chunkRecs (typ : Nat) (head : List Byte) : (fuel off : Nat) → (data : List Byte) → List Rec
  | 0, _, _ => []
  | f + 1, off, data =>
    if data.length ≤ 4048 then [⟨typ, head ++ leBytes 4 off ++ data⟩]
    else ⟨typ, head ++ leBytes 4 off ++ data.take 4048⟩ :: chunkRecs typ head f (off + 4048) (data.drop 4048)

/-- Whether a committed write of the attribute is journalled: every RW, RWC or W attribute except in classes 0x02,
0x04, 0x83 and 0x90 (R508). -/
def journalled (code : Nat) (acc : Acc) : Bool :=
  (acc == .rw || acc == .rwc || acc == .w) &&
    !([0x02, 0x04, 0x83, 0x90].contains (code / 256))

/-- Bytes the RAM journal holds (R518). -/
def State.ramFill (s : State) : Nat := (s.jrn.pend.map fun g => groupSize g.recs).sum

/-- Whether a group of `size` bytes is refused with NO_BILLET (R518, policy 0). -/
def State.billetRefuses (s : State) (size : Nat) : Bool :=
  s.n Attr.jrnNobilletPolicy 0 0 == 0 &&
    (s.n Attr.jrnJournalState 0 0 == 2 ||
      (s.n Attr.jrnJournalState 0 0 == 1 && decide (65536 < s.ramFill + size)))

/-- Sequence number `k` places after `n`, modulo 2 ^ 32 (R509). -/
def seqPlus (n k : Nat) : Nat := (n + k) % 2 ^ 32
/-- The sequence number before `n`, modulo 2 ^ 32. -/
def seqBefore (n : Nat) : Nat := if n = 0 then 4294967295 else n - 1

/-- Appends a group to those that wait, with the next sequence numbers. -/
def State.appendGroup (s : State) (recs : List Rec) : State :=
  { s with jrn := { s.jrn with
      nextSeq := seqPlus s.jrn.nextSeq recs.length
      pend := s.jrn.pend ++ [JGroup.mk s.jrn.nextSeq recs (if s.eng.running then some s.eng.count else none)] } }

/-- The last sequence number given. -/
def State.lastSeq (s : State) : Nat := seqBefore s.jrn.nextSeq

/-- Commits a group (R508 to R510): it takes the next sequence numbers and waits to become durable. In the RAM
journal a group that does not fit is dropped and its records counted (R518, policy 1). -/
def State.commit (s : State) (recs : List Rec) : State :=
  if recs = [] then s
  else if s.n Attr.jrnJournalState 0 0 ≠ 0 ∧ 65536 < s.ramFill + groupSize recs then
    (s.set Attr.jrnJournalState 0 0 2).add Attr.jrnLostRecords 0 0 recs.length
  else
    let s := s.appendGroup recs
    let s := s.set Attr.jrnCommittedSeq 0 0 (s.lastSeq : Int)
    if s.n Attr.jrnJournalState 0 0 = 0 then s else s.set Attr.jrnRamFill 0 0 s.ramFill

/-- Journals the present value of one element as a write. -/
def State.commitAttr (s : State) (code inst elem : Nat) : State :=
  let ty := match rowAt code inst with
    | some r => r.ty
    | none => 3
  let b := tyBytes ty
  s.commit [writeRec code inst elem 1 (leBytes b (toBits (8 * b) (s.a code inst elem)))]

/-! ### Tether frames -/

/-- Frame types (R472). -/
def tHello : Nat := 1
def tRenew : Nat := 2
def tAck : Nat := 3
def tRelease : Nat := 4
def tTake : Nat := 5
def tGrant : Nat := 6
def tMirror : Nat := 7
def tDigest : Nat := 8
def tEnrol : Nat := 9
def tAdopt : Nat := 10

/-- The bytes of a Tether frame (R472). -/
def tetherFrame (typ seq count tick : Nat) (payload : List Byte) : List Byte :=
  let b := [byteOf typ, byteOf 1] ++ leBytes 2 payload.length ++ leBytes 4 seq ++ leBytes 8 count ++
    leBytes 8 tick ++ payload
  b ++ leBytes 4 (crc32 b)

/-- The lanes on which a frame of a type and sequence goes (R473): both for types 1 to 7, one by turns for DIGEST
and ADOPT; a lane that is down carries nothing. -/
def State.lanesFor (s : State) (typ seq : Nat) : List Nat :=
  let up := (List.range 2).filter fun l => bit (s.n Attr.pairLanes 0 0) l
  if typ ≤ tMirror then up
  else if up.contains (seq % 2) then [seq % 2] else up.take 1

/-- The next sequence number of a frame type. -/
def State.nextSeqOf (s : State) (typ : Nat) : Nat := (Store.get 0 s.pair.seqOut typ + 1) % 2 ^ 32

/-- Sends a frame; `out` holds the newest 64 frames, newest first. -/
def State.send (s : State) (typ : Nat) (payload : List Byte) : State :=
  let seq := s.nextSeqOf typ
  let f := tetherFrame typ seq s.eng.count (s.tbAtTick s.md0Tb) payload
  { s with pair := { s.pair with
      seqOut := Store.put s.pair.seqOut typ seq
      out := (((s.lanesFor typ seq).map fun l => (l, f)) ++ s.pair.out).take 64 } }

/-- The payload of a token frame (R474). -/
def State.token (s : State) (flags ackSeq lease hold : Nat) : List Byte :=
  leBytes 4 (s.n Attr.pairEpoch 0 0) ++ [byteOf flags, byteOf s.role, byteOf (s.n Attr.pairStandbyState 0 0),
    byteOf (s.n Attr.pairPreference 0 0)] ++ leBytes 4 ackSeq ++ leBytes 2 lease ++
  leBytes 2 (s.n Attr.yugNodeId 0 0) ++ leBytes 8 hold

/-- Whether an attribute or action is replicated (R481). (DEDUCED, entry 56) -/
def replicated (code : Nat) (acc : Acc) : Bool :=
  acc != .r && (replicatedClass code || code == Attr.plcInStripMap || code == Attr.plcOutStripMap)

/-- Whether the ACTIVE mirrors its writes: its peer is a STANDBY in any substate (R482). -/
def State.mirroring (s : State) : Bool := s.role == 1 && s.n Attr.pairPeerRole 0 0 == 2

/-- Sends a MIRROR record: the count of the tick that opens the period of commit, and the request body (R474). -/
def State.mirror (s : State) (body : List Byte) : State :=
  let s := s.send tMirror (leBytes 8 s.eng.count ++ body)
  { s with pair := { s.pair with lastApplied := Store.get 0 s.pair.seqOut tMirror } }

/-- Whether the engine is ACTIVE or STANDBY, where slips take effect on both engines at one tick (R484). -/
def State.paired (s : State) : Bool := s.role == 1 || s.role == 2

/-- The body of the MIRROR record of a slip (R484): operation 6, the counter that names the slip, the MD0 count of the tick
at which it takes effect. (DEDUCED, entry 37) -/
def slipBody (p : PairSlip) : List Byte :=
  [byteOf 6, byteOf 0, byteOf 0, byteOf 0] ++ leBytes 4 (address p.code p.inst) ++ leBytes 8 0 ++ leBytes 8 p.count

/-- In a pair role a test calls for a slip (R484): the ACTIVE alone decides, for the second tick after this sample, and
mirrors it. (DEDUCED, entry 37) -/
def State.askSlip (s : State) (code inst : Nat) (slow : Bool) : State :=
  if s.role ≠ 1 ∨ s.pair.slips.any (fun p => p.code / 256 == code / 256 && p.inst == inst) then s
  else
    let p : PairSlip := ⟨s.eng.count + 2 * s.eng.cfg.n, code, inst, slow⟩
    let s : State := { s with pair := { s.pair with slips := s.pair.slips ++ [p] } }
    if s.mirroring then s.mirror (slipBody p) else s

/-! ### Digest events -/

/-- Notes an event for the digest of the running period (R488): type, address, element and the low 32 bits of the
MD0 count. Outside a pair nothing is noted. -/
def State.note (s : State) (typ addr elem count : Nat) : State :=
  if s.role = 1 ∨ s.role = 2 then
    { s with lck := { s.lck with events := s.lck.events ++ [(typ, addr, elem, count % 2 ^ 32)] } }
  else s

end Sys2Proof.Machine
end

