-- ==== Sys2Proof/Machine/Memory.lean ====
section
/-! DEFINITION. Memory as every master sees it: the address map (R275 to R277), words with their error correction
(R284 to R286), core windows (R208, R209), node planes (R50, R51), and reads and writes of bytes. -/

namespace Sys2Proof.Machine

/-! ### The address map (R275) -/

/-- Start of deep memory (R275). -/
def deepBase : Nat := 0x800000000
/-- Fitted bytes of deep memory (R294): 4, 8 or 16 GiB. -/
def fittedBytes : Nat := 2 ^ (32 + Config.fittedCode % 3)
/-- Usable bytes of deep memory: 7/8 of those fitted (R294). -/
def usableBytes : Nat := fittedBytes / 8 * 7

/-- The regions of the map. -/
inductive Area where
  | bank (b : Nat)
  | window (c off : Nat)
  | plane (p off : Nat)
  | temper
  | control
  | deep
  | hole
deriving DecidableEq, Repr

/-- The region of an address (R275, R276). -/
def areaOf (a : Nat) : Area :=
  if a < 0x400000 then .bank (a / 0x40000)
  else if 0x10000000 ≤ a ∧ a < 0x13000000 then .window ((a - 0x10000000) / 0x100000) (a % 0x100000)
  else if 0x40000000 ≤ a ∧ a < 0x41000000 then .plane 0 (a - 0x40000000)
  else if 0x50000000 ≤ a ∧ a < 0x51000000 then .plane 1 (a - 0x50000000)
  else if 0x60000000 ≤ a ∧ a < 0x61000000 then .temper
  else if 0x70000000 ≤ a ∧ a < 0x80000000 then .control
  else if deepBase ≤ a ∧ a < deepBase + usableBytes then .deep
  else .hole

/-- The matrix target of an address (R297); deep memory alternates by granules of 256 bytes (R293). -/
def targetOf (a : Nat) : Option Nat :=
  match areaOf a with
  | .bank b => some b
  | .window _ _ => some 16
  | .plane p _ => some (17 + p)
  | .temper => some 19
  | .deep => some (20 + a / 256 % 2)
  | .control => some (if a < 0x78000000 then 22 else 23)
  | .hole => none

/-- Where the model keeps word `i` of a group that the address map does not hold: the lane contexts and the buffers, groups
67 to 91, above the 36 bits of R275. (DESIGN CHOICE, entry 25) -/
def sramWord (g i : Nat) : Nat := 2 ^ 36 + g * 2 ^ 20 + 4 * i

/-- The SRAM group of an address, for the error counters (R284, R288); none for deep memory and what has no code. -/
def groupOf (a : Nat) : Option Nat :=
  if 2 ^ 36 ≤ a then (if 67 ≤ a / 2 ^ 20 % 2 ^ 16 ∧ a / 2 ^ 20 < 2 ^ 16 + 92 then some (a / 2 ^ 20 % 2 ^ 16) else none)
  else match areaOf a with
  | .bank b => some b
  | .window c off => if off < 0x60000 then some (16 + c) else none
  | .plane p _ => some (64 + p)
  | .temper => some 66
  | _ => none

/-- The address of the word that holds a byte: 8 bytes in deep memory and program memory, else 4 (R284, R294). -/
def wordOf (a : Nat) : Nat :=
  match areaOf a with
  | .deep => a / 8 * 8
  | .window _ off => if off < 0x20000 then a / 8 * 8 else a / 4 * 4
  | _ => a / 4 * 4

/-- Whether an address holds a word with a code (R284, R294). -/
def coded (a : Nat) : Bool := (groupOf a).isSome || areaOf a == .deep

/-- Data bits and check bits of the word at an address (R284, R294). -/
def wordBits (w : Nat) : Nat × Nat :=
  match areaOf w with
  | .deep => (64, 8)
  | .window _ off => if off < 0x20000 then (48, 7) else (24, 6)
  | _ => (32, 7)

/-! ### Error correction (R285, R286) -/

/-- Bits set in a mask of at most 72 bits. -/
def bitsSet (m : Nat) : Nat := ((List.range 72).filter fun b => bit m b).length

/-- What last_ce_addr and last_ue_addr show for a word (R285, R286). (DESIGN CHOICE, entry 25) -/
def shownAddress (w : Nat) : Nat := if w < 2 ^ 36 then w else Config.sramAddress w

/-- A word is read: a correctable error is counted and written back later, an uncorrectable one is reported.
(DEDUCED, entry 25) -/
def State.eccTouch (s : State) (w : Nat) : State :=
  match bitsSet (Store.get 0 s.fab.upset w) with
  | 0 => s
  | 1 =>
    let s := match groupOf w with
      | some g => ((s.bump Attr.memCe 0x100 g).set Attr.memLastCeAddr 0x100 0 (shownAddress w)).event 0x0F3
      | none => (s.bump Attr.memCeDeep 0x200 0).set Attr.memLastErrorAddr 0x200 0 w
    if s.fab.wback.contains w then s else { s with fab := { s.fab with wback := s.fab.wback ++ [w] } }
  | _ =>
    let s := match groupOf w with
      | some g =>
        let s := (s.bump Attr.memUe 0x100 g).set Attr.memLastUeAddr 0x100 0 (shownAddress w)
        s.logAt sevError Attr.memUe 0x100 g
      | none =>
        let s := (s.bump Attr.memUeDeep 0x200 0).set Attr.memLastErrorAddr 0x200 0 w
        s.logAt sevError Attr.memUeDeep 0x200 0
    s.raise 1

/-- Reads of several words. -/
def State.eccTouches (s : State) (l : List Nat) : State := if s.fab.upset = [] then s else l.foldl State.eccTouch s

/-- A word is written: its code is good again. -/
def State.eccClear (s : State) (w : Nat) : State :=
  if (Store.find? s.fab.upset w).isSome then
    { s with fab := { s.fab with upset := Store.del s.fab.upset w, wback := s.fab.wback.filter (· != w) } }
  else s

/-! ### Cores and planes -/

/-- A core. -/
def State.core (s : State) (c : Nat) : CoreSt := Store.get CoreSt.reset s.anv.cores c
/-- Replaces a core. -/
def State.setCore (s : State) (c : Nat) (k : CoreSt) : State :=
  { s with anv := { s.anv with cores := Store.set CoreSt.reset s.anv.cores c k } }

/-- Byte `i` of a word. -/
def byteAt (w i : Nat) : Byte := byteOf (w / 256 ^ i % 256)
/-- A word with byte `i` replaced. -/
def withByte (w i : Nat) (b : Byte) : Nat := w - w / 256 ^ i % 256 * 256 ^ i + b.toNat * 256 ^ i

/-- A byte of a core window (R208). -/
def windowByte (k : CoreSt) (off : Nat) : Byte :=
  if off < 0x20000 then byteAt (Store.get 0 k.pm (off / 8)).toNat (off % 8)
  else if off < 0x40000 then byteAt ((Store.get 0 k.x (off % 0x20000 / 4)).signExtend 32).toNat (off % 4)
  else if off < 0x60000 then byteAt ((Store.get 0 k.y (off % 0x20000 / 4)).signExtend 32).toNat (off % 4)
  else 0

/-- A core after a byte of its window is written (R208). -/
def setWindowByte (k : CoreSt) (off : Nat) (b : Byte) : CoreSt :=
  if off < 0x20000 then
    { k with pm := Store.set 0 k.pm (off / 8) (BitVec.ofNat 48 (withByte (Store.get 0 k.pm (off / 8)).toNat (off % 8) b)) }
  else if off < 0x40000 then
    let i := off % 0x20000 / 4
    { k with x := Store.set 0 k.x i (BitVec.ofNat 24 (withByte (Store.get 0 k.x i).toNat (off % 4) b)) }
  else if off < 0x60000 then
    let i := off % 0x20000 / 4
    { k with y := Store.set 0 k.y i (BitVec.ofNat 24 (withByte (Store.get 0 k.y i).toNat (off % 4) b)) }
  else k

/-- The key of the node word at an offset of a plane (R50); none beyond S × D. -/
def State.nodeKeyAt (s : State) (off : Nat) : Option Nat :=
  let i := off / 4
  let c := s.eng.cfg
  if i < c.S * c.D then some (i / c.D * 2048 + i % c.D) else none

/-- A plane's node words. -/
def State.planeOf (s : State) (p : Nat) : Store Nat := if p = 0 then s.cru.planeA else s.cru.planeB

/-- Whether a plane is protected: the live one, and both during a strike (R51). -/
def State.planeLocked (s : State) (p : Nat) : Bool :=
  s.n Attr.cruLivePlane 0 0 == p || s.n Attr.cruStrikeState 0 0 == 2

/-! ### Bytes on the bus -/

/-- A byte as a master reads it: zero in a hole (R276) and beyond the nodes in use (R50). -/
def State.readByte (s : State) (a : Nat) : Byte :=
  match areaOf a with
  | .bank _ | .temper | .deep => Store.get 0 s.fab.mem a
  | .window c off => windowByte (s.core c) off
  | .plane p off =>
    (match s.nodeKeyAt off with
     | some k => byteAt (Store.get 0 (s.planeOf p) k) (off % 4)
     | none => 0)
  | _ => 0

/-- The `n` bytes from `a`. -/
def State.readBytes (s : State) (a : Nat) : Nat → List Byte
  | 0 => []
  | n + 1 => s.readByte a :: s.readBytes (a + 1) n

/-- The words that the `n` bytes from `a` lie in. -/
def wordsOf (a n : Nat) : List Nat :=
  ((List.range n).map fun i => wordOf (a + i)).foldl (fun l w => if l.contains w then l else l ++ [w]) []

/-- A read of bytes with its error correction. -/
def State.busRead (s : State) (a n : Nat) : List Byte × State := (s.readBytes a n, s.eccTouches (wordsOf a n))

/-- A node written through the bus (R50, R52): reserved bits and RAMP stay, a ramp on an idle node is cancelled. -/
def State.writeNodeByte (s : State) (p k i : Nat) (b : Byte) : State :=
  let w := withByte (Store.get 0 (s.planeOf p) k) i b % 2 ^ 24
  let sr := k / 2048
  let d := k % 2048
  let s := { s with bel := { s.bel with ramps := s.bel.ramps.filter fun (r : Ramp) => r.param != RParam.node p sr d } }
  if p = 0 then { s with cru := { s.cru with planeA := Store.set 0 s.cru.planeA k w } }
  else { s with cru := { s.cru with planeB := Store.set 0 s.cru.planeB k w } }

/-- The second copy of an address: in a region whose copy is complete and which has not switched, its place at the new base
(R197). -/
def State.copyAt (s : State) (a : Nat) : Option Nat :=
  if s.plc.copied then
    match s.plc.plans.findSome? fun (p : Plan) => p.moves.head? with
    | some (PMove.region o to_) =>
      (match s.plc.regions.find? fun (r : Region) => r.owner == o with
       | some r => if r.base ≤ a ∧ a < r.base + r.size then some (to_ + (a - r.base)) else none
       | none => none)
    | _ => none
  else none

/-- Writes one byte where a write is allowed; a write to a unit that is copied goes to both copies (R197). -/
def State.writeByte (s : State) (a : Nat) (b : Byte) : State :=
  match areaOf a with
  | .bank _ | .temper | .deep =>
    let m := Store.set 0 s.fab.mem a b
    { s with fab := { s.fab with mem := match s.copyAt a with
        | some d => Store.set 0 m d b
        | none => m } }
  | .window c off => s.setCore c (setWindowByte (s.core c) off b)
  | .plane p off => (match s.nodeKeyAt off with
    | some k => s.writeNodeByte p k (off % 4) b
    | none => s)
  | _ => s

/-- Writes bytes at consecutive addresses. -/
def State.writeBytes (s : State) (a : Nat) : List Byte → State
  | [] => s
  | b :: bs => State.writeBytes (s.writeByte a b) (a + 1) bs

/-- Writes the bytes of consecutive addresses whose strobe is on (R278). -/
def State.writeStrobed (s : State) (a : Nat) : List (Option Byte) → State
  | [] => s
  | some b :: bs => State.writeStrobed (s.writeByte a b) (a + 1) bs
  | none :: bs => State.writeStrobed s (a + 1) bs

/-- Data bytes of the word at an address. -/
def wordBytes (w : Nat) : Nat := (wordBits w).1 / 8

/-- A word that a write reaches: one that the strobes cover in part is read and corrected first, and its new check bits are
good; one that no strobe reaches stays as it is (R278, R285, R303). -/
def State.mergeWord (s : State) (a : Nat) (d : List (Option Byte)) (w : Nat) : State :=
  let on := (List.range (wordBytes w)).map fun i => decide (a ≤ w + i) && (d.getD (w + i - a) none).isSome
  if on.all (!·) then s else if on.all id then s.eccClear w else (s.eccTouch w).eccClear w

/-- Who writes: the masters of R297; the placement manager's channels are Tongs with a right of their own (R209). -/
inductive Master where
  | supervisor | tongs | placement | delay | network | pair
deriving DecidableEq, Repr

/-- Number of a master in park_master and decode_errors (R304). -/
def Master.index : Master → Nat
  | .supervisor => 0
  | .tongs | .placement => 1
  | .delay => 2
  | .network => 3
  | .pair => 4

/-- Why a write is discarded: none when it is not (R51, R209, R276, R277). -/
def State.writeGuard (s : State) (m : Master) (a : Nat) : Option (State → State) :=
  match areaOf a with
  | .hole => some fun s => s.bump Attr.memDecodeErrors 0x300 m.index
  | .window c _ =>
    if m = .supervisor ∨ m = .placement then none else some fun s => s.bump Attr.coreWindowRejects c 0
  | .plane p _ => if m = .supervisor then none
    else if s.planeLocked p then some fun s => s.bump Attr.cruPlaneWriteRejects 0 0 else none
  | .temper => if m = .supervisor then none else some fun s => s.bump Attr.memProtectRejects 0x300 0
  | _ => none

/-- A write by a master of the bytes whose strobe is on: discarded with its count where the target is protected or absent,
else made. -/
def State.busStrobed (s : State) (m : Master) (a : Nat) (d : List (Option Byte)) : State :=
  match s.writeGuard m a with
  | some f => f s
  | none => ((wordsOf a d.length).foldl (fun s w => s.mergeWord a d w) s).writeStrobed a d

/-- A write by a master of every byte. -/
def State.busWrite (s : State) (m : Master) (a : Nat) (data : List Byte) : State := s.busStrobed m a (data.map some)

/-- A 32-bit word. -/
def State.word32 (s : State) (a : Nat) : Nat := leNat (s.readBytes a 4)

end Sys2Proof.Machine
end

