-- ==== Sys2Proof/Machine/Segments.lean ====
section
/-! DEFINITION. The memory of modules on their cores: segments and their bases (R183, R222, R247), what a module
starts with (R246) and what moves with it (R194, R196, R201). -/

namespace Sys2Proof.Machine

/-! ### Runs of addresses -/

/-- Inserts a run into a list sorted by base. -/
def insertRun (r : Nat × Nat) : List (Nat × Nat) → List (Nat × Nat)
  | [] => [r]
  | a :: l => if r.1 ≤ a.1 then r :: a :: l else a :: insertRun r l

/-- The free runs of `lo`…`hi` between sorted occupied runs. -/
def gaps (hi : Nat) : Nat → List (Nat × Nat) → List (Nat × Nat)
  | lo, [] => if lo < hi then [(lo, hi - lo)] else []
  | lo, (b, n) :: l => (if lo < b then [(lo, b - lo)] else []) ++ gaps hi (Nat.max lo (b + n)) l

/-- The lowest base below `hi` at which `n` words fit between occupied runs. (DESIGN CHOICE, entry 16) -/
def firstFit (hi n : Nat) (occ : List (Nat × Nat)) : Option Nat :=
  if n = 0 then some 0
  else ((gaps hi 0 (occ.foldl (fun l r => insertRun r l) [])).find? fun g => decide (n ≤ g.2)).map (·.1)

/-- The entries of `b`…`b + n − 1`, keyed from 0. -/
def Store.cut {α : Type} (m : Store α) (b n : Nat) : Store α :=
  (m.filter fun e => decide (b ≤ e.1 ∧ e.1 < b + n)).map fun e => (e.1 - b, e.2)

/-- The entries outside `b`…`b + n − 1`. -/
def Store.cutOut {α : Type} (m : Store α) (b n : Nat) : Store α := Store.keep (fun k => decide (k < b ∨ b + n ≤ k)) m

/-- Puts a cut part at base `b`. -/
def Store.paste {α : Type} (m : Store α) (b : Nat) (part : Store α) : Store α :=
  part.foldl (fun m e => Store.put m (b + e.1) e.2) m

/-! ### What a module's segments hold -/

/-- The contents of a module's segments by logical address. -/
structure SegData where
  pm : Store Word48
  x : Store Word24
  y : Store Word24
deriving DecidableEq, Repr

/-- The span of CONST words in X or Y (R244). -/
def Image.constSpan (g : Image) (y : Bool) : Option (Nat × Nat) :=
  match g.data.filter fun r => r.inY == y && r.kind == 0 && r.size != 0 with
  | [] => none
  | r :: rs => some (rs.foldl (fun a x => Nat.min a x.base) r.base, rs.foldl (fun a x => Nat.max a (x.base + x.size)) (r.base + r.size))

/-- The places of the CONST words in the order of the const attribute: X before Y, ascending (R250). -/
def Image.constPlaces (g : Image) : List (Bool × Nat) :=
  [false, true].flatMap fun y =>
    let runs := (g.data.filter fun r => r.inY == y && r.kind == 0).foldl (fun l r => insertRun (r.base, r.size) l) []
    runs.flatMap fun r => (List.range r.2).map fun i => (y, r.1 + i)

/-- Data regions of X or Y as they start (R246). -/
def Image.dataStart (g : Image) (y : Bool) : Store Word24 :=
  (g.data.filter fun r => r.inY == y && r.kind != 2).foldl (fun m r => Store.setMany 0 m r.base r.words) []

/-- What a module starts with. -/
def Image.start (g : Image) : SegData :=
  ⟨Store.setMany 0 [] g.progBase g.prog, g.dataStart false, g.dataStart true⟩

/-- Writes the committed CONST words of module `m` over data (R243). -/
def State.constOver (s : State) (m : Nat) (g : Image) (d : SegData) : SegData :=
  (g.constPlaces.zipIdx).foldl (fun (d : SegData) (e : (Bool × Nat) × Nat) =>
    let w : Word24 := BitVec.ofInt 24 (s.a Attr.modConst m e.2)
    if e.1.1 then { d with y := Store.set 0 d.y e.1.2 w } else { d with x := Store.set 0 d.x e.1.2 w }) d

/-- What a module's segments hold on core `c`. -/
def State.segData (s : State) (c : Nat) (md : Mod) : SegData :=
  let k := s.core c
  ⟨Store.cut k.pm md.pBase md.image.sp, Store.cut k.x md.xBase (md.image.dataEnd false),
    Store.cut k.y md.yBase (md.image.dataEnd true)⟩

/-- Whether a logical data address lies in a region that moves, or in a port area (R191, R194). -/
def Image.moves (g : Image) (y : Bool) (a : Nat) : Bool :=
  (g.data.any fun r => r.inY == y && r.kind != 2 && decide (r.base ≤ a ∧ a < r.base + r.size)) ||
  (g.inY == y && decide (g.inArea ≤ a ∧ a < g.inArea + 32 * g.nIn)) ||
  (g.outY == y && decide (g.outArea ≤ a ∧ a < g.outArea + 32 * g.nOut))

/-- What a move carries: all but SCRATCH, which reads zero on the new core (R194). -/
def SegData.moved (d : SegData) (g : Image) : SegData :=
  ⟨d.pm, Store.keep (g.moves false) d.x, Store.keep (g.moves true) d.y⟩

/-! ### Placing segments -/

/-- Replaces a declared module. -/
def State.setMod (s : State) (m : Nat) (md : Mod) : State :=
  { s with anv := { s.anv with mods := Store.put s.anv.mods m (some md) } }

/-- The modules placed on core `c`, ascending. -/
def State.modsOn (s : State) (c : Nat) : List (Nat × Mod) :=
  s.modules.filter fun e => s.a Attr.plcModuleCore 0 e.1 == (c : Int)

/-- Zero-fills a module's segments on core `c` (R196). -/
def State.clearSegs (s : State) (c : Nat) (md : Mod) : State :=
  let k := s.core c
  s.setCore c { k with
    pm := Store.cutOut k.pm md.pBase md.image.sp
    x := Store.cutOut k.x md.xBase (md.image.dataEnd false)
    y := Store.cutOut k.y md.yBase (md.image.dataEnd true) }

/-- Puts a module's segments on core `c` at its bases, over cleared words. -/
def State.putSegs (s : State) (c m : Nat) (md : Mod) (d : SegData) : State :=
  let s := (s.setMod m md).clearSegs c md
  let k := s.core c
  s.setCore c { k with
    pm := Store.paste k.pm md.pBase d.pm, x := Store.paste k.x md.xBase d.x, y := Store.paste k.y md.yBase d.y }

/-- Bases for a module beside the modules `on`, if it fits between them. -/
def fitSegs (on : List Mod) (g : Image) : Option (Nat × Nat × Nat) :=
  match firstFit 16384 g.sp (on.map fun o => (o.pBase, o.image.sp)),
    firstFit 32768 (g.dataEnd false) (on.map fun o => (o.xBase, o.image.dataEnd false)),
    firstFit 32768 (g.dataEnd true) (on.map fun o => (o.yBase, o.image.dataEnd true)) with
  | some p, some x, some y => some (p, x, y)
  | _, _, _ => none

/-- Sets modules side by side from the bottom of core `c`, each with its data. (DESIGN CHOICE, entry 16) -/
def packSegs (c : Nat) : List (Nat × Mod × SegData) → Nat → Nat → Nat → State → State
  | [], _, _, _, s => s
  | (m, md, d) :: l, p, x, y, s =>
    packSegs c l (p + md.image.sp) (x + md.image.dataEnd false) (y + md.image.dataEnd true)
      (s.putSegs c m { md with pBase := p, xBase := x, yBase := y } d)

/-- Puts module `m` with data `d` on core `c` beside the modules `on`: in the lowest gaps, or, where the free words
do not lie together, with all of them set side by side. (DESIGN CHOICE, entry 16) -/
def State.seat (s : State) (c m : Nat) (on : List Nat) (d : SegData) : State :=
  match s.mod? m with
  | none => s
  | some md =>
    let others := s.modules.filter fun e => on.contains e.1
    match fitSegs (others.map (·.2)) md.image with
    | some (p, x, y) => s.putSegs c m { md with pBase := p, xBase := x, yBase := y } d
    | none =>
      let parts := others.map fun e => (e.1, e.2, s.segData c e.2)
      let s := others.foldl (fun s e => s.clearSegs c e.2) s
      packSegs c (parts ++ [(m, md, d)]) 0 0 0 s

/-- The queued const words and the event latches of a module pass from core `a` to core `b` (R194, R232). -/
def State.passOn (s : State) (m : Nat) (md : Mod) (a b : Nat) : State :=
  let ka := s.core a
  let kb := s.core b
  let lines := (List.range md.image.events).map fun j => md.evb.getD 0 + j
  let kb := { kb with
    constQ := kb.constQ ++ ka.constQ.filter fun (w : ConstWord) => w.m == m
    latch := lines.foldl (fun l j => Store.set false l j (Store.get false ka.latch j)) kb.latch }
  let ka := { ka with
    constQ := ka.constQ.filter fun (w : ConstWord) => w.m != m
    latch := lines.foldl (fun l j => Store.set false l j false) ka.latch }
  if a = b then s else (s.setCore a ka).setCore b kb

/-- Sets the memories after modules changed cores: `old` are the cores they were on. A module new to a core starts
from its image; one that moved brings what R194 moves. (DESIGN CHOICE, entry 16) -/
def State.reseat (s : State) (old : Store Nat) : State :=
  let now : Store Nat := (s.listed Attr.plcModuleCore).map fun e => (e.2.1, e.2.2.toNat)
  let changed := s.modules.filter fun e => (Store.find? now e.1).isSome && Store.find? now e.1 != Store.find? old e.1
  let data := changed.map fun e => (e.1, match Store.find? old e.1 with
    | some c => (s.segData c e.2).moved e.2.image
    | none => s.constOver e.1 e.2.image e.2.image.start)
  let s1 := changed.foldl (fun s e => match Store.find? old e.1, Store.find? now e.1 with
    | some a, some b => (s.clearSegs a e.2).passOn e.1 e.2 a b
    | _, _ => s) s
  let settled (c : Nat) (upto : List Nat) : List Nat :=
    ((s1.modsOn c).map (·.1)).filter fun m => !(data.any fun d => d.1 == m) || upto.contains m
  (data.foldl (fun (a : State × List Nat) d =>
    match Store.find? now d.1 with
    | some c => (a.1.seat c d.1 (settled c a.2) d.2, d.1 :: a.2)
    | none => a) (s1, [])).1

end Sys2Proof.Machine
end

