-- ==== Sys2Proof/Machine/Operands.lean ====
section
/-! DEFINITION. Every operand form of the Anvil cores: registers (R210, R215, R260, R261), control registers (R242),
pointer arithmetic (R223 to R226), the memories behind segment bounds (R222, R244) and the parallel moves (R253 to
R255, R258). -/

namespace Sys2Proof.Machine

/-- Module fault codes (R250, last_fault). -/
def fUndefined : Nat := 1
def fStack : Nat := 2
def fPm : Nat := 3
def fX : Nat := 4
def fY : Nat := 5
def fConst : Nat := 6
def fRemote : Nat := 7
def fEvent : Nat := 8
def fControl : Nat := 9

/-- What an instruction sees of its module: core and module numbers, the module, the code of MODE, the block size,
its scratch-bank regions (base and size) and deep-memory bases, the meter limit, the half of this block, and the
value that CYC reads, which is free. -/
structure AEnv where
  c : Nat
  m : Nat
  md : Mod
  mode : Nat
  n : Nat
  rb : List (Nat × Nat)
  db : List Nat
  limit : Nat
  cyc : Nat
deriving DecidableEq, Repr

/-! ### Registers -/

/-- A data register. -/
def CoreSt.vReg (k : CoreSt) (r : Nat) : Word24 := Store.get 0 k.v r
/-- An accumulator. -/
def CoreSt.accReg (k : CoreSt) (r : Nat) : Word56 := Store.get 0 k.acc r
/-- A pointer. -/
def CoreSt.pReg (k : CoreSt) (r : Nat) : BitVec 15 := Store.get 0 k.p r
/-- An increment. -/
def CoreSt.iReg (k : CoreSt) (r : Nat) : BitVec 16 := Store.get 0 k.i r
/-- A buffer-control word. -/
def CoreSt.kReg (k : CoreSt) (r : Nat) : Word24 := Store.get 0 k.k r
/-- Writes a data register. -/
def CoreSt.setV (k : CoreSt) (r : Nat) (w : Word24) : CoreSt := { k with v := Store.set 0 k.v r w }
/-- Writes an accumulator. -/
def CoreSt.setAcc (k : CoreSt) (r : Nat) (w : Word56) : CoreSt := { k with acc := Store.set 0 k.acc r w }
/-- Writes a pointer. -/
def CoreSt.setP (k : CoreSt) (r : Nat) (w : BitVec 15) : CoreSt := { k with p := Store.set 0 k.p r w }
/-- Writes an increment. -/
def CoreSt.setI (k : CoreSt) (r : Nat) (w : BitVec 16) : CoreSt := { k with i := Store.set 0 k.i r w }
/-- Writes a buffer-control word. -/
def CoreSt.setK (k : CoreSt) (r : Nat) (w : Word24) : CoreSt := { k with k := Store.set 0 k.k r w }
/-- The rounding mode (R214). -/
def CoreSt.rm (k : CoreSt) : Bool := srBit k.sr srRM

/-- The count of the topmost loop entry (R267). -/
def loopCount : List StackEntry → Nat
  | [] => 0
  | .loop _ _ n :: _ => n
  | .ret _ :: l => loopCount l

/-- A data word as a whole accumulator: AH, with its sign in AE and AL zero (R215). -/
def alignWord (w : Word24) : Word56 := w.signExtend 32 ++ (0 : BitVec 24)

/-- A data word as an exact integer in units of 2 ^ -47. -/
def wordInt (w : Word24) : Int := w.toInt * 16777216

/-- The exact product of two data words (R212). -/
def product (a b : Word24) : Int := 2 * (a.toInt * b.toInt)

/-- A product with its sign (R256). -/
def signedProduct (neg : Bool) (a b : Word24) : Int := if neg then -product a b else product a b

/-- The word a source register gives, and whether a rounded store saturated (R260, R261). -/
def CoreSt.source (k : CoreSt) (r : Nat) : Word24 × Bool :=
  if r < 4 then (k.vReg r, false)
  else if r < 8 then roundedStore k.rm (k.accReg (r - 4))
  else if r < 12 then (((k.accReg (r - 8)).extractLsb' 48 8).signExtend 24, false)
  else if r < 16 then ((k.accReg (r - 12)).extractLsb' 24 24, false)
  else if r < 20 then ((k.accReg (r - 16)).extractLsb' 0 24, false)
  else if r < 28 then ((k.pReg (r - 20)).zeroExtend 24, false)
  else if r < 36 then ((k.iReg (r - 28)).signExtend 24, false)
  else if r < 44 then (k.kReg (r - 36), false)
  else if r = 44 then (k.sr, false)
  else if r = 45 then (BitVec.ofNat 24 (loopCount k.stack), false)
  else (BitVec.ofNat 24 k.bx, false)

/-- A destination register takes a word (R215, R261). -/
def CoreSt.take (k : CoreSt) (r : Nat) (w : Word24) : CoreSt :=
  if r < 4 then k.setV r w
  else if r < 8 then k.setAcc (r - 4) (alignWord w)
  else if r < 12 then k.setAcc (r - 8) (w.extractLsb' 0 8 ++ (k.accReg (r - 8)).extractLsb' 0 48)
  else if r < 16 then
    let a := k.accReg (r - 12)
    k.setAcc (r - 12) (a.extractLsb' 48 8 ++ (w ++ a.extractLsb' 0 24))
  else if r < 20 then k.setAcc (r - 16) ((k.accReg (r - 16)).extractLsb' 24 32 ++ w)
  else if r < 28 then k.setP (r - 20) (w.extractLsb' 0 15)
  else if r < 36 then k.setI (r - 28) (w.extractLsb' 0 16)
  else if r < 44 then k.setK (r - 36) w
  else { k with sr := w &&& srMask }

/-- The accumulator a register code names, whole or a field. -/
def accOfCode (r : Nat) : Option Nat := if 4 ≤ r ∧ r < 20 then some (r % 4) else none

/-- What writing a register makes the next instruction wait for (R228, R273). -/
def wroteReg (r : Nat) : Hazard :=
  { regs := if 20 ≤ r ∧ r < 44 then [r] else []
    accs := match accOfCode r with
      | some a => [a]
      | none => []
    flags := r == 44 }

/-! ### Control registers (R242) -/

/-- The word of a half of a port area: bit 15 for Y, and the address (R237, R242). -/
def halfWord (y : Bool) (area n half : Nat) : Nat := (if y then 32768 else 0) + area + half * 16 * n

/-- A control register (R242); none for an unlisted address. CYCLEFT is read before the cycles of the MOVC that reads it count.
(DESIGN CHOICE, entry 20) -/
def AEnv.control (e : AEnv) (k : CoreSt) (a : Nat) : Option Nat :=
  let g := e.md.image
  if a = 0x00 then some e.c
  else if a = 0x01 then some e.mode
  else if a = 0x02 then some e.m
  else if a = 0x03 then some (e.md.blocks % 2 ^ 24)
  else if a = 0x04 then some (e.md.blocks / 2 ^ 24 % 2 ^ 24)
  else if a = 0x05 then some (e.limit - k.meter)
  else if a = 0x06 then some (halfWord g.inY g.inArea g.nIn e.md.half)
  else if a = 0x07 then some (halfWord g.outY g.outArea g.nOut e.md.half)
  else if a = 0x08 then some (match e.md.evb with | some l => 256 + l | none => 0)
  else if 0x10 ≤ a ∧ a ≤ 0x17 then some ((e.rb.getD (a - 0x10) (0, 0)).1 % 2 ^ 24)
  else if 0x18 ≤ a ∧ a ≤ 0x1F then
    let b := e.db.getD ((a - 0x18) / 2) 0
    some (if a % 2 = 0 then b % 2 ^ 24 else b / 2 ^ 24 % 2 ^ 12)
  else if a = 0x30 then some (e.cyc % 2 ^ 24)
  else none

/-! ### Pointers (R223 to R226) -/

/-- The 15 bits of a number in reverse. -/
def reverse15 (v : Nat) : Nat := ((List.range 15).map fun i => v / 2 ^ i % 2 * 2 ^ (14 - i)).sum

/-- The smallest power of two at or above `l`. -/
def powerAbove (l : Nat) : Nat := if l ≤ 1 then 1 else 2 ^ ((l - 1).log2 + 1)

/-- A pointer moved by a signed offset under a buffer-control word (R224 to R226). A modulo length above the stated range is
taken as it stands, and the magnitude of a bit-reversed offset modulo 2^15. (DESIGN CHOICE, entry 22) -/
def movePointer (kw : Word24) (p : BitVec 15) (off : Int) : BitVec 15 :=
  let mode := kw.toNat / 2 ^ 22
  let len := kw.toNat % 65536
  if mode = 1 ∧ len ≠ 0 then
    let b := powerAbove len
    let base := p.toNat / b * b
    let t : Int := (p.toNat : Int) - (base : Int) + off
    let t := if (len : Int) ≤ t then t - (len : Int) else if t < 0 then t + (len : Int) else t
    BitVec.ofInt 15 ((base : Int) + t)
  else if mode = 2 then
    let r := reverse15 p.toNat
    let m := reverse15 (off.natAbs % 32768)
    BitVec.ofNat 15 (reverse15 ((if 0 ≤ off then r + m else r + 32768 - m) % 32768))
  else BitVec.ofInt 15 ((p.toNat : Int) + off)

/-- The address of a move, and the pointer it leaves where it post-modifies it (R223, R253). -/
def CoreSt.moveAddr (k : CoreSt) (m : Move) : Nat × Option (BitVec 15) :=
  let p := k.pReg m.p.val
  let i : Int := (k.iReg m.p.val).toInt
  let kw := k.kReg m.p.val
  match m.mode.val with
  | 0 => (p.toNat, none)
  | 1 => (p.toNat, some (movePointer kw p 1))
  | 2 => (p.toNat, some (movePointer kw p (-1)))
  | 3 => (p.toNat, some (movePointer kw p i))
  | 4 => (p.toNat, some (movePointer kw p (-i)))
  | _ => ((movePointer kw p i).toNat, none)

/-- The registers a move uses for addressing (R228): Pn, with In where the mode names it, and Kn where the pointer
moves or an index is formed. -/
def addressing (m : Move) : List Nat :=
  let n := m.p.val
  (20 + n) :: (if 3 ≤ m.mode.val then [28 + n] else []) ++ (if 1 ≤ m.mode.val then [36 + n] else [])

/-! ### The memories (R222, R244) -/

/-- Words of a module's X or Y segment. -/
def AEnv.bound (e : AEnv) (y : Bool) : Nat := e.md.image.dataEnd y
/-- The physical word of a logical X or Y address. -/
def AEnv.phys (e : AEnv) (y : Bool) (a : Nat) : Nat := (if y then e.md.yBase else e.md.xBase) + a
/-- The address of a physical X or Y word in the core's window (R208). -/
def AEnv.window (e : AEnv) (y : Bool) (a : Nat) : Nat :=
  0x10000000 + e.c * 0x100000 + (if y then 0x40000 else 0x20000) + 4 * e.phys y a

/-- Checks a data access: the bound, and the CONST span for a write. -/
def AEnv.check (e : AEnv) (y write : Bool) (a : Nat) : Except Nat Unit :=
  if e.bound y ≤ a then .error (if y then fY else fX)
  else if write then
    (match e.md.image.constSpan y with
     | some (lo, hi) => if lo ≤ a ∧ a < hi then .error fConst else .ok ()
     | none => .ok ())
  else .ok ()

/-- A data word at a logical address. -/
def AEnv.load (e : AEnv) (k : CoreSt) (y : Bool) (a : Nat) : Word24 :=
  Store.get 0 (if y then k.y else k.x) (e.phys y a)

/-- Stores a data word. -/
def AEnv.storeWord (e : AEnv) (k : CoreSt) (y : Bool) (a : Nat) (w : Word24) : CoreSt :=
  if y then { k with y := Store.set 0 k.y (e.phys y a) w } else { k with x := Store.set 0 k.x (e.phys y a) w }

/-! ### Parallel moves (R253 to R255) -/

/-- What a move does: the address it uses, the pointer it leaves, the word it carries with its register, whether it
stores, and whether a rounded store saturated. -/
structure MoveDone where
  y : Bool
  addr : Nat
  p : Nat
  newP : Option (BitVec 15)
  write : Bool
  reg : Nat
  word : Word24
  sat : Bool
deriving DecidableEq, Repr

/-- A move on the registers before the instruction. -/
def AEnv.move (e : AEnv) (k : CoreSt) (y : Bool) : Option Move → Except Nat (Option MoveDone)
  | none => .ok none
  | some m =>
    let (a, np) := k.moveAddr m
    match e.check y m.write a with
    | .error f => .error f
    | .ok _ =>
      let (w, sat) := if m.write then k.source m.reg.val else (e.load k y a, false)
      .ok (some ⟨y, a, m.p.val, np, m.write, m.reg.val, w, sat⟩)

/-- The register side of a move: the pointer it steps and the register it loads. -/
def MoveDone.regs (d : MoveDone) (k : CoreSt) : CoreSt :=
  let k := match d.newP with
    | some p => k.setP d.p p
    | none => k
  if d.write then k else k.take d.reg d.word

/-- The memory side of a move: the word stored, the headroom it leaves in BX and the sticky SOV (R216, R217). -/
def MoveDone.mem (d : MoveDone) (e : AEnv) (k : CoreSt) : CoreSt :=
  if d.write then
    let k := e.storeWord k d.y d.addr d.word
    { k with bx := Nat.min k.bx (wordHeadroom d.word), sr := srSetSov k.sr d.sat }
  else k

/-- The registers the moves of an instruction use for addressing, and the accumulators they store. -/
def movesNeed (mv : Moves) : Hazard :=
  let l := mv.x.toList ++ mv.y.toList
  { regs := l.flatMap addressing
    accs := (l.filter fun m => m.write && decide (4 ≤ m.reg.val)).map fun m => m.reg.val - 4
    flags := false }

/-- The accumulators the moves of an instruction load. -/
def movesLoad (mv : Moves) : List Nat :=
  ((mv.x.toList ++ mv.y.toList).filter fun m => !m.write && decide (4 ≤ m.reg.val)).map fun m => m.reg.val - 4

end Sys2Proof.Machine
end

