-- ==== Sys2Proof/Machine/Sequencer.lean ====
section
/-! DEFINITION. The block sequencer of the Anvil cores (R232 to R236, R243): entering, stopping and faulting modules,
event lines, the posted writes of a core (R231), instruction tagging (R560 to R563), and the frame every instruction
runs in: fetch, loop-end compare (R268), stalls (R228, R273) and the cycle meter. -/

namespace Sys2Proof.Machine

/-! ### Regions and environment -/

/-- The scratch-bank regions of a module in image order, and its deep-memory bases (R242). -/
def State.regionBases (s : State) (m : Nat) (g : Image) : List (Nat × Nat) × List Nat :=
  let base (o : Owner) : Nat := match s.plc.regions.find? fun (r : Region) => r.owner == o with
    | some r => r.base
    | none => 0
  (g.banks.mapIdx fun i b => (base (Owner.rb m i), b.2), g.deeps.mapIdx fun i _ => base (Owner.db m i))

/-- The declared cycles of a module for the family and N in force: its meter limit (R234). -/
def State.limitOf (s : State) (g : Image) : Nat :=
  match g.budgetFor s.eng.cfg.family s.eng.cfg.n with
  | some b => b.cycles
  | none => 0

/-- The environment of module `m` on core `c`. (DESIGN CHOICE, entry 20) -/
def State.aenv (s : State) (c m : Nat) (md : Mod) : AEnv :=
  let r := s.regionBases m md.image
  let g := s.eng.cfg
  { c := c, m := m, md := md, mode := g.family + 4 * g.rate + 8 * g.n, n := g.n, rb := r.1, db := r.2,
    limit := s.limitOf md.image, cyc := Config.cycleCount s.free }

/-! ### Event lines (R232, R270) -/

/-- A pulse latches a line on one core; one on a latched line is lost and counted. -/
def State.latchOn (s : State) (line c : Nat) : State :=
  let k := s.core c
  if Store.get false k.latch line then s.bump Attr.coreEvCoalesced c 0
  else s.setCore c { k with latch := Store.set false k.latch line true }

/-- The module and doorbell slot that a line triggers (R321): the module that owns the line, where its first
scratch-bank region holds the slot and it has a channel (R306). -/
def State.triggerOf (s : State) (line : Nat) : Option (Nat × Nat) :=
  s.modules.findSome? fun e =>
    match e.2.evb with
    | none => none
    | some l =>
      if l ≤ line ∧ line < l + e.2.image.events ∧ s.a Attr.tngModuleChannel 0xFFFF e.1 ≠ 255 then
        match (s.regionBases e.1 e.2.image).1 with
        | (b, n) :: _ => if 64 * (line - l + 1) ≤ n then some (e.1, b + 64 * (line - l)) else none
        | [] => none
      else none

/-- A pulse on a line: latched on every core, and offered to Tongs as a trigger (R321). -/
def State.pulse (s : State) (line : Nat) : State :=
  let s := (List.range 48).foldl (fun s c => s.latchOn line c) s
  let s := if (s.triggerOf line).isSome then { s with tng := { s.tng with pulses := s.tng.pulses ++ [line] } } else s
  s.event (0x100 + line)

/-! ### Posted writes (R231) -/

/-- The bank takes the oldest posted write of core `c`. (DEDUCED, entry 21) -/
def State.drainOne (s : State) (c : Nat) : State :=
  let k := s.core c
  match k.wbuf with
  | [] => s
  | (a, w) :: rest =>
    let s := s.setCore c { k with wbuf := rest }
    (s.eccClear (wordOf a)).writeBytes a (leBytes 4 w.toNat)

/-- The banks take every posted write of core `c`; the buffer holds four. (DEDUCED, entry 21) -/
def State.drain (s : State) (c : Nat) : State := (((s.drainOne c).drainOne c).drainOne c).drainOne c

/-! ### Entry and end of a module (R233 to R236, R243) -/

/-- Registers as a module finds them at entry: all zero but BX (R233). -/
def CoreSt.entry (k : CoreSt) (entry : Nat) : CoreSt :=
  { k with
    v := []
    acc := []
    p := []
    i := []
    k := []
    sr := 0
    bx := 23
    pc := entry
    stack := []
    stall := none
    draining := false
    haz := Hazard.reset
    meter := 24 }

/-- The number of the Anvil block that the cores run (R17, R32): before the offset tick of a period it is the block that
began in the period before. -/
def State.blockNumber (s : State) : Nat := s.eng.count / s.eng.cfg.n - (if s.eng.offset then 0 else 1)

/-- Writes the queued const words of module `m` that belong to this block (R243); each takes a cycle of the core. -/
def State.applyConsts (s : State) (c m : Nat) (md : Mod) : State :=
  let k := s.core c
  let due (w : ConstWord) : Bool := w.m == m && decide (w.block ≤ s.blockNumber * s.eng.cfg.n)
  let now := k.constQ.filter due
  let e : AEnv := s.aenv c m md
  let k1 := now.foldl (fun k w => e.storeWord k w.inY w.addr w.word) k
  s.setCore c { k1 with constQ := k.constQ.filter fun w => !due w, cycles := k.cycles + now.length }

/-- Starts the next module of core `c` for this block; after the last the core idles and its cycles are reported. -/
def startNext (c : Nat) : List Nat → State → State
  | [], s =>
    let k := s.core c
    let s := s.setCore c { k with run := none, todo := [] }
    (s.set Attr.coreCyclesLast c 0 k.cycles).peak Attr.coreCyclesPeak c 0 k.cycles
  | m :: rest, s =>
    match s.mod? m with
    | none => startNext c rest s
    | some md =>
      let s := s.applyConsts c m md
      let k := (s.core c).entry md.image.entry
      s.setCore c { k with run := some m, todo := rest }

/-- Whether core `c` runs a module on trial for an adoption (R486). (DEDUCED, entry 54) -/
def State.onTrial (s : State) (c : Nat) : Bool := s.lck.shadow.any (·.core == c)

/-- A module on trial ends its block on core `c` (R486). -/
def State.endTrial (s : State) (c : Nat) (released : Bool) : State :=
  let s := s.drain c
  let s := s.setCore c { s.core c with run := none, todo := [], stall := none, draining := false }
  { s with lck := { s.lck with shadow := s.lck.shadow.map fun (h : Shadow) => { h with done := released } } }

/-- The module that runs on core `c` ends its block, released or not: posted writes complete, its cycles count, and
the next module starts. -/
def State.endModule (s : State) (c : Nat) (released : Bool) : State :=
  if s.onTrial c then s.endTrial c released else
  let s := s.drain c
  let k := s.core c
  match k.run with
  | none => s
  | some m =>
    match s.mod? m with
    | none => startNext c k.todo (s.setCore c { k with cycles := k.cycles + k.meter })
    | some md =>
      let s := (s.peak Attr.modCyclesPeak m 0 k.meter).setMod m { md with released := released }
      startNext c k.todo (s.setCore c { k with cycles := k.cycles + k.meter })

/-- Module `m` of core `c` overruns for reason `why` (R236); the block counts once for the core. -/
def State.overran (s : State) (c m why : Nat) : State :=
  if s.onTrial c then s else
  let s := (s.bump Attr.modOverruns m 0).set Attr.modLastOverrun m 0 why
  let k := s.core c
  let b := s.blockNumber
  if k.overAt.head? = some b then s
  else s.setCore c { k with blockOver := true, overAt := (b :: k.overAt).take 64 }

/-- A module fault (R236, R250): recorded, the module stops at once; the cycles of the instruction that makes it do not count on
the meter. (DESIGN CHOICE, entry 22) -/
def State.moduleFault (s : State) (c m code : Nat) : State :=
  ((if s.onTrial c then s else s.set Attr.modLastFault m 0 code).overran c m 2).endModule c false

/-! ### Tagging (R560 to R563) -/

/-- The core's generator steps for an instruction fetched; whether the instruction is tagged. -/
def State.tagFetch (s : State) (c : Nat) : Bool × State :=
  let w := ditherStep (Store.get 1 s.hlt.lfsr c)
  let s := { s with hlt := { s.hlt with lfsr := Store.put s.hlt.lfsr c w } }
  if bit (s.n Attr.cntTagCores 0x100 0) c && w % 2 ^ s.n Attr.cntTagK 0x100 0 == 0 &&
      !(s.n Attr.cntTagMode 0x100 0 == 1 && decide (256 ≤ s.hlt.tags.length)) then
    let k := s.core c
    if k.cycles + k.meter < Store.get 0 s.hlt.tagEnd c then (false, s.bump Attr.cntTagsSkipped 0x100 0)
    else (true, s)
  else (false, s)

/-- Writes a tag record for the instruction at `pc` with its cycles, stall cause and whether it was discarded. How its
cycles divide over the stages is free. (DESIGN CHOICE, entry 23) -/
def State.tagRecord (s : State) (c m pc : Nat) (w : Word48) (block total cause : Nat) (gone : Bool) : State :=
  let k := s.core c
  let stages := (List.range 6).map fun i => Config.tagStage s.free i
  let sat := (Config.tagStage s.free 6).toNat % 2
  let rec_ := leBytes 4 s.hlt.tagSeq ++ [byteOf c, byteOf m] ++ leBytes 2 pc ++ leBytes 8 w.toNat ++
    leBytes 4 k.meter ++ stages ++ [byteOf cause, byteOf (b2n gone + 2 * sat)] ++ leBytes 4 block
  { s with
    free := s.free + 1
    hlt := { s.hlt with
      tags := (rec_ :: s.hlt.tags).take 256
      tagSeq := (s.hlt.tagSeq + 1) % 2 ^ 32
      tagEnd := Store.put s.hlt.tagEnd c (k.cycles + k.meter + total + 5) } }

/-! ### Running an instruction -/

/-- The address after `pc`, of 14 bits (R210). -/
def pcAfter (pc : Nat) : Nat := (pc + 1) % 16384

/-- The loop-end compare on the fetch of `pc` (R229, R268): the stack it leaves and the next fetch. -/
def loopEnd (pc : Nat) : List StackEntry → List StackEntry × Nat
  | .loop start end_ n :: rest =>
    if end_ ≠ pc then (.loop start end_ n :: rest, pcAfter pc)
    else if 1 < n then (.loop start end_ (n - 1) :: rest, start)
    else loopEnd pc rest
  | l => (l, pcAfter pc)

/-- What an instruction does: the core after it with its PC not yet moved, the next fetch where it transfers control,
its cycles without hazards, whether it completes, those cycles that are stalls with their cause, the window words it reads and writes,
what the next instruction may wait for, and what it does beyond its core: `bank` what an operation in flight has done
even where its result is discarded, `after` the rest. -/
structure Ran where
  k : CoreSt
  next : Option Nat := none
  cost : Nat := 1
  done : Bool := true
  stalls : Nat := 0
  cause : Nat := 0
  reads : List Nat := []
  writes : List Nat := []
  wrote : Hazard := Hazard.reset
  bank : State → State := id
  after : State → State := id

/-- The cause of the one-cycle stall an instruction meets: 1 address register, 2 accumulator store, 3 flags; 0 none
(R228, R562). (DEDUCED, entry 22) -/
def hazardOf (h needs : Hazard) : Nat :=
  if needs.regs.any h.regs.contains then 1
  else if needs.accs.any h.accs.contains then 2
  else if needs.flags && h.flags then 3
  else 0

/-- The module core `c` runs and may fetch for: not stalled, not draining, below its limit. (DEDUCED, entry 64) -/
def State.runs (s : State) (c : Nat) : Option (Nat × Mod) :=
  let k := s.core c
  match k.run with
  | none => none
  | some m =>
    match s.mod? m with
    | none => none
    | some md => if k.stall.isSome ∨ k.draining ∨ s.limitOf md.image ≤ k.meter then none else some (m, md)

/-- The word core `c` fetches next for a module, and its window address. -/
def State.fetchWord (s : State) (c : Nat) (md : Mod) : Word48 × Nat :=
  let k := s.core c
  (Store.get 0 k.pm (md.pBase + k.pc), 0x10000000 + c * 0x100000 + 8 * (md.pBase + k.pc))

/-- A fetch at or beyond Sp is a module fault (R222). -/
def State.fetchBound (s : State) (c m : Nat) (md : Mod) : State :=
  let k := s.core c
  if k.run = some m ∧ k.stall = none ∧ ¬ k.draining ∧ md.image.sp ≤ k.pc ∧ k.meter < s.limitOf md.image then
    s.moduleFault c m fPm
  else s

/-- Runs instruction `i` on core `c` if it is the one the core fetches next; anything else is no such event and
changes nothing. An operation that does not end within the meter's limit has its result discarded (R234).
(DEDUCED, entry 22) (DEDUCED, entry 64) -/
def runInstr (c : Nat) (i : Instr) (needs : Hazard) (body : AEnv → CoreSt → Except Nat Ran) (s : State) : State :=
  match s.runs c with
  | none => s
  | some (m, md) =>
    let k := s.core c
    let (w, wa) := s.fetchWord c md
    if decodeAnvil c k.pc w ≠ some i then s
    else
      let s := s.eccTouches [wa]
      let (tagged, s) := s.tagFetch c
      let (stack, nxt) := loopEnd k.pc k.stack
      match body (s.aenv c m md) { k with stack := stack } with
      | .error f =>
        let s := if tagged then s.tagRecord c m k.pc w md.blocks 1 0 true else s
        s.moduleFault c m f
      | .ok r =>
        let h := hazardOf k.haz needs
        let total := r.cost + b2n (h != 0)
        let cause := if r.cause ≠ 0 then r.cause else h
        let limit := s.limitOf md.image
        if limit < k.meter + total then
          let s := if tagged then s.tagRecord c m k.pc w md.blocks total cause true else s
          r.bank (s.setCore c { (s.core c) with meter := limit })
        else
          let s := if tagged then s.tagRecord c m k.pc w md.blocks total cause false else s
          let s := (s.eccTouches r.reads)
          let s := r.writes.foldl State.eccClear s
          let s := s.setCore c { r.k with pc := r.next.getD nxt, meter := k.meter + total, haz := r.wrote }
          let s := (if r.done then s.event (0x090 + c) else s).events (0x060 + c) (r.stalls + b2n (h != 0))
          (r.after (r.bank s)).fetchBound c m md

end Sys2Proof.Machine
end

