-- ==== Sys2Proof/Machine/Anvil.lean ====
section
/-! DEFINITION. The arithmetic instructions of the Anvil cores, format P (R252 to R258), with their parallel moves. -/

namespace Sys2Proof.Machine

/-- What the arithmetic of an instruction writes: accumulators and data registers by number, SR, BX before the
instruction's stores, and whether it wrote flags. -/
structure Arith where
  accs : List (Nat × Word56) := []
  data : List (Nat × Word24) := []
  sr : Word24
  bx : Nat
  flags : Bool := true
deriving DecidableEq, Repr

/-- Arithmetic that writes one accumulator with the flags of group ar or mv. -/
def Arith.one (k : CoreSt) (da : Fin 4) (r : Word56 × FlagBits) : Arith :=
  { accs := [(da.val, r.1)], sr := srFlags k.sr r.2, bx := k.bx }

/-- Arithmetic that writes two accumulators with the flags of group ar2. -/
def Arith.two (k : CoreSt) (da db : Fin 4) (r : Word56 × Word56 × FlagBits) : Arith :=
  { accs := [(da.val, r.1), (db.val, r.2.1)], sr := srFlags k.sr r.2.2, bx := k.bx }

/-- Arithmetic that writes only flags. -/
def Arith.none (k : CoreSt) (f : FlagBits) : Arith := { sr := srFlags k.sr f, bx := k.bx }

/-- The window words the moves touch: reads and writes. -/
def AEnv.touched (e : AEnv) (write : Bool) (l : List MoveDone) : List Nat :=
  (l.filter (·.write == write)).map fun d => e.window d.y d.addr

/-- What a format P instruction leaves: the moves done, then the arithmetic formed on the old registers; where two parts
write one register the arithmetic stands, then the Y move, then the X move (R255). -/
def AEnv.retireP (e : AEnv) (mv : Moves) (x y : Option MoveDone) (a : Arith) (k : CoreSt) : Ran :=
  let l := x.toList ++ y.toList
  let k := l.foldl (fun k d => d.regs k) k
  let k := { k with sr := a.sr, bx := a.bx }
  let k := a.accs.foldl (fun k w => k.setAcc w.1 w.2) k
  let k := a.data.foldl (fun k w => k.setV w.1 w.2) k
  let k := l.foldl (fun k d => d.mem e k) k
  { k := k, reads := e.touched false l, writes := e.touched true l
    wrote := { regs := [], accs := a.accs.map (·.1) ++ movesLoad mv, flags := a.flags } }

/-- A format P instruction: its moves read first, its arithmetic is formed on the old registers (R255). Where both moves
fault the X move's fault is recorded. (DESIGN CHOICE, entry 22) -/
def bodyP (mv : Moves) (arith : CoreSt → Arith) (e : AEnv) (k : CoreSt) : Except Nat Ran :=
  match e.move k false mv.x, e.move k true mv.y with
  | .error f, _ => .error f
  | _, .error f => .error f
  | .ok x, .ok y => .ok (e.retireP mv x y (arith k) k)

/-- Runs a format P instruction. -/
def runP (c : Nat) (i : Instr) (mv : Moves) (arith : CoreSt → Arith) (s : State) :
    Host.Outcome State Fault Refusal :=
  .next (runInstr c i (movesNeed mv) (bodyP mv arith) s)

/-! ### Products -/

/-- The carry of an accumulation (R257): a borrow where everything is subtracted, else a carry. -/
def macCarry (a : Word56) (allMinus : Bool) (t : Int) : Bool := if allMinus then borrowOf a (-t) else carryOf a t

/-- A first product with its sign, on the registers. -/
def CoreSt.prod (k : CoreSt) (neg : Bool) (a b : Fin 4) : Int := signedProduct neg (k.vReg a.val) (k.vReg b.val)

/-- NOP: no arithmetic. -/
def execNop (c : Nat) (mv : Moves) (s : State) : Host.Outcome State Fault Refusal :=
  runP c (.nop c mv) mv (fun k => { sr := k.sr, bx := k.bx, flags := false }) s

/-- MUL: da := ±s1·s2. -/
def execMul (c : Nat) (da s1 s2 : Fin 4) (n1 : Bool) (mv : Moves) (s : State) : Host.Outcome State Fault Refusal :=
  runP c (.mul c da s1 s2 n1 mv) mv (fun k => Arith.one k da (arFlags (k.prod n1 s1 s2) false)) s

/-- MAC: da := da ± s1·s2. -/
def execMac (c : Nat) (da s1 s2 : Fin 4) (n1 : Bool) (mv : Moves) (s : State) : Host.Outcome State Fault Refusal :=
  runP c (.mac c da s1 s2 n1 mv) mv (fun k =>
    let a := k.accReg da.val
    let t := k.prod n1 s1 s2
    Arith.one k da (arFlags (accInt a + t) (macCarry a n1 t))) s

/-- MUL2: da := ±s1·s2 ± s3·s4. -/
def execMul2 (c : Nat) (da s1 s2 s3 s4 : Fin 4) (n1 n2 : Bool) (mv : Moves) (s : State) :
    Host.Outcome State Fault Refusal :=
  runP c (.mul2 c da s1 s2 s3 s4 n1 n2 mv) mv (fun k =>
    Arith.one k da (arFlags (k.prod n1 s1 s2 + k.prod n2 s3 s4) false)) s

/-- MAC2: both products join da in one exact step (R213). -/
def execMac2 (c : Nat) (da s1 s2 s3 s4 : Fin 4) (n1 n2 : Bool) (mv : Moves) (s : State) :
    Host.Outcome State Fault Refusal :=
  runP c (.mac2 c da s1 s2 s3 s4 n1 n2 mv) mv (fun k =>
    let a := k.accReg da.val
    let t := k.prod n1 s1 s2 + k.prod n2 s3 s4
    Arith.one k da (arFlags (accInt a + t) (macCarry a (n1 && n2) t))) s

/-- DMUL: one product into each of two accumulators. -/
def execDmul (c : Nat) (da db s1 s2 s3 s4 : Fin 4) (n1 n2 : Bool) (mv : Moves) (s : State) :
    Host.Outcome State Fault Refusal :=
  runP c (.dmul c da db s1 s2 s3 s4 n1 n2 mv) mv (fun k =>
    Arith.two k da db (ar2Flags (k.prod n1 s1 s2) (k.prod n2 s3 s4) false)) s

/-- DMAC: one product joins each of two accumulators. -/
def execDmac (c : Nat) (da db s1 s2 s3 s4 : Fin 4) (n1 n2 : Bool) (mv : Moves) (s : State) :
    Host.Outcome State Fault Refusal :=
  runP c (.dmac c da db s1 s2 s3 s4 n1 n2 mv) mv (fun k =>
    let a := k.accReg da.val
    let t := k.prod n1 s1 s2
    Arith.two k da db (ar2Flags (accInt a + t) (accInt (k.accReg db.val) + k.prod n2 s3 s4) (macCarry a n1 t))) s

/-- MACRN: the accumulation, then rounded as RND does; C comes from the accumulation. -/
def execMacrn (c : Nat) (da s1 s2 : Fin 4) (n1 : Bool) (mv : Moves) (s : State) : Host.Outcome State Fault Refusal :=
  runP c (.macrn c da s1 s2 n1 mv) mv (fun k =>
    let a := k.accReg da.val
    let t := k.prod n1 s1 s2
    let x := arFlags (accInt a + t) (macCarry a n1 t)
    let y := arFlags (rndExact k.rm (accInt x.1)) x.2.c
    Arith.one k da (y.1, { y.2 with l := x.2.l || y.2.l, aov := x.2.aov || y.2.aov })) s

/-! ### Sums -/

/-- ADD: da := da + db. -/
def execAdd (c : Nat) (da db : Fin 4) (mv : Moves) (s : State) : Host.Outcome State Fault Refusal :=
  runP c (.add c da db mv) mv (fun k =>
    let a := k.accReg da.val
    let b := accInt (k.accReg db.val)
    Arith.one k da (arFlags (accInt a + b) (carryOf a b))) s

/-- SUB: da := da − db. -/
def execSub (c : Nat) (da db : Fin 4) (mv : Moves) (s : State) : Host.Outcome State Fault Refusal :=
  runP c (.sub c da db mv) mv (fun k =>
    let a := k.accReg da.val
    let b := accInt (k.accReg db.val)
    Arith.one k da (arFlags (accInt a - b) (borrowOf a b))) s

/-- ADDSUB: the sum into da and the difference into db, both from the old values. -/
def execAddsub (c : Nat) (da db : Fin 4) (mv : Moves) (s : State) : Host.Outcome State Fault Refusal :=
  runP c (.addsub c da db mv) mv (fun k =>
    let a := k.accReg da.val
    let b := accInt (k.accReg db.val)
    Arith.two k da db (ar2Flags (accInt a + b) (accInt a - b) (carryOf a b))) s

/-- ADDX: da := da + s1, aligned as a word. -/
def execAddx (c : Nat) (da s1 : Fin 4) (mv : Moves) (s : State) : Host.Outcome State Fault Refusal :=
  runP c (.addx c da s1 mv) mv (fun k =>
    let a := k.accReg da.val
    let b := wordInt (k.vReg s1.val)
    Arith.one k da (arFlags (accInt a + b) (carryOf a b))) s

/-- SUBX: da := da − s1, aligned as a word. -/
def execSubx (c : Nat) (da s1 : Fin 4) (mv : Moves) (s : State) : Host.Outcome State Fault Refusal :=
  runP c (.subx c da s1 mv) mv (fun k =>
    let a := k.accReg da.val
    let b := wordInt (k.vReg s1.val)
    Arith.one k da (arFlags (accInt a - b) (borrowOf a b))) s

/-! ### Copies, signs and comparisons -/

/-- A value written to da with the flags of group mv. -/
def Arith.mv (k : CoreSt) (da : Fin 4) (a : Word56) : Arith := Arith.one k da (a, mvFlags a)

/-- MOVA: da := db. -/
def execMova (c : Nat) (da db : Fin 4) (mv : Moves) (s : State) : Host.Outcome State Fault Refusal :=
  runP c (.mova c da db mv) mv (fun k => Arith.mv k da (k.accReg db.val)) s

/-- CLR: da := 0. -/
def execClr (c : Nat) (da : Fin 4) (mv : Moves) (s : State) : Host.Outcome State Fault Refusal :=
  runP c (.clr c da mv) mv (fun k => Arith.mv k da 0) s

/-- NEG: da := −da; C is the borrow of 0 − da. -/
def execNeg (c : Nat) (da : Fin 4) (mv : Moves) (s : State) : Host.Outcome State Fault Refusal :=
  runP c (.neg c da mv) mv (fun k =>
    let a := accInt (k.accReg da.val)
    Arith.one k da (arFlags (-a) (borrowOf 0 a))) s

/-- ABS: da := |da|; C is the borrow of 0 − da where da is negative. -/
def execAbs (c : Nat) (da : Fin 4) (mv : Moves) (s : State) : Host.Outcome State Fault Refusal :=
  runP c (.abs c da mv) mv (fun k =>
    let a := accInt (k.accReg da.val)
    Arith.one k da (if a < 0 then arFlags (-a) (borrowOf 0 a) else arFlags a false)) s

/-- MAX: the larger of da and db. -/
def execMax (c : Nat) (da db : Fin 4) (mv : Moves) (s : State) : Host.Outcome State Fault Refusal :=
  runP c (.max c da db mv) mv (fun k =>
    let a := k.accReg da.val
    let b := k.accReg db.val
    Arith.mv k da (if accInt a < accInt b then b else a)) s

/-- MIN: the smaller of da and db. -/
def execMin (c : Nat) (da db : Fin 4) (mv : Moves) (s : State) : Host.Outcome State Fault Refusal :=
  runP c (.min c da db mv) mv (fun k =>
    let a := k.accReg da.val
    let b := k.accReg db.val
    Arith.mv k da (if accInt b < accInt a then b else a)) s

/-- CMP: flags from the exact difference da − db. -/
def execCmp (c : Nat) (da db : Fin 4) (mv : Moves) (s : State) : Host.Outcome State Fault Refusal :=
  runP c (.cmp c da db mv) mv (fun k => Arith.none k (cmpFlags (k.accReg da.val) (k.accReg db.val))) s

/-- CMPX: flags from da minus an aligned word. -/
def execCmpx (c : Nat) (da s1 : Fin 4) (mv : Moves) (s : State) : Host.Outcome State Fault Refusal :=
  runP c (.cmpx c da s1 mv) mv (fun k => Arith.none k (cmpFlags (k.accReg da.val) (alignWord (k.vReg s1.val)))) s

/-- TST: flags from da. -/
def execTst (c : Nat) (da : Fin 4) (mv : Moves) (s : State) : Host.Outcome State Fault Refusal :=
  runP c (.tst c da mv) mv (fun k => Arith.none k (mvFlags (k.accReg da.val))) s

/-! ### Rounding, scaling, normalisation and division -/

/-- RND: rounds da at bit 24 under RM and clears AL. -/
def execRnd (c : Nat) (da : Fin 4) (mv : Moves) (s : State) : Host.Outcome State Fault Refusal :=
  runP c (.rnd c da mv) mv (fun k => Arith.one k da (arFlags (rndExact k.rm (accInt (k.accReg da.val))) false)) s

/-- SCALEI: shifts da by an immediate. -/
def execScalei (c : Nat) (da : Fin 4) (k : BitVec 8) (mv : Moves) (s : State) : Host.Outcome State Fault Refusal :=
  runP c (.scalei c da k mv) mv (fun r =>
    Arith.one r da (arFlags (scaleExact r.rm (accInt (r.accReg da.val)) k.toInt) false)) s

/-- SCALER: shifts da by a data register. -/
def execScaler (c : Nat) (da s1 : Fin 4) (mv : Moves) (s : State) : Host.Outcome State Fault Refusal :=
  runP c (.scaler c da s1 mv) mv (fun k =>
    Arith.one k da (arFlags (scaleExact k.rm (accInt (k.accReg da.val)) (k.vReg s1.val).toInt) false)) s

/-- NORM: normalises da and writes the exponent to s2. -/
def execNorm (c : Nat) (da s2 : Fin 4) (mv : Moves) (s : State) : Host.Outcome State Fault Refusal :=
  runP c (.norm c da s2 mv) mv (fun k =>
    let r := normalise k.rm (k.accReg da.val)
    { Arith.mv k da r.1 with data := [(s2.val, BitVec.ofInt 24 r.2)] }) s

/-- DIVS: one non-restoring division step; only C, N and Z change. -/
def execDivs (c : Nat) (da s1 : Fin 4) (mv : Moves) (s : State) : Host.Outcome State Fault Refusal :=
  runP c (.divs c da s1 mv) mv (fun k =>
    let r := divStep (k.accReg da.val) (k.vReg s1.val)
    { accs := [(da.val, r.1)], sr := srDiv k.sr r.1 r.2, bx := k.bx }) s

/-- BEXP: BX into a data register, and BX := 23 before the stores of the same instruction (R258). -/
def execBexp (c : Nat) (s2 : Fin 4) (mv : Moves) (s : State) : Host.Outcome State Fault Refusal :=
  runP c (.bexp c s2 mv) mv (fun k =>
    { data := [(s2.val, BitVec.ofNat 24 k.bx)], sr := k.sr, bx := 23, flags := false }) s

/-! ### Logic -/

/-- da with its bits [47:24] combined with a word. -/
def Arith.logic (k : CoreSt) (da s1 : Fin 4) (f : Word24 → Word24 → Word24) : Arith :=
  let a := k.accReg da.val
  Arith.mv k da (a.extractLsb' 48 8 ++ (f (a.extractLsb' 24 24) (k.vReg s1.val) ++ a.extractLsb' 0 24))

/-- ANDX. -/
def execAndx (c : Nat) (da s1 : Fin 4) (mv : Moves) (s : State) : Host.Outcome State Fault Refusal :=
  runP c (.andx c da s1 mv) mv (fun k => Arith.logic k da s1 (· &&& ·)) s

/-- ORX. -/
def execOrx (c : Nat) (da s1 : Fin 4) (mv : Moves) (s : State) : Host.Outcome State Fault Refusal :=
  runP c (.orx c da s1 mv) mv (fun k => Arith.logic k da s1 (· ||| ·)) s

/-- XORX. -/
def execXorx (c : Nat) (da s1 : Fin 4) (mv : Moves) (s : State) : Host.Outcome State Fault Refusal :=
  runP c (.xorx c da s1 mv) mv (fun k => Arith.logic k da s1 (· ^^^ ·)) s

end Sys2Proof.Machine
end

