-- ==== Sys2Proof/Machine/AnvilFlow.lean ====
section
/-! DEFINITION. The Anvil instructions of formats I (R259 to R263), B (R264 to R270) and Remote (R271, R272), with the
events of the sequencer: a wake from EVWAIT, a completed release, an undefined instruction, the meter's limit, a core's
overrun. -/

namespace Sys2Proof.Machine

/-- Nothing that a hazard could meet. -/
def noNeeds : Hazard := Hazard.reset

/-! ### Format I -/

/-- The accumulator a source names, for the stall of R228. -/
def sourceNeeds (r : Nat) : Hazard :=
  { regs := [], accs := (match accOfCode r with | some a => [a] | none => []), flags := false }

/-- A move of a word into a register: the word comes from `f`. -/
def runMove (c : Nat) (i : Instr) (dst : BitVec 6) (needs : Hazard) (f : AEnv → CoreSt → Except Nat (Word24 × Bool))
    (reads : AEnv → List Nat) (s : State) : Host.Outcome State Fault Refusal :=
  .next (runInstr c i needs (fun e k =>
    match f e k with
    | .error x => .error x
    | .ok (w, sat) =>
      let k := k.take dst.toNat w
      .ok { k := { k with sr := srSetSov k.sr sat }, reads := reads e, wrote := wroteReg dst.toNat }) s)

/-- LDI: dst := imm. -/
def execLdi (c : Nat) (dst : BitVec 6) (imm : Word24) (s : State) : Host.Outcome State Fault Refusal :=
  runMove c (.ldi c dst imm) dst noNeeds (fun _ _ => .ok (imm, false)) (fun _ => []) s

/-- MOVE: dst := src; between whole accumulators all 56 bits (R261). (DEDUCED, entry 22) -/
def execMove (c : Nat) (dst src : BitVec 6) (s : State) : Host.Outcome State Fault Refusal :=
  if 4 ≤ src.toNat ∧ src.toNat < 8 ∧ 4 ≤ dst.toNat ∧ dst.toNat < 8 then
    .next (runInstr c (.move c dst src) (sourceNeeds src.toNat) (fun _ k =>
      .ok { k := k.setAcc (dst.toNat - 4) (k.accReg (src.toNat - 4)), wrote := wroteReg dst.toNat }) s)
  else
    runMove c (.move c dst src) dst (sourceNeeds src.toNat) (fun _ k => .ok (k.source src.toNat)) (fun _ => []) s

/-- MOVC: dst := a control register; an unlisted one is a module fault (R242). (DESIGN CHOICE, entry 20) -/
def execMovc (c : Nat) (dst : BitVec 6) (cr : BitVec 8) (s : State) : Host.Outcome State Fault Refusal :=
  .next (runInstr c (.movc c dst cr) noNeeds (fun e k =>
    match e.control k cr.toNat with
    | none => .error fControl
    | some v =>
      .ok { k := k.take dst.toNat (BitVec.ofNat 24 v), wrote := wroteReg dst.toNat
            after := fun t => if cr = 0x30 then { t with free := t.free + 1 } else t }) s)

/-- A load from an absolute address. -/
def loadAbs (y : Bool) (addr : BitVec 15) (e : AEnv) (k : CoreSt) : Except Nat (Word24 × Bool) :=
  match e.check y false addr.toNat with
  | .error f => .error f
  | .ok _ => .ok (e.load k y addr.toNat, false)

/-- LDX: dst := X[addr]. -/
def execLdx (c : Nat) (dst : BitVec 6) (addr : BitVec 15) (s : State) : Host.Outcome State Fault Refusal :=
  runMove c (.ldx c dst addr) dst noNeeds (loadAbs false addr) (fun e => [e.window false addr.toNat]) s

/-- LDY: dst := Y[addr]. -/
def execLdy (c : Nat) (dst : BitVec 6) (addr : BitVec 15) (s : State) : Host.Outcome State Fault Refusal :=
  runMove c (.ldy c dst addr) dst noNeeds (loadAbs true addr) (fun e => [e.window true addr.toNat]) s

/-- A store to an absolute address: a data register or a whole accumulator updates BX; a field is raw (R262). -/
def storeAbs (y : Bool) (src : BitVec 6) (addr : BitVec 15) (e : AEnv) (k : CoreSt) : Except Nat Ran :=
  match e.check y true addr.toNat with
  | .error f => .error f
  | .ok _ =>
    let (w, sat) := k.source src.toNat
    let k := e.storeWord k y addr.toNat w
    .ok { k := { k with
            sr := srSetSov k.sr sat
            bx := if src.toNat < 8 then Nat.min k.bx (wordHeadroom w) else k.bx }
          writes := [e.window y addr.toNat] }

/-- STX: X[addr] := src. -/
def execStx (c : Nat) (src : BitVec 6) (addr : BitVec 15) (s : State) : Host.Outcome State Fault Refusal :=
  .next (runInstr c (.stx c src addr) (sourceNeeds src.toNat) (storeAbs false src addr) s)

/-- STY: Y[addr] := src. -/
def execSty (c : Nat) (src : BitVec 6) (addr : BitVec 15) (s : State) : Host.Outcome State Fault Refusal :=
  .next (runInstr c (.sty c src addr) (sourceNeeds src.toNat) (storeAbs true src addr) s)

/-- LEA: a pointer moved by a signed offset under its buffer-control word. (DEDUCED, entry 22) -/
def execLea (c : Nat) (p : Fin 8) (off : BitVec 16) (s : State) : Host.Outcome State Fault Refusal :=
  .next (runInstr c (.lea c p off) { regs := [20 + p.val, 36 + p.val], accs := [], flags := false } (fun _ k =>
    .ok { k := k.setP p.val (movePointer (k.kReg p.val) (k.pReg p.val) off.toInt), wrote := wroteReg (20 + p.val) }) s)

/-- ADDI: da := da + imm, aligned, with the flags of group ar. -/
def execAddi (c : Nat) (da : Fin 4) (imm : Word24) (s : State) : Host.Outcome State Fault Refusal :=
  .next (runInstr c (.addi c da imm) noNeeds (fun _ k =>
    let a := k.accReg da.val
    let r := arFlags (accInt a + wordInt imm) (carryOf a (wordInt imm))
    .ok { k := { k.setAcc da.val r.1 with sr := srFlags k.sr r.2 }
          wrote := { regs := [], accs := [da.val], flags := true } }) s)

/-- CMPI: flags from da minus an aligned immediate. -/
def execCmpi (c : Nat) (da : Fin 4) (imm : Word24) (s : State) : Host.Outcome State Fault Refusal :=
  .next (runInstr c (.cmpi c da imm) noNeeds (fun _ k =>
    .ok { k := { k with sr := srFlags k.sr (cmpFlags (k.accReg da.val) (alignWord imm)) }
          wrote := { regs := [], accs := [], flags := true } }) s)

/-! ### Format B -/

/-- A condition other than "always" tests the flags (R228, R266). -/
def condNeeds (cond : Fin 15) : Hazard := { regs := [], accs := [], flags := decide (cond.val ≠ 0) }

/-- BRA: a branch, taken where the condition holds. -/
def execBra (c : Nat) (cond : Fin 15) (target : BitVec 14) (s : State) : Host.Outcome State Fault Refusal :=
  .next (runInstr c (.bra c cond target) (condNeeds cond) (fun _ k =>
    if condHolds k.sr cond then .ok { k := k, next := some target.toNat, cost := 2, cause := 8 } else .ok { k := k }) s)

/-- CALL: pushes the return address and branches (R267). -/
def execCall (c : Nat) (cond : Fin 15) (target : BitVec 14) (s : State) : Host.Outcome State Fault Refusal :=
  .next (runInstr c (.call c cond target) (condNeeds cond) (fun _ k =>
    if condHolds k.sr cond then
      if 4 ≤ k.stack.length then .error fStack
      else .ok { k := { k with stack := .ret (pcAfter k.pc) :: k.stack }, next := some target.toNat, cost := 2, cause := 8 }
    else .ok { k := k }) s)

/-- RET: pops the return entry and branches to it. -/
def execRet (c : Nat) (cond : Fin 15) (s : State) : Host.Outcome State Fault Refusal :=
  .next (runInstr c (.ret c cond) (condNeeds cond) (fun _ k =>
    if condHolds k.sr cond then
      match k.stack with
      | .ret a :: rest => .ok { k := { k with stack := rest }, next := some a, cost := 2, cause := 8 }
      | _ => .error fStack
    else .ok { k := k }) s)

/-- A hardware loop of `n` turns to `target`; a count of 0 skips the body (R229, R269). -/
def loopBody (target n : Nat) (k : CoreSt) : Except Nat Ran :=
  if n = 0 then .ok { k := k, next := some (pcAfter target), cost := 2 }
  else if 4 ≤ k.stack.length then .error fStack
  else .ok { k := { k with stack := .loop (pcAfter k.pc) target n :: k.stack }, cost := 2 }

/-- LOOP: count from the instruction. -/
def execLoop (c : Nat) (target : BitVec 14) (count : BitVec 16) (s : State) : Host.Outcome State Fault Refusal :=
  .next (runInstr c (.loop c target count) noNeeds (fun _ k => loopBody target.toNat count.toNat k) s)

/-- The low 16 bits of a register (R265): of a whole accumulator they are those of its 56 bits (R210). -/
def CoreSt.low16 (k : CoreSt) (r : Nat) : Nat :=
  if 4 ≤ r ∧ r < 8 then (k.accReg (r - 4)).toNat % 65536 else (k.source r).1.toNat % 65536

/-- LOOPR: count from the low 16 bits of a register. -/
def execLoopr (c : Nat) (target : BitVec 14) (reg : BitVec 6) (s : State) : Host.Outcome State Fault Refusal :=
  .next (runInstr c (.loopr c target reg) noNeeds (fun _ k =>
    loopBody target.toNat (k.low16 reg.toNat) k) s)

/-- LOOPN: the configured block size as count. -/
def execLoopn (c : Nat) (target : BitVec 14) (s : State) : Host.Outcome State Fault Refusal :=
  .next (runInstr c (.loopn c target) noNeeds (fun e k => loopBody target.toNat e.n k) s)

/-- BREAK: pops the innermost loop and continues in sequence. (DEDUCED, entry 22) -/
def execBreak (c : Nat) (s : State) : Host.Outcome State Fault Refusal :=
  .next (runInstr c (.breakOp c) noNeeds (fun _ k =>
    match k.stack with
    | .loop _ _ _ :: rest => .ok { k := { k with stack := rest }, next := some (pcAfter k.pc) }
    | _ => .error fStack) s)

/-- The line EVB + j of a module; none where j is not below its event count (R232). -/
def AEnv.line (e : AEnv) (j : Nat) : Option Nat :=
  if j < e.md.image.events then some (e.md.evb.getD 0 + j) else none

/-- EVWAIT: clears a latched line and continues; else the core stalls on it. -/
def execEvwait (c : Nat) (j : BitVec 8) (s : State) : Host.Outcome State Fault Refusal :=
  .next (runInstr c (.evwait c j) noNeeds (fun e k =>
    match e.line j.toNat with
    | none => .error fEvent
    | some l =>
      if Store.get false k.latch l then .ok { k := { k with latch := Store.set false k.latch l false } }
      else .ok { k := { k with stall := some l }, cost := 0, done := false, cause := 7 }) s)

/-- EVWAIT_WAKE (R232): the line on which a core stalls has been latched; EVWAIT clears it and completes after the
cycles waited. -/
def evwaitWake (c waited : Nat) (s : State) : State :=
  let k := s.core c
  match k.run, k.stall with
  | some m, some l =>
    (match s.mod? m with
     | none => s
     | some md =>
       let limit := s.limitOf md.image
       let t := Nat.max 1 waited
       if Store.get false k.latch l = false ∨ limit ≤ k.meter then s
       else if limit < k.meter + t then s.setCore c { k with meter := limit }
       else
         let s := s.setCore c { k with stall := none, latch := Store.set false k.latch l false, meter := k.meter + t }
         ((s.event (0x090 + c)).events (0x060 + c) (t - 1)).fetchBound c m md)
  | _, _ => s
/-- EVWAIT_WAKE (R232). -/
def execEvwaitWake (c waited : Nat) (s : State) : Host.Outcome State Fault Refusal := .next (evwaitWake c waited s)

/-- EVPULSE: pulses an event line of the module (R270). -/
def execEvpulse (c : Nat) (j : BitVec 8) (s : State) : Host.Outcome State Fault Refusal :=
  .next (runInstr c (.evpulse c j) noNeeds (fun e k =>
    match e.line j.toNat with
    | none => .error fEvent
    | some l => .ok { k := k, after := fun t => t.pulse l }) s)

/-- RELEASE: the stack is cleared; the block ends at once where no posted write waits, else when they have drained. -/
def execRelease (c : Nat) (s : State) : Host.Outcome State Fault Refusal :=
  .next (runInstr c (.release c) noNeeds (fun _ k =>
    if k.wbuf = [] then .ok { k := { k with stack := [] }, after := fun t => t.endModule c true }
    else .ok { k := { k with stack := [], draining := true }, done := false, cause := 9 }) s)

/-! ### Waiting at a bank (R279, R281 to R283) -/

/-- Who is held for one cycle where a remote access meets an access of the matrix side: at a bank with one port the loser of
the fixed priority, in which Tongs stands before the gateways and the network engine and the supervisor after them, the pair
engine too; at SB14 and SB15 only what meets an atomic operation on its word. (DESIGN CHOICE, entry 26) -/
inductive Held where
  | nobody
  | gateway
  | matrix
deriving DecidableEq, Repr

/-- Who is held where an access of core, `atomic` or not, meets `x` at a bank (R279, R281). (DESIGN CHOICE, entry 26) -/
def heldBy (bank : Nat) (atomic : Bool) : Option Clash → Held
  | none => .nobody
  | some x =>
    if bank < 14 then if x.master = 1 then .gateway else .matrix
    else if atomic then .matrix
    else if x.atomic then .gateway
    else .nobody

/-- Fabric cycles a remote access of core `c` waits: two for each core that the pointer `p` serves before it, one where the
matrix side goes first (R282, R283). -/
def gateWait (p c bank : Nat) (atomic : Bool) (g : Gate) : Nat :=
  2 * (g.others.filter fun o => decide ((o + 48 - p) % 48 < (c + 48 - p) % 48)).length +
    (if heldBy bank atomic g.clash = .gateway then 1 else 0)

/-- Core `c`'s accesses (address, whether atomic) are served at their banks one after another: the cycles they wait, and the
state with the pointers past the core and the held cycles counted (R281 to R283, R556). (DEDUCED, entry 21) -/
def State.gateServe (c : Nat) : List (Nat × Bool) → List Gate → State → Nat × State
  | [], _, s => (0, s)
  | (a, atomic) :: rest, gs, s =>
    let b := a / 0x40000
    let g := gs.headD ⟨[], none⟩
    let w := gateWait (Store.get 0 s.fab.gateRr b) c b atomic g
    let s := { s with fab := { s.fab with gateRr := Store.set 0 s.fab.gateRr b ((c + 1) % 48) } }
    let s := if heldBy b atomic g.clash = .nobody then s else (s.bump Attr.memConflictStalls b 0).event (0x050 + b)
    let r := State.gateServe c rest gs.tail s
    (w + r.1, r.2)

/-- The posted writes of a core as accesses. -/
def CoreSt.postedAccesses (k : CoreSt) : List (Nat × Bool) := k.wbuf.map fun w => (w.1, false)

/-- OUTPUT_RELEASED (R235): the posted writes of a releasing module have drained, one cycle and its wait for each, and its
block ends. (DEDUCED, entry 21) -/
def outputReleased (c : Nat) (gates : List Gate) (s : State) : State :=
  let k := s.core c
  match k.run with
  | none => s
  | some m =>
    match s.mod? m with
    | none => s
    | some md =>
      if ¬ k.draining ∨ s.limitOf md.image ≤ k.meter then s
      else
        let (w, s) := s.gateServe c k.postedAccesses gates
        let d := k.wbuf.length + w
        if s.limitOf md.image < k.meter + d then s.setCore c { k with meter := s.limitOf md.image }
        else
          let s := s.setCore c { k with meter := k.meter + d, draining := false }
          ((s.event (0x090 + c)).events (0x060 + c) d).endModule c true
/-- OUTPUT_RELEASED (R235). -/
def execOutputReleased (d : Drained) (s : State) : Host.Outcome State Fault Refusal :=
  .next (outputReleased d.core d.gates s)

/-! ### Remote format -/

/-- The byte address of a remote access (R230, R272). -/
def AEnv.remote (e : AEnv) (k : CoreSt) (rb : Fin 8) (ix : Bool) (xr : Fin 4) (off : BitVec 18) : Except Nat Nat :=
  match e.rb[rb.val]? with
  | none => .error fRemote
  | some (base, size) =>
    let x : Int := (off.toNat : Int) + (if ix then (k.vReg xr.val).toInt else 0)
    if x < 0 ∨ x % 4 ≠ 0 ∨ (size : Int) ≤ x then .error fRemote else .ok (base + x.toNat)

/-- A 32-bit word as an accumulator: bits [55:24], AL clear (R230). -/
def remoteAcc (w : Nat) : Word56 := BitVec.ofNat 32 w ++ (0 : BitVec 24)

/-- What a remote access that returns the old word does: a read, or an atomic operation whose new word `f` gives from the
old word and the operand, with whether it was limited (R280). Posted writes of the core complete before it (R231).
(DEDUCED, entry 21) -/
def remoteBody (c : Nat) (gates : List Gate) (rb : Fin 8) (acc : Fin 4) (ix : Bool) (xr : Fin 4) (off : BitVec 18)
    (f : Option (BitVec 32 → BitVec 32 → BitVec 32 × Bool)) (s : State) (e : AEnv) (k : CoreSt) : Except Nat Ran :=
  match e.remote k rb ix xr off with
  | .error x => .error x
  | .ok a =>
    let old := (s.drain c).word32 a
    let accs := k.postedAccesses ++ [(a, f.isSome)]
    let wait := (s.gateServe c accs gates).1
    let (v, sat) := remoteWord k.rm (k.accReg acc.val)
    let k := k.setAcc acc.val (remoteAcc old)
    .ok { k := { k with sr := srSetSov k.sr (sat && f.isSome) }
          cost := 16 + wait, stalls := 16 + wait, cause := 4
          wrote := { regs := [], accs := [acc.val], flags := false }
          bank := fun t =>
            let t := ((t.drain c).gateServe c accs gates).2.eccTouches [wordOf a]
            match f with
            | none => t
            | some g =>
              let r := g (BitVec.ofNat 32 old) v
              let t := if r.2 then t.bump Attr.memAtomicSat (a / 0x40000) 0 else t
              (t.eccClear (wordOf a)).writeBytes a (leBytes 4 r.1.toNat) }

/-- Runs a remote access that returns the old word. -/
def runRemote (c : Nat) (gates : List Gate) (i : Instr) (rb : Fin 8) (acc : Fin 4) (ix : Bool) (xr : Fin 4)
    (off : BitVec 18) (f : Option (BitVec 32 → BitVec 32 → BitVec 32 × Bool)) (s : State) :
    Host.Outcome State Fault Refusal :=
  .next (runInstr c i { regs := [], accs := if f.isSome then [acc.val] else [], flags := false }
    (remoteBody c gates rb acc ix xr off f s) s)

/-- Remote read. -/
def execRemoteRead (c : Nat) (others : List (List Nat)) (clashes : List (Option Clash)) (rb : Fin 8) (acc : Fin 4) (ix : Bool)
    (xr : Fin 4) (off : BitVec 18) (s : State) : Host.Outcome State Fault Refusal :=
  runRemote c (gatesOf others clashes) (.remoteRead c [] [] rb acc ix xr off) rb acc ix xr off none s

/-- What a remote write does: posted to the buffer; a full one gives up its oldest write first, and only then stalls (R231). -/
def remoteWriteBody (c : Nat) (gates : List Gate) (rb : Fin 8) (acc : Fin 4) (ix : Bool) (xr : Fin 4) (off : BitVec 18)
    (s : State) (e : AEnv) (k : CoreSt) : Except Nat Ran :=
  match e.remote k rb ix xr off with
  | .error x => .error x
  | .ok a =>
    let (v, sat) := remoteWord k.rm (k.accReg acc.val)
    let full := decide (4 ≤ k.wbuf.length)
    let accs := if full then k.postedAccesses.take 1 else []
    let wait := if full then 1 + (s.gateServe c accs gates).1 else 0
    .ok { k := { k with sr := srSetSov k.sr sat }, cost := 1 + wait, stalls := wait, cause := if full then 5 else 0
          after := fun t =>
            let t := if full then ((t.drainOne c).gateServe c accs gates).2 else t
            let k := t.core c
            t.setCore c { k with wbuf := k.wbuf ++ [(a, v)] } }

/-- Remote write. -/
def execRemoteWrite (c : Nat) (others : List (List Nat)) (clashes : List (Option Clash)) (rb : Fin 8) (acc : Fin 4) (ix : Bool)
    (xr : Fin 4) (off : BitVec 18) (s : State) : Host.Outcome State Fault Refusal :=
  .next (runInstr c (.remoteWrite c [] [] rb acc ix xr off) { regs := [], accs := [acc.val], flags := false }
    (remoteWriteBody c (gatesOf others clashes) rb acc ix xr off s) s)

/-- Atomic add, wrapping (R280). -/
def execAtomicAddWrapping (c : Nat) (others : List (List Nat)) (clashes : List (Option Clash)) (rb : Fin 8) (acc : Fin 4) (ix : Bool)
    (xr : Fin 4) (off : BitVec 18) (s : State) : Host.Outcome State Fault Refusal :=
  runRemote c (gatesOf others clashes) (.atomicAddWrapping c [] [] rb acc ix xr off) rb acc ix xr off
    (some fun old v => (old + v, false)) s

/-- The signed sum of two words, limited to 32 bits (R280). -/
def satAdd (old v : BitVec 32) : BitVec 32 × Bool :=
  let x := old.toInt + v.toInt
  (BitVec.ofInt 32 (clampW32 x), decide (clampW32 x ≠ x))

/-- Atomic add, saturating; a limited sum is counted (R280). -/
def execAtomicAddSaturating (c : Nat) (others : List (List Nat)) (clashes : List (Option Clash)) (rb : Fin 8) (acc : Fin 4) (ix : Bool)
    (xr : Fin 4) (off : BitVec 18) (s : State) : Host.Outcome State Fault Refusal :=
  runRemote c (gatesOf others clashes) (.atomicAddSaturating c [] [] rb acc ix xr off) rb acc ix xr off (some satAdd) s

/-- Atomic swap (R280). -/
def execAtomicSwap (c : Nat) (others : List (List Nat)) (clashes : List (Option Clash)) (rb : Fin 8) (acc : Fin 4) (ix : Bool)
    (xr : Fin 4) (off : BitVec 18) (s : State) : Host.Outcome State Fault Refusal :=
  runRemote c (gatesOf others clashes) (.atomicSwap c [] [] rb acc ix xr off) rb acc ix xr off (some fun _ v => (v, false)) s

/-! ### Stops -/

/-- UNDEFINED_INSTRUCTION (R274): the word fetched decodes to nothing. (DEDUCED, entry 64) -/
def undefinedInstruction (c : Nat) (s : State) : State :=
  match s.runs c with
  | none => s
  | some (m, md) =>
    let k := s.core c
    let (w, wa) := s.fetchWord c md
    if (decodeAnvil c k.pc w).isSome then s
    else
      let s := s.eccTouches [wa]
      let (tagged, s) := s.tagFetch c
      let s := if tagged then s.tagRecord c m k.pc w md.blocks 1 0 true else s
      s.moduleFault c m fUndefined
/-- UNDEFINED_INSTRUCTION (R274). -/
def execUndefinedInstruction (c : Nat) (s : State) : Host.Outcome State Fault Refusal := .next (undefinedInstruction c s)

/-- METER_LIMIT (R234): the meter of the running module has reached its limit, or its wait outlasts it. -/
def meterLimit (c : Nat) (s : State) : State :=
  let k := s.core c
  match k.run with
  | none => s
  | some m =>
    match s.mod? m with
    | none => s
    | some md =>
      let limit := s.limitOf md.image
      if limit ≤ k.meter ∨ k.stall.isSome then
        ((s.setCore c { k with meter := Nat.max limit k.meter }).overran c m 1).endModule c false
      else s
/-- METER_LIMIT (R234). -/
def execMeterLimit (c : Nat) (s : State) : Host.Outcome State Fault Refusal := .next (meterLimit c s)

/-- The overruns of a core within the 64 blocks that end with the newest. -/
def recentOverruns (now : Nat) (l : List Nat) : Nat := (l.filter fun b => decide (now < b + 64)).length

/-- MODULE_OVERRUN (R32): a block of the core has overrun; it is counted, and the third within 64 blocks condemns the
core. -/
def moduleOverrun (c : Nat) (s : State) : State :=
  let k := s.core c
  if k.blockOver then
    let n := recentOverruns (k.overAt.headD 0) k.overAt
    let s := (s.bump Attr.coreOverruns c 0).set Attr.coreOverrunsRecent c 0 n
    s.setCore c { k with blockOver := false, condemned := k.condemned || decide (3 ≤ n) }
  else s
/-- MODULE_OVERRUN (R32). -/
def execModuleOverrun (c : Nat) (s : State) : Host.Outcome State Fault Refusal := .next (moduleOverrun c s)

end Sys2Proof.Machine
end

