-- ==== Sys2Proof/Machine/Directory.lean ====
section
/-! DEFINITION. The directory (R578, R579): the dictionary described to a host, and which elements of an attribute of
varying length there are (R437, R453, R563). -/

namespace Sys2Proof.Machine

/-- Code of an access (R575). -/
def Acc.code : Acc → Nat
  | .r => 1
  | .w => 2
  | .rw => 3
  | .rwc => 4
  | .x => 5

/-- Elements of an attribute as its descriptor gives them. -/
def Len.code (dst : Nat) : Len → Nat
  | .scalar => 0
  | .arr n => n
  | .perDst => dst
  | .dyn => 0xFFFFFFFF

/-- The last instance of a run in the present family and shape (R572). -/
def State.lastInst (s : State) : Bound → Nat
  | .fix n => n
  | .src => s.S - 1
  | .dst b => b + s.D - 1
  | .ins => s.ins - 1

/-- Inserts a row in the order of attribute and first instance. -/
def insertARow (r : ARow) : List ARow → List ARow
  | [] => [r]
  | x :: l => if r.attr < x.attr ∨ (r.attr = x.attr ∧ r.first < x.first) then r :: x :: l else x :: insertARow r l

/-- The rows of a class in the order of the directory. -/
def sortedRows (cls : Nat) : List ARow := (classRows cls).foldl (fun l r => insertARow r l) []

/-- A descriptor (R578). -/
def State.descriptor (s : State) (cls : Nat) (r : ARow) : List Byte :=
  [byteOf cls, byteOf r.attr] ++ leBytes 2 r.first ++ leBytes 2 (s.lastInst r.last) ++ [byteOf r.ty, byteOf r.acc.code] ++
    leBytes 4 (r.len.code s.D)

/-- The descriptors; the boot ROM has none (R577). -/
def State.directory (s : State) : List (List Byte) :=
  if s.pow.recovery then [] else classNumbers.flatMap fun c => (sortedRows c).map (s.descriptor c)

/-- directory_count. -/
def State.directoryCount (s : State) : Nat :=
  if s.pow.recovery then 0 else (classNumbers.map fun c => (classRows c).length).sum

/-- The sequence number of the oldest of entries held newest first, of which the newest has the number before `next`. -/
def oldestOf (next held : Nat) : Nat := (next + 2 ^ 32 - held) % 2 ^ 32

/-- The elements there are of an attribute of varying length: the first, and how many; none where every element may be
named. -/
def State.present (s : State) (code inst : Nat) : Option (Nat × Nat) :=
  if code = Attr.staLog then some (oldestOf s.yug.nextSeq s.yug.log.length, s.yug.log.length)
  else if code = Attr.cntRecords ∧ inst = 0x100 then some (oldestOf s.hlt.tagSeq s.hlt.tags.length, s.hlt.tags.length)
  else if code = Attr.idDirectory then some (0, 12 * s.directoryCount)
  else if code = Attr.modImage then some (0, (Store.get [] s.blobs (attrKey code inst 0)).length)
  else if code = Attr.modConst then
    some (0, match Store.find? s.anv.mods inst with
      | some (some m) => ((m.image.data.filter (·.kind == 0)).map (·.size)).sum
      | _ => 0)
  else none

/-- The first of `count` elements from `elem` that is not there, if one is not. -/
def State.absent (s : State) (code inst elem count : Nat) : Option Nat :=
  match s.present code inst with
  | none => none
  | some (first, n) =>
    let off := (elem + 2 ^ 32 - first) % 2 ^ 32
    if n ≤ off then some elem
    else if n - off < count then some ((first + n) % 2 ^ 32)
    else none

end Sys2Proof.Machine
end

