-- ==== Sys2Proof/Machine/Rows.lean ====
section
/-! DEFINITION. Which row of the table of operations a dictionary request performs: by its operation and address.
A write of an attribute without a row of its own is WRITE; a request that names no object is WRITE too, and its
checks refuse it. -/

namespace Sys2Proof.Machine

/-- The rows a request performs. -/
inductive Row where
  | go | clearCounts | gain | idleGain | occupant | strike | cancelStrike | copyLiveToIdle | clearIdle | fader
  | trim | polarity | cut | preampGain | cancelTimed | coef | sectionBypass | delayEnable | delay | compKey
  | insert | insertBypass | loudnessStart | loudnessStop | loudnessReset | silence | stripMap | defragment
  | reinstateCore | load | unload | inSrc | const | marchRun | clearWtr | modelReset | tbEnable | tbSource | restep
  | rate | timeBase | sapSetting | streamEnable | binding | read | readArray | ticketRead | write | openSession
  | closeSession | key | keyErase | nodeId | switchover | rejoin | forceActive | pairEnable | compact | format
  | adoptCard | save | stage | delete | enterLow | enterOff | wakeFromLow | restart | install | activate | confirm
  | runImage | clearConditions | control | clearMask | tagClear | issueChallenge | unlock | lock | tmuxSelect
deriving DecidableEq, Repr

/-- Written attributes with a row of their own: code, first and last instance, row. -/
def writeRows : List (Nat × Nat × Nat × Row) := [
  (Attr.nodeGain, 0, 65535, .gain), (Attr.nodeGainCdb, 0, 65535, .gain),
  (Attr.nodeIdleGain, 0, 65535, .idleGain), (Attr.nodeIdleGainCdb, 0, 65535, .idleGain),
  (Attr.slotOccupant, 0, 65535, .occupant), (Attr.insSource, 0, 65535, .occupant),
  (Attr.insFader, 0, 65535, .fader), (Attr.insFaderCdb, 0, 65535, .fader),
  (Attr.outsFader, 0, 65535, .fader), (Attr.outsFaderCdb, 0, 65535, .fader),
  (Attr.insTrim, 0, 65535, .trim), (Attr.insPolarity, 0, 65535, .polarity),
  (Attr.insCut, 0, 65535, .cut), (Attr.outsCut, 0, 65535, .cut), (Attr.insPreampGain, 0, 65535, .preampGain),
  (Attr.insCoef, 0, 65535, .coef), (Attr.outsCoef, 0, 65535, .coef),
  (Attr.insSectionBypass, 0, 65535, .sectionBypass), (Attr.outsSectionBypass, 0, 65535, .sectionBypass),
  (Attr.insDelayEnable, 0, 65535, .delayEnable), (Attr.outsDelayEnable, 0, 65535, .delayEnable),
  (Attr.insDelay, 0, 65535, .delay), (Attr.outsDelay, 0, 65535, .delay)] ++ [
  (Attr.insCompKey, 0, 65535, .compKey), (Attr.outsCompKey, 0, 65535, .compKey),
  (Attr.insInsert, 0, 65535, .insert), (Attr.insInsertBypass, 0, 65535, .insertBypass),
  (Attr.silTap, 0, 255, .silence), (Attr.silThreshold, 0, 255, .silence), (Attr.silHold, 0, 255, .silence),
  (Attr.plcInStripMap, 0, 0, .stripMap), (Attr.plcOutStripMap, 0, 0, .stripMap),
  (Attr.modInSrc, 0, 255, .inSrc), (Attr.modConst, 0, 255, .const),
  (Attr.tbEnable, 0, 7, .tbEnable), (Attr.tbSource, 0, 7, .tbSource), (Attr.tbRate, 0, 7, .rate),
  (Attr.mdTimeBase, 0, 15, .timeBase), (Attr.mdRate, 0, 15, .timeBase),
  (Attr.sapEnable, 0, 31, .sapSetting), (Attr.sapDomain, 0, 31, .sapSetting), (Attr.sapGroup, 0, 31, .sapSetting)] ++ [
  (Attr.rxEnable, 0, 511, .streamEnable), (Attr.rxPort, 0, 511, .streamEnable),
  (Attr.rxChannels, 0, 511, .streamEnable), (Attr.rxEncoding, 0, 511, .streamEnable),
  (Attr.rxPacketTime, 0, 511, .streamEnable), (Attr.rxDomain, 0, 511, .streamEnable),
  (Attr.txEnable, 0, 511, .streamEnable), (Attr.txPort, 0, 511, .streamEnable),
  (Attr.txChannels, 0, 511, .streamEnable), (Attr.txEncoding, 0, 511, .streamEnable),
  (Attr.txPacketTime, 0, 511, .streamEnable), (Attr.txDomain, 0, 511, .streamEnable),
  (Attr.weldBinding, 0, 2047, .binding), (Attr.weldContributors, 0, 2047, .binding),
  (Attr.yugNodeId, 0, 0, .nodeId), (Attr.yugUdpPort, 0, 0, .nodeId), (Attr.pairPairEnable, 0, 0, .pairEnable),
  (Attr.sesKey, 0, 7, .key), (Attr.cntControl, 0, 63, .control), (Attr.devTmuxSelect, 0, 0, .tmuxSelect)]

/-- Actions with a row of their own. -/
def execRows : List (Nat × Nat × Nat × Row) := [
  (Attr.engGo, 0, 0, .go), (Attr.cruStrike, 0, 0, .strike), (Attr.cruCancelStrike, 0, 0, .cancelStrike),
  (Attr.cruCopyLiveToIdle, 0, 0, .copyLiveToIdle), (Attr.cruClearIdle, 0, 0, .clearIdle),
  (Attr.belCancelTimed, 0, 0, .cancelTimed), (Attr.loudStart, 0, 63, .loudnessStart),
  (Attr.loudStop, 0, 63, .loudnessStop), (Attr.loudReset, 0, 63, .loudnessReset),
  (Attr.plcDefragment, 0, 0, .defragment), (Attr.plcReinstateCore, 0, 0, .reinstateCore),
  (Attr.modLoad, 0, 255, .load), (Attr.modUnload, 0, 255, .unload), (Attr.memRun, 0x100, 0x100, .marchRun),
  (Attr.refClearWtr, 0, 7, .clearWtr), (Attr.heaModelReset, 0, 0, .modelReset), (Attr.tbRestep, 0, 7, .restep),
  (Attr.sesOpenSession, 0xFFFF, 0xFFFF, .openSession), (Attr.sesCloseSession, 0xFFFF, 0xFFFF, .closeSession),
  (Attr.sesKeyErase, 0, 7, .keyErase), (Attr.pairSwitchover, 0, 0, .switchover), (Attr.pairRejoin, 0, 0, .rejoin),
  (Attr.pairForceActive, 0, 0, .forceActive)] ++ [
  (Attr.jrnCompact, 0, 0, .compact), (Attr.jrnFormat, 0, 0, .format), (Attr.jrnAdoptCard, 0, 0, .adoptCard),
  (Attr.scnSave, 0, 1023, .save), (Attr.scnStage, 0, 1023, .stage), (Attr.scnDelete, 0, 1023, .delete),
  (Attr.powRestart, 0, 0, .restart), (Attr.fwInstall, 0, 0, .install), (Attr.fwActivate, 0, 0, .activate),
  (Attr.fwConfirm, 0, 0, .confirm), (Attr.fwRunImage, 0, 0, .runImage),
  (Attr.diaClearConditions, 0, 0, .clearConditions), (Attr.cntClearMask, 0xFFFF, 0xFFFF, .clearMask),
  (Attr.cntTagClear, 0x100, 0x100, .tagClear), (Attr.devIssueChallenge, 0, 0, .issueChallenge),
  (Attr.devUnlock, 0, 0, .unlock), (Attr.devLock, 0, 0, .lock)]

/-- The clear actions (R452): code, instances, and the attributes each clears, with how many elements; the cleared
attributes lie on the same instance. -/
def clearRows : List (Nat × Nat × Nat × List Nat) := [
  (Attr.sesClearCounts, 0xFFFF, 0xFFFF, [Attr.sesAuthFailures]),
  (Attr.yugClearCounts, 0, 0, [Attr.yugRxFrames, Attr.yugBadFrames, Attr.yugOtherNode, Attr.yugDupRequests,
    Attr.yugQueueDrops, Attr.yugSpiOverruns]),
  (Attr.engClearCounts, 0, 0, [Attr.engPeakLoad, Attr.engDeadlineMisses]),
  (Attr.plcClearCounts, 0, 0, [Attr.plcMovesDone, Attr.plcRetirements]),
  (Attr.dstClearSat, 0, 2047, [Attr.dstSumSatCount]),
  (Attr.cruClearCounts, 0, 0, [Attr.cruStrikeCount, Attr.cruPlaneWriteRejects]),
  (Attr.belClearCounts, 0, 0, [Attr.belSlotsPeak, Attr.belQueuePeak, Attr.belRampFullCount, Attr.belZcTimeouts,
    Attr.belLateCount]),
  (Attr.insClearSat, 0, 2047, [Attr.insSatCount]),
  (Attr.outsClearSat, 0, 2047, [Attr.outsSatCount, Attr.outsConvSatCount]),
  (Attr.mtrClear, 0, 0x27FF, [Attr.mtrMaxPeak, Attr.mtrOvers, Attr.mtrMaxTruePeak])] ++ [
  (Attr.coreClearCounts, 0, 47, [Attr.coreOverruns, Attr.coreCyclesPeak, Attr.coreEvCoalesced,
    Attr.coreWindowRejects]),
  (Attr.modClearCounts, 0, 255, [Attr.modCyclesPeak, Attr.modOverruns, Attr.modPortSat, Attr.modLastOverrun,
    Attr.modLastFault]),
  (Attr.tngClearCounts, 0, 15, [Attr.tngDescriptors, Attr.tngBytes, Attr.tngPreemptions, Attr.tngDescErrors,
    Attr.tngOverlapRuns, Attr.tngReverseRuns, Attr.tngOvershootBursts, Attr.tngBudgetPauses, Attr.tngIdleTriggers,
    Attr.tngQueueDrops, Attr.tngLastError]),
  (Attr.tngClearCountsAll, 0xFFFF, 0xFFFF, [Attr.tngTongsResets]),
  (Attr.memClearCounts, 0, 15, [Attr.memConflictStalls, Attr.memAtomicSat]),
  (Attr.memClearCountsMarch, 0x100, 0x100, [Attr.memCe, Attr.memUe]),
  (Attr.memClearCountsDeep, 0x200, 0x200, [Attr.memCeDeep, Attr.memUeDeep]),
  (Attr.memClearCountsMatrix, 0x300, 0x300, [Attr.memDecodeErrors, Attr.memProtectRejects,
    Attr.memResetCompletions]),
  (Attr.refClearCounts, 0, 7, [Attr.refDisqualifications]),
  (Attr.heaClearCounts, 0, 0, [Attr.heaSwitches, Attr.heaLockLosses]),
  (Attr.tbClearCounts, 0, 7, [Attr.tbSteps, Attr.tbHolds]),
  (Attr.ptpClearCounts, 0x100, 0x103, [Attr.ptpBadMessages])] ++ [
  (Attr.sapClearCounts, 0, 31, [Attr.sapSlipsSlow, Attr.sapSlipsFast, Attr.sapUnderruns, Attr.sapOverruns,
    Attr.sapRateFaults, Attr.sapWsGlitches]),
  (Attr.sapClearCountsGroup, 0x100, 0x107, [Attr.sapSlipsSlowGroup, Attr.sapSlipsFastGroup]),
  (Attr.portClearCounts, 0, 3, [Attr.portRxFrames, Attr.portTxFrames, Attr.portRxErrors, Attr.portRxDiscards]),
  (Attr.rxClearCounts, 0, 511, [Attr.rxPackets, Attr.rxLegGaps, Attr.rxLateSamples, Attr.rxWindowErrors,
    Attr.rxHolds, Attr.rxLosses, Attr.rxSlipsSlow, Attr.rxSlipsFast, Attr.rxBadPackets]),
  (Attr.txClearCounts, 0, 511, [Attr.txPackets, Attr.txSlipsSlow, Attr.txSlipsFast, Attr.txUnderruns]),
  (Attr.weldClearCounts, 0xFFFF, 0xFFFF, [Attr.weldMissing, Attr.weldLate, Attr.weldMismatches,
    Attr.weldOverflow]),
  (Attr.pairClearCounts, 0, 0, [Attr.pairDigestPeak, Attr.pairMismatches, Attr.pairUnconfirmed,
    Attr.pairTakeovers, Attr.pairGiveUps, Attr.pairLeaseLapses, Attr.pairFrameErrors, Attr.pairMirrorLate]),
  (Attr.jrnClearCounts, 0, 0, [Attr.jrnCompactions, Attr.jrnTornRecords, Attr.jrnIoErrors, Attr.jrnLostRecords]),
  (Attr.monClearMax, 0, 7, [Attr.monMaxReading]),
  (Attr.vmClearMax, 0x10, 0x19, [Attr.vmMinReading, Attr.vmMaxReading]),
  (Attr.diaClearCounts, 0, 0, [Attr.diaCounts]), (Attr.cntClear, 0, 63, [Attr.cntValue])]

/-- The row listed for an attribute at an instance. -/
def findRow (l : List (Nat × Nat × Nat × Row)) (code inst : Nat) : Option Row :=
  (l.find? fun e => e.1 == code && decide (e.2.1 ≤ inst ∧ inst ≤ e.2.2.1)).map fun e => e.2.2.2

/-- The attributes a clear action clears. -/
def clearTargets (code inst : Nat) : Option (List Nat) :=
  (clearRows.find? fun e => e.1 == code && decide (e.2.1 ≤ inst ∧ inst ≤ e.2.2.1)).map fun e => e.2.2.2

/-- Class and attribute a request names. -/
def reqCode (q : Req) : Nat := q.cls * 256 + q.attr

/-- The row a request performs. (DEDUCED, entry 10) -/
def rowOf (q : Req) : Row :=
  if q.op = 1 then .read
  else if q.op = 3 then (if reqCode q = Attr.tktQuery ∧ q.inst = 0xFFFF then .ticketRead else .readArray)
  else if q.op = 2 ∨ q.op = 4 then (findRow writeRows (reqCode q) q.inst).getD .write
  else if q.op = 5 then
    if reqCode q = Attr.powEnter then
      (match leNat q.data with
       | 0 => .wakeFromLow
       | 3 => .enterOff
       | _ => .enterLow)
    else match findRow execRows (reqCode q) q.inst with
      | some r => r
      | none => if (clearTargets (reqCode q) q.inst).isSome then .clearCounts else .write
  else .write

end Sys2Proof.Machine
end

