-- ==== Sys2Proof/Machine/Frames.lean ====
section
/-! DEFINITION. Yugal frames as bytes (R435 to R438, R442, R443): parsing a request, building a reply. -/

namespace Sys2Proof.Machine

/-- The status word's high byte (R443): attention, fault, pair, journal, clock. -/
def State.status (s : State) : Nat :=
  let fault := b2n (s.n Attr.diaPresent 0 0 != 0)
  let role := s.role
  let pair := b2n (role == 3 || role == 4 || (role == 2 && s.n Attr.pairStandbyState 0 0 != 3))
  let journal := b2n (s.n Attr.jrnCardState 0 0 == 0 || s.n Attr.jrnJournalState 0 0 == 2)
  let clock := b2n (s.n Attr.heaState 0 0 != 2)
  let fault := if s.pow.broken then 1 else fault
  s.yug.attention * 16 + fault * 8 + pair * 4 + journal * 2 + clock

/-- What an operation answers: result OK or PENDING, the element and count fields, a continuation token, data. -/
structure Out where
  elem : Nat := 0
  count : Nat := 0
  token : Option (Nat × Nat) := none
  data : List Byte := []
  result : Nat := 0
deriving DecidableEq, Repr

/-- A refusal: its code, the failing element, and the attributes that it raises by one (instance 0). -/
structure Fail where
  code : Nat
  elem : Nat := 0
  counts : List Nat := []
deriving DecidableEq, Repr

/-- The answer of an operation. -/
abbrev Answer := Except Fail (State × Out)

/-- The reply frame (R442, R458): header, body, trailer of the session, CRC. -/
def replyFrame (s : State) (node : Nat) (q : Req) (result : Nat) (o : Out) (sess : Option Session) : List Byte :=
  let tok := match o.token with
    | some (e, n) => leBytes 4 e ++ leBytes 4 n
    | none => []
  let body := [byteOf result, byteOf s.status, byteOf q.op, byteOf (b2n o.token.isSome)] ++
    leBytes 4 (address (q.cls * 256 + q.attr) q.inst) ++ leBytes 4 o.elem ++ leBytes 4 o.count ++ tok ++ o.data
  let head (flags : Nat) := [byteOf 0x59, byteOf 0x47, byteOf 1, byteOf flags] ++ leBytes 2 q.src ++ leBytes 2 node ++
    leBytes 2 q.seq ++ leBytes 2 q.maxReply ++ leBytes 2 body.length ++ leBytes 2 q.session
  let b := match sess with
    | none => head 2 ++ body
    | some k =>
      let m := head 3 ++ body ++ leBytes 8 k.tx
      m ++ (hmac k.key m).take 16
  b ++ leBytes 4 (crc32 b)

/-- Bytes of a slice. -/
def slice (l : List Byte) (off n : Nat) : List Byte := (l.drop off).take n
/-- A little-endian field of bytes. -/
def fieldAt (l : List Byte) (off n : Nat) : Nat := leNat (slice l off n)

/-- The parts of a request body (R436). `formed` is false where the operation header, its reserved fields or the
modifier layout break R436. -/
structure Body where
  formed : Bool
  op : Nat
  cls : Nat
  inst : Nat
  attr : Nat
  elem : Nat
  count : Nat
  ramp : Option Nat
  shape : Option Nat
  when_ : Option WhenAt
  token : Option (Nat × Nat)
  data : List Byte
deriving DecidableEq, Repr

/-- Reads a request body. -/
def parseBody (b : List Byte) : Body :=
  let op := fieldAt b 0 1
  let mods := fieldAt b 1 1
  let addr := fieldAt b 4 4
  let o1 := 16
  let o2 := o1 + (if bit mods 0 then 4 else 0)
  let o3 := o2 + (if bit mods 1 then 4 else 0)
  let o4 := o3 + (if bit mods 2 then 12 else 0)
  let o5 := o4 + (if bit mods 3 then 8 else 0)
  let arr := op == 3 || op == 4
  { formed := decide (16 ≤ b.length) && decide (1 ≤ op ∧ op ≤ 5) && decide (mods < 16) && fieldAt b 2 2 == 0 &&
      decide (o5 ≤ b.length) && (arr || (fieldAt b 8 4 == 0 && fieldAt b 12 4 == 0)) &&
      (!bit mods 1 || fieldAt b (o2 + 1) 3 == 0) && (!bit mods 2 || fieldAt b (o3 + 1) 3 == 0)
    op := op, cls := addr / 2 ^ 24, inst := addr / 256 % 65536, attr := addr % 256
    elem := fieldAt b 8 4, count := fieldAt b 12 4
    ramp := if bit mods 0 then some (fieldAt b o1 4) else none
    shape := if bit mods 1 then some (fieldAt b o2 1) else none
    when_ := if bit mods 2 then some ⟨fieldAt b o3 1, fieldAt b (o3 + 4) 8⟩ else none
    token := if bit mods 3 then some (fieldAt b o4 4, fieldAt b (o4 + 4) 4) else none
    data := b.drop o5 }

/-- A request of its body and header fields. -/
def Body.req (b : Body) (via peer src dst seq maxReply session : Nat) (trailer : Option Trailer)
    (signed_ : List Byte) (formed : Bool) : Req :=
  { via := via, peer := peer, src := src, dst := dst, seq := seq, maxReply := maxReply, session := session,
    trailer := trailer, signed := signed_, formed := formed && b.formed, op := b.op, cls := b.cls, inst := b.inst,
    attr := b.attr, elem := b.elem, count := b.count, ramp := b.ramp, shape := b.shape, when_ := b.when_,
    token := b.token, data := b.data }

/-- The request body bytes of a request (R436): what a MIRROR record carries (R474). -/
def bodyBytes (q : Req) : List Byte :=
  let mods := b2n q.ramp.isSome + 2 * b2n q.shape.isSome + 4 * b2n q.when_.isSome + 8 * b2n q.token.isSome
  [byteOf q.op, byteOf mods, byteOf 0, byteOf 0] ++ leBytes 4 (address (q.cls * 256 + q.attr) q.inst) ++
    leBytes 4 q.elem ++ leBytes 4 q.count ++
    (match q.ramp with | some t => leBytes 4 t | none => []) ++
    (match q.shape with | some t => leBytes 4 t | none => []) ++
    (match q.when_ with | some w => leBytes 4 w.tb ++ leBytes 8 w.t | none => []) ++
    (match q.token with | some (e, n) => leBytes 4 e ++ leBytes 4 n | none => []) ++ q.data

/-- Reads a frame (R435, R438): none where R438 discards it without a reply. Bytes beyond the frame length are
ignored on SPI (R462). -/
def parseFrame (via peer : Nat) (l : List Byte) : Option Req :=
  let flags := fieldAt l 3 1
  let bodyLen := fieldAt l 12 2
  let len := 16 + bodyLen + 4 + (if bit flags 0 then 24 else 0)
  let f := if via = 0 then l.take len else l
  let src := fieldAt f 6 2
  let dst := fieldAt f 4 2
  let ctrOff := 16 + bodyLen
  if f.length ≠ len ∨ l.length < 20 then none
  else if fieldAt f 0 2 ≠ 0x4759 ∨ fieldAt f 2 1 ≠ 1 then none
  else if fieldAt f (len - 4) 4 ≠ crc32 (f.take (len - 4)) then none
  else if bit flags 1 then none
  else if src = 0 ∨ 2047 < src then none
  else if fieldAt f 10 2 < 68 then none
  else if (if via = 0 then 4096 else 1472) < len then none
  else
    let b := parseBody (slice f 16 bodyLen)
    let tr : Option Trailer := if bit flags 0 then some ⟨fieldAt f ctrOff 8, slice f (ctrOff + 8) 16⟩ else none
    some (b.req via peer src dst (fieldAt f 8 2) (fieldAt f 10 2) (fieldAt f 14 2) tr (f.take (ctrOff + 8))
      (decide (flags < 2) && decide (dst < 4096)))

/-! ### Values on the wire (R437) -/

/-- The bytes of a value of a type. -/
def encodeVal (ty : Nat) (v : Int) : List Byte := leBytes (tyBytes ty) (toBits (8 * tyBytes ty) v)

/-- The value of bytes of a type. -/
def decodeVal (ty : Nat) (b : List Byte) : Int :=
  if tySigned ty then signed (8 * tyBytes ty) (leNat b) else (leNat b : Int)

/-- The values of `n` packed elements. -/
def decodeVals (ty : Nat) : Nat → List Byte → List Int
  | 0, _ => []
  | n + 1, b => decodeVal ty (b.take (tyBytes ty)) :: decodeVals ty n (b.drop (tyBytes ty))

/-- Whether a value may be written: its type's own form (R437), then the attribute's range. -/
def Vals.ok (v : Vals) (ty : Nat) (x : Int) : Bool :=
  (ty != 8 || decide (-8388608 ≤ x ∧ x ≤ 8388607)) &&
  (match v with
   | .any => true
   | .rng lo hi => decide (lo ≤ x ∧ x ≤ hi)
   | .rngOr lo hi o => decide (lo ≤ x ∧ x ≤ hi) || x == o
   | .among l => l.contains x
   | .step lo hi b => decide (lo ≤ x ∧ x ≤ hi) && (x - lo) % b == 0)

/-- Index of the first value that may not be written. -/
def firstBad (v : Vals) (ty : Nat) : Nat → List Int → Option Nat
  | _, [] => none
  | k, x :: xs => if v.ok ty x then firstBad v ty (k + 1) xs else some k

end Sys2Proof.Machine
end

