-- ==== Sys2Proof/Machine/Serve.lean ====
section
/-! DEFINITION. Serving a request (R438 to R452, R457 to R460): taking it from the queue, authentication, the checks
in the order of R439, take-effect times (R121 to R130), the effect, and the reply. Each request row supplies its
own effect. -/

namespace Sys2Proof.Machine

/-- What an effect is told: the request, its table row, the values written, and how it takes effect. `due` is the due
sample of a timed change that applies now (R121); `sched` the due sample of a timed strike that is being accepted
(R69); `accepted` that it was accepted before, so that it steps where ramp slots lack (R108), with `id` its number;
`atOnce` that it applies with no ramp, search or admission, as in replay (R512); `mirrored` that it comes
over the Tether (R483). -/
structure Ctx where
  q : Req
  row : ARow
  code : Nat
  vals : List Int
  due : Option Nat := none
  sched : Option Nat := none
  accepted : Bool := false
  id : Option Nat := none
  atOnce : Bool := false
  mirrored : Bool := false
deriving DecidableEq, Repr

/-- The first value of a request: what a scalar is to hold, or an action's argument. -/
def Ctx.arg (c : Ctx) : Int := c.vals.headD 0

/-- An effect of a request on the state. -/
abbrev Effect := Ctx → State → Answer

/-! ### Arrival -/

/-- What becomes of a request a command names. -/
inductive Taken where
  | no
  | dropped (s : State)
  | got (s : State)
deriving DecidableEq, Repr

/-- Whether a port runs with its link up (R401). -/
def State.portUp (s : State) (p : Nat) : Bool := s.n Attr.portEnable p 0 == 1 && s.n Attr.portLink p 0 == 1

/-- Whether a transport carries Yugal (R433, R466): a port needs an IPv4 address; none does in OFF (R540). -/
def State.transportOn (s : State) (via : Nat) : Bool :=
  !s.pow.pwrOff && (via == 0 || (decide (via ≤ 4) && s.portUp (via - 1) && s.n Attr.portIpAddr (via - 1) 0 != 0 &&
    s.n Attr.yugEnable 0 (via - 1) == 1))

/-- A frame that reaches a transport that does not carry Yugal: a port discards it, unless it receives nothing (R400,
R401). -/
def State.noTransport (s : State) (via : Nat) : State :=
  if 1 ≤ via ∧ via ≤ 4 ∧ s.portUp (via - 1) then s.bump Attr.portRxDiscards (via - 1) 0 else s

/-- Counts a frame that arrives, and keeps it unless it is another node's (R434, R438); the ROM answers node 0 only
(R535). (DEDUCED, entry 51) -/
def State.arrive (s : State) (q : Req) : Taken :=
  if s.pow.pwrOff then .no
  else if ¬ s.transportOn q.via then .dropped (s.noTransport q.via)
  else
    let s := s.bump Attr.yugRxFrames 0 q.via
    if q.dst = 0 ∨ (q.dst = s.n Attr.yugNodeId 0 0 ∧ ¬ s.pow.recovery) then .got s else .dropped (s.bump Attr.yugOtherNode 0 q.via)

/-- Takes a request: from the head of the queue (R441), or as it arrives where the queue is empty.
(DEDUCED, entry 10) -/
def State.take (s : State) (q : Req) : Taken :=
  match s.yug.queue with
  | [] => s.arrive q
  | r :: rest => if r = q then .got { s with yug := { s.yug with queue := rest } } else .no

/-! ### Authentication (R456 to R460) -/

/-- What authentication finds: the request is a repeat of a kept one, fails, or passes with a session. -/
inductive Auth where
  | dup (bytes : List Byte)
  | fail
  | pass (sess : Option Session)
deriving DecidableEq, Repr

/-- open_session and ticket reads are always allowed (R460). -/
def authExempt (q : Req) : Bool :=
  (q.op == 5 && reqCode q == Attr.sesOpenSession) || (q.op == 3 && reqCode q == Attr.tktQuery)

/-- The kept reply of a request (R448). (DEDUCED, entry 51) -/
def State.keptOf (s : State) (q : Req) : Option Kept :=
  s.yug.kept.find? fun k => k.via == q.via && k.src == q.src && k.seq == q.seq

/-- Checks the trailer, then looks for a kept reply (R448, R458 to R460). The ROM performs no authentication (R535). -/
def State.auth (s : State) (q : Req) : Auth :=
  if s.pow.recovery then
    match s.keptOf q with
    | some k => .dup k.bytes
    | none => .pass none
  else
  let pol := s.n Attr.sesAuthPolicy 0xFFFF q.via
  match q.trailer with
  | none =>
    if (pol = 2 ∨ (pol = 1 ∧ (q.op = 2 ∨ q.op = 4 ∨ q.op = 5))) ∧ ¬ authExempt q then .fail
    else match s.keptOf q with
      | some k => .dup k.bytes
      | none => .pass none
  | some t =>
    match s.yug.sessions.find? (·.id == q.session) with
    | none => .fail
    | some k =>
      if (hmac k.key q.signed).take 16 ≠ t.tag then .fail
      else if k.rx.all (· < t.counter) then
        (match s.keptOf q with
         | some r => .dup r.bytes
         | none => .pass (some { k with rx := some t.counter }))
      else match s.keptOf q with
        | some r => if r.counter = some t.counter ∧ k.rx = some t.counter then .dup r.bytes else .fail
        | none => .fail

/-! ### The checks of R439 -/

/-- Elements of an attribute, or none for a scalar (R574); strings are scalars, byte objects and lists whose
length their own chapter gives are bounded here by the element's width. -/
def State.elems (s : State) (r : ARow) : Option Nat :=
  if r.ty = 11 then none
  else match r.len with
    | .scalar => none
    | .arr n => some n
    | .perDst => some s.D
    | .dyn => some 4294967296

/-- Whether an instance exists in the present family and shape (R572). -/
def State.instOk (s : State) (r : ARow) (inst : Nat) : Bool :=
  match r.last with
  | .fix n => decide (inst ≤ n)
  | .src => decide (inst < s.S)
  | .dst b => decide (inst < b + s.D)
  | .ins => decide (inst < s.ins)

/-- Attributes Bellows carries as Class R (R93): the ones a ramp modifier is allowed on. -/
def classR (code : Nat) : Bool :=
  [Attr.nodeGain, Attr.nodeGainCdb, Attr.insFader, Attr.insFaderCdb, Attr.outsFader, Attr.outsFaderCdb].contains code

/-- Idle-plane node attributes (R64). -/
def idleNode (code : Nat) : Bool := code == Attr.nodeIdleGain || code == Attr.nodeIdleGainCdb

/-- Whether a request may be served before bring-up ends (R538). -/
def earlyOk (q : Req) : Bool :=
  ((q.op == 1 || q.op == 3) && [0x01, 0x03, 0x7C, 0x04].contains q.cls) ||
  (q.op == 5 && (reqCode q == Attr.sesOpenSession || reqCode q == Attr.sesCloseSession))

/-- What the ROM serves in recovery (R535). -/
def recoveryOk (q : Req) : Bool :=
  (q.op == 1 && (q.cls == 1 || reqCode q == Attr.fwBootStatus || reqCode q == Attr.powLastResetCause)) ||
  (q.op == 4 && reqCode q == Attr.fwImage) || (q.op == 5 && reqCode q == Attr.fwRunImage)

/-- Whether a request writes or erases a key, or writes the policy, from where R456 and R460 bar it: neither on the SPI
host port nor within a session of key slot 0. -/
def State.keyBarred (s : State) (q : Req) : Bool :=
  let wr := q.op == 2 || q.op == 4
  let names := q.cls == 2 && (if q.inst = 0xFFFF then q.attr == 4 && wr else (q.attr == 1 && wr) || (q.attr == 3 && q.op == 5))
  names && q.via != 0 &&
    !(q.trailer.isSome && s.yug.sessions.any fun k => k.id == q.session && k.slot == 0)

/-- The first of `count` elements from `elem` that the attribute lacks (R439): elements of a fixed number, or for a read
those of an attribute of varying length. Every ticket word is an element (R450). -/
def State.lacks (s : State) (r : ARow) (code inst op elem count : Nat) : Option Nat :=
  match s.elems r with
  | none => none
  | some n =>
    if code = Attr.tktQuery ∧ inst = 0xFFFF then none
    else if n < elem + Nat.max count 1 then some (Nat.max elem n)
    else if op = 3 ∨ code = Attr.modConst then s.absent code inst elem (Nat.max count 1)
    else none

/-- The first element a request names, and how many: those of its token where it carries one (R447). -/
def reqElem (q : Req) : Nat := (q.token.map (·.1)).getD q.elem
/-- How many elements a request names. -/
def reqCount (q : Req) : Nat := (q.token.map (·.2)).getD q.count
/-- READ_ARRAY and WRITE_ARRAY. -/
def isArray (q : Req) : Bool := q.op == 3 || q.op == 4
/-- WRITE and WRITE_ARRAY. -/
def isWrite (q : Req) : Bool := q.op == 2 || q.op == 4

/-- Values that the data of a request hold: the argument's, the elements', the bytes' of a string, or one. -/
def valueCount (q : Req) (r : ARow) : Nat :=
  let fixed := match r.len with
    | .arr m => m
    | _ => 1
  if q.op = 5 then fixed else if isArray q then reqCount q else if r.ty = 11 then fixed else 1

/-- The values a request writes or passes. -/
def reqVals (q : Req) (r : ARow) : List Int :=
  if (isWrite q ∨ q.op = 5) ∧ r.ty ≠ 11 ∧ r.ty ≠ 12 then decodeVals r.ty (valueCount q r) q.data else []

/-- A refusal with a code, where a condition holds. -/
def failIf (cond : Bool) (code : Nat) : Option Fail := if cond then some ⟨code, 0, []⟩ else none

/-- NO_OBJECT: the instance or an element does not exist. -/
def State.addressBad (s : State) (q : Req) (r : ARow) : Option Fail :=
  if ¬ s.instOk r q.inst then some ⟨rNoObject, 0, []⟩
  else if isArray q ∧ q.token.isNone then
    (s.lacks r (reqCode q) q.inst q.op (reqElem q) (reqCount q)).map fun e => ⟨rNoObject, e % 2 ^ 32, []⟩
  else none

/-- ACCESS: the attribute does not allow the operation. -/
def State.accessBad (s : State) (q : Req) (r : ARow) : Option Fail :=
  failIf ((match r.acc with
    | .r => decide (q.op ≠ 1 ∧ q.op ≠ 3)
    | .w => !isWrite q
    | .x => q.op != 5
    | _ => q.op == 5) || s.keyBarred q) rAccess

/-- TYPE: scalar and array operations, modifiers where none is allowed, data of another length.
(DEDUCED, entry 60) -/
def State.typeBad (s : State) (q : Req) (r : ARow) : Option Fail :=
  let code := reqCode q
  failIf ((q.op != 5 && isArray q != (s.elems r).isSome) ||
    ((q.ramp.isSome || q.shape.isSome) && !(isWrite q && classR code)) ||
    (q.when_.isSome && !(isWrite q || (q.op == 5 && code == Attr.cruStrike))) ||
    (q.token.isSome && q.op != 3) ||
    q.data.length != (if isWrite q ∨ q.op = 5 then valueCount q r * tyBytes r.ty else 0)) rType

/-- RANGE: no element, a token past the end, a modifier or a value outside its range. -/
def State.rangeBad (s : State) (q : Req) (r : ARow) : Option Fail :=
  (failIf ((isArray q && reqCount q == 0) ||
    (q.token.isSome && (s.lacks r (reqCode q) q.inst q.op (reqElem q) (reqCount q)).isSome) ||
    q.ramp.any (10000000 < ·) || q.shape.any (2 < ·) || q.when_.any (7 < ·.tb)) rRange).or
  ((if isWrite q then firstBad r.vals r.ty (reqElem q) (reqVals q r) else none).map fun e =>
    ⟨rRange, if isArray q then e else 0, []⟩)

/-- Checks 2 to 6 of R439: form, address and elements, access, types and modifiers, values. -/
def State.checks (s : State) (q : Req) : Except Fail Ctx :=
  if ¬ q.formed ∨ q.op = 0 ∨ 5 < q.op then .error ⟨rType, 0, []⟩
  else match rowAt (reqCode q) q.inst with
  | none => .error ⟨rNoObject, 0, []⟩
  | some r =>
    match (s.addressBad q r).or ((s.accessBad q r).or ((s.typeBad q r).or (s.rangeBad q r))) with
    | some f => .error f
    | none => .ok { q := q, row := r, code := reqCode q, vals := reqVals q r }

/-- The records of a committed write (R508, R509). -/
def Ctx.recs (c : Ctx) : List Rec :=
  let q := c.q
  if q.op = 2 then [writeRec c.code q.inst 0 1 q.data]
  else writeRecs c.code q.inst (tyBytes c.row.ty) (q.count + 1) q.elem q.count q.data

/-- The engine-state and resource checks every operation shares: recovery (R535), bring-up (R538), RWC outside CONFIG
(R34, R130), idle-plane times (R67), replicated writes on a STANDBY (R483), the journal (R518). -/
def State.shared (s : State) (c : Ctx) : Option Nat :=
  let wr := c.q.op == 2 || c.q.op == 4
  if s.pow.recovery ∧ ¬ recoveryOk c.q then some rState
  else if wr ∧ c.row.acc = .rwc ∧ (s.engState ≠ 0 ∨ c.q.when_.isSome) then some rState
  else if wr ∧ idleNode c.code ∧ c.q.when_.isSome then some rState
  else if (wr ∨ c.q.op = 5) ∧ s.role = 2 ∧ ¬ c.mirrored ∧ replicated c.code c.row.acc then some rState
  else if s.n Attr.powBringUpStep 0 0 ≠ 6 ∧ ¬ s.pow.recovery ∧ ¬ s.pow.broken ∧ ¬ earlyOk c.q then some rBusy
  else if wr ∧ journalled c.code c.row.acc ∧ ¬ c.mirrored ∧ s.billetRefuses (groupSize c.recs) then some rNoBillet
  else none

/-! ### Commit -/

/-- Actions whose effect the journal records when they are accepted (R508); the others of its table record elsewhere. -/
def journalledAction (code : Nat) : Bool :=
  [Attr.cruCopyLiveToIdle, Attr.cruClearIdle, Attr.scnStage, Attr.scnDelete, Attr.heaModelReset].contains code

/-- Whether the boot parameter block holds an attribute (R537). -/
def bootParam (code inst : Nat) (acc : Acc) : Bool :=
  (acc == .rw || acc == .rwc || acc == .w) &&
    ([0x50, 0x51, 0x52, 0x53, 0x60, 0x68].contains (code / 256) ||
      (code == Attr.memStartupMarch && inst == 256) || code == Attr.powSyncWait)

/-- The boot parameters that differ from their defaults. -/
def State.bootValues (s : State) : List (Nat × Int) :=
  s.attrs.filter fun e => match rowAt (keyCode e.1) (keyInst e.1) with
    | some r => bootParam (keyCode e.1) (keyInst e.1) r.acc
    | none => false

/-- The generation of a copy of the boot parameter block, 0 where its CRC fails. -/
def paramGen (x : Option ParamBlock) : Nat :=
  match x with
  | some b => b.gen
  | none => 0

/-- Rewrites the copy of the boot parameter block with the lower generation (R537). (DEDUCED, entry 58) -/
def State.writeParams (s : State) : State :=
  let g0 := paramGen (s.pow.params.getD 0 none)
  let g1 := paramGen (s.pow.params.getD 1 none)
  let b : Option ParamBlock := some ⟨Nat.max g0 g1 + 1, s.bootValues⟩
  { s with pow := { s.pow with params := if g0 ≤ g1 then [b, s.pow.params.getD 1 none] else [s.pow.params.getD 0 none, b] } }

/-- Journals a committed write or action (R508). -/
def State.journal (s : State) (c : Ctx) : State :=
  let q := c.q
  let s := if bootParam c.code q.inst c.row.acc ∧ q.op ≠ 5 ∧ ¬ c.atOnce then s.writeParams else s
  if c.atOnce then s
  else if q.op = 5 then (if journalledAction c.code then s.commit [actionRec c.code q.inst q.data] else s)
  else if journalled c.code c.row.acc then s.commit c.recs
  else s

/-- Mirrors an accepted write or action to the STANDBY (R482). -/
def State.mirrorWrite (s : State) (c : Ctx) : State :=
  if s.mirroring ∧ ¬ c.mirrored ∧ ¬ c.atOnce ∧ replicated c.code c.row.acc then s.mirror (bodyBytes c.q) else s

/-! ### Take-effect times -/

/-- Whether the tick runs (R33). -/
def State.ticking (s : State) : Bool := s.eng.running

/-- A time on a time base as a time on MD0's (R122): both counters as latched at the tick. -/
def State.onMd0 (s : State) (w : WhenAt) : Int :=
  if w.tb = s.md0Tb then (w.t : Int)
  else (w.t : Int) - (s.tbAtTick w.tb : Int) + (s.tbAtTick s.md0Tb : Int)

/-- The due sample of a take-effect time (R121). -/
def State.dueOf (s : State) (w : WhenAt) : Nat := firstAt s.eng.cfg.fs (s.onMd0 w).toNat

/-- Parameters of the out-strips and insert backs act one frame behind (R21, R99). -/
def State.lag (s : State) (code inst : Nat) : Nat :=
  if code / 256 = 0x31 then 1
  else if (code = Attr.insFader ∨ code = Attr.insFaderCdb ∨ code = Attr.insCut ∨ code = Attr.insInsertBypass) ∧
    s.a Attr.insInsert inst 0 ≠ 0 then 1
  else 0

/-- First sample that an untimed write committed in this period reaches (R99). (DEDUCED, entry 57) -/
def State.reach (s : State) (code inst : Nat) : Nat := s.eng.count - s.lag code inst * s.eng.cfg.n

/-- The sample that stands now, with the tick stopped (R114). -/
def State.countNow (s : State) : Nat := countAt s.eng.cfg.fs s.mdTime

/-- The place of a change in the order of acceptance (R112, R137): timed changes are numbered, and an untimed one stands
before the timed change accepted next. -/
def State.order (s : State) (c : Ctx) : Nat :=
  match c.id with
  | some k => 2 * k + 1
  | none => 2 * s.bel.nextId

/-- Files a timed change (R124 to R126): in the hardware where it falls due within 2 s and a place is free. -/
def State.file (s : State) (q : Req) (due : Nat) : State :=
  let held := (s.bel.timed.filter (·.inHardware)).length
  let near := decide (due * 1000000000 < (s.mdTime + 2000000000) * s.eng.cfg.fs)
  let t : Timed := ⟨s.bel.nextId, q, due, near && decide (held < 2048), (q.when_.map fun w => (s.onMd0 w).toNat).getD 0⟩
  let s := { s with bel := { s.bel with timed := s.bel.timed ++ [t], nextId := s.bel.nextId + 1 } }
  let s := s.set Attr.belTimedPending 0 0 s.bel.timed.length
  match q.when_ with
  | some w =>
    if s.role = 1 ∨ s.role = 2 then
      { s with lck := { s.lck with timed := s.lck.timed ++ [(address (reqCode q) q.inst, q.elem, w.tb, w.t, q.count)] } }
    else s
  | none => s

/-- Attributes in Class Z (R93). -/
def classZ (code : Nat) : Bool :=
  [Attr.insTrim, Attr.insPolarity, Attr.insCut, Attr.outsCut, Attr.insPreampGain].contains code

/-- The elements that a write of a parameter in neither class names, by key (R93). -/
def Ctx.keys (c : Ctx) : List Nat :=
  if c.q.op = 5 ∨ classR c.code ∨ classZ c.code ∨ c.code = Attr.slotOccupant ∨ c.code = Attr.insSource then []
  else (List.range (Nat.max 1 c.vals.length)).map fun i => attrKey c.code c.q.inst ((if c.q.op = 4 then c.q.elem else 0) + i)

/-- Whether a change accepted later than `c` has written an element in the running period (R137). -/
def State.overtaken (s : State) (c : Ctx) (k : Nat) : Bool :=
  s.bel.stored.any fun e => e.1 == k && decide (s.order c < e.2)

/-- Notes what a write of neither class has written in the running period (R137). -/
def State.noteStored (s : State) (c : Ctx) : State :=
  if ¬ s.eng.running ∨ c.atOnce then s
  else
    let k := c.keys.filter fun x => !s.overtaken c x
    { s with bel := { s.bel with stored := k.map (fun x => (x, s.order c)) ++ s.bel.stored.filter fun e => !k.contains e.1 } }

/-- The place of a result code in the order of checks (R439). -/
def checkRank (code : Nat) : Nat :=
  if code = rType then 5 else if code = rRange then 6 else if code = rState then 7
  else if code = rNoObject then 3 else if code = rAccess then 4 else 8

/-- The refusal of the check that comes first (R439): `f`, or what an effect answers. -/
def sooner (f : Fail) (r : Answer) : Fail :=
  match r with
  | .error g => if checkRank g.code < checkRank f.code then g else f
  | .ok _ => f

/-- Performs an effect now and commits it. -/
def performNow (eff : Effect) (c : Ctx) (s : State) : Answer :=
  match eff c s with
  | .error f => .error f
  | .ok (t, o) => .ok (((t.noteStored c).journal c).mirrorWrite c, o)

/-- Performs a request's effect: now, or at its take-effect time (R121, R125 to R127, R114). A timed change is tried
on the present state, so that what its effect refuses is refused at acceptance; only the lack of ramp slots is left
to its due sample (R108). -/
def perform (eff : Effect) (c : Ctx) (s : State) : Answer :=
  match c.q.when_ with
  | none => performNow eff c s
  | some w =>
    if s.tbNow w.tb + 86400000000000 < w.t then .error ⟨rRange, 0, []⟩
    else if s.n Attr.tbState w.tb 0 = 0 then .error (sooner ⟨rState, 0, []⟩ (eff { c with due := some 0, accepted := true } s))
    else
      let due := s.dueOf w
      let late := s.ticking ∧ due < s.reach c.code c.q.inst
      if ¬ s.ticking ∧ due ≤ s.countNow then performNow eff c s
      else if late then
        if s.n Attr.belLatePolicy 0 0 = 1 then
          .error (sooner ⟨rState, 0, [Attr.belLateCount]⟩ (eff { c with due := some due, accepted := true } s))
        else match performNow eff c (s.bump Attr.belLateCount 0 0) with
          | .ok (t, o) => .ok (t.note 9 (address c.code c.q.inst) c.q.elem s.eng.count, o)
          | .error f => .error f
      else if 8192 ≤ s.bel.timed.length then
        .error (sooner ⟨rBusy, 0, []⟩ (eff { c with due := some due, accepted := true } s))
      else if c.q.op = 5 then
        match eff { c with sched := some due } s with
        | .ok (t, o) => .ok ((t.file c.q due).mirrorWrite c, o)
        | .error f => .error f
      else match eff { c with due := some due, accepted := true } s with
        | .ok _ => .ok ((s.file c.q due).mirrorWrite c, {})
        | .error f => if f.code = rRampFull then .ok ((s.file c.q due).mirrorWrite c, {}) else .error f

/-- The refusal of a request that a shared check refuses with `e`: what its own checks refuse earlier comes first (R439). The
write that no longer fits the RAM journal leaves it at NO_BILLET (R518). -/
def State.sharedFail (s : State) (eff : Effect) (c : Ctx) (e : Nat) : Fail :=
  let fills := e = rNoBillet ∧ s.n Attr.jrnJournalState 0 0 = 1
  if s.pow.recovery then ⟨e, 0, []⟩
  else sooner ⟨e, 0, if fills then [Attr.jrnJournalState] else []⟩ (perform eff c s)

/-- Checks and performs a request (R439). -/
def State.operate (s : State) (eff : Effect) (q : Req) : Answer :=
  match s.checks q with
  | .error f => .error f
  | .ok c =>
    match s.shared c with
    | some e => .error (s.sharedFail eff c e)
    | none => perform eff c s

/-! ### The reply -/

/-- The largest reply (R446). -/
def replyLimit (q : Req) : Nat := min q.maxReply (if q.via = 0 then 4096 else 1472)

/-- Raises by one what a refusal names. -/
def State.bumps (s : State) : List Nat → State
  | [] => s
  | c :: cs => (s.bump c 0 0).bumps cs

/-- Delivers a reply on its transport (R433, R462). -/
def State.deliver (s : State) (q : Req) (bytes : List Byte) : State :=
  if q.via = 0 then
    { s with yug := { s.yug with spiReply := bytes, spiReady := true, spiBusy := false } }
  else { s with yug := { s.yug with udpOut := some (q.via, q.peer, bytes) } }

/-- Keeps a reply (R448). (DEDUCED, entry 51) -/
def State.keep (s : State) (q : Req) (bytes : List Byte) : State :=
  { s with yug := { s.yug with
      kept := (⟨q.via, q.src, q.seq, q.trailer.map (·.counter), bytes⟩ :: s.yug.kept).take 64 } }

/-- Replaces a session, or closes nothing where there is none. -/
def State.putSession (s : State) (k : Option Session) : State :=
  match k with
  | none => s
  | some k => { s with yug := { s.yug with sessions := s.yug.sessions.map fun x => if x.id = k.id then k else x } }

/-- Answers a request that authentication passed. -/
def State.answer (s : State) (eff : Effect) (q : Req) (sess : Option Session) : State :=
  let node := s.n Attr.yugNodeId 0 0
  let sess := sess.map fun k => { k with tx := k.tx + 1 }
  let s := (s.putSession sess).event 0x0F1
  match s.operate eff q with
  | .ok (t, o) =>
    let b := replyFrame t node q o.result o sess
    (t.deliver q b).keep q b
  | .error f =>
    let t := s.bumps f.counts
    let b := replyFrame t node q f.code { elem := f.elem } sess
    (t.deliver q b).keep q b

/-- Serves a request of row `row` with that row's effect. A request that is not at the head of the queue, or is of
another row, is no such event and changes nothing. (DEDUCED, entry 10) -/
def serve (row : Row) (eff : Effect) (q : Req) (s : State) : State :=
  if rowOf q ≠ row then s
  else match s.take q with
  | .no => s
  | .dropped t => t
  | .got t =>
    match t.auth q with
    | .dup b => (t.bump Attr.yugDupRequests 0 0).deliver q b
    | .fail =>
      let t := t.bump Attr.sesAuthFailures 0xFFFF 0
      let b := replyFrame t (t.n Attr.yugNodeId 0 0) q rAuth {} none
      (t.deliver q b).keep q b
    | .pass k => t.answer eff q k

/-- An effect that succeeds with no data. -/
def ok (s : State) : Answer := .ok (s, {})
/-- An effect that is refused. -/
def refuse (code : Nat) : Answer := .error ⟨code, 0, []⟩
/-- An effect that answers a ticket (R449). -/
def okTicket (s : State) (slot : Nat) : Answer :=
  .ok (s, { result := rPending, data := leBytes 4 (s.n Attr.tktTicket slot 0) })

/-- Writes the values of a request as they stand. -/
def State.store (s : State) (c : Ctx) : State :=
  s.setList c.code c.q.inst (if c.q.op = 4 then c.q.elem else 0) c.vals

end Sys2Proof.Machine
end

