-- ==== Sys2Proof/Machine/Placement.lean ====
section
/-! DEFINITION. The placement manager's operations (R184 to R206): placing regions, binding an admitted topology,
making a move plan and its order, and finishing plans. -/

namespace Sys2Proof.Machine

/-! ### Regions (R184, R185) -/

/-- The placement pool begins above the supervisor's 256 MiB (R185). -/
def poolBase : Nat := deepBase + 268435456
/-- End of the placement pool. -/
def poolEnd : Nat := deepBase + usableBytes

/-- How many aligned places a free run has for `size` bytes. -/
def placesIn (al size : Nat) (g : Nat × Nat) : Nat :=
  let b := ceilDiv g.1 al * al
  if b + size ≤ g.1 + g.2 then (g.1 + g.2 - b - size) / al + 1 else 0

/-- The `i`-th aligned place of the free runs. -/
def nthPlace (al size : Nat) : List (Nat × Nat) → Nat → Option Nat
  | [], _ => none
  | g :: gs, i =>
    let n := placesIn al size g
    if i < n then some (ceilDiv g.1 al * al + i * al) else nthPlace al size gs (i - n)

/-- A base of the manager's choice for `size` bytes in `lo`…`hi` (R184, R185 leave it open); `k` the use of the
free value. (DESIGN CHOICE, entry 6) (DESIGN CHOICE, entry 30) -/
def choosePlace (k lo hi al size : Nat) (occ : List (Nat × Nat)) : Option Nat :=
  let gs := gaps hi lo (occ.foldl (fun l r => insertRun r l) [])
  let n := (gs.map (placesIn al size)).sum
  if n = 0 then none else nthPlace al size gs (Config.regionChoice k n % n)

/-- Runs that regions occupy, old and new while they move. -/
def runsOf (l : List Region) : List (Nat × Nat) :=
  l.flatMap fun r => (r.base :: r.moving).map fun b => (b, r.size)

/-- Free bytes of a scratch bank. -/
def bankFree (l : List Region) (b : Nat) : Nat :=
  262144 - (((runsOf l).filter fun r => r.1 / 262144 == b).map (·.2)).sum

/-- The eligible banks of a region in the order in which they are tried as groups (R184). -/
def bankGroups (dual : Bool) : List (List Nat) :=
  let hi := [14, 15]
  if dual then [hi] else [(List.range 13).map (· + 1), hi]

/-- The bank with the most free bytes among those that can hold `size`, ties to the lowest; withheld ones have no
room. -/
def bestBank (l : List Region) (withheld : List Nat) (size : Nat) : List Nat → Option Nat → Option Nat
  | [], best => best
  | b :: bs, best =>
    let occ := (runsOf l).filter fun r => r.1 / 262144 == b
    let gs := gaps ((b + 1) * 262144) (b * 262144) (occ.foldl (fun a r => insertRun r a) [])
    let fits := !withheld.contains b && gs.any fun g => decide (0 < placesIn 64 size g)
    let better := match best with
      | none => true
      | some c => decide (bankFree l c < bankFree l b)
    bestBank l withheld size bs (if fits && better then some b else best)

/-- Places a scratch-bank region (R184). -/
def placeBank (k : Nat) (l : List Region) (withheld : List Nat) (dual : Bool) (size : Nat) : Option Nat :=
  match (bankGroups dual).findSome? fun g => bestBank l withheld size g none with
  | none => none
  | some b =>
    choosePlace k (b * 262144) ((b + 1) * 262144) 64 size ((runsOf l).filter fun r => r.1 / 262144 == b)

/-- Bytes of an alignment delay line at a rate (R185). -/
def lineBytes (fs : Nat) : Nat := 4096 * ceilDiv (8 * fs) 4096

/-- The delay lines that a store of attributes asks for (R141, R180), as owners with size. -/
def State.linesIn (s : State) (m : Store Int) : List (Owner × Nat × Option Bool) :=
  let line := lineBytes s.fs
  let ins := (mapStrips m Attr.plcInStripMap).filter fun i => i < numIns s.fam ∧ attrIn m Attr.insDelayEnable i 0 = 1
  let outs := (mapStrips m Attr.plcOutStripMap).filter fun i => i < s.D ∧ attrIn m Attr.outsDelayEnable i 0 = 1
  ins.map (fun i => (.inLine i, line, none)) ++ outs.map fun i => (.outLine i, line, none)

/-- The regions a state's declarations need, with size and, for a bank region, whether it is dual-port. -/
def State.owners (s : State) : List (Owner × Nat × Option Bool) :=
  s.linesIn s.attrs ++ s.modules.flatMap fun e =>
    e.2.image.banks.mapIdx (fun i b => (Owner.rb e.1 i, b.2, some b.1)) ++
    e.2.image.deeps.mapIdx (fun i n => (Owner.db e.1 i, n, none))

/-- The owners that keep their regions: the declared ones, and while the tick runs the lines of the attributes in force and of
the two snapshots in work, which a change leaves when its frame has been evaluated (R21, R143, R188). -/
def State.keepers (s : State) : List Owner :=
  let l := if s.ticking then s.linesIn s.inForce ++ s.linesIn s.snap ++ s.linesIn s.snapPrev else []
  (s.owners ++ l).map (·.1)

/-- Whether a region lies in deep memory. -/
def Region.isDeep (r : Region) : Bool := decide (deepBase ≤ r.base)

/-- Places the regions that are wanted and stand nowhere. A deep-memory region that only space awaiting zero-fill
could hold is BUSY; one that nothing can hold is ADMISSION (R185, R186). -/
def placeRegions (withheld : List Nat) (zeroing : List (Nat × Nat)) :
    List (Owner × Nat × Option Bool) → Nat → List Region → Except Nat (Nat × List Region)
  | [], k, l => .ok (k, l)
  | (o, size, bank) :: rest, k, l =>
    if l.any (·.owner == o) then placeRegions withheld zeroing rest k l
    else match bank with
      | some dual =>
        (match placeBank k l withheld dual size with
         | some b => placeRegions withheld zeroing rest (k + 1) (l ++ [⟨o, b, size, []⟩])
         | none => .error rAdmission)
      | none =>
        let occ := (runsOf l).filter fun r => deepBase ≤ r.1
        match choosePlace k poolBase poolEnd 4096 size (occ ++ zeroing) with
        | some b => placeRegions withheld zeroing rest (k + 1) (l ++ [⟨o, b, size, []⟩])
        | none => .error (if (choosePlace k poolBase poolEnd 4096 size occ).isSome then rBusy else rAdmission)

/-- Clears the bytes of a run: what an unlisted address of memory reads as is zero (R287, R295). -/
def clearRun (m : Store Byte) (b n : Nat) : Store Byte := Store.keep (fun a => decide (a < b ∨ b + n ≤ a)) m

/-- Zero-fills a run of memory: every word of it is zero with a good code (R185, R284). -/
def State.zeroRun (s : State) (b n : Nat) : State :=
  { s with fab := { s.fab with
      mem := clearRun s.fab.mem b n
      upset := Store.keep (fun a => decide (a < b ∨ b + n ≤ a)) s.fab.upset
      wback := s.fab.wback.filter fun a => decide (a < b ∨ b + n ≤ a) } }

/-- Copies a run of memory: what stands at `b` stands at `to_` as well. -/
def copyBytes (m : Store Byte) (b n to_ : Nat) : Store Byte :=
  (m.filter fun e => decide (b ≤ e.1 ∧ e.1 < b + n)).foldl (fun m e => Store.put m (to_ + (e.1 - b)) e.2) (clearRun m to_ n)

/-- Copies a run through the read path, which corrects and counts what it meets (R285, R286). -/
def State.copyRun (s : State) (b n to_ : Nat) : State :=
  let s := s.eccTouches ((s.fab.upset.map (·.1)).filter fun a => decide (b ≤ a ∧ a < b + n))
  let s := s.zeroRun to_ n
  { s with fab := { s.fab with mem := copyBytes s.fab.mem b n to_ } }

/-- A run that a region has left: a bank's is zero at once, one in deep memory awaits its background zero-fill (R185). -/
def State.freeRun (s : State) (b n : Nat) : State :=
  if deepBase ≤ b then { s with plc := { s.plc with zeroing := s.plc.zeroing ++ [(b, n)] } } else s.zeroRun b n

/-- Writes the free-space attributes (R206); deep_free is reckoned where it is read. -/
def State.spaceAttrs (s : State) : State :=
  let l := s.plc.regions
  let s := s.setList Attr.plcBankFree 0 0 ((List.range 16).map fun b =>
    (((if s.plc.withheld.contains b then 0 else bankFree l b) : Nat) : Int))
  let z : Nat := (s.plc.zeroing.map (·.2)).sum
  s.set Attr.plcDeepZeroing 0 0 ((z : Nat) : Int)

/-- Frees the regions of owners no longer wanted, with the places they were to move to (R185). -/
def State.freeRegions (s : State) : State :=
  let want := s.keepers
  let gone := s.plc.regions.filter fun r => !want.contains r.owner
  if gone = [] then s
  else
    let s := (runsOf gone).foldl (fun (s : State) r => s.freeRun r.1 r.2)
      { s with plc := { s.plc with regions := s.plc.regions.filter fun r => want.contains r.owner } }
    s.spaceAttrs

/-- Places what is wanted. -/
def State.addRegions (s : State) : Except Nat State :=
  let want := s.owners.filter fun o => !s.plc.regions.any (·.owner == o.1)
  if want = [] then .ok s
  else match placeRegions s.plc.withheld s.plc.zeroing want s.free s.plc.regions with
  | .error e => .error e
  | .ok (k, l) => .ok ({ s with free := k, plc := { s.plc with regions := l } }).spaceAttrs

/-! ### Binding -/

/-- Replaces an attribute that lists a binding by element. -/
def State.setBinding (s : State) (code : Nat) (m : Store Nat) : State :=
  (s.listed code).foldl (fun s e => if (Store.find? m e.2.1).isSome then s else s.set code 0 e.2.1 255)
    (m.foldl (fun s e => s.set code 0 e.1 (e.2 : Int)) s)

/-- Reports the loads of a placement, an item in flight on both its places, and the modules each core holds (R198, R206, R249,
R37). -/
def State.loadAttrs (s : State) (t : Topo) (p : Place) : State :=
  let mv := s.headMove
  let held := t.coresOf p s.retired
  let q := s.onSpares p
  let lanes := (t.lanesWith q mv).map fun l => ((centiPercent (l.charge * t.n) t.pc : Nat) : Int)
  let loads := (t.coresWith q s.retired mv).map fun c => ((centiPercent c.cycles t.pc : Nat) : Int)
  let s := ((s.setList Attr.plcLaneLoad 0 0 lanes).setList Attr.plcCoreLoad 0 0 loads).setList
    Attr.engAdmittedLoad 0 0 (t.loads q mv)
  let s := s.set Attr.plcSpareNow 0 0 (emptyCores (t.coresOf q s.retired) : Int)
  (held.mapIdx fun i c => (i, c.mods)).foldl (fun s e => s.set Attr.coreModuleCount e.1 0 (e.2 : Int)) s

/-- The strips whose contexts a snapshot in work still runs: one that is no longer declared leaves at the tick (R21, R180). -/
def State.runs? (s : State) (code i : Nat) : Bool := s.ticking && inMap s.snap code i

/-- Binds a placement: the lane and core attributes, with a cleared context for every strip newly placed (R180), and
the memories of the modules. -/
def State.bind (s : State) (p : Place) : State :=
  let old := s.place
  let s := ((s.setBinding Attr.plcInStripLane p.ins).setBinding Attr.plcOutStripLane p.outs).setBinding
    Attr.plcModuleCore p.mods
  let stays (a b : Store Nat) (i : Nat) : Bool := (Store.find? a i).isSome && (Store.find? b i).isSome
  let s := { s with tmp := { s.tmp with
    inCtx := Store.keep (fun i => stays old.ins p.ins i || s.runs? Attr.plcInStripMap i) s.tmp.inCtx
    outCtx := Store.keep (fun i => stays old.outs p.outs i || s.runs? Attr.plcOutStripMap i) s.tmp.outCtx } }
  (s.reseat old.mods).loadAttrs s.topo p

/-- The contexts of the strips that have left with the snapshot now in force are dropped (R180). -/
def State.dropContexts (s : State) : State :=
  { s with tmp := { s.tmp with
      inCtx := Store.keep (fun i => inMap s.snap Attr.plcInStripMap i) s.tmp.inCtx
      outCtx := Store.keep (fun i => inMap s.snap Attr.plcOutStripMap i) s.tmp.outCtx } }

/-! ### The fresh placing of regions (R184 to R186) -/

/-- Where a region stands once its moves are made. -/
def Region.final (r : Region) : Nat := r.moving.getLast?.getD r.base

/-- The runs of the regions once their moves are made. -/
def finalRuns (l : List Region) : List (Nat × Nat) := l.map fun r => (r.final, r.size)

/-- The bank regions of a fresh packing, one after another over empty banks; none where one finds no bank (R184, R186). -/
def freshBanks (withheld : List Nat) :
    List (Owner × Nat × Option Bool) → Nat → List Region → Option (Nat × List Region)
  | [], k, l => some (k, l)
  | (o, size, some dual) :: rest, k, l =>
    (match placeBank k l withheld dual size with
     | some b => freshBanks withheld rest (k + 1) (l ++ [⟨o, b, size, []⟩])
     | none => none)
  | _ :: rest, k, l => freshBanks withheld rest k l

/-- A place for `size` bytes in a bank, free of the runs `occ`. -/
def placeIn (k b size : Nat) (occ : List (Nat × Nat)) : Option Nat :=
  choosePlace k (b * 262144) ((b + 1) * 262144) 64 size (occ.filter fun r => r.1 / 262144 == b)

/-- Places the regions that stand nowhere at their place in the fresh packing, beside all that stands and moves (R189). -/
def placeFresh (fresh : List Region) (zeroing : List (Nat × Nat)) :
    List (Owner × Nat × Option Bool) → Nat → List Region → Except Nat (Nat × List Region)
  | [], k, l => .ok (k, l)
  | (o, size, bank) :: rest, k, l =>
    if l.any (·.owner == o) then placeFresh fresh zeroing rest k l
    else
      let occ := runsOf l
      let at_ : Except Nat Nat := match bank with
        | some _ =>
          (match (fresh.find? (·.owner == o)).bind fun f => placeIn k (f.base / 262144) size occ with
           | some b => .ok b
           | none => .error rAdmission)
        | none =>
          let deep := occ.filter fun r => deepBase ≤ r.1
          match choosePlace k poolBase poolEnd 4096 size (deep ++ zeroing) with
          | some b => .ok b
          | none => .error (if (choosePlace k poolBase poolEnd 4096 size deep).isSome then rBusy else rAdmission)
      match at_ with
      | .ok b => placeFresh fresh zeroing rest (k + 1) (l ++ [⟨o, b, size, []⟩])
      | .error e => .error e

/-- The regions with a further move of one of them. -/
def moveTo (o : Owner) (d : Nat) (l : List Region) : List Region :=
  l.map fun r => if r.owner = o then { r with moving := r.moving ++ [d] } else r

/-- The moves that take bank regions to the banks `todo` names, in an order in which each finds room when it is made; none
where there is no such order. (DESIGN CHOICE, entry 30) -/
def bankMoves : Nat → List (Owner × Nat) → Nat → List Region → List PMove → Option (Nat × List Region × List PMove)
  | _, [], k, l, acc => some (k, l, acc)
  | 0, _ :: _, _, _, _ => none
  | f + 1, todo, k, l, acc =>
    match todo.findSome? fun e => ((l.find? fun (r : Region) => r.owner == e.1).bind fun r =>
        placeIn k e.2 r.size (finalRuns l)).map fun d => (e.1, d) with
    | none => none
    | some (o, d) => bankMoves f (todo.filter (·.1 != o)) (k + 1) (moveTo o d l) (acc ++ [.region o d])

/-- The moves of regions of deep memory in a fresh packing: a base there is the manager's choice, and so is whether it changes
(R185). (DESIGN CHOICE, entry 30) -/
def deepMoves (zeroing : List (Nat × Nat)) : List Owner → Nat → List Region → List PMove → Nat × List Region × List PMove
  | [], k, l, acc => (k, l, acc)
  | o :: rest, k, l, acc =>
    if Config.regionChoice k 2 % 2 = 0 then deepMoves zeroing rest (k + 1) l acc
    else
      let size := ((l.find? fun (r : Region) => r.owner == o).map fun r => r.size).getD 0
      match choosePlace (k + 1) poolBase poolEnd 4096 size (((runsOf l).filter fun r => deepBase ≤ r.1) ++ zeroing) with
      | none => deepMoves zeroing rest (k + 2) l acc
      | some d => deepMoves zeroing rest (k + 2) (moveTo o d l) (acc ++ [.region o d])

/-- The regions of a fresh packing of what `s` declares: those that stand nowhere placed, and the moves that take the others
to where it has them (R184 to R186). (DESIGN CHOICE, entry 30) -/
def State.freshRegions (s : State) : Except Nat (State × List PMove) :=
  let own := s.owners
  match freshBanks s.plc.withheld own s.free [] with
  | none => .error rAdmission
  | some (k, fresh) =>
    let old := s.plc.regions
    match placeFresh fresh s.plc.zeroing own k old with
    | .error e => .error e
    | .ok (k, l) =>
      let todo := fresh.filterMap fun f => match old.find? fun (r : Region) => r.owner == f.owner with
        | some r => if r.final / 262144 = f.base / 262144 then none else some (f.owner, f.base / 262144)
        | none => none
      let deep := (own.filter fun e => e.2.2.isNone && old.any (·.owner == e.1)).map (·.1)
      match bankMoves todo.length todo k l [] with
      | none => .error rAdmission
      | some (k, l, ms) =>
        let (k, l, more) := deepMoves s.plc.zeroing deep k l []
        .ok ({ s with free := k, plc := { s.plc with regions := l } }.spaceAttrs, ms ++ more)

/-! ### The two ways of R187 -/

/-- How an admitted topology is placed, with its regions: incrementally, or by moves to the fresh packing; or why it is
refused. -/
inductive Admit where
  | no (code : Nat)
  | inc (p : Place) (t : State)
  | plan (p : Place) (regions : List PMove) (t : State)
deriving DecidableEq, Repr

/-- By the fresh packing (R187), where migration_policy allows moves. -/
def State.admitsFresh (s : State) (t : Topo) : Admit :=
  if t.policy ≠ 0 then .no rAdmission
  else match t.fresh s.retired with
    | none => .no rAdmission
    | some q => match s.freshRegions with
      | .error e => .no e
      | .ok (u, ms) => .plan q ms u

/-- The tests of R27 with the reference packing, then the two ways of R187. Whether a move order exists is tested
where the plan is made (R189). -/
def State.admits (s : State) : Admit :=
  let t := s.topo
  if ¬ t.totals then .no rAdmission
  else match t.reference with
  | none => .no rAdmission
  | some ref =>
    if ¬ t.chain ref none then .no rAdmission
    else match t.incremental s.futurePlace s.retired s.movingItem with
      | some p =>
        if t.chain p none then
          (match s.addRegions with
           | .ok u => .inc p u
           | .error e => if e = rBusy then .no rBusy else s.admitsFresh t)
        else s.admitsFresh t
      | none => s.admitsFresh t

/-! ### Move plans (R187 to R190) -/

/-- The union of the running and the new topology (R189): an in-strip that carries an insert in either is charged
with it. -/
def Topo.union (a b : Topo) : Topo :=
  let fronts := b.fronts ++ a.fronts.filter (!b.fronts.contains ·)
  { b with
    fronts := fronts
    plain := (b.plain ++ a.plain.filter (!b.plain.contains ·)).filter (!fronts.contains ·)
    outs := b.outs ++ a.outs.filter (!b.outs.contains ·)
    slots := b.slots ++ a.slots.filter fun e => !b.slots.any (·.1 == e.1)
    mods := b.mods ++ a.mods.filter fun m => !b.mods.any (·.m == m.m) }

/-- Whether every core passes R27 and R183. -/
def Topo.coreOk (t : Topo) (c : CoreLoad) : Bool :=
  decide (10 * c.cycles ≤ 9 * t.pc ∧ c.sp ≤ 16384 ∧ c.x ≤ 32768 ∧ c.y ≤ 32768) && (c.usable || c.mods == 0)

/-- The tests of R189 on a placement, with a moving item charged on its new place as well. -/
def Topo.standing (t : Topo) (retired : Nat) (p : Place) (mv : Option PMove) : Bool :=
  (t.lanesWith p mv).all (t.laneOk ·) && (t.coresWith p retired mv).all (t.coreOk ·) && t.chain p mv

/-- Whether a move is allowed at a placement (R189). -/
def Topo.moveOk (t : Topo) (retired : Nat) (p : Place) (mv : PMove) : Bool :=
  t.standing retired p (some mv) && t.standing retired (p.apply mv) none

/-- The hops a module with no direct path may take: by way of an empty usable core (R189). (DEDUCED, entry 17) -/
def Topo.hops (t : Topo) (retired : Nat) (p : Place) (mvs : List PMove) : List PMove :=
  let cores := t.coresOf p retired
  let free := (List.range 48).filter fun c => match cores[c]? with
    | some k => k.usable && k.mods == 0
    | none => false
  mvs.flatMap fun
    | .module m _ => free.map fun c => .module m c
    | _ => []

/-- An order of the moves in which each is allowed (R189), searched to a depth. (DEDUCED, entry 17) -/
def Topo.order (t : Topo) (retired : Nat) : Nat → Place → List PMove → Option (List PMove)
  | _, _, [] => some []
  | 0, _, _ => none
  | f + 1, p, mvs =>
    match mvs.findSome? fun mv =>
        if t.moveOk retired p mv then (t.order retired f (p.apply mv) (mvs.erase mv)).map (mv :: ·) else none with
    | some l => some l
    | none =>
      (t.hops retired p mvs).findSome? fun mv =>
        if t.moveOk retired p mv then (t.order retired f (p.apply mv) mvs).map (mv :: ·) else none

/-- The moves from one placement to another. -/
def Place.movesTo (p q : Place) : List PMove :=
  (q.ins.filterMap fun e => match Store.find? p.ins e.1 with
    | some l => if l = e.2 then none else some (PMove.inStrip e.1 e.2)
    | none => none) ++
  (q.outs.filterMap fun e => match Store.find? p.outs e.1 with
    | some l => if l = e.2 then none else some (PMove.outStrip e.1 e.2)
    | none => none) ++
  (q.mods.filterMap fun e => match Store.find? p.mods e.1 with
    | some c => if c = e.2 then none else some (PMove.module e.1 e.2)
    | none => none)

/-- The placement with the items of `q` that `p` lacks added. -/
def Place.join (p q : Place) : Place :=
  ⟨q.ins.foldl (fun m e => if (Store.find? m e.1).isSome then m else Store.put m e.1 e.2) p.ins,
   q.outs.foldl (fun m e => if (Store.find? m e.1).isSome then m else Store.put m e.1 e.2) p.outs,
   q.mods.foldl (fun m e => if (Store.find? m e.1).isSome then m else Store.put m e.1 e.2) p.mods⟩

/-- Moves left in the plans (R206). -/
def State.planAttr (s : State) : State :=
  s.set Attr.plcPlanPending 0 0 (((s.plc.plans.map (·.moves.length)).sum : Nat) : Int)

/-- Files a plan with a ticket: the added items stand at their places at once, the change takes effect when its
moves are done (R188, R189). -/
def State.addPlan (s : State) (origin : Nat) (p : Place) (moves : List PMove) (effect : List (Nat × Int)) :
    Option (Nat × State) :=
  match s.openTicket origin moves.length with
  | none => none
  | some (k, s) =>
    let s := s.bind (s.place.join p)
    let s := { s with plc := { s.plc with plans := s.plc.plans ++ [Plan.mk moves 0 (some k) effect] } }
    some (k, (s.loadAttrs s.topo s.place).planAttr)

/-- A move is made: the binding changes, or a region's bytes stand at its new base and its old run is freed (R185, R197); it is
counted (R198, R206). -/
def State.makeMove (s : State) (mv : PMove) : State :=
  let s := match mv with
    | .inStrip n l => s.set Attr.plcInStripLane 0 n (l : Int)
    | .outStrip n l => s.set Attr.plcOutStripLane 0 n (l : Int)
    | .module m c => (s.set Attr.plcModuleCore 0 m (c : Int)).reseat s.place.mods
    | .region o b =>
      (match s.plc.regions.find? fun (r : Region) => r.owner == o with
       | none => s
       | some r =>
         let s := (s.copyRun r.base r.size b).freeRun r.base r.size
         { s with plc := { s.plc with regions := s.plc.regions.map fun (x : Region) =>
             if x.owner = o then { x with base := b, moving := x.moving.drop 1 } else x } }.spaceAttrs)
  s.bump Attr.plcMovesDone 0 0

/-- Takes the work to a placement, and the regions along their moves, at once by direct copy (R190). -/
def State.moveAll (s : State) (q : Place) (regions : List PMove) : State :=
  regions.foldl State.makeMove ((s.bind q).add Attr.plcMovesDone 0 0 (s.place.movesTo q).length)

/-- Whether what a move moves still stands. -/
def State.stands (s : State) : PMove → Bool
  | .inStrip n _ => s.a Attr.plcInStripLane 0 n != 255
  | .outStrip n _ => s.a Attr.plcOutStripLane 0 n != 255
  | .module m _ => s.a Attr.plcModuleCore 0 m != 255
  | .region o _ => s.plc.regions.any (·.owner == o)

/-- The plans lose the moves of items that no longer stand. -/
def State.prune (s : State) : State :=
  let plans := s.plc.plans.map fun (p : Plan) => { p with moves := p.moves.filter s.stands }
  if plans = s.plc.plans then s
  else
    let t := { s with plc := { s.plc with plans := plans } }
    (if t.headMove = s.headMove then t
     else { t with plc := { t.plc with preCopied := false, finalBlock := false, copied := false } }).planAttr

/-- Admits the declarations of `t` in place of those of `s` and binds them (R30, R187, R188, R190). `effect` lists
the written keys with the values they had. With the tick stopped a move needs no order, since none is made while audio
passes. (DEDUCED, entry 17) -/
def admitChange (s t : State) (origin : Nat) (effect : List (Nat × Int)) : Answer :=
  let topo := t.topo
  match t.admits with
  | .no e => refuse e
  | .inc p u =>
    if ¬ s.ticking then ok (u.bind p).freeRegions
    else if s.plc.plans.all (·.effect = []) then
      ok (((u.bind ((u.place.only [topo]).join p)).prune).freeRegions)
    else
      (match u.addPlan origin p [] effect with
       | none => refuse rBusy
       | some (k, u) => okTicket u k)
  | .plan q regions u =>
    if ¬ s.ticking then ok (u.moveAll q regions).freeRegions
    else
      let both := Topo.union s.runningTopo topo
      let here := t.futurePlace.join q
      let moves := t.futurePlace.movesTo q
      if ¬ both.standing t.retired here none then refuse rAdmission
      else match both.order t.retired (2 * moves.length + 1) here moves with
        | none => refuse rAdmission
        | some l =>
          match u.addPlan origin q (l ++ regions) effect with
          | none => refuse rBusy
          | some (k, u) => okTicket u k

/-- The keys a request writes, with their present values. -/
def State.undo (s : State) (c : Ctx) : List (Nat × Int) :=
  (List.range c.vals.length).map fun i =>
    let e := (if c.q.op = 4 then c.q.elem else 0) + i
    (attrKey c.code c.q.inst e, s.a c.code c.q.inst e)

/-- A write that alters a charge: stored, admitted, bound. In replay it is only stored; bring-up packs afresh
(R512, R536). -/
def admitWrite (c : Ctx) (s : State) : Answer :=
  let t := s.store c
  if c.atOnce then ok t
  else if c.due.isSome then
    (match admitChange s t (address c.code c.q.inst) (s.undo c) with
     | .ok (t, _) => ok t
     | .error f => .error f)
  else admitChange s t (address c.code c.q.inst) (s.undo c)

/-- What is left of a plan once it has taken effect: items that are neither declared nor run leave, the ticket completes
(R188). -/
def State.finishPlan (s : State) (pl : Plan) (result : Nat) : State :=
  (((s.bind (s.place.only [s.topo, s.runningTopo])).prune).freeRegions).completeTicket? pl.ticket result

/-- Whether a Tongs descriptor that runs was resolved against a region at this base: by a side, its marker or the next
descriptor (R328). A descriptor of no module has absolute addresses. -/
def State.tongsHolds (s : State) (b n : Nat) : Bool :=
  s.tng.chans.any fun e => match e.2.run with
    | some r => r.desc.module.isSome && ((r.src.lo == b && r.src.hi != 0) || r.dst.lo == b ||
        ([r.marker, r.next].filterMap id).any fun a => decide (b ≤ a ∧ a < b + n))
    | none => false

/-- Whether a running descriptor holds a region that a plan is to move. -/
def State.plansHeld (s : State) : Bool :=
  (s.plc.plans.flatMap (·.moves)).any fun
    | .region o _ => s.plc.regions.any fun r => r.owner == o && s.tongsHolds r.base r.size
    | _ => false

/-- Bytes that the placement manager's channel `ch` delivers (R192, R332). -/
def State.tcBytes (s : State) (ch n : Nat) : State := s.add Attr.tngBytes ch 0 n

/-- Completes every plan by direct copy, its changes in the order of their acceptance (R190): `leave` takes away the modules
whose unload waits. Where a running descriptor holds a region the plans wait till it ends (R328). (DEDUCED, entry 15) -/
def State.finishPlans (s : State) (leave : List (Nat × Int) → State → State) : State :=
  if s.plansHeld then s else
  let plans := s.plc.plans
  let s := (plans.flatMap (·.moves)).foldl State.makeMove s
  let s := { s with plc := { s.plc with
    plans := [], preCopied := false, finalBlock := false, copied := false } }
  (plans.foldl (fun s p => (leave p.effect s).finishPlan p rOk) s).planAttr

/-- Drops the head move of the running plans once it is made, with the progress of its ticket. -/
def dropHead : List Plan → List Plan
  | [] => []
  | p :: ps =>
    match p.moves with
    | [] => p :: dropHead ps
    | _ :: ms => { p with moves := ms, done := p.done + 1 } :: ps

/-- The head move switches (R193, R196, R197). -/
def State.switchHead (s : State) : State :=
  match s.headMove with
  | none => s
  | some mv =>
    let s := s.makeMove mv
    let s := { s with plc := { s.plc with plans := dropHead s.plc.plans } }
    let s := s.plc.plans.foldl (fun s p => match p.ticket with
      | some k => s.ticketProgress k p.done
      | none => s) s
    (s.loadAttrs s.topo s.place).planAttr

end Sys2Proof.Machine
end

