-- ==== Sys2Proof/Machine/Bellows.lean ====
section
/-! DEFINITION. Bellows (R93 to R134): node words, ramps and their slots and queue, Class Z changes, the fader,
trim, polarity, cut and preamplifier writes, and the events that end ramps, searches and held outputs. -/

namespace Sys2Proof.Machine

/-! ### Node words (R50) -/

/-- Key of node (source, destination) in a plane. -/
def nodeKey (sr d : Nat) : Nat := sr * 2048 + d

/-- A node word of a plane: 0 is A, 1 is B. -/
def State.nodeWord (s : State) (plane sr d : Nat) : Nat :=
  Store.get 0 (if plane = 0 then s.cru.planeA else s.cru.planeB) (nodeKey sr d)

/-- The gain field of a node word (R4, R50). -/
def gainOf (w : Nat) : Int := signed 24 w
/-- The RAMP bit of a node word. -/
def rampBit (w : Nat) : Bool := bit w 24
/-- A node word of a gain and RAMP bit. -/
def nodeOf (g : Int) (r : Bool) : Nat := toBits 24 g + (if r then 16777216 else 0)

/-- Writes a node word. -/
def State.setNode (s : State) (plane sr d w : Nat) : State :=
  if plane = 0 then { s with cru := { s.cru with planeA := Store.set 0 s.cru.planeA (nodeKey sr d) w } }
  else { s with cru := { s.cru with planeB := Store.set 0 s.cru.planeB (nodeKey sr d) w } }

/-- The live plane (R49, R70). -/
def State.live (s : State) : Nat := s.n Attr.cruLivePlane 0 0

/-- The strikes whose samples may still be evaluated: those that have ended and the one that runs. -/
def State.strikes (s : State) : List Strike :=
  s.cru.past.map (·.strike) ++ (match s.cru.strike with
    | some k => if s.n Attr.cruStrikeState 0 0 = 2 then [k] else []
    | none => [])

/-- The plane that is live at sample `f`: each strike whose first sample lies after it has changed the live plane since
(R70, R80). -/
def State.planeAt (s : State) (f : Nat) : Nat :=
  if (s.strikes.filter fun k => decide (f < k.first)).length % 2 = 0 then s.live else 1 - s.live

/-! ### Ramps (R100 to R112) -/

/-- The value a ramp delivers at sample `n`: of the newest stretch that has begun; before all of them the oldest
stretch's start value. -/
def segsValue : List Seg → Nat → Int
  | [], _ => 0
  | [x], n => if x.first ≤ n then rampGain x.shape x.g0 x.g1 (n - x.first) x.len else x.g0
  | x :: xs, n => if x.first ≤ n then rampGain x.shape x.g0 x.g1 (n - x.first) x.len else segsValue xs n

/-- The ramp of a parameter. -/
def State.ramp? (s : State) (p : RParam) : Option Ramp := s.bel.ramps.find? (·.param == p)

/-- Whether a parameter's ramp is in flight, that is, holds a slot (R104). -/
def State.inFlight (s : State) (p : RParam) : Bool := s.bel.ramps.any fun r => r.param == p && r.slot

/-- The value a parameter holds, outside its ramps: its node word, fader or occupant. -/
def State.held (s : State) (p : RParam) : Int :=
  match p with
  | .node pl sr d => gainOf (s.nodeWord pl sr d)
  | .inFader n => s.a Attr.insFader n 0
  | .outFader n => s.a Attr.outsFader n 0
  | .swap k => s.a Attr.slotOccupant k 0

/-- The target of a parameter: of the ramp that waits, else of the one in flight, else the value held (R107). -/
def State.target (s : State) (p : RParam) : Int :=
  match s.queued? p with
  | some r => r.target
  | none => s.held p

/-- The value applied outside a ramp: a fader that waits keeps what it applied before, for its attribute reads the queued
target; a node word and an occupant keep their old value until the ramp starts (R107). -/
def State.rest (s : State) (p : RParam) : Int :=
  match p with
  | .inFader _ | .outFader _ =>
    (match s.queued? p with
     | some r => r.g0
     | none => s.held p)
  | _ => s.held p

/-- The value applied at sample `n` (R107, R109). -/
def State.applied (s : State) (p : RParam) (n : Nat) : Int :=
  match s.ramp? p with
  | some r => segsValue r.segs n
  | none => s.rest p

/-- Ramp slots in use. -/
def State.slotsUsed (s : State) : Nat := (s.bel.ramps.filter (·.slot)).length
/-- Queue entries in use (R106). -/
def State.queueUsed (s : State) : Nat := (s.bel.queue.map (·.ramps.length)).sum

/-- Address of a parameter, for the digest. -/
def rAddr : RParam → Nat × Nat
  | .node _ sr d => (address Attr.nodeGain sr, d)
  | .inFader n => (address Attr.insFader n, 0)
  | .outFader n => (address Attr.outsFader n, 0)
  | .swap k => (address Attr.slotOccupant k, 0)

/-- Commits a parameter's target (R60, R87): a node word takes the gain and RAMP, a fader or an occupant its value. -/
def State.commitParam (s : State) (p : RParam) (v : Int) (ramping : Bool) : State :=
  match p with
  | .node pl sr d => s.setNode pl sr d (nodeOf v ramping)
  | .inFader n => s.set Attr.insFader n 0 v
  | .outFader n => s.set Attr.outsFader n 0 v
  | .swap k => (s.set Attr.slotOccupant k 0 v).set Attr.slotSwapping k 0 (b2i ramping)

/-- The value from which a new ramp of a parameter starts where none is in flight: what a node word holds; else what the
request found applied. -/
def State.startFrom (s : State) (r : NewRamp) : Int :=
  match r.param with
  | .node _ _ _ => s.held r.param
  | _ => r.g0

/-- The stretches of the ramp of a parameter. -/
def State.stretches (s : State) (p : RParam) : List Seg :=
  match s.ramp? p with
  | some x => x.segs
  | none => []

/-- Later stretches, newest first, put on top of stretches that changed: each starts from the value delivered on the sample
before its first (R109). -/
def restack : List Seg → List Seg → List Seg
  | [], base => base
  | g :: later, base =>
    let below := restack later base
    { g with g0 := segsValue below (g.first - 1) } :: below

/-- Starts or retargets the ramp of a parameter at sample `f` (R100, R109, R112): `g0` is the value at sample `f` − 1. Of two
changes that fall on one first sample the one accepted later is heard, and a change that falls on a later sample retargets
this one there. -/
def State.startRamp (s : State) (r : NewRamp) (f : Nat) : State :=
  let segs := s.stretches r.param
  let later := segs.filter fun g => decide (f < g.first)
  let old := segs.filter fun g => decide (g.first < f)
  if segs.any fun g => g.first == f && decide (r.ord < g.ord) then s
  else
    let before := if old ≠ [] then segsValue old (f - 1) else match segs.getLast? with
      | some g => g.g0
      | none => s.startFrom r
    let flying := s.inFlight r.param
    let slot := flying || decide (0 < r.len)
    let seg : Seg := ⟨before, r.target, r.len, r.shape, f, r.ord⟩
    let ramp : Ramp := ⟨r.param, restack later (seg :: old), slot⟩
    let s := { s with bel := { s.bel with ramps := (s.bel.ramps.filter fun (x : Ramp) => x.param != r.param) ++ [ramp] } }
    let s := s.commitParam r.param (match later with | g :: _ => g.g1 | [] => r.target) slot
    (s.note (if flying then 2 else match r.param with | .swap _ => 7 | _ => 1) (rAddr r.param).1 (rAddr r.param).2 f).event 0x0F2

/-- Starts every ramp of a group. -/
def State.startGroup (s : State) (l : List NewRamp) (f : RParam → Nat) : State :=
  l.foldl (fun s r => s.startRamp r (f r.param)) s

/-- First sample of an untimed change of a parameter committed in this period (R99). -/
def State.firstOf (s : State) (p : RParam) : Nat :=
  match p with
  | .inFader n => s.reach Attr.insFader n
  | .outFader n => s.reach Attr.outsFader n
  | _ => s.eng.count

/-- First sample of a queued group that starts in the period now open (R107). -/
def State.queueStart (s : State) (p : RParam) : Nat := s.firstOf p - s.eng.cfg.n

/-- New slots a group needs (R106): a ramp of length 0 takes none (R104). -/
def State.newSlots (s : State) (l : List NewRamp) : Nat :=
  (l.filter fun r => !s.inFlight r.param && decide (0 < r.len)).length

/-- Replaces a waiting ramp in place (R111). -/
def State.requeue (s : State) (r : NewRamp) : State :=
  { s with bel := { s.bel with queue := s.bel.queue.map fun g =>
      { g with ramps := g.ramps.map fun x => if sameParam x.param r.param then { r with g0 := x.g0 } else x } } }

/-- The target attribute of a fader reads the queued target at once (R107); a node word and an occupant do not. -/
def State.showTarget (s : State) (r : NewRamp) : State :=
  match r.param with
  | .inFader n => s.set Attr.insFader n 0 r.target
  | .outFader n => s.set Attr.outsFader n 0 r.target
  | _ => s

/-- The slots and queue entries held at a tick, and their peaks (R134). -/
def State.belCounts (s : State) : State :=
  let s := (s.set Attr.belSlotsInUse 0 0 s.slotsUsed).peak Attr.belSlotsPeak 0 0 s.slotsUsed
  (s.set Attr.belQueueDepth 0 0 s.queueUsed).peak Attr.belQueuePeak 0 0 s.queueUsed

/-- Accepts a group of ramps (R106, R108, R111). `due` is the due sample of a timed group; `steps` says that the change was
accepted before, so that where slots lack it steps, and `log_` the attribute that such a step is logged against. -/
def State.acceptGroup (s : State) (l : List NewRamp) (due : Option Nat) (steps : Bool) (log_ : Nat × Nat) : Except Fail State :=
  let waiting := l.filter fun r => (s.queued? r.param).isSome
  let s := waiting.foldl (fun s r => (s.requeue r).showTarget r) s
  let l := l.filter fun r => (s.queued? r.param).isNone
  let first := fun p => match due with
    | some d => d
    | none => s.firstOf p
  let k := s.newSlots l
  if l = [] then .ok s
  else if k = 0 ∨ (s.bel.queue = [] ∧ k + s.slotsUsed ≤ 16384) then .ok (s.startGroup l first)
  else if l.length + s.queueUsed ≤ 4096 then
    .ok (l.foldl State.showTarget
      { s with bel := { s.bel with queue := s.bel.queue ++ [⟨l, due⟩] } })
  else if steps then
    let s := (s.startGroup (l.map fun r => { r with len := 0 }) first).bump Attr.belRampFullCount 0 0
    .ok ((s.logAt sevWarning Attr.belRampFullCount 0 0).note 4 (address log_.1 log_.2) 0 (due.getD s.eng.count))
  else .error ⟨rRampFull, 0, [Attr.belRampFullCount]⟩

/-- The ramp length and shape of a Class R write (R97, R98), as they stand when the write takes effect, a timed one at its due
sample. (DEDUCED, entry 57) -/
def rampOf (c : Ctx) (s : State) : Nat × Nat :=
  (samplesOf (match c.q.ramp with | some t => t | none => s.n Attr.belDefaultRampTime 0 0) s.eng.cfg.fs,
   match c.q.shape with
   | some k => k
   | none => s.n Attr.belDefaultRampShape 0 0)

/-- A Class R write of parameters and targets (R60, R61, R99, R106, R109 to R111, R114). A write of the value that a
parameter holds changes nothing where no ramp of it is in flight or waits, nor, without a modifier, where one is in flight
to that value. (DEDUCED, entry 57) -/
def writeRamps (c : Ctx) (l : List (RParam × Int)) (s : State) : Except Fail State :=
  if c.atOnce ∨ ¬ s.ticking then .ok (l.foldl (fun s e => s.commitParam e.1 e.2 false) s)
  else
    let (len, shape) := rampOf c s
    let plain := c.q.ramp.isNone && c.q.shape.isNone
    let l := l.filter fun e => !(s.target e.1 == e.2 && (s.queued? e.1).isNone && (!s.inFlight e.1 || plain))
    let news := l.map fun e => (⟨e.1, e.2, len, shape, s.applied e.1 (s.firstOf e.1 - 1), s.order c⟩ : NewRamp)
    s.acceptGroup news c.due c.accepted (c.code, c.q.inst)

/-! ### Fader writes (R103, R109) -/

/-- A centi-dB write as a code with the sign of the present target (R5). -/
def cdbWrite (target v : Int) : Int := if target < 0 then -codeOfCdb v else codeOfCdb v

/-- FADER: the fader, in G24 or centi-dB form, as a Class R change. -/
def writeFader (c : Ctx) (s : State) : Answer :=
  let n := c.q.inst
  let p := if c.code / 256 = 0x30 then RParam.inFader n else .outFader n
  let v := c.arg
  let g := if c.code = Attr.insFaderCdb ∨ c.code = Attr.outsFaderCdb then cdbWrite (s.target p) v else v
  match writeRamps c [(p, g)] s with
  | .ok t => ok t
  | .error f => .error f

/-! ### Class Z (R115 to R120) -/

/-- Attribute of a Class Z parameter. -/
def zKey : ZParam → Nat × Nat
  | .trim n => (Attr.insTrim, n)
  | .polarity n => (Attr.insPolarity, n)
  | .inCut n => (Attr.insCut, n)
  | .outCut n => (Attr.outsCut, n)
  | .preamp n => (Attr.insPreampGain, n)

/-- The pending change of a Class Z parameter. -/
def State.z? (s : State) (p : ZParam) : Option ZPend := s.bel.zs.find? (·.param == p)

/-- Replaces the pending change of a Class Z parameter. -/
def State.setZ (s : State) (p : ZParam) (z : Option ZPend) : State :=
  let rest := s.bel.zs.filter (·.param != p)
  { s with bel := { s.bel with zs := match z with | some z => rest ++ [z] | none => rest } }

/-- The value a Class Z parameter applies at sample `n`. -/
def State.zAt (s : State) (p : ZParam) (n : Nat) : Int :=
  match s.z? p with
  | none => s.a (zKey p).1 (zKey p).2 0
  | some z => match z.stepAt with
    | some k => if k ≤ n then z.new else z.old
    | none => z.old

/-- The engine writes a released preamplifier gain (R140): the value in the low half, the count raised in the high. -/
def State.releasePreamp (s : State) (n : Nat) (v : Int) : State :=
  let w := s.n Attr.insPreampReleased n 0
  s.set Attr.insPreampReleased n 0 (((w / 65536 + 1) % 65536 * 65536 + toBits 16 v : Nat) : Int)

/-- A change whose step has been found is made (R117): the step is noted, a timeout counted. -/
def State.stepped (s : State) (p : ZParam) (z : ZPend) : State :=
  (if z.timedOut then s.bump Attr.belZcTimeouts 0 0 else s).note 5 (address (zKey p).1 (zKey p).2) 0 (z.stepAt.getD 0)

/-- A change whose step has been found gives way to a new one (R117, R118, R120): what its end has not yet done is done. -/
def State.settleZ (s : State) (p : ZParam) : State :=
  match s.z? p with
  | some z =>
    if z.stepAt.isNone then s
    else
      let s := if z.release then s else s.stepped p z
      let s := s.setZ p none
      (match p with
       | .preamp n => s.releasePreamp n z.new
       | _ => s)
  | none => s

/-- A write of a Class Z parameter (R114, R117, R118): pending until its crossing; a pending change takes the new
value and keeps its search; the value applied cancels it. -/
def writeZ (c : Ctx) (p : ZParam) (v : Int) (s : State) : Answer :=
  let s := if c.atOnce ∨ ¬ s.ticking then s else s.settleZ p
  let t := s.set (zKey p).1 (zKey p).2 0 v
  if c.atOnce ∨ ¬ s.ticking then ok (t.setZ p none)
  else
    let f := match c.due with
      | some d => d
      | none => s.reach (zKey p).1 (zKey p).2
    let lz := samplesOf (s.n Attr.belZcTimeout 0 0) s.eng.cfg.fs
    match s.z? p with
    | some z => if v = z.old then ok (t.setZ p none) else ok (t.setZ p (some { z with new := v }))
    | none =>
      let old := s.a (zKey p).1 (zKey p).2 0
      if v = old then ok s else ok (t.setZ p (some ⟨p, old, v, f, lz, none, false, false⟩))

/-- TRIM. -/
def writeTrim (c : Ctx) (s : State) : Answer := writeZ c (.trim c.q.inst) c.arg s
/-- POLARITY. -/
def writePolarity (c : Ctx) (s : State) : Answer := writeZ c (.polarity c.q.inst) c.arg s
/-- CUT of an in-strip or an out-strip. -/
def writeCut (c : Ctx) (s : State) : Answer :=
  writeZ c (if c.code / 256 = 0x30 then .inCut c.q.inst else .outCut c.q.inst) c.arg s

/-- PREAMP_GAIN: held in preamp_gain and released under R120; with the tick stopped it takes effect at once (R114). -/
def writePreampGain (c : Ctx) (s : State) : Answer :=
  let n := c.q.inst
  let v := c.arg
  if ¬ c.atOnce ∧ ¬ s.ticking ∧ s.a Attr.insPreampGain n 0 ≠ v then
    ok ((s.set Attr.insPreampGain n 0 v).releasePreamp n v)
  else writeZ c (.preamp n) v s

/-! ### The rows of the table -/

/-- FADER (R109). -/
def execFader (q : Req) (s : State) : Host.Outcome State Fault Refusal := .next (serve .fader writeFader q s)
/-- TRIM (R118). -/
def execTrim (q : Req) (s : State) : Host.Outcome State Fault Refusal := .next (serve .trim writeTrim q s)
/-- POLARITY (R118). -/
def execPolarity (q : Req) (s : State) : Host.Outcome State Fault Refusal := .next (serve .polarity writePolarity q s)
/-- CUT (R118). -/
def execCut (q : Req) (s : State) : Host.Outcome State Fault Refusal := .next (serve .cut writeCut q s)
/-- PREAMP_GAIN (R140). -/
def execPreampGain (q : Req) (s : State) : Host.Outcome State Fault Refusal :=
  .next (serve .preampGain writePreampGain q s)

/-- Late queued starts (R127): a timed group that starts after its due sample. -/
def Group.late (g : Group) (f : Nat) : Bool := g.due.any (· < f)

/-- A parameter whose ramp starts at sample `f`: a node is on the plane live there (R80). -/
def State.resolve (s : State) (p : RParam) (f : Nat) : RParam :=
  match p with
  | .node _ x y => .node (s.planeAt f) x y
  | _ => p

/-- The ramps of a waiting group as they start now: each node on the plane live at its first sample (R80). -/
def State.headRamps (s : State) (g : Group) : List NewRamp :=
  g.ramps.map fun r => { r with param := s.resolve r.param (s.queueStart r.param) }

/-- QUEUED_GROUP_START (R107): the head group moves into free slots once the whole of it fits. It is late where its first
sample lies after its due sample (R127). -/
def queuedGroupStart (s : State) : State :=
  match s.bel.queue with
  | [] => s
  | g :: rest =>
    let l := s.headRamps g
    if s.ticking ∧ s.newSlots l + s.slotsUsed ≤ 16384 then
      let s1 := { s with bel := { s.bel with queue := rest } }
      let s1 := if l.any fun r => g.late (s.queueStart r.param) then s1.bump Attr.belLateCount 0 0 else s1
      l.foldl (fun t r => (t.startRamp r (s.queueStart r.param)).note 3
        (rAddr r.param).1 (rAddr r.param).2 (s.queueStart r.param)) s1
    else s
/-- QUEUED_GROUP_START (R107). -/
def execQueuedGroupStart (s : State) : Host.Outcome State Fault Refusal := .next (queuedGroupStart s)

/-- Whether a frame that holds every sample below `e` of a parameter has been evaluated (R104). -/
def State.evaluated (s : State) (lag e : Nat) : Bool := decide (e + (1 + lag) * s.eng.cfg.n ≤ s.eng.count)

/-- How far behind a parameter's stage works, in frames; the out-strip of a welded destination works one further behind
(R420). -/
def State.lagOf (s : State) (p : RParam) : Nat :=
  match p with
  | .inFader n => s.lag Attr.insFader n
  | .outFader n => s.lag Attr.outsFader n + (if weldRole (s.sn Attr.weldBinding n 0) then 1 else 0)
  | _ => 0

/-- The ramp of a parameter is over (R104): its slot is free, and a ramp that waits on the parameter goes from its last
value. -/
def State.endRamp (s : State) (p : RParam) (last : Int) : State :=
  { s with bel := { s.bel with
      ramps := s.bel.ramps.filter (·.param != p)
      queue := s.bel.queue.map fun g => { g with ramps := g.ramps.map fun r => if r.param = p then { r with g0 := last } else r } } }

/-- RAMP_END (R60, R104): the ramp has delivered its final sample, its slot is freed and RAMP clears.
(DEDUCED, entry 11) -/
def rampEnd (p : RParam) (s : State) : State :=
  match s.ramp? p with
  | none => s
  | some r =>
    match r.segs with
    | [] => s
    | g :: _ =>
      if s.evaluated (s.lagOf p) (g.first + g.len) then (s.endRamp p g.g1).commitParam p (s.held p) false else s
/-- RAMP_END (R104). A row swap ends as ROW_SWAP_END. -/
def execRampEnd (p : RParam) (s : State) : Host.Outcome State Fault Refusal :=
  .next (match p with | .swap _ => s | _ => rampEnd p s)

/-- ZERO_CROSSING (R116, R117): the step that the evaluation found at a crossing is committed.
(DEDUCED, entry 11) -/
def zeroCrossing (p : ZParam) (s : State) : State :=
  match s.z? p with
  | some z =>
    if z.stepAt.isSome ∧ ¬ z.timedOut ∧ ¬ z.release then
      let s := s.stepped p z
      match p with
      | .preamp _ => s.setZ p (some { z with release := true })
      | _ => s.setZ p none
    else s
  | none => s
/-- ZERO_CROSSING (R116). -/
def execZeroCrossing (p : ZParam) (s : State) : Host.Outcome State Fault Refusal := .next (zeroCrossing p s)

/-- ZC_TIMEOUT (R117): no crossing in the search, so the change steps after it and the timeout is counted. -/
def zcTimeout (p : ZParam) (s : State) : State :=
  match s.z? p with
  | some z =>
    if z.stepAt.isSome ∧ z.timedOut ∧ ¬ z.release then
      let s := s.stepped p z
      match p with
      | .preamp _ => s.setZ p (some { z with release := true })
      | _ => s.setZ p none
    else s
  | none => s
/-- ZC_TIMEOUT (R117). -/
def execZcTimeout (p : ZParam) (s : State) : Host.Outcome State Fault Refusal := .next (zcTimeout p s)

/-- PREAMP_RELEASE (R120, R140): at the end of the period in which the crossing is evaluated. -/
def preampRelease (n : Nat) (s : State) : State :=
  match s.z? (.preamp n) with
  | some z =>
    match z.stepAt with
    | some f => if s.ticking = true ∧ s.evaluated 0 (f + 1) = false then s
      else (s.setZ (.preamp n) none).releasePreamp n z.new
    | none => s
  | none => s
/-- PREAMP_RELEASE (R140). -/
def execPreampRelease (n : Nat) (s : State) : Host.Outcome State Fault Refusal := .next (preampRelease n s)

/-! ### Timed changes in the supervisor (R124, R126, R128) -/

/-- Inserts into a list sorted by due sample, ties in acceptance order. -/
def insertTimed (t : Timed) : List Timed → List Timed
  | [] => [t]
  | a :: l => if t.due < a.due then t :: a :: l else a :: insertTimed t l

/-- A timed change, in the hardware if its number is among `ids`. -/
def handOver (ids : List Nat) (t : Timed) : Timed :=
  { t with inHardware := t.inHardware || ids.contains t.id }

/-- TIMED_HANDOVER (R126): at a tick the supervisor hands its changes over in order of due sample, as many as there
are free places, each within the window of R124 and still in reach. (DEDUCED, entry 57) -/
def timedHandover (s : State) : State :=
  if ¬ s.ticking then s
  else
    let held := (s.bel.timed.filter (·.inHardware)).length
    let near := (s.bel.timed.filter fun t => !t.inHardware &&
      decide (s.reach (reqCode t.req) t.req.inst ≤ t.due) && decide (t.due * 1000000000 < (s.mdTime + 2000000000) * s.eng.cfg.fs)).foldl (fun l t => insertTimed t l) []
    let ids := (near.take (2048 - held)).map (·.id)
    { s with bel := { s.bel with timed := s.bel.timed.map (handOver ids) } }
/-- TIMED_HANDOVER (R126). -/
def execTimedHandover (s : State) : Host.Outcome State Fault Refusal := .next (timedHandover s)

/-- Withdraws a pending strike: its ticket completes with STATE (R77). -/
def State.withdrawStrike (s : State) : State :=
  match s.cru.strike with
  | some k =>
    if s.n Attr.cruStrikeState 0 0 = 1 then
      let s := { s with
        cru := { s.cru with strike := none }
        bel := { s.bel with timed := s.bel.timed.filter fun t => reqCode t.req != Attr.cruStrike } }
      ((s.set Attr.cruStrikeState 0 0 0).completeTicket k.ticket rState).set Attr.belTimedPending 0 0
        s.bel.timed.length
    else s
  | none => s

/-- CANCEL_TIMED (R128): withdraws every pending change due at or after the first MD0 sample at or after the
argument, strikes among them. -/
def cancelTimed (c : Ctx) (s : State) : Answer :=
  let d := firstAt s.eng.cfg.fs c.arg.toNat
  let strike := s.bel.timed.any fun t => reqCode t.req == Attr.cruStrike && decide (d ≤ t.due)
  let s := if strike then s.withdrawStrike else s
  let s := { s with bel := { s.bel with timed := s.bel.timed.filter fun t => decide (t.due < d) } }
  ok (s.set Attr.belTimedPending 0 0 s.bel.timed.length)
/-- CANCEL_TIMED (R128). -/
def execCancelTimed (q : Req) (s : State) : Host.Outcome State Fault Refusal :=
  .next (serve .cancelTimed cancelTimed q s)

/-! ### Held outputs (R131, R132) -/

/-- HOLD_TIME_EXPIRY (R131): an output that has held its value for its hold time starts its hold fade. -/
def holdTimeExpiry (o : OutRef) (s : State) : State :=
  match s.holdOf o with
  | some h => if h.phase = 1 ∧ h.holdFor ≤ h.pos then s.setHold o (some { h with phase := 2, pos := h.pos - h.holdFor }) else s
  | none => s
/-- HOLD_TIME_EXPIRY (R131). -/
def execHoldTimeExpiry (o : OutRef) (s : State) : Host.Outcome State Fault Refusal := .next (holdTimeExpiry o s)

/-- The length of the hold fade at a rate (R131). -/
def State.holdFade (s : State) (fs : Nat) : Nat := samplesOf (s.n Attr.belHoldFadeTime 0 0) fs

/-- The rate of a media domain (R376): codes 0 to 5 are 44.1 kHz to 192 kHz, family by pairs. -/
def rateOfCode (k : Nat) : Nat := fsOf (k / 2) (k % 2)

/-- The rate of the port or stream an output serves (R131). -/
def State.outRate (s : State) (o : OutRef) : Nat :=
  match o with
  | .sapOut n _ | .sapIn n _ =>
    let d := s.n Attr.sapDomain n 0
    if d = 0 then s.eng.cfg.fs else rateOfCode (s.n Attr.mdRate d 0)
  | .tx k _ => let d := s.n Attr.txDomain k 0; if d = 0 then s.eng.cfg.fs else rateOfCode (s.n Attr.mdRate d 0)
  | .rx k _ => let d := s.n Attr.rxDomain k 0; if d = 0 then s.eng.cfg.fs else rateOfCode (s.n Attr.mdRate d 0)
  | .weld _ _ => s.eng.cfg.fs

/-- HOLD_FADE_END (R131): the hold fade has reached sample Lh and the output delivers zero. -/
def holdFadeEnd (o : OutRef) (s : State) : State :=
  match s.holdOf o with
  | some h =>
    if h.phase = 2 ∧ s.holdFade (s.outRate o) ≤ h.pos then s.setHold o (some { h with phase := 3, value := 0 }) else s
  | none => s
/-- HOLD_FADE_END (R131). -/
def execHoldFadeEnd (o : OutRef) (s : State) : Host.Outcome State Fault Refusal := .next (holdFadeEnd o s)

/-- RESUME_FADE_END (R132): after 32 samples the output carries live audio alone. -/
def resumeFadeEnd (o : OutRef) (s : State) : State :=
  match s.holdOf o with
  | some h => if h.phase = 4 ∧ 32 ≤ h.pos then s.setHold o none else s
  | none => s
/-- RESUME_FADE_END (R132). -/
def execResumeFadeEnd (o : OutRef) (s : State) : Host.Outcome State Fault Refusal := .next (resumeFadeEnd o s)

end Sys2Proof.Machine
end

