-- ==== Sys2Proof/Machine/Hearth.lean ====
section
/-! DEFINITION. Hearth (R333 to R362): references and their qualification, the selector, switches, the loop, the states,
and the holdover model. -/

namespace Sys2Proof.Machine

/-- Quotient rounded to the nearest integer, halves up. -/
def divNear (a b : Int) : Int := (2 * a + b) / (2 * b)

/-- Limits a value to 32 bits, two's complement. -/
def clampS32 (x : Int) : Int := clampInt (-2147483648) 2147483647 x

/-- The steer limit, 250 ppm in units of 10 ^ -12 (R351). (DESIGN CHOICE, entry 33) -/
def clampSteer (x : Int) : Int := clampInt (-250000000) 250000000 x

/-! ### References (R333 to R340) -/

/-- A reference. -/
def State.ref (s : State) (r : Nat) : RefSt := Store.get RefSt.reset s.hea.refs r
/-- Replaces a reference. -/
def State.setRef (s : State) (r : Nat) (x : RefSt) : State :=
  { s with hea := { s.hea with refs := Store.set RefSt.reset s.hea.refs r x } }

/-- The state of Hearth: 0 FREE, 1 ACQUIRING, 2 LOCKED, 3 HOLDOVER, 4 LOST (R353). -/
def State.heaSt (s : State) : Nat := s.n Attr.heaState 0 0

/-- The reference followed. -/
def State.current (s : State) : Option Nat :=
  let c := s.n Attr.heaCurrent 0 0
  if c = 0xFF then none else some c

/-- The class code of a clockClass (R340). -/
def classCode (c : Nat) : Nat :=
  if c = 6 then 0x10 else if c = 13 then 0x18 else if c = 7 then 0x20 else if c = 14 then 0x28
  else if c = 52 ∨ c = 187 then 0x40 else if c = 58 ∨ c = 193 then 0x48
  else if c = 248 then 0x80 else if c = 255 then 0xFF else 0xC0

/-- The rank of a reference: a pin's quality word, a master's class and accuracy (R340). -/
def State.rank (s : State) (r : Nat) : Nat :=
  if r < 4 then s.n Attr.refQuality r 0
  else classCode (s.n Attr.refPtpClass r 0) * 256 + s.n Attr.refPtpAccuracy r 0

/-- y of a reference in units of 10 ^ -12 (R336). -/
def State.yOf (s : State) (r : Nat) : Int := s.a Attr.refFreqOffset r 0

/-- Whether a PTP instance is in SLAVE (R372): port state 9. -/
def State.inSlave (s : State) (pp : Nat) : Bool := s.n Attr.ptpPortState (0x100 + pp) 0 == 9

/-- Whether a reference is valid (R337). -/
def State.refValid (s : State) (r : Nat) : Bool :=
  let x := s.ref r
  x.present && x.inTol && (decide (r < 4) || (s.inSlave (r - 4) && s.n Attr.refPtpClass r 0 != 255))

/-- Whether a reference is selectable (R339). -/
def State.selectable (s : State) (r : Nat) : Bool :=
  let x := s.ref r
  s.n Attr.refEnable r 0 == 1 && x.qualified && x.waitEnd.isNone && decide (s.rank r < 0xFF00)

/-- Whether two references hold DISAGREE (R343). -/
def State.disagrees (s : State) (a b : Nat) : Bool := s.hea.disagree.contains (Nat.min a b, Nat.max a b)

/-! ### The holdover model (R356 to R360) -/

/-- The deviation that coefficients give at sixteenfold temperature `t` (2 ^ -16 × 0.01 °C) and age, exactly, rounded to
the nearest unit (R356). `t0` is in 0.01 °C. -/
def modelAt (c : Nat → Int) (t0 t age : Int) : Int :=
  let d := t - 16 * 65536 * t0
  let u := 16 * 6553600
  let day := 16 * 86400
  divNear (c 0 * (u * u * day) + c 1 * d * (u * day) + c 2 * (d * d) * day + c 3 * age * (u * u)) (u * u * day)

/-- ŷ at the present filtered temperature and model age (R356). -/
def State.yHat (s : State) : Int :=
  modelAt (fun i => s.a Attr.heaModelCoef 0 i) (s.a Attr.heaModelT0 0 0) (16 * s.hea.temp)
    (16 * s.a Attr.heaModelAge 0 0)

/-- Whether the model is valid (R358, R360, R362). -/
def State.modelValid (s : State) : Bool :=
  decide (s.n Attr.heaHistoryMin 0 0 ≤ s.n Attr.heaModelHistory 0 0) && !s.hea.restored &&
    !(s.n Attr.heaModelSensor 0 0 == 8 && s.hea.stale)

/-- The locked seconds of the anchor window of a loss at `t` ms (R359). -/
def State.anchorWindow (s : State) (t : Nat) : List (Nat × Int × Int) :=
  s.hea.anchor.filter fun e => decide (t ≤ e.1 + 62000 ∧ e.1 + 2000 ≤ t)

/-- The anchor b (R359). (DESIGN CHOICE, entry 35) -/
def State.anchorBias (s : State) (t : Nat) : Int :=
  let w := s.anchorWindow t
  if w.length < 16 then 0 else divNear ((w.map fun e => e.2.1 - e.2.2).sum) (w.length : Int)

/-- The anchor mean, the mean of −y, where 16 s of locked time exist (R355, R359). -/
def State.anchorMean (s : State) (t : Nat) : Option Int :=
  let w := s.anchorWindow t
  if w.length < 16 then none else some (divNear ((w.map fun e => -e.2.1).sum) (w.length : Int))

/-- The holdover prediction of the oscillator's offset: with the anchor while one is in use.
(DESIGN CHOICE, entry 35) -/
def State.prediction (s : State) : Int :=
  s.yHat + (if s.heaSt = 3 ∨ s.hea.switch.any (·.bridge) then s.hea.bias else 0)

/-- The expected offset y_e (R337). -/
def State.yExpected (s : State) : Int :=
  match s.heaSt, s.current with
  | 2, some c => s.yOf c
  | _, _ => if s.modelValid then s.prediction else 0

/-- Sets the steer, within its limit (R351). -/
def State.setSteer (s : State) (v : Int) : State := s.set Attr.heaSteer 0 0 (clampSteer v)

/-- The MODEL record (R509): coefficients, T0, range, history and age. (DEDUCED, entry 36) -/
def State.modelRec (s : State) : Rec :=
  let b (n code i : Nat) := leBytes n (toBits (8 * n) (s.a code 0 i))
  ⟨6, (List.range 4).flatMap (b 4 Attr.heaModelCoef) ++ b 2 Attr.heaModelT0 0 ++
    (List.range 2).flatMap (b 2 Attr.heaModelRange) ++ b 4 Attr.heaModelHistory 0 ++ b 4 Attr.heaModelAge 0⟩

/-- Journals the model (R360). -/
def State.journalModel (s : State) : State :=
  { s.commit [s.modelRec] with hea := { s.hea with written := s.n Attr.heaModelHistory 0 0 } }

/-! ### The selector and the states (R341 to R348, R353 to R355) -/

/-- The member of a list with the lowest value of `f`, then the lowest priority, then the lowest index. -/
def State.bestBy (s : State) (f : Nat → Nat) (l : List Nat) : Option Nat :=
  l.foldl (fun best r =>
    match best with
    | none => some r
    | some b =>
      let p (x : Nat) := s.n Attr.refPriority x 0
      if f r < f b ∨ (f r = f b ∧ (p r < p b ∨ (p r = p b ∧ r < b))) then some r else best) none

/-- The target of the selector (R342). -/
def State.refTarget (s : State) : Option Nat :=
  let mode := s.n Attr.heaMode 0 0
  let forced := s.n Attr.heaForcedRef 0 0
  if mode = 2 then none
  else if mode = 1 then (if s.selectable forced then some forced else none)
  else
    let c := (List.range 8).filter s.selectable
    let low := c.foldl (fun m r => Nat.min m (s.rank r)) 0xFFFF
    let t := c.filter fun r => s.rank r == low
    let quarrel := t.any fun a => t.any fun b => a != b && s.disagrees a b
    if ¬ quarrel then s.bestBy (fun _ => 0) t
    else if s.current.any t.contains then s.current
    else if s.modelValid then s.bestBy (fun r => (s.yOf r - s.prediction).natAbs) t
    else s.bestBy (fun _ => 0) t

/-- Enters a state. -/
def State.setHea (s : State) (st : Nat) : State :=
  { s.set Attr.heaState 0 0 st with
    hea := { s.hea with
        inLock := 0, outLock := 0, clean := if st = 2 then s.hea.clean else 0,
        lockedSince := if st = 2 then (if s.heaSt = 2 then s.hea.lockedSince else some s.hea.now) else none } }

/-- The bridging steer from the loss of the old reference (R346). -/
def State.bridge (s : State) : State :=
  let t := s.hea.lostAt.getD s.hea.now
  let b := s.anchorBias t
  let s := { s with hea := { s.hea with lostAt := some t, bias := b } }
  if s.modelValid then s.setSteer (-(s.yHat + b))
  else match s.anchorMean t with
    | some m => s.setSteer m
    | none => s

/-- A switch to reference `r` begins (R345, R346); in LOCKED the old reference is followed until it completes. -/
def State.beginSwitch (s : State) (r : Nat) : State :=
  let old := s.current
  let lost := !old.any fun o => (s.ref o).qualified
  let bridging := s.heaSt == 2 && lost
  let s := { s with hea := { s.hea with switch := some ⟨r, [], old, bridging⟩, inLock := 0, outLock := 0, clean := 0 } }
  let s := s.set Attr.heaSwitching 0 0 1
  let s := if s.heaSt = 2 then s else s.set Attr.heaCurrent 0 0 r
  if bridging then s.bridge else s

/-- No reference is left (R354, R355, R359): HOLDOVER with a valid model, else LOST. -/
def State.loseReference (s : State) : State :=
  let t := s.hea.lostAt.getD s.hea.now
  let was := s.heaSt
  let s := s.set Attr.heaCurrent 0 0 0xFF
  let s := { s with hea := { s.hea with lostAt := none } }
  if s.modelValid then
    let b := s.anchorBias t
    let s := { s.setHea 3 with hea := { s.hea with
        holdSince := some t, bias := b, lockedSince := none, inLock := 0,
        outLock := 0, clean := 0 } }
    let s := (s.set Attr.heaHoldBias 0 0 (clampS32 b)).set Attr.heaHoldoverElapsed 0 0 (((s.hea.now - t) / 1000 : Nat) : Int)
    let s := if was = 2 then s.logAt sevWarning Attr.heaState 0 0 else s
    (s.setSteer (-(s.yHat + b))).journalModel
  else
    let s := match s.anchorMean t with
      | some m => s.setSteer m
      | none => s
    ((s.setHea 4).logAt sevError Attr.heaState 0 0).raise 2

/-- Acquires a target from FREE, HOLDOVER or LOST (R354). -/
def State.acquire (s : State) (r : Nat) : State :=
  let s := { (s.fall 2).setHea 1 with hea := { s.hea with
      holdSince := none, inLock := 0, outLock := 0, clean := 0,
      lockedSince := none } }
  if s.hea.everLocked then s.beginSwitch r else s.set Attr.heaCurrent 0 0 r

/-- A selector run (R341, R342, R354). -/
def State.chooseRef (s : State) : State :=
  if s.hea.switch.isSome then s
  else
    let t := s.refTarget
    if t = s.current then s
    else match t with
      | some r =>
        if s.heaSt = 2 then s.beginSwitch r
        else if s.heaSt = 1 then
          if s.hea.everLocked then s.beginSwitch r
          else { s.set Attr.heaCurrent 0 0 r with hea := { s.hea with inLock := 0, outLock := 0 } }
        else s.acquire r
      | none =>
        if s.heaSt = 1 ∧ ¬ s.hea.everLocked then (s.set Attr.heaCurrent 0 0 0xFF).setHea 0
        else if s.heaSt = 1 ∨ s.heaSt = 2 then s.loseReference
        else s

/-- A switch is abandoned (R348): the selector runs at once, with the old reference followed where it still is. -/
def State.abandon (s : State) : State :=
  let k := s.hea.switch
  let s : State := { s.set Attr.heaSwitching 0 0 0 with hea := { s.hea with switch := none } }
  let kept : Nat := match k.bind (·.old) with
    | some o => if (s.ref o).qualified then o else 0xFF
    | none => 0xFF
  let s : State := if s.heaSt = 2 then s else s.set Attr.heaCurrent 0 0 kept
  if s.heaSt = 1 ∧ s.current = none ∧ s.refTarget = none then s.loseReference else s.chooseRef

/-- What the loss of a reference's qualification does to the selection (R341, R346, R348). -/
def State.lostRef (s : State) (r : Nat) : State :=
  match s.hea.switch with
  | some k =>
    if k.to_ = r then s.abandon
    else if k.old = some r ∧ ¬ k.bridge ∧ s.heaSt = 2 then
      ({ s with hea := { s.hea with switch := some { k with bridge := true } } }).bridge
    else s
  | none => s.chooseRef

/-- A reference is disqualified (R338, R339). -/
def State.disqualify (s : State) (r : Nat) (count : Bool) : State :=
  if ¬ (s.ref r).qualified then s
  else
    let s := s.setRef r { (s.ref r) with qualified := false, waitEnd := none }
    let s := if count then s.bump Attr.refDisqualifications r 0 else s
    let s := { s with hea := { s.hea with disagree := s.hea.disagree.filter fun e => e.1 != r && e.2 != r } }
    s.lostRef r

/-- Disqualifies a reference that is no longer valid. -/
def State.recheck (s : State) (r : Nat) : State := if s.refValid r then s else s.disqualify r true

/-! ### Phase samples and the loop (R336, R345, R350 to R353) -/

/-- A phase difference in 50 ps units, reduced to the nearest multiple of the nominal period of `f` Hz; 0 for none.
(DEDUCED, entry 32) -/
def unwrap (f : Nat) (x : Int) : Int :=
  if f = 0 then x else x - divNear (x * f) 20000000000 * 20000000000 / f

/-- The slope of samples (time in ns, phase in units of 10 ^ -21 s) in units of 10 ^ -12 (R336): exact where they lie on a line.
(DEDUCED, entry 32) -/
def slopeOf (w : List (Int × Int)) : Option Int :=
  match w, w.getLast? with
  | (t1, p1) :: _ :: _, some (t0, p0) =>
    if t1 ≤ t0 then none
    else if w.all fun e => (e.2 - p0) * (t1 - t0) == (p1 - p0) * (e.1 - t0) then some (divNear (p1 - p0) (t1 - t0))
    else some (Config.phaseSlope w)
  | _, _ => none

/-- The phase that the steer has added to the outputs until the output time `t`, in units of 10 ^ -21 s (R336, R351): the steer
in force adds to it from one phase sample of any reference to the next. (DEDUCED, entry 32) -/
def State.accountSteer (s : State) (t : Int) : State :=
  if t ≤ s.hea.steeredAt then s
  else { s with hea := { s.hea with
    steered := s.hea.steered + (if s.hea.steeredAt = 0 then 0 else s.a Attr.heaSteer 0 0 * (t - s.hea.steeredAt))
    steeredAt := t } }

/-- The loop's steer at a phase sample `dt` ns after the last (R351): from FREE within acquire_rate.
(DESIGN CHOICE, entry 33) -/
def State.loopUpdate (s : State) (dt : Int) : State :=
  let (k, s) := s.fresh
  let old := s.a Attr.heaSteer 0 0
  let v := clampSteer (Config.loopSteer k)
  let lim := (s.n Attr.heaAcquireRate 0 0 : Int) * 10000 * dt / 1000000000
  s.setSteer (if s.heaSt = 1 ∧ ¬ s.hea.everLocked then clampInt (old - lim) (old + lim) v else v)

/-- The lock tests on the residual of the current reference, in 50 ps (R353, R354). (DESIGN CHOICE, entry 33) -/
def State.lockTests (s : State) (r : Nat) (res : Int) : State :=
  let w := (s.n Attr.heaLockWindow 0 0 : Int) * 20
  let inside := decide (-w ≤ res ∧ res ≤ w)
  let outside := decide (res < -(4 * w) ∨ 4 * w < res)
  let s := { s with hea := { s.hea with
    inLock := if inside then s.hea.inLock + 1 else 0
    outLock := if outside then s.hea.outLock + 1 else 0
    clean := if inside then s.hea.clean else 0 } }
  if s.heaSt = 1 ∧ 16 ≤ s.hea.inLock then
    let s := { s.setHea 2 with hea := { s.hea with
        everLocked := true, inLock := 0, outLock := 0,
        lockedSince := some s.hea.now } }
    s.logAt sevNotice Attr.heaState 0 0
  else if s.heaSt = 2 ∧ 16 ≤ s.hea.outLock then
    ((s.bump Attr.heaLockLosses 0 0).setHea 1).beginSwitch r
  else s

/-- A phase sample of the reference the loop follows: residual, tests, steer, bandwidth (R350 to R353). `rate` is a tenth
of the sample rate in units of 0.01 Hz. (DESIGN CHOICE, entry 33) -/
def State.loopSample (s : State) (r f rate : Nat) (p dt : Int) : State :=
  let sw := s.hea.switch
  let follows : Bool := match sw with
    | some k => k.old == some r && !k.bridge
    | none => s.current == some r
  if ¬ follows ∨ ¬ (s.heaSt = 1 ∨ s.heaSt = 2) then s
  else
    let res := unwrap f (p - 20 * s.a Attr.heaAbsorbedOffset 0 0)
    let s := s.set Attr.heaPhaseError 0 0 (clampS32 (divNear res 20))
    let s := s.set Attr.heaBandwidthUsed 0 0 ((Nat.min (s.n Attr.heaBandwidth 0 0) rate : Nat) : Int)
    let s := s.loopUpdate dt
    if sw.isSome then s else s.lockTests r res

/-- A phase sample of reference `r` at output time `t`: `f` is the nominal frequency of a pin, whose phase is taken modulo one
nominal period (R334), 0 for PTP. The oscillator's own offset is the slope of the samples less what the steer has added to them
(R336). (DEDUCED, entry 32) -/
def State.phaseIn (s : State) (r f rate : Nat) (phase t : Int) : State :=
  let s := s.accountSteer t
  let x := s.ref r
  let phase := unwrap f phase
  let p := match x.window with
    | (_, q, _) :: _ => q + unwrap f (phase - q)
    | [] => phase
  let dt := match x.window with
    | (u, _) :: _ => t - u
    | [] => 0
  let w := (((t, p, p * 50000000000 - s.hea.steered) :: x.window).mapIdx fun i e => (i, e)).filterMap fun e =>
    if e.1 ≤ 16 ∨ t - e.2.1 ≤ 1000000000 then some e.2 else none
  let s := (s.setRef r { x with window := w, present := true }).set Attr.refPhaseOffset r 0
    (signed 32 (toBits 32 (divNear phase 20)))
  let s : State := match slopeOf (w.map fun e => (e.1, e.2.2)) with
    | some v => s.set Attr.refFreqOffset r 0 (clampS32 v)
    | none => s
  let tol := decide ((s.yOf r - s.yExpected).natAbs ≤ s.n Attr.heaFreqTolerance 0 0 * 10000)
  let s := (s.setRef r { (s.ref r) with inTol := tol }).recheck r
  let s : State := match s.hea.switch with
    | some k => if k.to_ = r ∧ k.samples.length < 16 then
        { s with hea := { s.hea with switch := some { k with samples := p :: k.samples } } } else s
    | none => s
  s.loopSample r f rate p dt

/-- The phase-sample rate of a pin (R333), a tenth of it in units of 0.01 Hz. -/
def pinRate (f : Nat) : Nat := if 1000 ≤ f then 10000 else 10 * f

/-- PHASE_SAMPLE (R336): a sample of a pin reference at an output time in ns; the phase of its active edge counts (R334). The samples of a PTP reference come with its Sync messages (R335). -/
def phaseSample (r : Nat) (phase : Phases) (time : Int) (s : State) : State :=
  if 4 ≤ r then s
  else
    let f := s.n Attr.refNominalHz r 0
    s.phaseIn r f (pinRate f) (if s.n Attr.refEdge r 0 = 0 then phase.rise else phase.fall) time
/-- PHASE_SAMPLE (R336). -/
def execPhaseSample (r : Nat) (phase : Phases) (time : Int) (s : State) : Host.Outcome State Fault Refusal :=
  .next (phaseSample r phase time s)

/-- REFERENCE_QUALIFIED (R338, R339): valid for its qualification time; a returning reference starts its wait. -/
def referenceQualified (r : Nat) (s : State) : State :=
  let x := s.ref r
  let announced := decide (r < 4) || decide (4 ≤ (Store.get PtpSt.reset s.tbs.ptp (r - 4)).announces)
  if 8 ≤ r ∨ x.qualified ∨ ¬ s.refValid r ∨ s.n Attr.refEnable r 0 ≠ 1 ∨ ¬ announced then s
  else
    let w := s.n Attr.refWtrTime r 0
    (s.setRef r { x with
      qualified := true, ever := true
      waitEnd := if x.ever ∧ w ≠ 0 then some (s.hea.now + 1000 * w) else none }).chooseRef
/-- REFERENCE_QUALIFIED (R338). -/
def execReferenceQualified (r : Nat) (s : State) : Host.Outcome State Fault Refusal := .next (referenceQualified r s)

/-- REFERENCE_DISQUALIFIED (R338): the edges, or the Sync messages, of a reference stop. -/
def referenceDisqualified (r : Nat) (s : State) : State :=
  if 8 ≤ r ∨ ¬ (s.ref r).present then s
  else (s.setRef r { (s.ref r) with present := false, window := [] }).disqualify r true
/-- REFERENCE_DISQUALIFIED (R338). -/
def execReferenceDisqualified (r : Nat) (s : State) : Host.Outcome State Fault Refusal :=
  .next (referenceDisqualified r s)

/-- The wait of a reference ends (R339). -/
def State.endWait (s : State) (r : Nat) : State :=
  if (s.ref r).waitEnd.isNone then s else (s.setRef r { (s.ref r) with waitEnd := none }).chooseRef

/-- WTR_EXPIRY (R339). -/
def execWtrExpiry (r : Nat) (s : State) : Host.Outcome State Fault Refusal := .next (s.endWait r)

/-- CLEAR_WTR (R339): ends a running wait at once. -/
def clearWtr (c : Ctx) (s : State) : Answer := ok (s.endWait c.q.inst)
/-- CLEAR_WTR (R339). -/
def execClearWtr (q : Req) (s : State) : Host.Outcome State Fault Refusal := .next (serve .clearWtr clearWtr q s)

/-- Whether the frequencies of two references agree (R342). -/
def State.agree (s : State) (a b : Nat) : Bool :=
  decide ((s.yOf a - s.yOf b).natAbs ≤ s.n Attr.heaDisagreeTol 0 0 * 10000)

/-- DISAGREE (R343): two qualified references of equal rank have disagreed, or agreed, for 10 s. -/
def disagree (a b : Nat) (set : Bool) (s : State) : State :=
  let p := (Nat.min a b, Nat.max a b)
  let equal := a != b && decide (a < 8 ∧ b < 8) && (s.ref a).qualified && (s.ref b).qualified && s.rank a == s.rank b
  if ¬ equal ∨ s.disagrees a b = set ∨ s.agree a b = set then s
  else if set then
    let s := { s with hea := { s.hea with
        disagree := s.hea.disagree ++ [p],
        clean := if s.current = some a ∨ s.current = some b then 0 else s.hea.clean } }
    s.logAt sevWarning Attr.refStatus p.1 0
  else { s with hea := { s.hea with disagree := s.hea.disagree.erase p } }
/-- DISAGREE (R343). -/
def execDisagree (a b : Nat) (set : Bool) (s : State) : Host.Outcome State Fault Refusal := .next (disagree a b set s)

/-- The walk of absorbed_offset towards 0 over `ms` (R349). -/
def State.walkOffset (s : State) (ms : Nat) : State :=
  let o := s.a Attr.heaAbsorbedOffset 0 0
  if o = 0 ∨ ¬ (s.heaSt = 1 ∨ s.heaSt = 2) then s
  else
    let x := s.n Attr.heaPhaseWalk 0 0 * ms + s.hea.walk
    let d := Nat.min (x / 1000) o.natAbs
    { s.set Attr.heaAbsorbedOffset 0 0 (o - sgn o * d) with hea := { s.hea with walk := x % 1000 } }

/-- SELECTOR_RUN (R341, R342): every 10 ms, `now` ms after start-up. -/
def selectorRun (now : Nat) (s : State) : State :=
  if now < s.hea.now then s
  else
    let s := s.walkOffset (now - s.hea.now)
    let s := { s with hea := { s.hea with now := now } }
    let s := match s.heaSt, s.hea.holdSince with
      | 3, some t => s.set Attr.heaHoldoverElapsed 0 0 (((now - t) / 1000 : Nat) : Int)
      | _, _ => s
    s.chooseRef
/-- SELECTOR_RUN (R342). -/
def execSelectorRun (now : Nat) (s : State) : Host.Outcome State Fault Refusal := .next (selectorRun now s)

/-- SWITCH_COMPLETE (R345): 16 samples of the new reference are in; the offset is absorbed and the loop closes. -/
def switchComplete (s : State) : State :=
  match s.hea.switch with
  | none => s
  | some k =>
    if k.samples.length < 16 then s
    else
      let s := s.set Attr.heaAbsorbedOffset 0 0 (clampS32 (divNear k.samples.sum 320))
      let s := (s.set Attr.heaCurrent 0 0 k.to_).set Attr.heaSwitching 0 0 0
      let s := { s with hea := { s.hea with switch := none, lostAt := none, inLock := 0, outLock := 0, clean := 0, walk := 0 } }
      ((s.bump Attr.heaSwitches 0 0).logAt sevNotice Attr.heaSwitches 0 0).chooseRef
/-- SWITCH_COMPLETE (R345). -/
def execSwitchComplete (s : State) : Host.Outcome State Fault Refusal := .next (switchComplete s)

/-- HOLDOVER_STEER_UPDATE (R351, R359, R346): each second the steer follows the model. -/
def holdoverSteerUpdate (s : State) : State :=
  if s.heaSt = 3 ∨ (s.hea.switch.any (·.bridge) ∧ s.modelValid) then s.setSteer (-(s.yHat + s.hea.bias)) else s
/-- HOLDOVER_STEER_UPDATE (R359). -/
def execHoldoverSteerUpdate (s : State) : Host.Outcome State Fault Refusal := .next (holdoverSteerUpdate s)

/-- Whether the filtered temperature lies outside the modelled range (R358). -/
def State.outOfRange (s : State) : Bool :=
  decide (s.hea.temp < 65536 * s.a Attr.heaModelRange 0 0 ∨ 65536 * s.a Attr.heaModelRange 0 1 < s.hea.temp)

/-- HOLDOVER_LIMIT (R354): the selector runs, then the limits of HOLDOVER are tested; beyond them Hearth is LOST, on its
frozen steer (R355). -/
def holdoverLimit (s : State) : State :=
  let s := s.chooseRef
  if s.heaSt = 3 ∧ (s.n Attr.heaHoldoverLimit 0 0 ≤ s.n Attr.heaHoldoverElapsed 0 0 ∨ s.outOfRange) then
    ((({ s with hea := { s.hea with holdSince := none } }).setHea 4).logAt sevError Attr.heaState 0 0).raise 2
  else s
/-- HOLDOVER_LIMIT (R354). -/
def execHoldoverLimit (s : State) : Host.Outcome State Fault Refusal := .next (holdoverLimit s)

/-! ### Training (R357, R358) -/

/-- Whether the conditions of R357 hold now; the residual is watched at every sample. -/
def State.trainable (s : State) : Bool :=
  s.heaSt == 2 && s.hea.switch.isNone &&
    (match s.current with
     | some c => !((List.range 8).any fun r => s.disagrees c r) && decide (s.rank c < 0x4000)
     | none => false)

/-- The filtered temperature a second later (R356); `ts` is the sensor's reading in 0.01 °C.
(DESIGN CHOICE, entry 35) -/
def filterTemp (lag : Nat) (t ts : Int) : Int :=
  if lag = 0 then 65536 * ts else t + (65536 * ts - t) / (lag : Int)

/-- A second of Hearth (R356, R357, R359): the temperature, the age, the anchor and the training sums.
(DESIGN CHOICE, entry 35) -/
def State.hearthSecond (s : State) (ts : Int) : State :=
  let s := { s with hea := { s.hea with temp := filterTemp (s.n Attr.heaModelLag 0 0) s.hea.temp ts } }
  let s := s.add Attr.heaModelAge 0 0 1
  let y := match s.current with
    | some c => s.yOf c
    | none => 0
  let age := s.a Attr.heaModelAge 0 0
  let keep := s.hea.anchor.filter fun e => decide (s.hea.now ≤ e.1 + 62000)
  { s with hea := { s.hea with
    anchor := if s.heaSt = 2 then (s.hea.now, y, s.yHat) :: keep else keep
    acc := (⟨y, s.hea.temp, age⟩ :: s.hea.acc).take 16
    clean := if s.trainable then s.hea.clean + 1 else 0 } }

/-- The determinant of the leading `n` × `n` matrix, by the first row. -/
def det : Nat → List (List Int) → Int
  | 0, _ => 1
  | n + 1, m =>
    match m with
    | [] => 1
    | row :: rest =>
      ((row.take (n + 1)).mapIdx fun j a =>
        (if j % 2 = 0 then a else -a) * det n (rest.map fun r => r.eraseIdx j)).sum

/-- The integer nearest to `a / b`. -/
def ratio (a b : Int) : Int := if b < 0 then divNear (-a) (-b) else divNear a b

/-- The weight of the sample `i` places before the latest, with 96 fraction bits (R358). (DEDUCED, entry 34) -/
def trainWeight (memory : Nat) : Nat → Int
  | 0 => fxOne
  | i + 1 => fxMul (trainWeight memory i) (fxOne * ((memory : Int) - 16) / memory)

/-- The least-squares coefficients over the used samples, for the coefficients in use (R358): each with its scale to
the units of R356; none where they are not determined. (DEDUCED, entry 34) -/
def leastSquares (use : List Nat) (t0 : Int) (rows : List (Int × TrainSample)) : Option (List (Nat × Int)) :=
  let feature (x : TrainSample) (j : Nat) : Int :=
    let d := x.t - 16 * 65536 * t0
    if j = 0 then 1 else if j = 1 then d else if j = 2 then d * d else x.age
  let scale (j : Nat) : Int × Int :=
    let u := 16 * 6553600
    if j = 0 then (1, 16) else if j = 1 then (u, 16) else if j = 2 then (u * u, 16) else (16 * 86400, 16)
  let dot (f g : TrainSample → Int) : Int := (rows.map fun r => r.1 * f r.2 * g r.2).sum
  let a := use.map fun i => use.map fun j => dot (feature · i) (feature · j)
  let b := use.map fun i => dot (feature · i) (·.y)
  let n := use.length
  let d := det n a
  if d = 0 then none
  else some (use.mapIdx fun k j =>
    let ak := a.mapIdx fun i row => row.set k (b.getD i 0)
    (j, ratio ((scale j).1 * det n ak) ((scale j).2 * d)))

/-- Refits the model to its used samples (R358). (DEDUCED, entry 34) -/
def State.refit (s : State) : State :=
  let l := s.hea.train
  let n : Int := l.length
  let hist := s.n Attr.heaModelHistory 0 0
  let lo := s.a Attr.heaModelRange 0 0
  let hi := s.a Attr.heaModelRange 0 1
  let span := hi - lo - 400
  let use := [0] ++ (if 200 ≤ span then [1] else []) ++ (if 800 ≤ span then [2] else []) ++
    (if 86400 ≤ hist then [3] else [])
  let t0 := divNear ((l.map (·.t)).sum) (16 * 65536 * n)
  if s.hea.resumed then
    let (k, s) := s.fresh
    s.setList Attr.heaModelCoef 0 0 ((List.range 4).map fun i => if use.contains i then clampS32 (Config.refit k i) else 0)
  else
    let rows := l.mapIdx fun i x => (trainWeight (s.n Attr.heaModelMemory 0 0) i, x)
    match leastSquares use t0 rows with
    | none => s
    | some cs =>
      let c (i : Nat) : Int := clampS32 ((cs.lookup i).getD 0)
      let s := (s.setList Attr.heaModelCoef 0 0 ((List.range 4).map c)).set Attr.heaModelT0 0 0 t0
      let res (x : TrainSample) : Int := divNear x.y 16 - modelAt c t0 x.t x.age
      let w := (rows.map (·.1)).sum
      let e := (rows.map fun r => r.1 * res r.2 * res r.2).sum
      s.set Attr.heaModelRms 0 0 (isqrt (e / w).toNat : Nat)

/-- A used training sample joins the model: history, range, fit (R358). -/
def State.useSample (s : State) (x : TrainSample) : State :=
  let t := divNear x.t (16 * 65536)
  let first := s.n Attr.heaModelHistory 0 0 == 0
  let lo := if first ∨ t - 200 < s.a Attr.heaModelRange 0 0 then t - 200 else s.a Attr.heaModelRange 0 0
  let hi := if first ∨ s.a Attr.heaModelRange 0 1 < t + 200 then t + 200 else s.a Attr.heaModelRange 0 1
  let s := ((s.set Attr.heaModelRange 0 0 lo).set Attr.heaModelRange 0 1 hi).add Attr.heaModelHistory 0 0 16
  ({ s with hea := { s.hea with train := x :: s.hea.train } }).refit

/-- TRAINING_SAMPLE (R357): the 16 seconds end; their means are used where the conditions held for 76 s. -/
def trainingSample (s : State) : State :=
  if s.hea.acc.length < 16 then s
  else
    let l := s.hea.acc
    let x : TrainSample := ⟨(l.map (·.y)).sum, (l.map (·.t)).sum, (l.map (·.age)).sum⟩
    let s := { s with hea := { s.hea with acc := [] } }
    if s.hea.clean < 76 then s else s.useSample x
/-- TRAINING_SAMPLE (R357). -/
def execTrainingSample (s : State) : Host.Outcome State Fault Refusal := .next (trainingSample s)

/-- MODEL_JOURNAL (R360): after an hour of training. -/
def modelJournal (s : State) : State :=
  if s.hea.written + 3600 ≤ s.n Attr.heaModelHistory 0 0 then s.journalModel else s
/-- MODEL_JOURNAL (R360). -/
def execModelJournal (s : State) : Host.Outcome State Fault Refusal := .next (modelJournal s)

/-- MODEL_RESET (R360): coefficients, range, history and age are cleared. -/
def modelReset (_c : Ctx) (s : State) : Answer :=
  let s := [Attr.heaModelCoef, Attr.heaModelT0, Attr.heaModelRange, Attr.heaModelHistory, Attr.heaModelAge,
    Attr.heaModelRms].foldl (fun s code => s.clearAttr code 0) s
  ok { s with hea := { s.hea with train := [], acc := [], restored := false, resumed := false, written := 0 } }
/-- MODEL_RESET (R360). -/
def execModelReset (q : Req) (s : State) : Host.Outcome State Fault Refusal := .next (serve .modelReset modelReset q s)

/-- HOST_TEMPERATURE_TIMEOUT (R362): no fresh value for 10 s with model_sensor at 8. -/
def hostTemperatureTimeout (s : State) : State :=
  if s.n Attr.heaModelSensor 0 0 = 8 then { s with hea := { s.hea with stale := true } } else s
/-- HOST_TEMPERATURE_TIMEOUT (R362). -/
def execHostTemperatureTimeout (s : State) : Host.Outcome State Fault Refusal := .next (hostTemperatureTimeout s)

/-- RESTORED_MODEL_WITHHOLD_END (R360): LOCKED for 300 s in the present run. -/
def restoredModelWithholdEnd (s : State) : State :=
  match s.hea.lockedSince with
  | some t =>
    if s.heaSt = 2 ∧ t + 300000 ≤ s.hea.now then { s with hea := { s.hea with restored := false } } else s
  | none => s
/-- RESTORED_MODEL_WITHHOLD_END (R360). -/
def execRestoredModelWithholdEnd (s : State) : Host.Outcome State Fault Refusal := .next (restoredModelWithholdEnd s)

end Sys2Proof.Machine
end

