-- ==== Sys2Proof/Machine/Health.lean ====
section
/-! DEFINITION. Monitors, self-diagnosis, the counter unit, tagging and development access (R547 to R570). -/

namespace Sys2Proof.Machine

/-! ### Monitors (R547 to R552) -/

/-- The ALERT ball follows the conditions "critical temperature" and "voltage outside its window" (R552). -/
def State.setAlert (s : State) : State :=
  { s with hlt := { s.hlt with alert := s.condition 3 || s.condition 4 } }

/-- A run of consecutive samples, kept up to 4. -/
def runOf (m : Store Nat) (k : Nat) (hit : Bool) : Store Nat := Store.set 0 m k (if hit then Nat.min 4 (Store.get 0 m k + 1) else 0)

/-- Whether the run of each of `n` monitors has reached 4. -/
def allFour (m : Store Nat) (n : Nat) : Bool := (List.range n).all fun k => Store.get 0 m k == 4
/-- Whether the run of some of `n` monitors has reached 4. -/
def someFour (m : Store Nat) (n : Nat) : Bool := (List.range n).any fun k => Store.get 0 m k == 4

/-- A monitor warns, or its warning ends. -/
def State.warn (s : State) (inst : Nat) (on off : Bool) (code : Nat) : State :=
  if on ∧ ¬ s.hlt.warned.contains inst then
    ({ s with hlt := { s.hlt with warned := inst :: s.hlt.warned } }).logAt sevWarning code inst 0
  else if off ∧ s.hlt.warned.contains inst then
    ({ s with hlt := { s.hlt with warned := s.hlt.warned.erase inst } }).logAt sevNotice code inst 0
  else s

/-- A reading, and its extremes since the last clear (R567). -/
def State.reading (s : State) (inst : Nat) (v : Int) (high : Nat) (low : Option Nat) : State :=
  let first := !s.hlt.seen.contains inst
  let s := s.set Attr.monReading inst 0 v
  let s := if first ∨ s.a high inst 0 < v then s.set high inst 0 v else s
  let s := match low with
    | some c => if first ∨ v < s.a c inst 0 then s.set c inst 0 v else s
    | none => s
  if first then { s with hlt := { s.hlt with seen := inst :: s.hlt.seen } } else s

/-- A sample of one temperature sensor (R548). -/
def State.tempOne (s : State) (t : Nat) (v : Int) : State :=
  let w := s.a Attr.monWarnHigh t 0
  let s := (s.reading t v Attr.monMaxReading none).warn t (decide (w ≤ v)) (decide (v ≤ w - 300)) Attr.monReading
  { s with hlt := { s.hlt with
      hot := runOf s.hlt.hot t (decide (10500 ≤ v)), cool := runOf s.hlt.cool t (decide (v < 10200)) } }

/-- The temperature the model follows, in 0.01 °C (R356, R362): a sensor, or the host's. -/
def State.modelTemp (s : State) : Int :=
  let k := s.n Attr.heaModelSensor 0 0
  if k = 8 then s.a Attr.heaHostTemperature 0 0 else s.a Attr.monReading k 0

/-- TEMPERATURE_SAMPLE (R548): every 10 ms; each hundredth brings Hearth's second (R356). -/
def temperatureSample (readings : List Int) (s : State) : State :=
  let s := ((List.range 8).zip readings).foldl (fun s e => s.tempOne e.1 (clampInt (-32768) 32767 e.2)) s
  let s := if someFour s.hlt.hot 8 then s.raise 3 else if allFour s.hlt.cool 8 then s.fall 3 else s
  let s := s.setAlert
  if s.hea.ticks < 99 then { s with hea := { s.hea with ticks := s.hea.ticks + 1 } }
  else ({ s with hea := { s.hea with ticks := 0 } }).hearthSecond s.modelTemp
/-- TEMPERATURE_SAMPLE (R548). -/
def execTemperatureSample (readings : List Int) (s : State) : Host.Outcome State Fault Refusal :=
  .next (temperatureSample readings s)

/-- Nominal of a voltage monitor in mV (R549). -/
def vmNominal (v : Nat) : Nat := [750, 750, 800, 800, 900, 1200, 1050, 500, 1800, 3300].getD v 0

/-- A sample of one voltage monitor (R550). -/
def State.voltOne (s : State) (v x : Nat) : State :=
  let i := 0x10 + v
  let nom := vmNominal v
  let off := ((x : Int) - nom).natAbs
  let outside := decide (nom * s.n Attr.vmWarnPct i 0 < off * 10000)
  let faulty := decide (nom < off * 20)
  let s := s.reading i x Attr.vmMaxReading (some Attr.vmMinReading)
  let s := { s with hlt := { s.hlt with
      wOut := runOf s.hlt.wOut v outside, wIn := runOf s.hlt.wIn v (!outside)
      out := runOf s.hlt.out v faulty, in_ := runOf s.hlt.in_ v (!faulty) } }
  s.warn i (Store.get 0 s.hlt.wOut v == 4) (Store.get 0 s.hlt.wIn v == 4) Attr.vmReading

/-- VOLTAGE_SAMPLE (R550): every 100 µs, in mV. -/
def voltageSample (readings : List Nat) (s : State) : State :=
  let s := ((List.range 10).zip readings).foldl (fun s e => s.voltOne e.1 (Nat.min e.2 65535)) s
  (if someFour s.hlt.out 10 then s.raise 4 else if allFour s.hlt.in_ 10 then s.fall 4 else s).setAlert
/-- VOLTAGE_SAMPLE (R550). -/
def execVoltageSample (readings : List Nat) (s : State) : Host.Outcome State Fault Refusal :=
  .next (voltageSample readings s)

/-- A sample of one process monitor (R551); `d` is the corrected deviation in units of 0.01 %. -/
def State.processOne (s : State) (x r : Nat) (d : Int) : State :=
  let i := 0x20 + x
  let s := (s.set Attr.pxReading i 0 r).set Attr.pxDeviation i 0 d
  if 500 < d.natAbs ∧ ¬ s.hlt.px.contains x then
    ({ s with hlt := { s.hlt with px := x :: s.hlt.px } }).logAt sevWarning Attr.pxDeviation i 0
  else s

/-- PROCESS_SAMPLE (R551): every second; the deviations corrected to factory temperature and voltage. -/
def processSample (readings : List Nat) (deviations : List Int) (s : State) : State :=
  ((List.range 4).zip (readings.zip deviations)).foldl (fun s e =>
    s.processOne e.1 (Nat.min e.2.1 4294967295) (clampInt (-32768) 32767 e.2.2)) s
/-- PROCESS_SAMPLE (R551). -/
def execProcessSample (readings : List Nat) (deviations : List Int) (s : State) : Host.Outcome State Fault Refusal :=
  .next (processSample readings deviations s)

/-! ### Self-diagnosis (R554) -/

/-- CLEAR_CONDITIONS (R554): the latches of bits 0, 1 and 6. -/
def clearConditions (_c : Ctx) (s : State) : Answer :=
  if s.hlt.fatalMarch then refuse rState
  else
    let keep (w : Nat) : Int := ((w &&& 0xFFBC : Nat) : Int)
    ok ((s.set Attr.diaLatched 0 0 (keep (s.n Attr.diaLatched 0 0))).set Attr.diaPresent 0 0 (keep (s.n Attr.diaPresent 0 0)))
/-- CLEAR_CONDITIONS (R554). -/
def execClearConditions (q : Req) (s : State) : Host.Outcome State Fault Refusal :=
  .next (serve .clearConditions clearConditions q s)

/-! ### Counters and tags (R555, R556, R563, R569) -/

/-- Whether an event code is listed (R556). -/
def eventListed (e : Nat) : Bool :=
  decide (e ≤ 1 ∨ (0x10 ≤ e ∧ e ≤ 0x27) ∨ (0x30 ≤ e ∧ e ≤ 0x47) ∨ (0x50 ≤ e ∧ e ≤ 0xD9) ∨ (0xE0 ≤ e ∧ e ≤ 0xF3) ∨
    (0x100 ≤ e ∧ e ≤ 0x1FF))

/-- Whether a counter may hold a control word (R555, R556). -/
def controlOk (k w : Nat) : Bool :=
  field w 9 21 == 0 && !(bit w 30 && k % 2 == 0) && eventListed (w % 512)

/-- CONTROL (R555, R556). -/
def writeControl (c : Ctx) (s : State) : Answer :=
  if controlOk c.q.inst c.arg.toNat then ok (s.store c) else refuse rRange
/-- CONTROL (R555). -/
def execControl (q : Req) (s : State) : Host.Outcome State Fault Refusal := .next (serve .control writeControl q s)

/-- CLEAR_MASK (R569): every counter whose bit is 1. -/
def clearMask (c : Ctx) (s : State) : Answer :=
  let m := c.arg.toNat
  ok ((List.range 64).foldl (fun s k => if bit m k then s.set Attr.cntValue k 0 0 else s) s)
/-- CLEAR_MASK (R569). -/
def execClearMask (q : Req) (s : State) : Host.Outcome State Fault Refusal := .next (serve .clearMask clearMask q s)

/-- TAG_CLEAR (R569): sequence numbers continue. -/
def tagClear (_c : Ctx) (s : State) : Answer :=
  ok (({ s with hlt := { s.hlt with tags := [] } }).set Attr.cntTagsSkipped 0x100 0 0)
/-- TAG_CLEAR (R569). -/
def execTagClear (q : Req) (s : State) : Host.Outcome State Fault Refusal := .next (serve .tagClear tagClear q s)

/-! ### Development access (R564 to R566, R570) -/

/-- ISSUE_CHALLENGE (R564, R565): refused for 60 s after four failures. -/
def issueChallenge (_c : Ctx) (s : State) : Answer :=
  if s.hlt.lockout then refuse rBusy
  else
    let (k, s) := s.fresh
    let r := Config.randomBytes k 32
    let b := (List.range 32).map fun i => r.getD i 0
    .ok ({ s with hlt := { s.hlt with challenge := some b } }, { data := b })
/-- ISSUE_CHALLENGE (R564). -/
def execIssueChallenge (q : Req) (s : State) : Host.Outcome State Fault Refusal :=
  .next (serve .issueChallenge issueChallenge q s)

/-- CHALLENGE_EXPIRY (R564). -/
def challengeExpiry (s : State) : State := { s with hlt := { s.hlt with challenge := none } }
/-- CHALLENGE_EXPIRY (R564). -/
def execChallengeExpiry (s : State) : Host.Outcome State Fault Refusal := .next (challengeExpiry s)

/-- A failed unlock (R565): counted; the fourth in a row starts the lockout. The challenge is consumed.
(DEDUCED, entry 44) -/
def State.unlockFails (s : State) : Answer :=
  let n := s.hlt.fails + 1
  .ok (({ s with hlt := { s.hlt with challenge := none, fails := n, lockout := s.hlt.lockout || decide (4 ≤ n) } }).bump
    Attr.devDevFailures 0 0, { result := rAuth })

/-- UNLOCK (R564, R565): the public key and the signature over the challenge. (DEDUCED, entry 44) -/
def unlock (c : Ctx) (s : State) : Answer :=
  let pub := c.q.data.take 64
  let sig := c.q.data.drop 64
  if Config.devKeyHash.all (· == 0) then s.unlockFails
  else match s.hlt.challenge with
    | none => refuse rState
    | some ch =>
      let msg := [0x5A, 0x42, 0x44, 0x41].map byteOf ++ ch ++ leBytes 8 Config.uid
      if sha256 pub = Config.devKeyHash ∧ ecdsaVerify pub (sha256 msg) sig then
        let s := { s with hlt := { s.hlt with challenge := none, fails := 0 } }
        ok ((s.set Attr.devUnlocked 0 0 1).logAt sevNotice Attr.devUnlocked 0 0)
      else s.unlockFails
/-- UNLOCK (R565). -/
def execUnlock (q : Req) (s : State) : Host.Outcome State Fault Refusal := .next (serve .unlock unlock q s)

/-- UNLOCK_LOCKOUT_EXPIRY (R565): the 60 s have passed. (DEDUCED, entry 44) -/
def unlockLockoutExpiry (s : State) : State :=
  if s.hlt.lockout then { s with hlt := { s.hlt with lockout := false, fails := 0 } } else s
/-- UNLOCK_LOCKOUT_EXPIRY (R565). -/
def execUnlockLockoutExpiry (s : State) : Host.Outcome State Fault Refusal := .next (unlockLockoutExpiry s)

/-- LOCK (R570). -/
def lock (_c : Ctx) (s : State) : Answer := ok (s.set Attr.devUnlocked 0 0 0)
/-- LOCK (R570). -/
def execLock (q : Req) (s : State) : Host.Outcome State Fault Refusal := .next (serve .lock lock q s)

/-- TMUX_SELECT (R564, R566): refused while locked. -/
def tmuxSelect (c : Ctx) (s : State) : Answer :=
  if s.n Attr.devUnlocked 0 0 = 0 ∧ ¬ c.atOnce then refuse rState else ok (s.store c)
/-- TMUX_SELECT (R566). -/
def execTmuxSelect (q : Req) (s : State) : Host.Outcome State Fault Refusal := .next (serve .tmuxSelect tmuxSelect q s)

end Sys2Proof.Machine
end

