-- ==== Sys2Proof/Machine/Crucible.lean ====
section
/-! DEFINITION. The Crucible's commands (R38 to R92, R607): node gains, occupants and row swaps, loading the idle
plane, and the strike. The evaluation itself is in Evaluate. -/

namespace Sys2Proof.Machine

/-! ### Node gains -/

/-- GAIN (R60, R61, R80, R94): the nodes written ramp as one group on the plane live at their first sample. -/
def writeGain (c : Ctx) (s : State) : Answer :=
  let f := match c.due with
    | some d => d
    | none => s.eng.count
  let pl := s.planeAt f
  let nodes := c.vals.mapIdx fun i v =>
    let p := RParam.node pl c.q.inst (c.q.elem + i)
    (p, if c.code = Attr.nodeGainCdb then cdbWrite (s.target p) v else v)
  match writeRamps c nodes s with
  | .ok t => ok t
  | .error e => .error e
/-- GAIN (R60). -/
def execGain (q : Req) (s : State) : Host.Outcome State Fault Refusal := .next (serve .gain writeGain q s)

/-- An idle-plane node takes its gain at once; a leftover ramp on it is cancelled (R52, R64, R81). -/
def State.writeIdle (s : State) (sr d : Nat) (g : Int) : State :=
  let pl := 1 - s.live
  let s := { s with bel := { s.bel with ramps := s.bel.ramps.filter fun (r : Ramp) => r.param != RParam.node pl sr d } }
  s.setNode pl sr d (nodeOf g false)

/-- Whether the idle plane refuses a write: a load runs, or a strike (R65, R81). -/
def State.idleLocked (s : State) : Bool := s.n Attr.cruIdleBusy 0 0 == 1 || s.n Attr.cruStrikeState 0 0 == 2

/-- IDLE_GAIN (R64, R65, R67, R81). -/
def writeIdleGain (c : Ctx) (s : State) : Answer :=
  if s.idleLocked ∧ ¬ c.atOnce then refuse rBusy
  else
    let pl := 1 - s.live
    let vs := c.vals.mapIdx fun i v => (c.q.elem + i, v)
    ok (vs.foldl (fun t e =>
      t.writeIdle c.q.inst e.1
        (if c.code = Attr.nodeIdleGainCdb then cdbWrite (gainOf (s.nodeWord pl c.q.inst e.1)) e.2 else e.2)) s)
/-- IDLE_GAIN (R64). -/
def execIdleGain (q : Req) (s : State) : Host.Outcome State Fault Refusal := .next (serve .idleGain writeIdleGain q s)

/-! ### Occupants (R40 to R48, R84 to R88) -/

/-- The slot an item occupies (R41). -/
def State.slotOf (s : State) (w : Nat) : Option Nat :=
  (s.listed Attr.slotOccupant).findSome? fun e => if e.2.2 = (w : Int) then some e.1 else none

/-- Why an occupant word is refused (R45, R48). -/
def State.occupantBad (s : State) (w : Nat) : Option Nat :=
  let i := w % 2 ^ 28
  match w / 2 ^ 28 with
  | 0 => if i = 0 then none else some rRange
  | 1 => if i < s.ins then none else some rRange
  | 2 => if s.D ≤ i then some rRange else if weldRole (s.a Attr.weldBinding i 0) then some rState else none
  | 3 =>
    (match s.mod? (i / 256) with
     | some m => if i % 256 < m.image.nOut then none else some rRange
     | none => some rRange)
  | _ => some rRange

/-- The slot an item is bound to, a binding that waits for a ramp slot among them (R41, R86). -/
def State.boundSlot (s : State) (w : Nat) : Option Nat := s.bound.findSome? fun e => if e.2 = w then some e.1 else none

/-- The changes of a binding: the slot written, and the slot the item leaves (R41). -/
def State.bindings (s : State) (slot w : Nat) : List (Nat × Nat) :=
  match (if w = 0 then none else s.boundSlot w) with
  | some u => if u = slot then [] else [(u, 0), (slot, w)]
  | none => [(slot, w)]

/-- The row swap of a slot to an occupant. -/
def State.swapOf (s : State) (ord : Nat) (e : Nat × Nat) : NewRamp :=
  ⟨.swap e.1, (e.2 : Int), samplesOf (s.n Attr.slotSwapTime e.1 0) s.eng.cfg.fs, 0, s.a Attr.slotOccupant e.1 0, ord⟩

/-- Accepts the row swaps of a binding (R84 to R86): where the swap of one of its slots waits, the others join its group, so
that both begin on the same sample. (DEDUCED, entry 47) -/
def State.acceptSwaps (s : State) (l : List NewRamp) (due : Option Nat) (steps : Bool) : Except Fail State :=
  let waits := fun (r : NewRamp) => (s.queued? r.param).isSome
  let new := l.filter fun r => !waits r
  if l.any waits ∧ new ≠ [] then
    if 4096 < new.length + s.queueUsed then .error ⟨rRampFull, 0, [Attr.belRampFullCount]⟩
    else
      let s := (l.filter waits).foldl State.requeue s
      let queue := s.bel.queue.map fun (g : Group) =>
        if (g.ramps.any fun x => l.any fun r => r.param == x.param) then { g with ramps := g.ramps ++ new } else g
      .ok { s with bel := { s.bel with queue := queue } }
  else s.acceptGroup l due steps (Attr.slotOccupant, 0)

/-- Rebinds a slot (R41, R43, R44, R84 to R87): refused while a swap runs on a slot concerned, admitted, then made as
row swaps. -/
def bindSlot (c : Ctx) (slot w : Nat) (s : State) : Answer :=
  match s.occupantBad w with
  | some e => refuse e
  | none =>
    if s.target (.swap slot) = (w : Int) then ok s
    else
      let ch := s.bindings slot w
      if ch.any fun e => s.inFlight (.swap e.1) then refuse rBusy
      else
        let t := ch.foldl (fun t e => t.set Attr.slotOccupant e.1 0 (e.2 : Int)) s
        if c.atOnce then ok t
        else
          let undo := ch.map fun e => (attrKey Attr.slotOccupant e.1 0, s.a Attr.slotOccupant e.1 0)
          match t.admits with
          | .no e => refuse e
          | .inc p _ =>
            if ¬ s.ticking then ok (t.loadAttrs t.topo t.place)
            else if s.plc.plans.all (·.effect = []) then
              match s.acceptSwaps (ch.map (s.swapOf (s.order c))) c.due c.accepted with
              | .ok t => ok (t.loadAttrs t.topo t.place)
              | .error f => .error f
            else
              (match t.addPlan (address c.code c.q.inst) p [] undo with
               | some (k, t) => okTicket t k
               | none => refuse rBusy)
          | .plan _ _ _ => admitChange s t (address c.code c.q.inst) undo

/-- OCCUPANT: a write of a slot's occupant, or of an in-strip's source, which is the same binding (R42). -/
def writeOccupant (c : Ctx) (s : State) : Answer :=
  let v := c.arg.toNat
  if c.code = Attr.slotOccupant then bindSlot c c.q.inst v s
  else
    let w := 2 ^ 28 + c.q.inst
    if v = 0xFFFF then
      (match s.slotOf w with
       | some u => bindSlot c u 0 s
       | none => ok s)
    else if s.S ≤ v then refuse rRange
    else bindSlot c v w s
/-- OCCUPANT (R41). -/
def execOccupant (q : Req) (s : State) : Host.Outcome State Fault Refusal := .next (serve .occupant writeOccupant q s)

/-- ROW_SWAP_END (R84, R86, R104): the swap has delivered its last sample and its slot is freed. -/
def rowSwapEnd (slot : Nat) (s : State) : State := rampEnd (.swap slot) s
/-- ROW_SWAP_END (R84). -/
def execRowSwapEnd (slot : Nat) (s : State) : Host.Outcome State Fault Refusal := .next (rowSwapEnd slot s)

/-! ### The strike (R68 to R78) -/

/-- The changes of a node on plane `pl` that begin at or after sample `f`, oldest first, as ramps of the other plane. -/
def lateChanges (pl f : Nat) (r : Ramp) : List (NewRamp × Nat) :=
  match r.param with
  | .node p x y =>
    if p = pl then
      ((r.segs.filter fun g => decide (f ≤ g.first)).reverse.map fun g =>
        (⟨.node (1 - pl) x y, g.g1, g.len, g.shape, 0, g.ord⟩, g.first))
    else []
  | _ => []

/-- A ramp of a node on plane `pl` without its changes at or after sample `f`, and the target the node then has. -/
def State.leaveEarly (s : State) (pl f : Nat) (r : Ramp) : State :=
  match r.param with
  | .node p _ _ =>
    let early := r.segs.filter fun g => decide (g.first < f)
    if p ≠ pl ∨ early.length = r.segs.length then s
    else
      let rest := s.bel.ramps.filter fun (x : Ramp) => x.param != r.param
      (match early with
       | [] => ({ s with bel := { s.bel with ramps := rest } }).commitParam r.param ((r.segs.getLast?.map fun (g : Seg) => g.g0).getD 0) false
       | g :: _ => ({ s with bel := { s.bel with ramps := rest ++ [{ r with segs := early }] } }).commitParam r.param g.g1 r.slot)
  | _ => s

/-- Changes of nodes that begin at or after the first sample `f` of a strike go to its target plane, those accepted before
the strike in the same period among them (R80). One that finds no slot there steps. (DEDUCED, entry 47) -/
def State.moveChanges (s : State) (pl f : Nat) : State :=
  let ramps := s.bel.ramps
  let s := ramps.foldl (fun s r => s.leaveEarly pl f r) s
  (ramps.flatMap (lateChanges pl f)).foldl (fun s e =>
    s.startRamp (if s.newSlots [e.1] + s.slotsUsed ≤ 16384 then e.1 else { e.1 with len := 0 }) e.2) s

/-- A strike begins at sample `f` (R70): the target plane is live, with the length and law in force there (R68). -/
def State.startStrike (s : State) (f ticket : Nat) : State :=
  let len := samplesOf (s.n Attr.cruStrikeTime 0 0) s.eng.cfg.fs
  let k : Strike := ⟨f, len, s.n Attr.cruStrikeLaw 0 0, ticket⟩
  let pl := s.live
  let s := { s with cru := { s.cru with strike := some k } }
  (((s.set Attr.cruLivePlane 0 0 (1 - pl : Nat)).set Attr.cruStrikeState 0 0 2).moveChanges pl f).note 6
    (address Attr.cruStrike 0) 0 f

/-- The strike is over (R75): the source plane is idle, the count rises, the strike is journalled. -/
def State.leaveStrike (s : State) : State :=
  let s := { s with cru := { s.cru with strike := none } }
  (((s.set Attr.cruStrikeState 0 0 0).set Attr.cruStrikePosition 0 0 0).bump Attr.cruStrikeCount 0 0).commit
    [actionRec Attr.cruStrike 0 [byteOf 0]]

/-- A strike completes at once (R78, R114), with its ticket. -/
def State.endStrike (s : State) (ticket : Nat) : State := s.leaveStrike.completeTicket ticket rOk

/-- The words of a plane. -/
def State.plane (s : State) (pl : Nat) : Store Nat := if pl = 0 then s.cru.planeA else s.cru.planeB

/-- The ramps of nodes on a plane. -/
def State.rampsOn (s : State) (pl : Nat) : List Ramp :=
  s.bel.ramps.filter fun r => match r.param with
    | .node p _ _ => p == pl
    | _ => false

/-- Ended strikes for which `p` holds have been heard to their end: their tickets complete (R75). -/
def State.settlePast (s : State) (p : PastStrike → Bool) : State :=
  let done := s.cru.past.filter p
  done.foldl (fun s k => s.completeTicket k.strike.ticket rOk)
    { s with cru := { s.cru with past := s.cru.past.filter fun k => !p k } }

/-- STRIKE (R68, R69, R77, R114): at once, pending for a timed one, complete at once with the tick stopped. -/
def doStrike (c : Ctx) (s : State) : Answer :=
  if c.atOnce then ok (s.set Attr.cruLivePlane 0 0 (1 - s.live : Nat))
  else match c.due, s.cru.strike with
  | some d, some k =>
    -- the pending strike falls due
    if s.ticking then ok (s.startStrike d k.ticket)
    else ok ((s.set Attr.cruLivePlane 0 0 (1 - s.live : Nat)).endStrike k.ticket)
  | _, _ =>
    if s.n Attr.cruStrikeState 0 0 ≠ 0 ∨ s.n Attr.cruIdleBusy 0 0 = 1 then refuse rBusy
    else match s.openTicket (address Attr.cruStrike 0) 0 with
      | none => refuse rBusy
      | some (k, s) =>
        match c.sched with
        | some d =>
          let s := { s with cru := { s.cru with strike := some ⟨d, 0, 0, k⟩ } }
          okTicket (s.set Attr.cruStrikeState 0 0 1) k
        | none =>
          if s.ticking then okTicket (s.startStrike s.eng.count k) k
          else okTicket ((s.set Attr.cruLivePlane 0 0 (1 - s.live : Nat)).endStrike k) k
/-- STRIKE (R68). -/
def execStrike (q : Req) (s : State) : Host.Outcome State Fault Refusal := .next (serve .strike doStrike q s)

/-- STRIKE_END (R75): in the period that holds the sample after i = L − 1 the state returns to IDLE and the source plane is
idle; the strike's own samples are evaluated on the source plane as it stands now. Its ticket completes at a tick.
(DEDUCED, entry 11) -/
def strikeEnd (s : State) : State :=
  match s.cru.strike with
  | some k =>
    if s.n Attr.cruStrikeState 0 0 = 2 ∧ k.first + k.len < s.eng.count + s.eng.cfg.n then
      let src := 1 - s.live
      ({ s with cru := { s.cru with past := s.cru.past ++ [PastStrike.mk k src (s.plane src) (s.rampsOn src)] } }).leaveStrike
    else s
  | none => s
/-- STRIKE_END (R75). -/
def execStrikeEnd (s : State) : Host.Outcome State Fault Refusal := .next (strikeEnd s)

/-- CANCEL_STRIKE (R77): withdraws a pending strike; refused while striking; nothing with none pending. -/
def cancelStrike (_c : Ctx) (s : State) : Answer :=
  if s.n Attr.cruStrikeState 0 0 = 2 then refuse rState else ok s.withdrawStrike
/-- CANCEL_STRIKE (R77). -/
def execCancelStrike (q : Req) (s : State) : Host.Outcome State Fault Refusal :=
  .next (serve .cancelStrike cancelStrike q s)

/-! ### Loading the idle plane (R64 to R66, R607) -/

/-- The targets of a plane inside a shape, with no RAMP bits (R66). -/
def planeTargets (m : Store Nat) (src dst : Nat) : Store Nat :=
  (m.filter fun e => e.1 / 2048 < src ∧ e.1 % 2048 < dst).filterMap fun e =>
    if e.2 % 2 ^ 24 = 0 then none else some (e.1, e.2 % 2 ^ 24)

/-- A plane with its rows `lo`…`hi` − 1 replaced by those of `m`. -/
def spliceRows (lo hi : Nat) (m plane : Store Nat) : Store Nat :=
  plane.filter (fun e => decide (e.1 / 2048 < lo)) ++ m.filter (fun e => decide (lo ≤ e.1 / 2048 ∧ e.1 / 2048 < hi)) ++
    plane.filter (fun e => decide (hi ≤ e.1 / 2048))

/-- Rows below `upto` that hold a node. -/
def rowCount (m : Store Nat) (upto : Nat) : Nat :=
  (m.foldl (fun (a : Nat × Option Nat) (e : Nat × Nat) =>
    if upto ≤ e.1 / 2048 ∨ a.2 = some (e.1 / 2048) then a else (a.1 + 1, some (e.1 / 2048))) (0, none)).1

/-- The bytes TC15 delivers for the rows of a load up to `upto` (R607): every node of a copy or a clear; for a scene that is
staged, those of the clear, and the nodes that are not zero (R522). -/
def State.loadBytes (s : State) (l : IdleLoad) (upto : Nat) : Nat :=
  let nodes := l.words.filter fun e => decide (l.rowsDone ≤ e.1 / 2048 ∧ e.1 / 2048 < upto)
  4 * s.D * (Nat.min upto s.S - l.rowsDone) + (if l.kind = 2 then 4 * nodes.length else 0)

/-- Writes rows of the load into the idle plane through TC15 (R192, R607), cancelling leftover ramps there (R52). -/
def State.loadRows (s : State) (l : IdleLoad) (upto : Nat) : State :=
  let s := s.tcBytes 15 (s.loadBytes l upto)
  let pl := 1 - s.live
  let keep (r : Ramp) : Bool := match r.param with
    | .node p sr _ => !(p == pl && decide (l.rowsDone ≤ sr ∧ sr < upto))
    | _ => true
  let s := { s with bel := { s.bel with ramps := s.bel.ramps.filter keep } }
  let s := if pl = 0 then { s with cru := { s.cru with planeA := spliceRows l.rowsDone upto l.words s.cru.planeA } }
    else { s with cru := { s.cru with planeB := spliceRows l.rowsDone upto l.words s.cru.planeB } }
  ({ s with cru := { s.cru with load := some { l with rowsDone := Nat.max l.rowsDone upto } } }).ticketProgress
    l.ticket (if l.kind = 2 then rowCount l.words upto else upto)

/-- Whether a loading action is refused with BUSY (R65, R81). -/
def State.loadBusy (s : State) : Bool := s.n Attr.cruIdleBusy 0 0 == 1 || s.n Attr.cruStrikeState 0 0 != 0

/-- Starts a load of the idle plane with the words it is to hold (R65). -/
def startLoad (kind origin : Nat) (words : Store Nat) (scene total : Nat) (s : State) : Answer :=
  match s.openTicket origin total with
  | none => refuse rBusy
  | some (k, s) =>
    okTicket ({ s with cru := { s.cru with load := some ⟨kind, 0, words, k, 0, scene⟩ } }.set Attr.cruIdleBusy 0 0 1) k

/-- The targets of the live plane (R66). -/
def State.liveTargets (s : State) : Store Nat :=
  planeTargets (if s.live = 0 then s.cru.planeA else s.cru.planeB) s.S s.D

/-- A plane replaced whole, as replay does (R512). -/
def State.setIdlePlane (s : State) (m : Store Nat) : State :=
  if s.live = 0 then { s with cru := { s.cru with planeB := m } } else { s with cru := { s.cru with planeA := m } }

/-- COPY_LIVE_TO_IDLE (R65, R66). -/
def copyLiveToIdle (c : Ctx) (s : State) : Answer :=
  if c.atOnce then ok (s.setIdlePlane s.liveTargets)
  else if s.loadBusy then refuse rBusy
  else startLoad 0 (address Attr.cruCopyLiveToIdle 0) s.liveTargets 0 s.S s
/-- COPY_LIVE_TO_IDLE (R66). -/
def execCopyLiveToIdle (q : Req) (s : State) : Host.Outcome State Fault Refusal :=
  .next (serve .copyLiveToIdle copyLiveToIdle q s)

/-- CLEAR_IDLE (R64, R65). -/
def clearIdle (c : Ctx) (s : State) : Answer :=
  if c.atOnce then ok (s.setIdlePlane [])
  else if s.loadBusy then refuse rBusy
  else startLoad 1 (address Attr.cruClearIdle 0) [] 0 s.S s
/-- CLEAR_IDLE (R607). -/
def execClearIdle (q : Req) (s : State) : Host.Outcome State Fault Refusal := .next (serve .clearIdle clearIdle q s)

/-- A block's share of a load: the placement and staging reserve of Tongs (R24, R607), unless a retirement copy uses
it. (DEDUCED, entry 47) -/
def State.advanceLoad (s : State) : State :=
  match s.cru.load with
  | none => s
  | some l =>
    if ¬ s.plc.retiring.all (·.copied) then s
    else
      let bytes := l.bytesDone + tongsBudget s.eng.cfg.family s.eng.cfg.n / 4
      let rows := Nat.min s.eng.cfg.S (bytes / (4 * s.eng.cfg.D))
      s.loadRows { l with bytesDone := bytes } rows

/-- IDLE_LOAD_COMPLETE (R607): the last row is written, the ticket completes and idle_busy returns to 0. With the tick
running the rows must have been paced; with it stopped the load runs unpaced. -/
def idleLoadComplete (s : State) : State :=
  match s.cru.load with
  | none => s
  | some l =>
    if s.low ∨ (s.ticking ∧ l.rowsDone < s.eng.cfg.S) then s
    else
      let s := s.loadRows l 4096
      ({ s with cru := { s.cru with load := none } }.set Attr.cruIdleBusy 0 0 0).completeTicket l.ticket rOk
/-- IDLE_LOAD_COMPLETE (R607). -/
def execIdleLoadComplete (s : State) : Host.Outcome State Fault Refusal := .next (idleLoadComplete s)

end Sys2Proof.Machine
end

