-- ==== Sys2Proof/Machine/Modules.lean ====
section
/-! DEFINITION. Modules: the Xixon image and its checks (R245 to R248), load and unload (R250, R306, R307), input bindings
(R241), parameters (R243), and the offset tick with the gateway (R233, R237 to R240). -/

namespace Sys2Proof.Machine

/-! ### The image (R245 to R248) -/

/-- A section entry as it lies in the image (R246). -/
structure Section where
  typ : Nat
  attr : Nat
  base : Nat
  size : Nat
  data : Nat
deriving DecidableEq, Repr

/-- The section table. -/
def sectionsOf (b : List Byte) (n : Nat) : List Section :=
  (List.range n).map fun i =>
    let o := 64 + 16 * i
    ⟨fieldAt b o 1, fieldAt b (o + 1) 1, fieldAt b (o + 4) 4, fieldAt b (o + 8) 4, fieldAt b (o + 12) 4⟩

/-- Bytes of a section's data. -/
def Section.bytes (x : Section) : Nat :=
  match x.typ with
  | 1 => 8 * x.size
  | 2 | 3 => 4 * x.size
  | 6 => 16 * x.size
  | _ => 0

/-- Words of `w` bytes at an offset. -/
def wordsAt (b : List Byte) (w : Nat) : (n off : Nat) → List Nat
  | 0, _ => []
  | n + 1, off => fieldAt b off w :: wordsAt b w n (off + w)

/-- An X or Y region of a section. -/
def Section.region (x : Section) (b : List Byte) : XRegion :=
  ⟨x.typ == 3, x.attr, x.base, x.size,
    if x.data = 0 ∨ 32768 < x.size then [] else (wordsAt b 4 x.size x.data).map fun w => BitVec.ofNat 24 w⟩

/-- The budget entries of a section. -/
def Section.budgets (x : Section) (b : List Byte) : List Budget :=
  (List.range x.size).map fun i =>
    let o := x.data + 16 * i
    ⟨fieldAt b o 1, fieldAt b (o + 1) 1, fieldAt b (o + 4) 4, fieldAt b (o + 8) 4, fieldAt b (o + 12) 4⟩

/-- An image read from its bytes, whatever it holds. -/
def readImage (b : List Byte) : Image :=
  let secs := sectionsOf b (fieldAt b 6 2)
  let prog := secs.find? (·.typ == 1)
  { crc := fieldAt b 12 4, name := slice b 16 16, version := fieldAt b 32 4, entry := fieldAt b 36 2
    nIn := fieldAt b 38 1, nOut := fieldAt b 39 1
    inY := bit (fieldAt b 40 2) 15, inArea := fieldAt b 40 2 % 32768
    outY := bit (fieldAt b 42 2) 15, outArea := fieldAt b 42 2 % 32768
    sIn := fieldAt b 44 1 % 16, sOut := fieldAt b 44 1 / 16, events := fieldAt b 45 1
    progBase := (prog.map (·.base)).getD 0
    prog := (prog.map fun x => (wordsAt b 8 (Nat.min x.size 16384) x.data).map fun w => BitVec.ofNat 48 w).getD []
    data := (secs.filter fun x => x.typ == 2 || x.typ == 3).map (·.region b)
    banks := (secs.filter (·.typ == 4)).map fun x => (bit x.attr 0, x.size)
    deeps := (secs.filter (·.typ == 5)).map (·.size)
    budget := ((secs.find? (·.typ == 6)).map (·.budgets b)).getD [] }

/-- Whether two of some runs overlap. -/
def runsOverlap : List (Nat × Nat) → Bool
  | [] => false
  | r :: rs => rs.any (fun x => decide (r.1 < x.1 + x.2 ∧ x.1 < r.1 + r.2)) || runsOverlap rs

/-- The header conditions of TYPE (R248). -/
def headerBad (b : List Byte) : Bool :=
  decide (b.length < 64) || slice b 0 4 != [0x58, 0x49, 0x58, 0x31] || fieldAt b 4 2 != 1 ||
  fieldAt b 8 4 != b.length || fieldAt b 6 2 == 0 || decide (64 < fieldAt b 6 2) ||
  crc32 (b.take 12 ++ [0, 0, 0, 0] ++ b.drop 16) != fieldAt b 12 4

/-- Whether a section breaks TYPE: it or its data lies outside the image, data stand where none may or lack where
they must, or a region's size has the wrong step. -/
def Section.bad (x : Section) (n : Nat) : Bool :=
  (x.data != 0 && decide (n < x.data + x.bytes)) ||
  ((x.typ == 1 || x.typ == 6) && x.data == 0) ||
  ((x.typ == 4 || x.typ == 5 || ((x.typ == 2 || x.typ == 3) && x.attr == 2)) && x.data != 0) ||
  (x.typ == 4 && x.size % 64 != 0) || (x.typ == 5 && x.size % 4096 != 0)

/-- Whether the CONST span of X or Y holds words of another kind (R244). -/
def Image.constMixed (g : Image) (y : Bool) : Bool :=
  match g.constSpan y with
  | none => false
  | some (lo, hi) =>
    let consts := (g.data.filter fun r => r.inY == y && r.kind == 0).map fun r => (r.base, r.size)
    (g.runsIn y).any fun r => !consts.contains r && decide (r.1 < hi ∧ lo < r.1 + r.2)

/-- The conditions of TYPE on the sections (R248). -/
def sectionsBad (b : List Byte) : Bool :=
  let secs := sectionsOf b (fieldAt b 6 2)
  let g := readImage b
  decide (b.length < 64 + 16 * fieldAt b 6 2) || secs.any (·.bad b.length) ||
  (secs.filter (·.typ == 1)).length != 1 || (secs.filter (·.typ == 6)).length != 1 ||
  runsOverlap (g.runsIn false) || runsOverlap (g.runsIn true) ||
  runsOverlap (g.budget.map fun u => (u.family * 256 + u.n, 1)) ||
  (match secs.find? (·.typ == 1) with
   | some x => decide (x.base + x.size ≤ g.entry)
   | none => true) ||
  g.constMixed false || g.constMixed true

/-- The conditions of RANGE (R248). -/
def imageRange (b : List Byte) : Bool :=
  let secs := sectionsOf b (fieldAt b 6 2)
  let g := readImage b
  decide (64 < g.nIn ∨ 64 < g.nOut ∨ 8 < g.sIn ∨ 8 < g.sOut ∨ 8 < g.events ∨ 8 < g.banks.length ∨ 4 < g.deeps.length) ||
  secs.any (fun x => x.typ == 1 && decide (16384 < x.base + x.size)) ||
  decide (32768 < g.dataEnd false ∨ 32768 < g.dataEnd true ∨ 8192 < g.stateWords) ||
  g.banks.any (fun r => decide (262144 < r.2)) || g.budget.any (fun u => decide (u.cycles < 32)) ||
  secs.any (fun x => x.typ == 0 || decide (6 < x.typ) || ((x.typ == 2 || x.typ == 3) && decide (2 < x.attr))) ||
  g.budget.any (fun u => decide (2 < u.family) || !([4, 8, 16].contains u.n))

/-- A staged image, or why it is refused: TYPE before RANGE (R248). (DEDUCED, entry 18) -/
def checkImage (b : List Byte) : Except Nat Image :=
  if headerBad b then .error rType
  else if sectionsBad b then .error rType
  else if imageRange b then .error rRange
  else .ok (readImage b)

/-! ### Load and unload (R250) -/

/-- The lowest run of `e` event lines within EV16 to EV255 that no module holds (R307). -/
def State.freeLines (s : State) (e : Nat) : Option Nat :=
  if e = 0 then some 0
  else
    let used := s.modules.filterMap fun x => x.2.evb.map fun l => (l, x.2.image.events)
    ((List.range (257 - e)).drop 16).find? fun l => !used.any fun u => decide (l < u.1 + u.2 ∧ u.1 < l + e)

/-- A module as it is declared. -/
def Mod.new (g : Image) (evb : Option Nat) : Mod :=
  { image := g, pBase := 0, xBase := 0, yBase := 0, evb := evb, blocks := 0, begun := false, released := false, half := 0, frame := [],
    retired := false, resume := [], resumePos := none }

/-- The Tongs channel with the least declared bytes assigned, a tie to the lowest (R306); `n` channels are left. -/
def State.leastChannel (s : State) : Nat → Nat → Nat → Nat → Nat
  | 0, _, best, _ => best
  | n + 1, ch, best, load =>
    let here := ((s.modules.filter fun e => s.a Attr.tngModuleChannel 0xFFFF e.1 == (ch : Int)).map fun e =>
      ((e.2.image.budgetFor s.fam s.blk).map (·.tongs)).getD 0).sum
    if ch = 0 ∨ here < load then s.leastChannel n (ch + 1) ch here else s.leastChannel n (ch + 1) best load

/-- Assigns a channel to every placed module that declares Tongs bytes and has none (R306). -/
def State.assignChannels (s : State) : State :=
  s.modules.foldl (fun s e =>
    let declares := ((e.2.image.budgetFor s.fam s.blk).map (·.tongs)).getD 0 != 0
    if declares ∧ s.a Attr.tngModuleChannel 0xFFFF e.1 = 255 ∧ s.a Attr.plcModuleCore 0 e.1 ≠ 255 then
      s.set Attr.tngModuleChannel 0xFFFF e.1 (s.leastChannel 12 0 0 0)
    else s) s

/-- Attributes a module takes from its image. -/
def State.imageAttrs (s : State) (m : Nat) (g : Image) : State :=
  let words := g.start
  let s := s.setList Attr.modConst m 0 (g.constPlaces.map fun p =>
    (Store.get 0 (if p.1 then words.y else words.x) p.2).toInt)
  let s := ((s.set Attr.modModuleVersion m 0 g.version).set Attr.modImageCrc m 0 g.crc).set Attr.modNIn m 0 g.nIn
  let s := s.set Attr.modNOut m 0 g.nOut
  { s with blobs := Store.set [] s.blobs (attrKey Attr.modName m 0) g.name }

/-- An answer made under a ticket: a result of its own ticket stays, another completes a new one at once (R250). -/
def underTicket (s : State) (origin : Nat) (a : Answer) : Answer :=
  match s.openTicket origin 1 with
  | none => refuse rBusy
  | some (k, t) =>
    match a with
    | .error f => okTicket (t.completeTicket k f.code) k
    | .ok (u, o) =>
      if o.result = rPending then .ok (u, o)
      else match u.openTicket origin 1 with
        | none => refuse rBusy
        | some (k, u) => okTicket (u.completeTicket k rOk) k

/-- The records of a load (R508): the image. -/
def imageRecs (m : Nat) (b : List Byte) : List Rec := chunkRecs 3 (leBytes 4 m) 512 0 b

/-- LOAD (R248, R250, R307): the staged image is validated and declared under a ticket, and passes admission.
(DEDUCED, entry 18) -/
def loadModule (c : Ctx) (s : State) : Answer :=
  let m := c.q.inst
  let origin := address c.code m
  if (s.mod? m).isSome then refuse rState
  else
    let b := Store.get [] s.blobs (attrKey Attr.modImage m 0)
    match checkImage b with
    | .error e => underTicket s origin (refuse e)
    | .ok g =>
      match s.freeLines g.events with
      | none => underTicket s origin (refuse rBusy)
      | some l =>
        let t := (s.setMod m (Mod.new g (if g.events = 0 then none else some l))).imageAttrs m g
        if c.atOnce then ok t
        else
          underTicket s origin
            (match admitChange s t origin [(attrKey Attr.modState m 0, 0)] with
             | .ok (u, o) => .ok (u.assignChannels.commit (imageRecs m b), o)
             | .error f => .error f)
/-- LOAD (R248, R250). -/
def execLoad (q : Req) (s : State) : Host.Outcome State Fault Refusal := .next (serve .load loadModule q s)

/-- The module a core runs leaves it, and the next one of its block starts (R233). -/
def State.leaveCore (s : State) (m c : Nat) : State :=
  let k := s.core c
  if k.run = some m then startNext c (k.todo.filter (· != m)) (s.setCore c { k with stall := none, draining := false })
  else s.setCore c { k with todo := k.todo.filter (· != m) }

/-- Aborts the descriptors that `p` names (R330, R331): their channels issue nothing more, bursts already issued complete, and
what those read is discarded with the buffer. -/
def State.abortRuns (s : State) (p : Running → Bool) : State :=
  let gone := (s.tng.chans.filter fun e => e.2.run.any p).map (·.1)
  let drop (o : OpenBurst) : OpenBurst := if o.master == 1 && !o.write && gone.contains o.chan then { o with chan := 16 } else o
  { s with
    fab := { s.fab with opened := s.fab.opened.map drop }
    tng := { s.tng with
      issued := s.tng.issued.map drop
      chans := s.tng.chans.map fun (e : Nat × TChan) =>
        (e.1, if e.2.run.any p then { e.2 with run := none, paused := false, preempted := false } else e.2) } }

/-- Takes a module away at the tick at which it leaves its core: its descriptors and entries go (R330), its instance
starts empty (R250). -/
def State.removeModule (s : State) (m : Nat) : State :=
  let s := (s.anv.cores.map (·.1)).foldl (fun s c => s.leaveCore m c) s
  let s := s.abortRuns fun r => r.desc.module == some m
  let chans := s.tng.chans.map fun (e : Nat × TChan) => (e.1, { e.2 with queue := e.2.queue.filter fun x => x.2 != m })
  let s := chans.foldl (fun s e => s.set Attr.tngQueueDepth e.1 0 e.2.queue.length) s
  let s := { s with
    anv := { s.anv with
      mods := Store.del s.anv.mods m
      cores := s.anv.cores.map fun (e : Nat × CoreSt) => (e.1, { e.2 with
        constQ := e.2.constQ.filter fun (w : ConstWord) => w.m != m }) }
    tng := { s.tng with chans := chans, bytes := Store.del s.tng.bytes m }
    blobs := Store.keep (fun k => !(k / 2 ^ 56 == 0x41 && k / 2 ^ 40 % 65536 == m)) s.blobs
    attrs := Store.keep (fun k => !(k / 2 ^ 56 == 0x41 && k / 2 ^ 40 % 65536 == m)) s.attrs }
  (s.set Attr.tngModuleChannel 0xFFFF m 255).set Attr.plcModuleCore 0 m 255

/-- The modules whose unload was waiting leave (R250, R330); `effect` is what their plan undid. -/
def State.leaveModules (effect : List (Nat × Int)) (s : State) : State :=
  (effect.filter fun e => keyCode e.1 == Attr.modState && e.2 == 2).foldl (fun s e => s.removeModule (keyInst e.1)) s

/-- Whether an occupant word or an insert word names module `m` (R250). -/
def State.moduleNamed (s : State) (m : Nat) : Bool :=
  let names (w : Int) : Bool := w.toNat / 2 ^ 28 == 3 && w.toNat % 2 ^ 28 / 256 == m
  ((s.listed Attr.slotOccupant).any fun e => names e.2.2) || ((s.listed Attr.insInsert).any fun e => names e.2.2)

/-- UNLOAD (R250): refused while the module is named; else it leaves at once with the tick stopped, and at the tick
after the changes pending now otherwise. (DEDUCED, entry 18) -/
def unloadModule (c : Ctx) (s : State) : Answer :=
  let m := c.q.inst
  let origin := address c.code m
  match s.mod? m with
  | none => ok s
  | some _ =>
    if c.atOnce then ok (s.removeModule m)
    else if s.moduleNamed m then refuse rState
    else match s.openTicket origin 1 with
      | none => refuse rBusy
      | some (k, t) =>
        let t := t.commit [actionRec c.code m c.q.data]
        if s.ticking then
          okTicket { t with plc := { t.plc with
            plans := t.plc.plans ++ [Plan.mk [] 0 (some k) [(attrKey Attr.modState m 0, 2)]] } } k
        else
          let t := (t.removeModule m).freeRegions
          okTicket ((t.loadAttrs t.topo t.place).completeTicket k rOk) k
/-- UNLOAD (R250). -/
def execUnload (q : Req) (s : State) : Host.Outcome State Fault Refusal := .next (serve .unload unloadModule q s)

/-! ### Ports and parameters -/

/-- The in-strip whose insert names port `p` of module `m`, in a store of attributes (R155, R241). -/
def insertNaming (at_ : List (Nat × Int)) (m p : Nat) : Option Nat :=
  (at_.find? fun e => keyCode e.1 == Attr.insInsert && e.2 == ((805306368 + 256 * m + p : Nat) : Int)).map fun e => keyInst e.1

/-- The first bad element of an in_src write (R241, R250). -/
def State.inSrcBad (s : State) (m : Nat) : Nat → List Int → Option (Nat × Nat)
  | _, [] => none
  | p, v :: vs =>
    let w := v.toNat
    if 1 < w / 2 ^ 28 ∨ w / 2 ^ 16 % 2 ^ 12 ≠ 0 ∨ (w / 2 ^ 28 = 1 ∧ s.D ≤ w % 2 ^ 16) ∨ (w / 2 ^ 28 = 0 ∧ w ≠ 0) then
      some (rRange, p)
    else s.inSrcBad m (p + 1) vs

/-- IN_SRC (R241): binds input ports to destination sums or to nothing. -/
def writeInSrc (c : Ctx) (s : State) : Answer :=
  let e := if c.q.op = 4 then c.q.elem else 0
  match s.inSrcBad c.q.inst e c.vals with
  | some (r, p) => .error ⟨r, p, []⟩
  | none =>
    match ((List.range c.vals.length).map (e + ·)).find? fun p => (insertNaming s.attrs c.q.inst p).isSome with
    | some p => .error ⟨rState, p, []⟩
    | none => ok (s.store c)
/-- IN_SRC (R241). -/
def execInSrc (q : Req) (s : State) : Host.Outcome State Fault Refusal := .next (serve .inSrc writeInSrc q s)

/-- The block a const write belongs to, as the MD0 count of the tick of its period: for an untimed write the next
period, for a timed one the first block whose input frame holds the due sample (R130, R243). (DEDUCED, entry 18) -/
def State.constBlock (s : State) (due : Option Nat) : Nat :=
  let n := s.eng.cfg.n
  match due with
  | none => s.eng.count + n
  | some d => (d / n + 1) * n

/-- CONST (R243): queued for the module's core, or with the tick stopped written at once. (DEDUCED, entry 18) -/
def writeConst (c : Ctx) (s : State) : Answer :=
  let m := c.q.inst
  match s.mod? m with
  | none => .error ⟨rNoObject, c.q.elem, []⟩
  | some md =>
    let places := md.image.constPlaces
    if places.length < c.q.elem + c.vals.length then .error ⟨rNoObject, places.length, []⟩
    else
      let t := s.store c
      let words := (places.drop c.q.elem).zip c.vals
      let core := s.n Attr.plcModuleCore 0 m
      if core = 255 ∨ c.atOnce then ok t
      else if s.ticking then
        let k := s.core core
        if 256 < k.constQ.length + words.length then refuse rBusy
        else
          let b := s.constBlock c.due
          let new := words.map fun w => ConstWord.mk m w.1.1 w.1.2 (BitVec.ofInt 24 w.2) b
          ok (t.setCore core { k with constQ := k.constQ ++ new })
      else
        let e := s.aenv core m md
        ok (t.setCore core (words.foldl (fun k w => e.storeWord k w.1.1 w.1.2 (BitVec.ofInt 24 w.2)) (t.core core)))
/-- CONST (R243). -/
def execConst (q : Req) (s : State) : Host.Outcome State Fault Refusal := .next (serve .const writeConst q s)

/-! ### The offset tick (R233, R236 to R240) -/

/-- A core is stopped at the offset tick: the module that runs and those still to run overrun (R236). -/
def State.stopCore (s : State) (c : Nat) : State :=
  let k := s.core c
  match k.run with
  | none => s
  | some m =>
    let rest := k.todo
    let s := s.overran c m 3
    let s := s.setCore c { (s.core c) with todo := [] }
    let s := s.endModule c false
    rest.foldl (fun s r =>
      let s := s.overran c r 3
      match s.mod? r with
      | some md => s.setMod r { md with released := false }
      | none => s) s

/-- The W32 samples of a module's output port in the half of its last block (R239, R240). -/
def State.outputPort (s : State) (c m : Nat) (md : Mod) (p : Nat) : List Int :=
  let e := s.aenv c m md
  let g := md.image
  let k := s.core c
  (List.range s.eng.cfg.n).map fun i =>
    (e.load k g.outY (g.outArea + md.half * 16 * g.nOut + 16 * p + i)).toInt * ((2 ^ g.sOut : Nat) : Int)

/-- A resume fade over a frame (R132, R201): from `c` to live audio over 32 samples, `pos` of them delivered. -/
def resumeFrame (c : Int) (pos : Nat) (xs : List Int) : List Int :=
  xs.mapIdx fun i x => if pos + i < 32 then fadeLinear (pos + i) 32 c x else x

/-- The gateway takes the output frame of a module that released its block, or repeats its buffer (R239); a module held
by a retirement delivers its last samples, and its first live frames enter under the resume fade (R201). -/
def State.gatewayOut (s : State) (c m : Nat) (md : Mod) : State :=
  let n := s.eng.cfg.n
  let ports := List.range md.image.nOut
  if md.retired then
    let f := ports.map fun p => (p, List.replicate n (Store.get 0 md.resume p))
    s.setMod m { md with frame := f.foldl (fun st e => Store.set (zeros n) st e.1 e.2) [] }
  else if md.released then
    let f := ports.map fun p =>
      let xs := s.outputPort c m md p
      (p, match md.resumePos with
        | some pos => resumeFrame (Store.get 0 md.resume p) pos xs
        | none => xs)
    let pos := match md.resumePos with
      | some x => if 32 ≤ x + n then none else some (x + n)
      | none => none
    s.setMod m { md with
      frame := f.foldl (fun st e => Store.set (zeros n) st e.1 e.2) []
      resumePos := pos
      resume := if pos.isNone then [] else md.resume }
  else s

/-- The W32 frame an input port carries (R238, R241). -/
def State.inputPort (s : State) (m p : Nat) : List Int :=
  let n := s.eng.cfg.n
  match insertNaming s.snap m p with
  | some strip => Store.get (zeros n) s.tmp.front strip
  | none =>
    let w := (s.sn Attr.modInSrc m p).toNat
    if w / 2 ^ 28 = 1 then Store.get (zeros n) s.cru.sums (w % 2 ^ 16) else zeros n

/-- The data word of an input sample and whether it was limited (R240). -/
def inputWord (sIn : Nat) (x : Int) : Word24 × Bool :=
  let q := roundEven x sIn
  (BitVec.ofInt 24 (clampS24 q), decide (clampS24 q ≠ q))

/-- The gateway writes the input frame of a module's next block into its half. -/
def State.gatewayIn (s : State) (c m : Nat) : State :=
  match s.mod? m with
  | none => s
  | some md =>
    let g := md.image
    let half := s.eng.count / s.eng.cfg.n % 2
    let md := { md with half := half }
    let s := s.setMod m md
    let e := s.aenv c m md
    (List.range g.nIn).foldl (fun s p =>
      let ws := (s.inputPort m p).map (inputWord g.sIn)
      let k := (ws.zipIdx).foldl (fun k (w : (Word24 × Bool) × Nat) =>
        e.storeWord k g.inY (g.inArea + half * 16 * g.nIn + 16 * p + w.2) w.1.1) (s.core c)
      (s.setCore c k).add Attr.modPortSat m 0 (ws.filter (·.2)).length) s

/-- Modules that start a block on core `c`: those placed there, ascending, but for one held by a retirement or waiting
for the plan that adds it. -/
def State.blockMods (s : State) (c : Nat) : List Nat :=
  ((s.modsOn c).filter fun e => !e.2.retired && !s.arriving e.1).map (·.1)

/-- A core starts its block. -/
def State.startCore (s : State) (c : Nat) : State :=
  let k := s.core c
  if k.condemned then s.setCore c { k with halted := true, todo := [], run := none }
  else
    let l := s.blockMods c
    let s := l.foldl (fun s m => s.gatewayIn c m) s
    let s := s.setCore c { (s.core c) with cycles := 0 }
    let s := { s with hlt := { s.hlt with tagEnd := Store.del s.hlt.tagEnd c } }
    startNext c l s

/-- The module move of a plan switches once its final block has run and TC14 has copied its STATE (R192, R196): the block after it begins on the new core;
else the block that begins now is the final one where the pre-copy is complete. -/
def State.moduleSwitch (s : State) : State :=
  match s.headMove with
  | some (.module m _) =>
    if s.plc.finalBlock then
      let s := s.tcBytes 14 (4 * (((s.mod? m).map fun md => md.image.stateWords).getD 0))
      let s := s.switchHead
      { s with plc := { s.plc with preCopied := false, finalBlock := false } }
    else if s.plc.preCopied then { s with plc := { s.plc with finalBlock := true } }
    else s
  | _ => s

/-- The region move of a plan switches once its copy is complete (R197, R328): `lines` says that this is a tick, where
delay lines switch, and not an offset tick, where module regions do. -/
def State.regionSwitch (s : State) (lines : Bool) : State :=
  match s.headMove with
  | some (.region o _) =>
    let isLine : Bool := match o with
      | .inLine _ | .outLine _ => true
      | _ => false
    (match s.plc.regions.find? fun (r : Region) => r.owner == o with
     | none => s
     | some r =>
       if ¬ s.plc.copied ∨ isLine ≠ lines ∨ s.tongsHolds r.base r.size then s
       else ({ s with plc := { s.plc with copied := false } }).switchHead)
  | _ => s

/-- The modules of a retired core pass to the spare (R201): after an overrun as they stood when the core stopped, after a
march failure from the image and the committed parameters. -/
def State.retireTo (s : State) (r : Retire) (spare : Nat) : State :=
  let old := s.place.mods
  let s := r.modules.foldl (fun s m => (s.set Attr.plcModuleCore 0 m spare).bump Attr.plcMovesDone 0 0) s
  let s := s.reseat old
  if r.march then
    r.modules.foldl (fun s m => match s.mod? m with
      | some md => s.putSegs spare m md (s.constOver m md.image md.image.start)
      | none => s) s
  else s

/-- Retirements whose copy is complete end: the modules stand on the spare and resume with the block that begins now
(R201). -/
def State.endRetirements (s : State) : State :=
  let done := s.plc.retiring.filter (·.copied)
  if done = [] then s
  else
    let s := done.foldl (fun s r => match r.spare with
      | some c => s.retireTo r c
      | none => s) s
    let s := (done.flatMap (·.modules)).foldl (fun s m => match s.mod? m with
      | some md => s.setMod m { md with retired := false, resumePos := if s.ticking then some 0 else none }
      | none => s) s
    let s := { s with plc := { s.plc with retiring := s.plc.retiring.filter fun (r : Retire) => !r.copied } }
    s.loadAttrs s.topo s.place

/-- The STATE words of a module on core `c`, region by region (R194). -/
def State.stateWords (s : State) (c : Nat) (md : Mod) : List Nat :=
  let d := s.segData c md
  (md.image.data.filter fun r => r.kind == 1).flatMap fun r =>
    (List.range r.size).map fun i => (Store.get 0 (if r.inY then d.y else d.x) (r.base + i)).toNat

/-- The trial of an adoption ends (R486): where the spare core has released the block, the module is there from now on;
else the trial is abandoned. -/
def State.endShadow (s : State) : State :=
  match s.lck.shadow with
  | none => s
  | some h =>
    let s : State := { s with lck := { s.lck with shadow := none } }
    match s.mod? h.m with
    | none => s
    | some md =>
      let old := s.n Attr.plcModuleCore 0 h.m
      if h.done ∧ old ≠ 255 then
        let s := if (s.core old).run = some h.m then s.endModule old true else s
        let md := (s.mod? h.m).getD md
        let s := ((s.setMod h.m { md with released := true }).clearSegs old md).passOn h.m md old h.core
        let s := (s.set Attr.plcModuleCore 0 h.m h.core).bump Attr.plcMovesDone 0 0
        s.loadAttrs s.topo s.place
      else
        let s := s.setCore h.core { s.core h.core with run := none, todo := [], stall := none, draining := false }
        s.clearSegs h.core md

/-- The STATE that the modules have released is kept for the adoption of the period (R486). -/
def State.keepStates (s : State) : State :=
  if ¬ s.paired then s
  else
    let l := (s.modules.filter fun e => e.2.released && s.a Attr.plcModuleCore 0 e.1 != 255).map fun e =>
      (e.1, s.stateWords (s.n Attr.plcModuleCore 0 e.1) e.2)
    { s with lck := { s.lck with states := l } }

/-- Every block that has begun for a module counts, whether it was started in it or not (R242); one begins now for each module
that stands on a core. -/
def State.countBlocks (s : State) : State :=
  s.modules.foldl (fun s e =>
    s.setMod e.1 { e.2 with
      blocks := if e.2.begun then e.2.blocks + 1 else e.2.blocks
      begun := s.a Attr.plcModuleCore 0 e.1 != 255 && !s.arriving e.1 }) s

/-- The blocks of the period end (R236 to R240): cores still running are stopped, every block that began counts, and the gateway
takes the outputs. -/
def State.endBlocks (s : State) : State :=
  let s := s.endShadow
  let s := ((s.anv.cores.map (·.1)).foldl State.stopCore s).countBlocks.keepStates
  s.modules.foldl (fun s e => s.gatewayOut (s.n Attr.plcModuleCore 0 e.1) e.1 e.2) s

/-- The Tongs budgets of the period start afresh (R330). -/
def State.openBudgets (s : State) : State :=
  { s with tng := { s.tng with
      bytes := []
      chans := s.tng.chans.map fun (e : Nat × TChan) => (e.1, { e.2 with paused := false }) } }

/-- The cores of the modules and those of `cores`, each once. -/
def State.coresToStart (s : State) (cores : List Nat) : List Nat :=
  (s.modules.map fun e => s.n Attr.plcModuleCore 0 e.1).foldl
    (fun l c => if l.contains c then l else insertRun (c, 0) (l.map fun x => (x, 0)) |>.map (·.1)) cores

/-- Every core starts the modules of its block (R233), `cores` among them, and overruns more than the window past are
forgotten (R249). -/
def State.startBlocks (s : State) (cores : List Nat) : State :=
  let s := ((s.coresToStart cores).filter (· < 48)).foldl State.startCore { s with eng := { s.eng with offset := true } }
  let now := s.eng.count / s.eng.cfg.n
  (s.listed Attr.coreOverrunsRecent).foldl (fun s e =>
    s.set Attr.coreOverrunsRecent e.1 0 (recentOverruns now (s.core e.1).overAt)) s

/-- OFFSET_TICK (R17, R233): once in each period. Cores still running are stopped; the gateway takes the outputs of the
blocks that ended; moves switch; the inputs of the new blocks are written, and every core starts its modules.
(DEDUCED, entry 11) -/
def offsetTick (s : State) : State :=
  if ¬ s.ticking ∨ s.eng.offset then s
  else ((s.endBlocks.endRetirements.moduleSwitch).regionSwitch false).openBudgets.startBlocks (s.endShadow.anv.cores.map (·.1))
/-- OFFSET_TICK (R233). -/
def execOffsetTick (s : State) : Host.Outcome State Fault Refusal := .next (offsetTick s)

end Sys2Proof.Machine
end

