-- ==== Sys2Proof/Machine/Moves.lean ====
section
/-! DEFINITION. The placement manager's commands: move plans and their moves (R188 to R197), zero-fill (R185), core
retirement (R200 to R203), reinstatement (R204) and defragmentation (R205). -/

namespace Sys2Proof.Machine

/-! ### Plans and moves -/

/-- The row swaps of the occupants a change altered are asked for at the tick at which it takes effect (R86, R188): until
its swap starts a slot keeps the occupant it had, and where no slot can be had it keeps it for good, with RAMP_FULL as the
result. (DEDUCED, entry 15) -/
def State.startSwaps (s : State) (effect : List (Nat × Int)) : State × Nat :=
  let slots := (effect.filter fun e => keyCode e.1 == Attr.slotOccupant).map fun e => (keyInst e.1, e.2)
  let new := slots.map fun e => (e.1, s.n Attr.slotOccupant e.1 0)
  let s := slots.foldl (fun s e => s.set Attr.slotOccupant e.1 0 e.2) s
  if slots = [] then (s, rOk)
  else match s.acceptSwaps (new.map (s.swapOf (2 * s.bel.nextId))) (some (s.eng.count + s.eng.cfg.n)) false with
    | .ok t => (t, rOk)
    | .error f => (s.bumps f.counts, f.code)

/-- The changes at the head of the plans whose moves are done take effect; `n` plans at most.
(DEDUCED, entry 15) -/
def takeEffect : Nat → State → State
  | 0, s => s
  | n + 1, s =>
    match s.plc.plans with
    | [] => s
    | p :: rest =>
      if p.moves ≠ [] then s
      else
        let s := { s with plc := { s.plc with plans := rest } }
        let s := s.leaveModules p.effect
        let e := s.startSwaps p.effect
        takeEffect n (e.1.finishPlan p e.2).assignChannels

/-- MOVE_PLAN_TAKES_EFFECT (R188): at the first tick after its last move has switched, a waiting change takes effect, with
every change behind it that needs no move, and the tickets complete. (DEDUCED, entry 13) -/
def movePlanTakesEffect (s : State) : State := (takeEffect s.plc.plans.length s).planAttr
/-- MOVE_PLAN_TAKES_EFFECT (R188). -/
def execMovePlanTakesEffect (s : State) : Host.Outcome State Fault Refusal := .next (movePlanTakesEffect s)

/-- The strip a move moves, with bit 15 for an out-strip. -/
def PMove.strip? : PMove → Option Nat
  | .inStrip n _ => some n
  | .outStrip n _ => some (32768 + n)
  | _ => none

/-- STRIP_MOVE_SWITCH (R193): TC14 has copied the strip's 512-byte context to the new lane, which runs it from the next tick;
up to 32 strips may switch at one tick (R189). Bit 15 of the strip number marks an out-strip. (DEDUCED, entry 15) -/
def stripMoveSwitch (strip : Nat) (s : State) : State :=
  if s.headMove.bind PMove.strip? = some strip ∧ s.plc.switched < 32 then
    ({ s with plc := { s.plc with switched := s.plc.switched + 1 } }.tcBytes 14 512).switchHead
  else s
/-- STRIP_MOVE_SWITCH (R193). -/
def execStripMoveSwitch (strip : Nat) (s : State) : Host.Outcome State Fault Refusal := .next (stripMoveSwitch strip s)

/-- The bytes of program and CONST words of an image (R194, R196). -/
def Image.preBytes (g : Image) : Nat :=
  8 * g.prog.length + 4 * ((g.data.filter (·.kind == 0)).map (·.size)).sum

/-- PRE_COPY_COMPLETE (R196): TC15 has copied the program and CONST regions of the module in flight to the new core.
(DEDUCED, entry 15) -/
def preCopyComplete (m : Nat) (s : State) : State :=
  match s.headMove with
  | some (.module x _) =>
    if x = m ∧ ¬ s.plc.preCopied then
      { s with plc := { s.plc with preCopied := true } }.tcBytes 15 (((s.mod? m).map fun (md : Mod) => md.image.preBytes).getD 0)
    else s
  | _ => s
/-- PRE_COPY_COMPLETE (R196). -/
def execPreCopyComplete (m : Nat) (s : State) : Host.Outcome State Fault Refusal := .next (preCopyComplete m s)

/-- REGION_COPY_COMPLETE (R197): TC15 has copied the region in flight, unit by unit in address order; from now on a write
goes to both copies, and the region switches at the next tick or offset tick. (DEDUCED, entry 15) -/
def regionCopyComplete (s : State) : State :=
  match s.headMove with
  | some (.region o to_) =>
    (match s.plc.regions.find? fun (r : Region) => r.owner == o with
     | some r =>
       if s.plc.copied then s
       else
         let s := (s.copyRun r.base r.size to_).tcBytes 15 r.size
         { s with plc := { s.plc with copied := true } }
     | none => s)
  | _ => s
/-- REGION_COPY_COMPLETE (R197). -/
def execRegionCopyComplete (s : State) : Host.Outcome State Fault Refusal := .next (regionCopyComplete s)

/-- ZERO_FILL_COMPLETE (R185, R192): TC15 has zero-filled the oldest freed region, which is free. -/
def zeroFillComplete (s : State) : State :=
  match s.plc.zeroing with
  | [] => s
  | (b, n) :: rest =>
    if s.low then s
    else (({ s with plc := { s.plc with zeroing := rest } }.zeroRun b n).tcBytes 15 n).spaceAttrs
/-- ZERO_FILL_COMPLETE (R185). -/
def execZeroFillComplete (s : State) : Host.Outcome State Fault Refusal := .next (zeroFillComplete s)

/-! ### Retirement (R200 to R203) -/

/-- The lowest empty usable core (R200). -/
def State.emptyCore (s : State) : Option Nat :=
  let here := s.topo.coresOf s.place s.retired
  let later := s.topo.coresOf s.futurePlace s.retired
  let busy := s.plc.retiring.filterMap (·.spare)
  (List.range 48).find? fun c => match here[c]?, later[c]? with
    | some a, some b => a.usable && a.mods == 0 && b.mods == 0 && !busy.contains c
    | _, _ => false

/-- Holds the outputs of a module at their last samples until it resumes (R201). (DEDUCED, entry 19) -/
def State.holdModule (s : State) (m : Nat) : State :=
  match s.mod? m with
  | none => s
  | some md =>
    let last := (List.range md.image.nOut).foldl (fun st p =>
      Store.set 0 st p ((Store.get [] md.frame p).getLast?.getD 0)) []
    s.setMod m { md with retired := true, resume := last, resumePos := none, released := false }

/-- Seeks the plan that restores the spare cores, without a ticket, or warns that none exists (R203).
(DEDUCED, entry 19) -/
def State.restoreSpares (s : State) : State :=
  let t := s.topo
  let here := s.futurePlace
  let enough := decide (t.spare ≤ emptyCores (t.coresOf here s.retired))
  if enough then s
  else
    let warn := s.logAt sevWarning Attr.plcSpareNow 0 0
    if t.policy ≠ 0 then warn
    else match t.fresh s.retired, s.freshRegions with
      | some q, .ok (u, regions) =>
        if ¬ s.ticking then u.moveAll q regions
        else
          let both := Topo.union s.runningTopo t
          let moves := here.movesTo q
          (match both.order s.retired (2 * moves.length + 1) here moves with
           | none => warn
           | some l =>
             let u := { u with plc := { u.plc with plans := u.plc.plans ++ [Plan.mk (l ++ regions) 0 none []] } }
             (u.loadAttrs t u.place).planAttr)
      | _, _ => warn

/-- A core for module `m` in place of one that has been retired: the lowest usable one that it fits (R183). -/
def State.otherCore (s : State) (m : Nat) : Option Nat :=
  let t := s.topo
  let p := s.futurePlace
  let cores := t.coresOf { p with mods := Store.del p.mods m } s.retired
  match t.mods.find? fun (x : ModLoad) => x.m == m with
  | none => none
  | some x => (List.range 48).find? fun c => match cores[c]? with
    | some k => t.coreFits k x
    | none => false

/-- Plans make no move onto a core that has been retired, and one in flight there, or from there, starts anew: such a move
goes to another core, or is not made where none takes the module. (DEDUCED, entry 19) -/
def State.retarget (s : State) (c : Nat) : State :=
  let onto (mv : PMove) : Option PMove := match mv with
    | .module m d => if d = c then (s.otherCore m).map (.module m ·) else some mv
    | _ => some mv
  let plans := s.plc.plans.map fun (p : Plan) => { p with moves := p.moves.filterMap onto }
  let t := { s with plc := { s.plc with plans := plans } }
  let from_ : Bool := match s.headMove with
    | some (.module m _) => s.a Attr.plcModuleCore 0 m == (c : Int)
    | _ => false
  (if t.headMove = s.headMove ∧ ¬ from_ then t
   else { t with plc := { t.plc with preCopied := false, finalBlock := false, copied := false } }).planAttr

/-- A core is retired (R200, R203): its bit, the count and the log say so, nothing runs on it, and no plan moves a module onto
it. -/
def State.retireCore (s : State) (c : Nat) : State :=
  let gone := s.n Attr.plcRetiredCores 0 0
  let k := s.core c
  let s := (s.set Attr.plcRetiredCores 0 0 ((gone + 2 ^ c : Nat) : Int)).bump Attr.plcRetirements 0 0
  let s := s.logAt sevError Attr.plcRetirements 0 0
  (s.setCore c { k with halted := true, run := none, todo := [] }).retarget c

/-- CORE_RETIREMENT (R200, R202): a condemned core, stopped at the offset tick, is retired; its modules go to the spare,
or, where there is none, stop with their outputs held, which is a deadline miss. (DEDUCED, entry 19) -/
def coreRetirement (c : Nat) (s : State) : State :=
  let k := s.core c
  let gone := s.n Attr.plcRetiredCores 0 0
  if ¬ k.condemned ∨ bit gone c ∨ (s.ticking ∧ ¬ k.halted) ∨ 48 ≤ c then s
  else
    let ms := (s.modsOn c).map (·.1)
    let march := bit (s.n Attr.memFailMap 0x100 ((16 + c) / 32)) ((16 + c) % 32)
    let s := s.retireCore c
    if ms = [] then (s.loadAttrs s.topo s.place).restoreSpares
    else
      let s := ms.foldl State.holdModule s
      match s.emptyCore with
      | none =>
        let s := s.bump Attr.engDeadlineMisses 0 0
        let s := if march then s.raise 6 else s
        (((s.logAt sevError Attr.engDeadlineMisses 0 0).raise 0).loadAttrs s.topo s.place).restoreSpares
      | some sp =>
        let r : Retire := ⟨c, some sp, !s.ticking, march, ms⟩
        let s := { s with plc := { s.plc with retiring := s.plc.retiring ++ [r] } }
        (if s.ticking then s.loadAttrs s.topo s.place else s.endRetirements).restoreSpares
/-- CORE_RETIREMENT (R200). -/
def execCoreRetirement (c : Nat) (s : State) : Host.Outcome State Fault Refusal := .next (coreRetirement c s)

/-- RETIREMENT_COPY_COMPLETE (R201): TC14 has copied the program, CONST and STATE regions of a retired core's modules. -/
def retirementCopyComplete (c : Nat) (s : State) : State :=
  let hit (r : Retire) : Bool := r.core == c && r.spare.isSome && !r.copied
  let bytes : Nat := (((s.plc.retiring.filter hit).flatMap (·.modules)).map fun m =>
    ((s.mod? m).map fun (md : Mod) => md.image.preBytes + 4 * md.image.stateWords).getD 0).sum
  let all := s.plc.retiring.map fun (r : Retire) => if hit r then { r with copied := true } else r
  ({ s with plc := { s.plc with retiring := all } }).tcBytes 14 bytes
/-- RETIREMENT_COPY_COMPLETE (R201). -/
def execRetirementCopyComplete (c : Nat) (s : State) : Host.Outcome State Fault Refusal :=
  .next (retirementCopyComplete c s)

/-! ### Reinstatement and defragmentation -/

/-- REINSTATE_CORE (R204): a destructive march of a retired core; the end of the march decides. -/
def reinstateCore (c : Ctx) (s : State) : Answer :=
  let core := c.arg.toNat
  let origin := address c.code c.q.inst
  if 47 < core then refuse rRange
  else if ¬ bit (s.n Attr.plcRetiredCores 0 0) core then underTicket s origin (ok s)
  else if s.fab.march.isSome then refuse rBusy
  else match s.openTicket origin 6 with
    | none => refuse rBusy
    | some (k, t) =>
      okTicket { t with
        plc := { t.plc with reinstating := some (core, k) }
        fab := { t.fab with march := some (March.mk (16 + core) false k 0) } } k
/-- REINSTATE_CORE (R204). -/
def execReinstateCore (q : Req) (s : State) : Host.Outcome State Fault Refusal :=
  .next (serve .reinstateCore reinstateCore q s)

/-- DEFRAGMENT (R205): the declared topology is packed afresh, and the plan that leads there runs under a ticket. Its region
moves come after those of strips and modules. (DESIGN CHOICE, entry 30) -/
def defragment (c : Ctx) (s : State) : Answer :=
  let t := s.topo
  let origin := address c.code c.q.inst
  if t.policy ≠ 0 then refuse rState
  else match t.fresh s.retired, s.freshRegions with
    | some q, .ok (u, regions) =>
      let here := s.futurePlace
      let both := Topo.union s.runningTopo t
      let moves := here.movesTo q
      (match both.order s.retired (2 * moves.length + 1) here moves with
       | none => underTicket s origin (refuse rAdmission)
       | some l =>
         if ¬ s.ticking then underTicket s origin (ok (u.moveAll q regions))
         else if l ++ regions = [] then underTicket s origin (ok s)
         else match u.addPlan origin here (l ++ regions) [] with
           | none => refuse rBusy
           | some (tk, u) => okTicket u tk)
    | _, _ => underTicket s origin (refuse rAdmission)
/-- DEFRAGMENT (R205). -/
def execDefragment (q : Req) (s : State) : Host.Outcome State Fault Refusal := .next (serve .defragment defragment q s)

end Sys2Proof.Machine
end

