-- ==== Sys2Proof/Machine/Tongs.lean ====
section
/-! DEFINITION. Tongs (R305 to R332): descriptors and their checks, the bursts that move their elements, triggers,
completion, pacing and resets. -/

namespace Sys2Proof.Machine

/-! ### Channels -/

/-- Priority level of a channel (R305). -/
def tongsLevel (ch : Nat) : Nat := if ch = 14 then 0 else if ch < 12 then 1 else if ch < 14 then 2 else 3
/-- QoS of a channel (R297). -/
def tongsQos (ch : Nat) : Nat := 14 - 2 * tongsLevel ch

/-- A channel. -/
def State.chan (s : State) (ch : Nat) : TChan := Store.get TChan.reset s.tng.chans ch
/-- Replaces a channel, with the depth of its queue (R332). -/
def State.setChan (s : State) (ch : Nat) (c : TChan) : State :=
  ({ s with tng := { s.tng with chans := Store.set TChan.reset s.tng.chans ch c } }).set Attr.tngQueueDepth ch 0
    c.queue.length

/-! ### Descriptors (R311 to R317) -/

/-- A little-endian field of a descriptor. -/
def Desc.f (d : Desc) (off n : Nat) : Nat := fieldAt d.bytes off n
/-- The control word. -/
def Desc.ctrl (d : Desc) : Nat := d.f 0 4
/-- Element size in bytes. -/
def Desc.esize (d : Desc) : Nat := 2 ^ (d.ctrl % 8)
/-- Whether every source element reads as zero; the other source fields are then ignored (R312). -/
def Desc.zeroSrc (d : Desc) : Bool := bit d.ctrl 7
/-- Whether the source is in index mode. -/
def Desc.srcIdx (d : Desc) : Bool := bit d.ctrl 3 && !d.zeroSrc
/-- Whether the destination is in index mode. -/
def Desc.dstIdx (d : Desc) : Bool := bit d.ctrl 4
def Desc.chain (d : Desc) : Bool := bit d.ctrl 8
def Desc.doneEn (d : Desc) : Bool := bit d.ctrl 9
def Desc.markerEn (d : Desc) : Bool := bit d.ctrl 10
/-- The request line of a paced descriptor. -/
def Desc.pace (d : Desc) : Nat := d.f 38 1
/-- Elements moved (R315). -/
def Desc.count (d : Desc) : Nat := d.f 16 2 * d.f 18 2

/-- The region of the address map that holds an address (R275). -/
def mapRegion (a : Nat) : Option (Nat × Nat) :=
  match areaOf a with
  | .bank _ => some (0, 0x400000)
  | .window _ _ => some (0x10000000, 0x13000000)
  | .plane p _ => some (if p = 0 then (0x40000000, 0x41000000) else (0x50000000, 0x51000000))
  | .temper => some (0x60000000, 0x61000000)
  | .control => some (if a < 0x78000000 then (0x70000000, 0x78000000) else (0x78000000, 0x80000000))
  | .deep => some (deepBase, deepBase + usableBytes)
  | .hole => none

/-- Resolves a low word and an extension for a descriptor of module `m` (none for the supervisor and the manager): address and
bounds (R313, R314, R317); the error is that of the table of R329. -/
def State.resolveAddr (s : State) (m : Option Nat) (lo ext : Nat) : Except Nat (Nat × Nat × Nat) :=
  let kind := ext / 64
  let sel := ext % 16
  if kind = 3 ∨ ext / 16 % 4 ≠ 0 then .error 1
  else match m with
  | none =>
    if kind ≠ 0 then .error 5
    else
      let a := sel * 2 ^ 32 + lo
      match mapRegion a with
      | some (x, y) => .ok (a, x, y)
      | none => .error 4
  | some m =>
    match s.mod? m with
    | none => .error 5
    | some md =>
      let (rb, db) := s.regionBases m md.image
      if kind = 1 then
        (match rb[sel]? with
         | some (b, n) => .ok (b + lo, b, b + n)
         | none => .error 5)
      else if kind = 2 then
        (match db[sel]?, md.image.deeps[sel]? with
         | some b, some n => .ok (b + lo, b, b + n)
         | _, _ => .error 5)
      else .error 5

/-- The stride of a side as a signed number. -/
def Desc.stride (d : Desc) (src : Bool) : Int := signed 32 (d.f (if src then 24 else 28) 4)
/-- Elements per line and lines of a side. -/
def Desc.lines (d : Desc) (src : Bool) : Nat × Nat := if src then (d.f 16 2, d.f 18 2) else (d.f 20 2, d.f 22 2)

/-- The extent of a 2D side (R317). -/
def Desc.extent (d : Desc) (src : Bool) (base : Nat) : Int × Int :=
  let (len, count) := d.lines src
  let st := d.stride src
  let far : Int := ((count : Int) - 1) * st
  ((base : Int) + (if far < 0 then far else 0), (base : Int) + (if far < 0 then 0 else far) + (len * d.esize : Nat) - 1)

/-- Fields that must be zero, and codes that must be defined (R311, R312, R325). -/
def Desc.malformed (d : Desc) (ch : Nat) : Bool :=
  d.f 14 2 != 0 || d.f 39 1 != 0 || d.f 45 3 != 0 || fieldAt d.bytes 52 12 != 0 || field d.ctrl 11 20 != 0 ||
  field d.ctrl 5 2 != 0 || decide (5 < d.ctrl % 8) || decide (5 < d.pace) ||
  (d.pace != 0 && !(ch == 12 || ch == 13))

/-- An extension whose kind or reserved bits are not defined, whatever it names (R313). -/
def extBad (ext : Nat) : Bool := ext / 64 == 3 || ext / 16 % 4 != 0

/-- Whether an extension is not defined (R313). That of the source is ignored where every element reads as zero (R312). -/
def Desc.extsBad (d : Desc) : Bool :=
  (!d.zeroSrc && extBad (d.f 12 1)) || extBad (d.f 13 1) || extBad (d.f 36 1) || extBad (d.f 44 1)

/-- Whether an entry of an index table is misaligned (R316). -/
def State.tableBad (s : State) (d : Desc) (tab : Nat) : Bool :=
  d.esize != 1 && (List.range d.count).any fun k => s.word32 (tab + 4 * k) % d.esize != 0

/-- A side with its table resolved, or the first check that it fails (R313, R316, R317). (DEDUCED, entry 31) -/
def State.resolveSide (s : State) (d : Desc) (src : Bool) : Except Nat Side :=
  let ext := d.f (if src then 12 else 13) 1
  match s.resolveAddr d.module (d.f (if src then 4 else 8) 4) ext with
  | .error e => .error e
  | .ok (a, lo, hi) =>
    if if src then d.srcIdx else d.dstIdx then
      match s.resolveAddr d.module (d.f (if src then 24 else 28) 4) ext with
      | .error e => .error e
      | .ok (t, x, y) =>
        if a % d.esize ≠ 0 ∨ t % 4 ≠ 0 then .error 3
        else if t < x ∨ y < t + 4 * d.count then .error 4
        else if s.tableBad d t then .error 3
        else .ok ⟨a, lo, hi, t⟩
    else if a % d.esize ≠ 0 ∨ d.stride src % (d.esize : Int) ≠ 0 then .error 3
    else
      let e := d.extent src a
      if e.1 < (lo : Int) ∨ (hi : Int) ≤ e.2 then .error 4 else .ok ⟨a, lo, hi, 0⟩

/-- Whether a done line belongs to the descriptor's module (R324). -/
def State.lineOwned (s : State) (d : Desc) : Bool :=
  match d.module with
  | none => true
  | some m => match s.mod? m with
    | some md => (match md.evb with
      | some l => decide (l ≤ d.f 37 1 ∧ d.f 37 1 < l + md.image.events)
      | none => false)
    | none => false

/-- An address that must hold `n` bytes inside its region, aligned to `al`. -/
def State.resolveSpan (s : State) (d : Desc) (lo ext n al : Nat) : Except Nat Nat :=
  match s.resolveAddr d.module lo ext with
  | .error e => .error e
  | .ok (a, x, y) => if a % al ≠ 0 then .error 3 else if a < x ∨ y < a + n then .error 4 else .ok a

/-- The code of a failed check, if it failed. -/
def failed {α : Type} : Except Nat α → Option Nat
  | .error e => some e
  | .ok _ => none

/-- The checks of a descriptor before it moves a byte, lowest code first, and the addresses fixed at that moment (R312 to R317,
R324, R325): its two sides, its marker and the next descriptor. (DEDUCED, entry 31) -/
def State.checkDesc (s : State) (d : Desc) (ch : Nat) : Except Nat (Side × Side × Option Nat × Option Nat) :=
  if d.malformed ch ∨ d.extsBad then .error 1
  else if d.f 16 2 = 0 ∨ d.f 18 2 = 0 ∨ d.f 20 2 = 0 ∨ d.f 22 2 = 0 ∨ d.count ≠ d.f 20 2 * d.f 22 2 then .error 2
  else
    let src := if d.zeroSrc then .ok ⟨0, 0, 0, 0⟩ else s.resolveSide d true
    let dst := s.resolveSide d false
    let marker := s.resolveSpan d (d.f 40 4) (d.f 44 1) 4 4
    let next := s.resolveSpan d (d.f 32 4) (d.f 36 1) 64 64
    let bads := [failed src, failed dst, if d.markerEn then failed marker else none, if d.chain then failed next else none,
      if d.doneEn ∧ ¬ s.lineOwned d then some 6 else none].filterMap id
    match bads, src, dst with
    | [], .ok a, .ok b =>
      .ok (a, b, if d.markerEn then marker.toOption else none, if d.chain then next.toOption else none)
    | e :: es, _, _ => .error (es.foldl Nat.min e)
    | [], _, _ => .error 1

/-! ### Registers behind the bridges (R302, R555) -/

/-- The counter register at an address of the peripheral window (R555): counter, and whether it is the value. -/
def counterReg (a : Nat) : Option (Nat × Bool) :=
  if 0x78400000 ≤ a ∧ a < 0x78400200 ∧ a % 4 = 0 then some ((a - 0x78400000) / 8, a / 4 % 2 == 1) else none

/-- Writes a counter's control word: its fields, reserved bits and a chain bit on an even counter aside (R555).
(DESIGN CHOICE, entry 27) -/
def State.putControl (s : State) (n w : Nat) : State :=
  let ch := if n % 2 = 1 then w / 2 ^ 30 % 2 * 2 ^ 30 else 0
  s.set Attr.cntControl n 0 ((w / 2 ^ 31 % 2 * 2 ^ 31 + ch + w % 512 : Nat) : Int)

/-- A 32-bit transfer reaches its register: a counter's control word takes the bytes whose strobe is on; no other register is
laid out, and a value word is read-only. (DESIGN CHOICE, entry 27) -/
def State.putRegister (s : State) (e : Nat × List (Option Byte)) : State :=
  match counterReg e.1 with
  | some (c, false) =>
    let old := s.n Attr.cntControl c 0
    s.putControl c (leNat ((List.range 4).map fun i => (e.2.getD i none).getD (byteAt old i)))
  | _ => s

/-- Whether an address lies behind PB0; else it is behind PB1. -/
def onPb0 (a : Nat) : Bool := decide (a < 0x78000000)

/-- The first `n` transfers of a bridge's buffer reach their registers (R302). -/
def State.drainBridge (s : State) (pb0 : Bool) : Nat → State
  | 0 => s
  | n + 1 =>
    match s.fab.posted.find? fun e => onPb0 e.1 == pb0 with
    | none => s
    | some e => State.drainBridge ({ s with fab := { s.fab with posted := s.fab.posted.erase e } }.putRegister e) pb0 n

/-- Posts a transfer: a full buffer of 8 gives up its oldest first (R302). -/
def State.postWrite (s : State) (e : Nat × List (Option Byte)) : State :=
  let b := onPb0 e.1
  let s := if 8 ≤ (s.fab.posted.filter fun x => onPb0 x.1 == b).length then s.drainBridge b 1 else s
  { s with fab := { s.fab with posted := s.fab.posted ++ [e] } }

/-- A write behind a bridge, split into 32-bit transfers (R302). -/
def State.regWrite (s : State) (a : Nat) (d : List (Option Byte)) : State :=
  (List.range ((a % 4 + d.length + 3) / 4)).foldl (fun s i =>
    let w := a / 4 * 4 + 4 * i
    let bytes := (List.range 4).map fun j => if a ≤ w + j then d.getD (w + j - a) none else none
    if bytes.all Option.isNone then s else s.postWrite (w, bytes)) s

/-- A read behind a bridge follows the writes posted there; a register that the spec does not lay out reads free bytes (R301,
R302, R555). (DESIGN CHOICE, entry 27) -/
def State.regRead (s : State) (a n : Nat) : List Byte × State :=
  let (k, s) := (s.drainBridge (onPb0 a) 8).fresh
  ((List.range n).map fun i => match counterReg ((a + i) / 4 * 4) with
    | some (c, v) => byteAt (s.n (if v then Attr.cntValue else Attr.cntControl) c 0) ((a + i) % 4)
    | none => Config.registerByte k (a + i), s)

/-- A read of any region: of memory, or of registers. -/
def State.accessRead (s : State) (a n : Nat) : List Byte × State :=
  if areaOf a = .control then s.regRead a n else s.busRead a n
/-- A write of any region by a master, of the bytes whose strobe is on. -/
def State.accessWrite (s : State) (m : Master) (a : Nat) (d : List (Option Byte)) : State :=
  if areaOf a = .control then s.regWrite a d else s.busStrobed m a d

/-! ### Traversal (R320) -/

/-- The matrix targets that the bytes from `a` to `b` of one region lie at; the two channels of deep memory count as one.
(DEDUCED, entry 31) -/
def spanTargets (a b : Nat) : List Nat :=
  match areaOf a with
  | .bank x => (List.range (b / 0x40000 - x + 1)).map (x + ·)
  | .deep => [20]
  | .hole => []
  | _ => (targetOf a).toList

/-- Whether two extents meet. -/
def meets (a b : Int × Int) : Bool := decide (a.1 ≤ b.2 ∧ b.1 ≤ a.2)

/-- What a side can reach: its extent, or its whole region in index mode. -/
def Desc.reach (d : Desc) (src : Bool) (x : Side) : Int × Int :=
  if if src then d.srcIdx else d.dstIdx then ((x.lo : Int), (x.hi : Int) - 1) else d.extent src x.base

/-- The targets of a range. -/
def rangeTargets (e : Int × Int) : List Nat := spanTargets e.1.toNat e.2.toNat

/-- Whether two lists share an entry. -/
def shares (a b : List Nat) : Bool := a.any b.contains

/-- How a descriptor is traversed: 2 reverse, 1 overlap, 0 streaming (R320). -/
def Desc.traversal (d : Desc) (a b : Side) : Nat :=
  let ts := rangeTargets (d.reach true a)
  let td := rangeTargets (d.reach false b)
  let st := d.stride true
  let plain := !d.zeroSrc && !d.srcIdx && !d.dstIdx
  if plain && ts == td && ts.length == 1 && d.lines true == d.lines false && st == d.stride false &&
      (decide (((d.lines true).1 * d.esize : Nat) ≤ st) || (d.lines true).2 == 1) &&
      meets (d.extent true a.base) (d.extent false b.base) && decide (a.base < b.base) then 2
  else
    let bySource := !d.zeroSrc && shares ts td &&
      (d.srcIdx || d.dstIdx || meets (d.extent true a.base) (d.extent false b.base))
    let byTable (on : Bool) (tab : Nat) : Bool :=
      on && shares (spanTargets tab (tab + 4 * d.count - 1)) td &&
        (d.dstIdx || meets ((tab : Int), ((tab + 4 * d.count - 1 : Nat) : Int)) (d.extent false b.base))
    if bySource || byTable d.srcIdx a.tab || byTable d.dstIdx b.tab then 1 else 0

/-! ### The bursts of a descriptor (R309, R315, R318) -/

/-- The element moved `j`-th. -/
def Running.elem (r : Running) (j : Nat) : Nat := if r.mode = 2 then r.desc.count - 1 - j else j

/-- Whether a side is in index mode. -/
def Running.idx (r : Running) (src : Bool) : Bool := if src then r.desc.srcIdx else r.desc.dstIdx

/-- The address of the element moved `j`-th on a side; on an index side the entry read for it stands in (R315). -/
def Running.addr (r : Running) (src : Bool) (j : Nat) : Nat :=
  let x := if src then r.src else r.dst
  if r.idx src then x.base + (if src then r.srcEnt else r.dstEnt).getD 0
  else
    let k := r.elem j
    let len := (r.desc.lines src).1
    ((x.base : Int) + ((k / len : Nat) : Int) * r.desc.stride src + ((k % len * r.desc.esize : Nat) : Int)).toNat

/-- Elements of the burst that begins with the `j`-th: contiguous bytes of one line inside one block of 256 bytes; one element
in overlap mode and on an index side (R318, R320). -/
def Running.run (r : Running) (src : Bool) (j : Nat) : Nat :=
  if r.mode = 1 ∨ r.idx src then 1
  else
    let len := (r.desc.lines src).1
    let p := r.elem j % len
    let a := r.addr src j % 256
    let e := r.desc.esize
    Nat.min (r.desc.count - j) (if r.mode = 2 then Nat.min (p + 1) (a / e + 1) else Nat.min (len - p) ((256 - a) / e))

/-- A burst that a channel could issue: what it is for (R315), its lowest address, its elements and its bytes. -/
structure TBurst where
  use : Nat
  addr : Nat
  elems : Nat
  bytes : Nat
deriving DecidableEq, Repr

/-- A burst of `n` elements from the `j`-th of a side. -/
def Running.burst (r : Running) (src : Bool) (use j n : Nat) : TBurst :=
  ⟨use, r.addr src (if r.mode = 2 then j + n - 1 else j), n, n * r.desc.esize⟩

/-- The next write burst, once the buffer holds every byte of it (R309). -/
def Running.nextWrite (r : Running) : Option TBurst :=
  let d := r.desc
  if d.count ≤ r.k ∨ (d.dstIdx ∧ r.dstEnt.isNone) then none
  else
    let n := if r.fail.isSome then Nat.min (r.run false r.k) (r.rk - r.k) else r.run false r.k
    if n = 0 ∨ (¬ d.zeroSrc ∧ r.buf.length < n * d.esize) then none else some (r.burst false 0 r.k n)

/-- The next read burst: a table entry where one is needed, else source elements for which the buffer of 256 bytes has room
(R309, R315, R320). Where the whole burst has no room and the buffer holds no write burst, it is cut to the room.
(DEDUCED, entry 31) -/
def Running.nextRead (r : Running) : Option TBurst :=
  let d := r.desc
  if r.fail.isSome ∨ (r.mode = 1 ∧ ¬ d.zeroSrc ∧ r.rk ≠ r.k) then none
  else if d.dstIdx ∧ r.dstEnt.isNone ∧ r.k < d.count then some ⟨3, r.dst.tab + 4 * r.k, 1, 4⟩
  else if d.zeroSrc ∨ d.count ≤ r.rk then none
  else if d.srcIdx ∧ r.srcEnt.isNone then some ⟨2, r.src.tab + 4 * r.rk, 1, 4⟩
  else
    let room := 256 / d.esize - (r.rk - r.k)
    let n := r.run true r.rk
    let n := if n ≤ room then n else if r.nextWrite.isNone then room else 0
    if n = 0 then none else some (r.burst true 1 r.rk n)

/-- A list cut into pieces of `n` and put together from the last to the first: the order in which a reverse traversal meets the
elements of ascending bytes (R320). -/
def flipElems (n : Nat) (l : List Byte) : List Byte :=
  ((List.range (l.length / n)).reverse).flatMap fun i => (l.drop (i * n)).take n

/-- Elements in traversal order as ascending bytes, or the other way round. -/
def Running.ordered (r : Running) (l : List Byte) : List Byte := if r.mode = 2 then flipElems r.desc.esize l else l

/-! ### The ends of a descriptor -/

/-- With the tick stopped, plans that waited for a descriptor to leave a region complete once it has (R190, R328). -/
def State.resumePlans (s : State) : State :=
  if s.ticking ∨ s.plc.plans = [] then s else s.finishPlans State.leaveModules

/-- The descriptor of a channel ends in error (R329). (DEDUCED, entry 31) -/
def State.descError (s : State) (ch code : Nat) : State :=
  let s := (s.bump Attr.tngDescErrors ch 0).set Attr.tngLastError ch 0 code
  let s := s.logAt sevWarning Attr.tngLastError ch 0
  (s.setChan ch { (s.chan ch) with run := none, preempted := false }).resumePlans

/-- The master a channel writes as: the placement manager's two channels may write windows (R209). -/
def tongsMaster (ch : Nat) : Master := if ch = 14 ∨ ch = 15 then .placement else .tongs

/-! ### Issue of bursts (R309, R310, R325 to R327) -/

/-- Whether a module's bytes have reached its declaration (R327); once RUN is left no budget holds (R330). -/
def State.overBudget (s : State) (m : Option Nat) : Bool :=
  match m with
  | none => false
  | some m => match s.mod? m with
    | some md => s.ticking &&
      decide (((md.image.budgetFor s.eng.cfg.family s.eng.cfg.n).map (·.tongs)).getD 0 ≤ Store.get 0 s.tng.bytes m)
    | none => false

/-- Whether memory may be reached: deep memory once its fill is complete (R295), and no group under march (R291). -/
def State.usable (s : State) (a : Nat) : Bool :=
  if areaOf a = .deep then s.fab.deepReady
  else match s.fab.march, groupOf a with
    | some m, some g => m.group != g
    | _, _ => true

/-- Whether a burst of a paced descriptor may be issued: one that touches the peripheral needs its request (R325). -/
def State.paceHeld (s : State) (d : Desc) (a : Nat) : Bool :=
  d.pace == 0 || areaOf a != .control || onPb0 a || s.tng.pace.any fun e => e.1 == d.pace && e.2 != some 0

/-- Whether a read of a channel has been issued and has not ended. -/
def State.readOut (s : State) (ch : Nat) : Bool :=
  (s.tng.issued ++ s.fab.opened).any fun o => o.master == 1 && o.chan == ch && !o.write
/-- Whether a write of a channel has been issued and has not ended. -/
def State.writeOut (s : State) (ch : Nat) : Bool :=
  (s.tng.issued ++ s.fab.opened).any fun o => o.master == 1 && o.chan == ch && o.write

/-- The burst a channel is ready to issue on a path (R309): none in LOW (R541), while it pauses (R327), while the buffers are
under march (R291), or where what it reaches or its peripheral holds it back. One read of a channel is out at a time.
(DEDUCED, entry 31) -/
def State.tongsNext (s : State) (ch : Nat) (read : Bool) : Option TBurst :=
  match (s.chan ch).run with
  | none => none
  | some r =>
    if s.low ∨ (s.chan ch).paused ∨ s.fab.march.any (·.group == 91) ∨ (read ∧ s.readOut ch) then none
    else (if read then r.nextRead else r.nextWrite).filter fun b => s.usable b.addr && s.paceHeld r.desc b.addr

/-- The channel that a path chooses: highest level first, round-robin within a level (R309). -/
def State.tongsPick (s : State) (read : Bool) : Option Nat :=
  let ready := (List.range 16).filter fun ch => (s.tongsNext ch read).isSome
  let level := ready.foldl (fun l ch => Nat.min l (tongsLevel ch)) 4
  let same := ready.filter fun ch => tongsLevel ch == level
  let p := Store.get 0 s.tng.rr (level + if read then 4 else 0)
  match same.find? fun ch => decide (p ≤ ch) with
  | some ch => some ch
  | none => same.head?

/-- Whether a channel has more to move on a path. -/
def State.unfinished (s : State) (ch : Nat) (read : Bool) : Bool :=
  !(s.chan ch).paused && (s.chan ch).run.any fun r => decide ((if read then r.rk else r.k) < r.desc.count) && !(read && r.desc.zeroSrc)

/-- Channel `ch` takes a path from a channel of a lower level that has more to move there (R310). -/
def State.preempt (s : State) (ch : Nat) (read : Bool) : State :=
  let s := match if read then s.tng.lastR else s.tng.lastW with
    | some l =>
      if tongsLevel ch < tongsLevel l ∧ s.unfinished l read then
        (s.bump Attr.tngPreemptions l 0).setChan l { (s.chan l) with preempted := true }
      else s
    | none => s
  { s with tng := if read then { s.tng with lastR := some ch } else { s.tng with lastW := some ch } }

/-- What a peripheral's request still gives or takes of a burst of `n` bytes, and the request after it: a burst that outlasts it
is counted (R326). -/
def State.takePace (s : State) (ch : Nat) (d : Desc) (a n : Nat) : Nat × State :=
  if d.pace = 0 ∨ areaOf a ≠ .control ∨ onPb0 a then (n, s)
  else match s.tng.pace.find? (·.1 == d.pace) with
    | some (l, some k) =>
      let s := { s with tng := { s.tng with pace := (s.tng.pace.filter (·.1 != l)) ++ if n < k then [(l, some (k - n))] else [] } }
      if k < n then (k, s.bump Attr.tngOvershootBursts ch 0) else (n, s)
    | _ => (n, s)

/-- A channel issues a burst on a path (R309, R310): the pointer passes it, its position moves, and the data of a write leave
its buffer. -/
def State.issue (s : State) (ch : Nat) (read : Bool) (r : Running) (b : TBurst) : State :=
  let s := s.preempt ch read
  let s := { s with tng := { s.tng with rr := Store.put s.tng.rr (tongsLevel ch + if read then 4 else 0) (ch + 1) } }
  let (live, s) := s.takePace ch r.desc b.addr b.bytes
  let taken := if r.desc.zeroSrc then List.replicate b.bytes 0 else r.ordered (r.buf.take b.bytes)
  let data : List (Option Byte) := if read then [] else (taken.take live).map some ++ List.replicate (b.bytes - live) none
  let o : OpenBurst := ⟨(targetOf b.addr).getD 0, 1, ch, tongsQos ch, r.desc.module, b.addr, !read, data,
    if read then b.bytes else 0, live, [], b.use, 0⟩
  let s := { s with tng := { s.tng with issued := s.tng.issued ++ [o] } }
  let r' : Running := if b.use = 1 then { r with rk := r.rk + b.elems, srcEnt := none }
    else if b.use = 0 then { r with k := r.k + b.elems, buf := r.buf.drop b.bytes, dstEnt := none }
    else r
  let s := s.setChan ch { (s.chan ch) with run := some r', preempted := false }
  match r'.fail with
  | some e => if r'.k = r'.rk then s.descError ch e else s
  | none => s

/-- Descriptors whose module has used its budget pause before their next write burst (R327). -/
def State.pauseChannels (s : State) : State :=
  (List.range 16).foldl (fun s ch => match (s.chan ch).run with
    | some r =>
      if (s.tongsNext ch false).isSome ∧ s.overBudget r.desc.module then
        (s.bump Attr.tngBudgetPauses ch 0).setChan ch { (s.chan ch) with paused := true }
      else s
    | none => s) s

/-- A path issues the burst of the channel it chooses. -/
def State.issueOn (s : State) (read : Bool) : State :=
  match s.tongsPick read with
  | none => s
  | some ch => match (s.chan ch).run, s.tongsNext ch read with
    | some r, some b => s.issue ch read r b
    | _, _ => s

/-- Both paths of Tongs issue a burst (R308, R309). -/
def State.issueTongs (s : State) : State := ((s.pauseChannels).issueOn true).issueOn false

/-- A table entry has been read (R315, R317): the element must lie inside its region, aligned. -/
def Running.entry (r : Running) (x : Side) (v : Nat) : Except Nat Nat :=
  let a := x.base + v
  if a < x.lo ∨ x.hi < a + r.desc.esize then .error 7 else if a % r.desc.esize ≠ 0 then .error 3 else .ok v

/-- What a burst of Tongs has read reaches its channel: the buffer, or the next element's table entry. An entry of the source
in error waits for the elements before it (R329). (DEDUCED, entry 31) -/
def State.arriveRead (s : State) (o : OpenBurst) : State :=
  match (s.chan o.chan).run with
  | none => s
  | some r =>
    let put (r : Running) : State := s.setChan o.chan { (s.chan o.chan) with run := some r }
    if o.use = 1 then put { r with buf := r.buf ++ r.ordered o.got }
    else if o.use = 2 then
      (match r.entry r.src (leNat o.got) with
       | .ok v => put { r with srcEnt := some v }
       | .error e => if r.rk = r.k then s.descError o.chan e else put { r with fail := some e })
    else
      (match r.entry r.dst (leNat o.got) with
       | .ok v => put { r with dstEnt := some v }
       | .error e => s.descError o.chan e)

/-! ### Commands -/

/-- DOORBELL_TRIGGER (R321, R322): the pulse on a module's line queues its doorbell slot. (DEDUCED, entry 31) -/
def doorbellTrigger (line : Nat) (s : State) : State :=
  if ¬ s.tng.pulses.contains line then s
  else
    let t := s.triggerOf line
    let s := { s with tng := { s.tng with pulses := s.tng.pulses.erase line } }
    match t with
    | none => s
    | some (m, slot) =>
      let ch := s.n Attr.tngModuleChannel 0xFFFF m
      let c := s.chan ch
      if 16 ≤ c.queue.length then s.bump Attr.tngQueueDrops ch 0
      else s.setChan ch { c with queue := c.queue ++ [(slot, m)] }
/-- DOORBELL_TRIGGER (R321). -/
def execDoorbellTrigger (line : Nat) (s : State) : Host.Outcome State Fault Refusal := .next (doorbellTrigger line s)

/-- A target grants a single access of Tongs: a descriptor's fetch, its ctrl word or its marker (R299). (DEDUCED, entry 26) -/
def State.grantTongs (s : State) (a : Nat) : State :=
  match targetOf a with
  | some t => ({ s with fab := { s.fab with rr := Store.set 0 s.fab.rr t 2 } }).event (0x010 + t)
  | none => s

/-- A descriptor starts on a channel, or ends in error (R317, R320). -/
def State.startDesc (s : State) (ch : Nat) (d : Desc) : State :=
  match s.checkDesc d ch with
  | .error e => s.descError ch e
  | .ok (a, b, marker, next) =>
    let mode := d.traversal a b
    let s := if mode = 2 then s.bump Attr.tngReverseRuns ch 0
      else if mode = 1 then s.bump Attr.tngOverlapRuns ch 0 else s
    s.setChan ch { (s.chan ch) with
      run := some ⟨d, a, b, marker, next, mode, 0, 0, [], none, none, none⟩, paused := false, preempted := false }

/-- The descriptor a channel would take, and the module it is for: the oldest slot of a module's channel, the address its owner
names on the supervisor's and the placement manager's (R306, R321). -/
def State.slotTaken (s : State) (ch addr : Nat) : Option (Nat × Option Nat) :=
  if ch < 12 then (s.chan ch).queue.head?.map fun e => (e.1, some e.2) else if ch < 16 then some (addr, none) else none

/-- DESCRIPTOR_TAKE (R321): a free channel takes its oldest slot; a channel of the supervisor or the placement manager
takes the descriptor its owner names, which is aligned (R311) and answers without an error (R329). While the memory it lies in
cannot be reached, the channel waits. (DEDUCED, entry 31) -/
def descriptorTake (ch addr : Nat) (s : State) : State :=
  let c := s.chan ch
  if c.run.isSome ∨ s.low then s
  else match s.slotTaken ch addr with
    | none => s
    | some (a, m) =>
      if ¬ s.usable a then s
      else
        let s := s.setChan ch { c with queue := c.queue.drop 1 }
        if areaOf a = .hole then (s.bump Attr.memDecodeErrors 0x300 1).descError ch 8
        else if a % 64 ≠ 0 then s.descError ch 3
        else
          let (b, s) := (s.grantTongs a).accessRead a 64
          let d : Desc := ⟨b, m⟩
          if ¬ bit d.ctrl 31 then s.bump Attr.tngIdleTriggers ch 0
          else (s.accessWrite (tongsMaster ch) a ((leBytes 4 (d.ctrl - 2 ^ 31)).map some)).startDesc ch d
/-- DESCRIPTOR_TAKE (R321). -/
def execDescriptorTake (ch addr : Nat) (s : State) : Host.Outcome State Fault Refusal := .next (descriptorTake ch addr s)

/-- DESCRIPTOR_COMPLETE (R324): once every write has its response, the marker, the pulse and the chain, in this order. While
the memory of the marker or of the next descriptor cannot be reached, the channel waits. -/
def descriptorComplete (ch : Nat) (s : State) : State :=
  match (s.chan ch).run with
  | none => s
  | some r =>
    let d := r.desc
    if r.k < d.count ∨ s.writeOut ch ∨ ¬ ([r.marker, r.next].filterMap id).all s.usable then s
    else
      let s := match r.marker with
        | some a => (s.grantTongs a).accessWrite (tongsMaster ch) a ((leBytes 4 (d.f 48 4)).map some)
        | none => s
      let s := if d.doneEn then s.pulse (d.f 37 1) else s
      let s := (s.bump Attr.tngDescriptors ch 0).setChan ch { (s.chan ch) with run := none, preempted := false }
      match r.next with
      | some a =>
        let (b, s) := (s.grantTongs a).accessRead a 64
        s.startDesc ch ⟨b, d.module⟩
      | none => s.resumePlans
/-- DESCRIPTOR_COMPLETE (R324). -/
def execDescriptorComplete (ch : Nat) (s : State) : Host.Outcome State Fault Refusal := .next (descriptorComplete ch s)

/-- PACE_REQUEST (R325, R326): a peripheral asserts its request, with `room` bytes until it withdraws it if it will, 0 to
withdraw it now; the paths issue, the paced channel's burst among those they choose from. (DEDUCED, entry 31) -/
def paceRequest (line : Nat) (room : Option Nat) (s : State) : State :=
  if line = 0 ∨ 5 < line then s
  else ({ s with tng := { s.tng with
    pace := (s.tng.pace.filter fun (e : Nat × Option Nat) => e.1 != line) ++ if room = some 0 then [] else [(line, room)] } }).issueTongs
/-- PACE_REQUEST (R325). -/
def execPaceRequest (p : Pace) (s : State) : Host.Outcome State Fault Refusal := .next (paceRequest p.line p.room s)

/-- A master is reset (R303): the completion unit closes its open bursts, of which the beats already accepted stand; what waits
in its own buffers is lost. -/
def State.closeMaster (s : State) (m : Nat) : State :=
  let n := (s.fab.opened.filter (·.master == m)).length
  let s := { s with
    fab := { s.fab with opened := s.fab.opened.filter (·.master != m), waiting := s.fab.waiting.filter (·.master != m) }
    tng := { s.tng with issued := if m = 1 then [] else s.tng.issued } }
  s.add Attr.memResetCompletions 0x300 0 n

/-- A load of the idle plane that was interrupted begins again (R331). -/
def State.restartLoad (s : State) : State :=
  match s.cru.load with
  | none => s
  | some l =>
    ({ s with cru := { s.cru with load := some { l with rowsDone := 0, bytesDone := 0 } } }).ticketProgress l.ticket 0

/-- A reset of Tongs (R331): every channel is aborted, every queue and every pulse on its way to one emptied, the open bursts
closed, and the loading of the idle plane begins again. The manager's other copies stand whole or have not begun. -/
def State.tongsReset (s : State) : State :=
  let s := s.closeMaster 1
  let s := (List.range 16).foldl (fun s ch => s.setChan ch TChan.reset) s
  let s := s.bump Attr.tngTongsResets 0xFFFF 0
  (({ s with tng := { s.tng with pulses := [], lastR := none, lastW := none } }).restartLoad).resumePlans

end Sys2Proof.Machine
end

