-- ==== Sys2Proof/Machine/Fabric.lean ====
section
/-! DEFINITION. The memory fabric's commands: the grant of a burst at a target of the main matrix (R297 to R303), the
write-back of a corrected word (R285), and the march engine (R288 to R292). -/

namespace Sys2Proof.Machine

/-! ### Bit errors -/

/-- A stored byte with the bits of `m` inverted: what an upset does to the raw words, whatever guards writes.
(DEDUCED, entry 25) -/
def State.flipByte (s : State) (a m : Nat) : State :=
  let b := s.readByte a ^^^ byteOf m
  match areaOf a with
  | .bank _ | .temper | .deep => { s with fab := { s.fab with mem := Store.set 0 s.fab.mem a b } }
  | .window c off => s.setCore c (setWindowByte (s.core c) off b)
  | .plane p off =>
    (match s.nodeKeyAt off with
     | some k =>
       let w := withByte (Store.get 0 (s.planeOf p) k) (off % 4) b % 2 ^ 25
       if p = 0 then { s with cru := { s.cru with planeA := Store.set 0 s.cru.planeA k w } }
       else { s with cru := { s.cru with planeB := Store.set 0 s.cru.planeB k w } }
     | none => s)
  | _ => s

/-- Inverts the bits of a mask in the bytes from `a`. -/
def State.flipBytes (s : State) : (n a m : Nat) → State
  | 0, _, _ => s
  | n + 1, a, m => State.flipBytes (if m % 256 = 0 then s else s.flipByte a (m % 256)) n (a + 1) (m / 256)

/-- The bits by which the data of a word read wrong: none of one inverted bit, which the code corrects (R285, R286). -/
def wrongBits (w m : Nat) : Nat := if bitsSet m ≤ 1 then 0 else m % 2 ^ (wordBits w).1

/-- Bits of a word, its check bits above its data, are inverted (R284): one is correctable, two or more are not (R285, R286).
(DEDUCED, entry 25) -/
def State.upsetWord (s : State) (e : Nat × Nat) : State :=
  let w := wordOf e.1
  let (data, check) := wordBits w
  let old := Store.get 0 s.fab.upset w
  let m := old ^^^ e.2 % 2 ^ (data + check)
  if ¬ coded w then s
  else
    let s := s.flipBytes (wordBytes w) w (wrongBits w old ^^^ wrongBits w m)
    { s with fab := { s.fab with
        upset := Store.set 0 s.fab.upset w m
        wback := if bitsSet m = 1 then s.fab.wback else s.fab.wback.filter (· != w) } }

/-! ### Masters and arrivals (R297, R298, R300) -/

/-- A master of a burst by its number (R304). -/
def masterOf (i : Nat) : Master :=
  if i = 0 then .supervisor else if i = 1 then .tongs else if i = 2 then .delay else if i = 3 then .network else .pair

/-- QoS of a master other than Tongs (R297). -/
def masterQos (i : Nat) : Nat := if i = 0 then 4 else if i = 2 then 13 else if i = 3 then 11 else 12

/-- Whether a master reaches a target (R297). -/
def reaches (m t : Nat) : Bool :=
  if m ≤ 1 then true
  else if m = 2 then t == 20 || t == 21
  else decide (t < 16) || t == 20 || t == 21

/-- Whether a target takes a burst of a master: those that it reaches, and the protected targets, which answer every master
(R51, R209, R277). (DEDUCED, entry 26) -/
def takes (m t : Nat) : Bool := reaches m t || (decide (16 ≤ t) && decide (t ≤ 19))

/-- Splits a deep-memory burst at the granules of 256 bytes (R298). -/
def splitBurst : (fuel : Nat) → Burst → List Burst
  | 0, b => [b]
  | f + 1, b =>
    let room := 256 - b.addr % 256
    if areaOf b.addr = .deep ∧ room < b.len then
      { b with len := room, data := b.data.take room, strobes := b.strobes.take room } ::
        splitBurst f { b with
          addr := b.addr + room, len := b.len - room, data := b.data.drop room, strobes := b.strobes.drop room }
    else [b]

/-- A burst with no target answers at once (R276): zeros for a read, nothing written, an error response, a count.
(DEDUCED, entry 26) -/
def State.decodeError (s : State) (b : Burst) : State :=
  let s := s.bump Attr.memDecodeErrors 0x300 b.master
  { s with fab := { s.fab with readData := if b.kind = .write then [] else List.replicate b.len 0, error := true } }

/-- A burst arrives at its target, in pieces where it is split. The Tongs channels bring their own. -/
def State.arriveBurst (s : State) (b : Burst) : State :=
  if b.master = 1 ∨ 4 < b.master then s
  else match targetOf b.addr with
    | none => s.decodeError b
    | some t =>
      if takes b.master t then
        { s with fab := { s.fab with waiting := s.fab.waiting ++ splitBurst 2 { b with waited := 0 } } }
      else s.decodeError b

/-! ### The beats of a burst (R278, R280, R299, R303) -/

/-- The bytes of a burst that writes, none where a strobe is off. -/
def burstBytes (b : Burst) : List (Option Byte) := b.data.mapIdx fun i x => if b.strobes.getD i true then some x else none

/-- The supervisor's words for a plane that is protected pass through Bellows (R51): a ramp of the default time and shape
carries each node to its new gain. (DEDUCED, entry 26) -/
def State.writeLive (s : State) (p a : Nat) (d : List (Option Byte)) : State :=
  let nodes := (wordsOf a d.length).filterMap fun w =>
    (s.nodeKeyAt (w % 2 ^ 24)).map fun k =>
      let old := Store.get 0 (s.planeOf p) k
      let new := leNat ((List.range 4).map fun i =>
        ((if a ≤ w + i then d.getD (w + i - a) none else none).getD (byteAt old i)))
      (RParam.node p (k / 2048) (k % 2048), gainOf new)
  let len := samplesOf (s.n Attr.belDefaultRampTime 0 0) s.eng.cfg.fs
  let nodes := nodes.filter fun e => s.target e.1 != e.2
  let news := nodes.map fun e =>
    (⟨e.1, e.2, len, s.n Attr.belDefaultRampShape 0 0, s.applied e.1 (s.firstOf e.1 - 1), 2 * s.bel.nextId⟩ : NewRamp)
  match s.acceptGroup news none true (Attr.nodeGain, 0) with
  | .ok t => t
  | .error _ => s

/-- Bytes of a burst written at their target. -/
def State.writePart (s : State) (o : OpenBurst) (d : List (Option Byte)) : State :=
  if o.master = 1 then
    let s := (s.accessWrite (tongsMaster o.chan) o.addr d).add Attr.tngBytes o.chan 0 d.length
    match o.module with
    | some m => { s with tng := { s.tng with bytes := Store.put s.tng.bytes m (Store.get 0 s.tng.bytes m + d.length) } }
    | none => s
  else match areaOf o.addr with
    | .plane p _ =>
      if o.master = 0 ∧ s.planeLocked p ∧ s.ticking then s.writeLive p o.addr d else s.accessWrite (masterOf o.master) o.addr d
    | _ => s.accessWrite (masterOf o.master) o.addr d

/-- Bytes of a burst read at their target; a peripheral that has withdrawn its request gives zeros (R326). -/
def State.readPart (s : State) (o : OpenBurst) (n : Nat) : List Byte × State :=
  let k := Nat.min n o.live
  let (d, s) := if k = 0 then ([], s) else s.accessRead o.addr k
  (d ++ List.replicate (n - k) 0, s)

/-- A burst that holds its target runs `beats` beats; what is left of it stays open, and what a whole read has brought reaches
its master (R299). -/
def State.runBeats (s : State) (o : OpenBurst) (beats : Nat) : State :=
  let left := if o.write then o.data.length else o.len
  let n := Nat.min left (32 * beats - o.addr % 32)
  if n = 0 then { s with fab := { s.fab with opened := s.fab.opened ++ [o] } }
  else
    let s := if o.master = 1 then s.events (0x0E0 + o.chan) (ceilDiv (o.addr % 32 + n) 32) else s
    if o.write then
      let s := s.writePart o (o.data.take n)
      if n = left then s
      else { s with fab := { s.fab with opened := s.fab.opened ++ [{ o with addr := o.addr + n, data := o.data.drop n }] } }
    else
      let (d, s) := s.readPart o n
      let o := { o with addr := o.addr + n, len := o.len - n, live := o.live - n, got := o.got ++ d }
      if n < left then { s with fab := { s.fab with opened := s.fab.opened ++ [o] } }
      else if o.master = 1 then s.arriveRead o
      else { s with fab := { s.fab with readData := o.got } }

/-- Bursts that hold their targets run further. -/
def State.runOpen (s : State) (p : OpenBurst → Bool) (beats : Nat) : State :=
  (s.fab.opened.filter p).foldl (fun s o => s.runBeats o beats)
    { s with fab := { s.fab with opened := s.fab.opened.filter (!p ·) } }

/-- The supervisor's atomic operation on a word of a bank (R280): read with correction, new word written, old word returned; a
limited sum is counted. -/
def State.atomicAt (s : State) (a : Nat) (kind : BurstKind) (v : Nat) : State :=
  let w := wordOf a
  let s := s.eccTouch w
  let old : BitVec 32 := BitVec.ofNat 32 (s.word32 w)
  let x : BitVec 32 := BitVec.ofNat 32 v
  let r : BitVec 32 × Bool := match kind with
    | .addSaturating => satAdd old x
    | .swap => (x, false)
    | _ => (old + x, false)
  let s := if r.2 then s.bump Attr.memAtomicSat (a / 0x40000) 0 else s
  let s := (s.eccClear w).writeBytes w (leBytes 4 r.1.toNat)
  { s with fab := { s.fab with readData := leBytes 4 old.toNat } }

/-- A burst of a master other than Tongs, granted at a target. -/
def openedBurst (b : Burst) (t : Nat) : OpenBurst :=
  ⟨t, b.master, 16, 0, none, b.addr, b.kind == .write, burstBytes b, b.len, b.len, [], 0, 0⟩

/-- A granted burst runs `beats` of its beats, one at the least; an atomic operation runs whole. (DEDUCED, entry 26) -/
def State.runBurst (s : State) (t beats : Nat) (b : Burst) : State :=
  let s := { s with fab := { s.fab with waiting := s.fab.waiting.erase b, readData := [], error := false } }
  if b.kind = .read ∨ b.kind = .write then s.runBeats (openedBurst b t) (Nat.max 1 beats)
  else s.atomicAt b.addr b.kind (leNat b.data)

/-! ### Time -/

/-- Lines of the longest sub-array of a march group (R288). -/
def groupLines (g : Nat) : Nat :=
  if g < 16 then 8192 else if g < 64 then 32768 else if g < 66 then 65536 else if g = 66 then 32768
  else if g < 91 then 4096 else 8192

/-- Elements that a march has completed after `cycles` fabric cycles: they take 1, 2, 2, 2, 2 and 1 cycles for each line of the
longest sub-array, and the last ends with MARCH_COMPLETE (R288 to R290). -/
def elementsDone (g cycles : Nat) : Nat := ([1, 3, 5, 7, 9].filter fun k => decide (k * groupLines g ≤ cycles)).length

/-- TONGS_RESET (R331): the bursts in flight have had `beats` more of their beats accepted, which stand (R303). -/
def execTongsReset (beats : Nat) (s : State) : Host.Outcome State Fault Refusal :=
  .next (s.runOpen (·.master == 1) beats).tongsReset

/-- Fabric cycles pass (R288, R299, R302): bursts that hold their targets run on and the others age, the bridges pass on what was
posted, PB0 in 8 cycles a transfer and PB1 in 16, and a march goes on. (DESIGN CHOICE, entry 28) -/
def State.passTime (s : State) (cycles : Nat) : State :=
  let age := cycles / 2
  let busy := (List.range 24).filter fun t =>
    (s.fab.waiting.any fun b => targetOf b.addr == some t) || s.tng.issued.any (·.target == t)
  let s := if cycles = 0 then s else busy.foldl (fun s t => s.events (0x030 + t) cycles) s
  let s := (s.events 0x000 cycles).events 0x001 age
  let s := s.runOpen (fun _ => true) age
  let s := (s.drainBridge true (Nat.min 8 (cycles / 8))).drainBridge false (Nat.min 8 (cycles / 16))
  let s := { s with
    fab := { s.fab with
      clock := s.fab.clock + cycles
      waiting := s.fab.waiting.map fun (b : Burst) => { b with waited := b.waited + age }
      march := s.fab.march.map fun (m : March) => { m with cycles := m.cycles + cycles } }
    tng := { s.tng with issued := s.tng.issued.map fun (o : OpenBurst) => { o with waited := o.waited + age } } }
  match s.fab.march with
  | some m => s.ticketProgress m.ticket (elementsDone m.group m.cycles)
  | none => s

/-- Fabric cycles of a block period, at 1.2 GHz. -/
def State.periodCycles (s : State) : Nat := 1200000000 * s.eng.cfg.n / s.eng.cfg.fs

/-- The rest of a block period passes at its tick (R12). -/
def State.passPeriod (s : State) : State :=
  let s := s.passTime (s.periodCycles - s.fab.clock)
  { s with fab := { s.fab with clock := 0 } }

/-! ### Arbitration (R299) -/

/-- The level of a burst that has waited: one more for each 64 cycles, at most 15. -/
def effectiveQos (qos waited : Nat) : Nat := Nat.min 15 (qos + waited / 64)

/-- A candidate at a target: its master, its level, and the burst of a master, or of Tongs. -/
structure Cand where
  master : Nat
  qos : Nat
  burst : Option Burst
  tongs : Option OpenBurst
deriving DecidableEq, Repr

/-- The candidates at target `t`: the oldest burst of each master (R301), of Tongs the one issued first. -/
def State.candidates (s : State) (t : Nat) : List Cand :=
  let here := s.fab.waiting.filter fun b => targetOf b.addr == some t
  let own := (List.range 5).filterMap fun m =>
    ((here.find? (·.master == m)).filter fun b => s.usable b.addr).map fun b =>
      (⟨m, effectiveQos (masterQos m) b.waited, some b, none⟩ : Cand)
  match s.tng.issued.find? (·.target == t) with
  | some o => own ++ [⟨1, effectiveQos o.qos o.waited, none, some o⟩]
  | none => own

/-- The winner: the highest level, ties by the first master from the pointer `p` on. (DEDUCED, entry 26) -/
def winner (p : Nat) (l : List Cand) : Option Cand :=
  let top := l.foldl (fun q c => Nat.max q c.qos) 0
  let best := l.filter (·.qos == top)
  (List.range 5).findSome? fun i => best.find? (·.master == (p + i) % 5)

/-- The winner's burst leaves its queue and runs. -/
def State.runWinner (s : State) (t beats : Nat) (c : Cand) : State :=
  match c.burst, c.tongs with
  | some b, _ => s.runBurst t beats b
  | none, some o => { s with tng := { s.tng with issued := s.tng.issued.erase o } }.runBeats o (Nat.max 1 beats)
  | none, none => s

/-- What the buffers of Tongs, the network and the Tether have in error is read as a burst passes them (R285, R288).
(DESIGN CHOICE, entry 25) -/
def State.touchBuffers (s : State) : State := s.eccTouches ((s.fab.upset.map (·.1)).filter fun w => groupOf w == some 91)

/-- What comes before a grant at target `t`: the upsets strike, time passes, a burst that holds the target ends, the arrivals come
and Tongs issues. (DESIGN CHOICE, entry 28) -/
def State.beforeGrant (s : State) (t cycles : Nat) (arrivals : List Burst) (upsets : List (Nat × Nat)) : State :=
  let s := (upsets.foldl State.upsetWord s).passTime (2 * cycles)
  (arrivals.foldl State.arriveBurst (s.runOpen (·.target == t) 9)).issueTongs

/-- A target's grant to a candidate: the pointer passes its master, and its burst runs (R299). -/
def State.grantTo (s : State) (t beats : Nat) (c : Cand) : State :=
  let s := { s with fab := { s.fab with rr := Store.set 0 s.fab.rr t ((c.master + 1) % 5) } }
  ((s.event (0x010 + t)).touchBuffers).runWinner t beats c

/-- MATRIX_BURST_GRANT (R299): `cycles` matrix cycles have passed, `upsets` (address of a word, bits) have struck and `arrivals`
come, and Tongs issues; a burst that holds target `t` ends, and the target grants one, which runs `beats` beats before the next
command: 8 are a whole burst. -/
def matrixBurstGrant (t cycles : Nat) (arrivals : List Burst) (upsets : List (Nat × Nat)) (beats : Nat) (s : State) : State :=
  let s := s.beforeGrant t cycles arrivals upsets
  match winner (Store.get 0 s.fab.rr t) (s.candidates t) with
  | none => s
  | some c => s.grantTo t beats c
/-- MATRIX_BURST_GRANT (R299). -/
def execMatrixBurstGrant (t cycles : Nat) (arrivals : List Burst) (upsets : List (Nat × Nat)) (beats : Nat)
    (s : State) : Host.Outcome State Fault Refusal := .next (matrixBurstGrant t cycles arrivals upsets beats s)

/-- ECC_WRITEBACK (R285): the corrected word is written back; its code is good again. (DEDUCED, entry 25) -/
def eccWriteback (addr : Nat) (s : State) : State :=
  if s.fab.wback.contains addr ∧ bitsSet (Store.get 0 s.fab.upset addr) = 1 then s.eccClear addr else s
/-- ECC_WRITEBACK (R285). -/
def execEccWriteback (addr : Nat) (s : State) : Host.Outcome State Fault Refusal := .next (eccWriteback addr s)

/-! ### The march engine (R288 to R292) -/

/-- Whether a region lies in a bank. -/
def State.bankPlaced (s : State) (b : Nat) : Bool :=
  (runsOf s.plc.regions).any fun r => decide (r.1 < 0x400000) && r.1 / 0x40000 == b

/-- Whether a core holds no module, present or to come, or is retired. -/
def State.coreFree (s : State) (c : Nat) : Bool :=
  bit (s.n Attr.plcRetiredCores 0 0) c ||
    ((s.modsOn c).isEmpty && !(s.futurePlace.mods.any fun e => e.2 == c) &&
      !(s.plc.retiring.any fun r => r.spare == some c))

/-- Why a march of a group is refused on request (R291); none when it is not. (DEDUCED, entry 29) -/
def State.marchRefusal (s : State) (g : Nat) (preserving : Bool) : Option Nat :=
  let stopped := !s.ticking
  let allowed :=
    if g = 0 then false
    else if g < 16 then !s.bankPlaced g || (preserving && stopped)
    else if g < 64 then s.coreFree (g - 16) || (preserving && stopped)
    else if g = 64 ∨ g = 65 then
      if g - 64 = 1 - s.live then s.n Attr.cruStrikeState 0 0 == 0 && s.n Attr.cruIdleBusy 0 0 == 0
      else preserving && stopped
    else preserving && stopped
  if allowed then none else some rState

/-- Whether a group is the idle plane. -/
def State.idleGroup (s : State) (g : Nat) : Bool := (g == 64 || g == 65) && g - 64 == 1 - s.live

/-- A march begins: a bank takes no placement, the idle plane is busy (R291).
(DESIGN CHOICE, entry 28) (DEDUCED, entry 29) -/
def State.startMarch (s : State) (g : Nat) (preserving : Bool) (ticket : Nat) : State :=
  let s := { s with fab := { s.fab with march := some ⟨g, preserving, ticket, 0⟩ } }
  let s := if g < 16 then ({ s with plc := { s.plc with withheld := g :: s.plc.withheld.erase g } }).spaceAttrs else s
  if s.idleGroup g then s.set Attr.cruIdleBusy 0 0 1 else s

/-- MARCH_RUN (R291). -/
def marchRun (c : Ctx) (s : State) : Answer :=
  let v := c.arg.toNat
  let g := v % 256
  if 91 < g ∨ 512 ≤ v then refuse rRange
  else if s.fab.march.isSome then refuse rBusy
  else match s.marchRefusal g (bit v 8) with
    | some e => refuse e
    | none =>
      match s.openTicket (address Attr.memRun 0x100) 6 with
      | none => refuse rBusy
      | some (k, t) => okTicket (t.startMarch g (bit v 8) k) k
/-- MARCH_RUN (R291). -/
def execMarchRun (q : Req) (s : State) : Host.Outcome State Fault Refusal := .next (serve .marchRun marchRun q s)

/-- A core's memories at zero. -/
def CoreSt.cleared (k : CoreSt) : CoreSt := { k with pm := [], x := [], y := [] }

/-- A group at zero with good codes, as a destructive march leaves it (R289). (DEDUCED, entry 29) -/
def State.zeroGroup (s : State) (g : Nat) : State :=
  let s := { s with fab := { s.fab with
      upset := Store.keep (fun w => groupOf w != some g) s.fab.upset
      wback := s.fab.wback.filter fun w => groupOf w != some g } }
  if g < 16 then s.zeroRun (g * 0x40000) 0x40000
  else if g < 64 then s.setCore (g - 16) (s.core (g - 16)).cleared
  else if g < 66 then
    let keep (r : Ramp) : Bool := match r.param with
      | .node p _ _ => p != g - 64
      | _ => true
    let s := { s with bel := { s.bel with ramps := s.bel.ramps.filter keep } }
    if g = 64 then { s with cru := { s.cru with planeA := [] } } else { s with cru := { s.cru with planeB := [] } }
  else s

/-- Sets or clears a group's bit of fail_map (R304). -/
def State.setFail (s : State) (g : Nat) (fails : Bool) : State :=
  let w := s.n Attr.memFailMap 0x100 (g / 32)
  let w := w - w / 2 ^ (g % 32) % 2 * 2 ^ (g % 32)
  s.set Attr.memFailMap 0x100 (g / 32) ((w + b2n fails * 2 ^ (g % 32) : Nat) : Int)

/-- Records a march failure (R292): its place, the log entry, and what follows for its group; `absorbed` says that the
core is retired already. A bank is withheld, and only SB0's failure is a condition; a core is condemned, and its failure is one
where it holds modules and no spare can take them (R200, R536, R553). (DEDUCED, entry 29) -/
def State.marchFailed (s : State) (f : MarchFail) (absorbed : Bool) : State :=
  let g := f.group
  let s := (s.setFail g true).set Attr.memLastFail 0x100 0
    ((g % 256 * 2 ^ 56 + f.line % 2 ^ 24 * 2 ^ 32 + f.diff % 2 ^ 32 : Nat) : Int)
  let s := s.logAt sevError Attr.memLastFail 0x100 0
  let s := if g < 16 then ({ s with plc := { s.plc with withheld := g :: s.plc.withheld.erase g } }).spaceAttrs else s
  if 0 < g ∧ g < 16 then s
  else if 16 ≤ g ∧ g < 64 then
    let c := g - 16
    if absorbed then s
    else
      let s := s.setCore c { (s.core c) with condemned := true }
      if (s.modsOn c).isEmpty || s.emptyCore.isSome then s else s.raise 6
  else ({ s with hlt := { s.hlt with fatalMarch := true } }).raise 6

/-- A march passes: its bit of fail_map is 0, and a bank may be placed in again. -/
def State.marchPassed (s : State) (g : Nat) : State :=
  let s := s.setFail g false
  if g < 16 then ({ s with plc := { s.plc with withheld := s.plc.withheld.erase g } }).spaceAttrs else s

/-- The end of a core's reinstatement (R204): with a pass the core is usable. (DEDUCED, entry 19) -/
def State.endReinstate (s : State) (core : Nat) (passed : Bool) : State :=
  let s := { s with plc := { s.plc with reinstating := none } }
  if ¬ passed then s
  else
    let r := s.n Attr.plcRetiredCores 0 0
    let s := if bit r core then s.set Attr.plcRetiredCores 0 0 ((r - 2 ^ core : Nat) : Int) else s
    let s := s.setCore core { (s.core core) with condemned := false, halted := false, overAt := [] }
    s.loadAttrs s.topo s.place

/-- Where a read stands in the order in which a march comes to it: by element, whose lines descend in elements 4 and 5
(R289). -/
def readsBefore (a b : MarchRead) : Bool :=
  decide (a.element < b.element) || (a.element == b.element &&
    if a.element = 4 ∨ a.element = 5 then decide (b.line < a.line) else decide (a.line < b.line))

/-- The earlier of a read found so far and another. -/
def earlierRead (a : Option MarchRead) (r : MarchRead) : Option MarchRead :=
  match a with
  | some x => if readsBefore r x then some r else a
  | none => some r

/-- The first read of a march that differs from what its element expects: with one the group fails, without one it passes, the
signatures of the preserving mode being equal (R289, R290, R292). (DEDUCED, entry 29) -/
def firstFailure (g : Nat) (reads : List MarchRead) : Option MarchFail :=
  ((reads.filter (·.diff != 0)).foldl earlierRead none).map fun r => ⟨g, r.line, r.diff⟩

/-- A march leaves its group (R289 to R291): at zero after a destructive one, and the idle plane no longer busy. -/
def State.marchOver (s : State) (m : March) : State :=
  let s := s.ticketProgress m.ticket 6
  let s := if m.preserving then s else s.zeroGroup m.group
  let s := if s.idleGroup m.group then s.set Attr.cruIdleBusy 0 0 0 else s
  { s with fab := { s.fab with march := none } }

/-- What the outcome of a march means for its group (R292). -/
def State.marchJudged (s : State) (g : Nat) (fails : Option MarchFail) : State :=
  match fails with
  | some f => s.marchFailed f (decide (16 ≤ g ∧ g < 64) && bit (s.n Attr.plcRetiredCores 0 0) (g - 16))
  | none => s.marchPassed g

/-- The ticket of a march: that of a reinstatement says whether it passed (R204, R291). -/
def State.marchAnswered (s : State) (ticket : Nat) (passed : Bool) : State :=
  match s.plc.reinstating with
  | some (core, _) => (s.endReinstate core passed).completeTicket ticket (if passed then rOk else rState)
  | none => s.completeTicket ticket rOk

/-- MARCH_COMPLETE (R292): the march that runs ends; `reads` are those that differed from what was expected.
(DESIGN CHOICE, entry 28) (DEDUCED, entry 29) -/
def marchComplete (reads : List MarchRead) (s : State) : State :=
  match s.fab.march with
  | none => s
  | some m =>
    let fails := firstFailure m.group reads
    ((s.marchOver m).marchJudged m.group fails).marchAnswered m.ticket fails.isNone
/-- MARCH_COMPLETE (R292). -/
def execMarchComplete (reads : List MarchRead) (s : State) : Host.Outcome State Fault Refusal :=
  .next (marchComplete reads s)

end Sys2Proof.Machine
end

