-- ==== Sys2Proof/Machine/Strips.lean ====
section
/-! DEFINITION. The commands on strips, loudness meters and silence detectors (R141 to R180): coefficients, bypass,
delay, key, insert, strip maps, and the measurement events. The audio itself is in Evaluate. -/

namespace Sys2Proof.Machine

/-! ### Sections (R145 to R149) -/

/-- Whether a section's poles lie inside the unit circle (R147). -/
def polesOk (a1 a2 : Int) : Bool :=
  decide (-536870912 < a2 ∧ a2 < 536870912 ∧ -(536870912 + a2) < a1 ∧ a1 < 536870912 + a2)

/-- Whether section `j` of a coefficient attribute is stable. -/
def State.sectionOk (s : State) (code inst j : Nat) : Bool :=
  polesOk (s.a code inst (5 * j + 3)) (s.a code inst (5 * j + 4))

/-- A coefficient write, for sections or a key filter: refused with RANGE unless every section it touches is stable as
it results (R147). -/
def writeCoefs (c : Ctx) (s : State) : Answer :=
  let t := s.store c
  let first := c.q.elem / 5
  let last := (c.q.elem + c.vals.length - 1) / 5
  match ((List.range (last + 1)).drop first).find? fun j => !t.sectionOk c.code c.q.inst j with
  | none => ok t
  | some j => .error ⟨rRange, Nat.max c.q.elem (5 * j), []⟩

/-- COEF (R147, R149): the one-block crossfade is the evaluation's, from the old snapshot to the new. -/
def execCoef (q : Req) (s : State) : Host.Outcome State Fault Refusal := .next (serve .coef writeCoefs q s)

/-- SECTION_BYPASS (R148). -/
def writeSectionBypass (c : Ctx) (s : State) : Answer := ok (s.store c)
/-- SECTION_BYPASS (R148). -/
def execSectionBypass (q : Req) (s : State) : Host.Outcome State Fault Refusal :=
  .next (serve .sectionBypass writeSectionBypass q s)

/-! ### Delay, key and maps (R141 to R144, R150, R180) -/

/-- DELAY_ENABLE (R141): a change of the deep-memory charge, admitted under R30. -/
def writeDelayEnable (c : Ctx) (s : State) : Answer := admitWrite c s
/-- DELAY_ENABLE (R141). -/
def execDelayEnable (q : Req) (s : State) : Host.Outcome State Fault Refusal :=
  .next (serve .delayEnable writeDelayEnable q s)

/-- DELAY (R142): from 0 to 2 s at the engine rate. -/
def writeDelay (c : Ctx) (s : State) : Answer :=
  if ¬ c.atOnce ∧ ((2 * s.fs : Nat) : Int) < c.arg then refuse rRange else ok (s.store c)
/-- DELAY (R143). -/
def execDelay (q : Req) (s : State) : Host.Outcome State Fault Refusal := .next (serve .delay writeDelay q s)

/-- Whether a key word may be written (R150). -/
def State.keyOk (s : State) (w : Nat) : Bool :=
  decide (w / 2 ^ 30 < 3) && field w 16 14 == 0 && decide (w % 65536 < s.ins)

/-- COMP_KEY (R150). -/
def writeCompKey (c : Ctx) (s : State) : Answer :=
  if ¬ c.atOnce ∧ ¬ s.keyOk c.arg.toNat then refuse rRange else ok (s.store c)
/-- COMP_KEY (R150). -/
def execCompKey (q : Req) (s : State) : Host.Outcome State Fault Refusal := .next (serve .compKey writeCompKey q s)

/-- The first element of a strip map write that sets a bit at or beyond the number of strips (R206). -/
def mapBad (limit : Nat) : Nat → List Int → Option Nat
  | _, [] => none
  | e, v :: vs => if (List.range 32).any fun b => bit v.toNat b && decide (limit ≤ 32 * e + b) then some e
    else mapBad limit (e + 1) vs

/-- STRIP_MAP (R180, R206): strips become active or inactive after admission. -/
def writeStripMap (c : Ctx) (s : State) : Answer :=
  match (if c.atOnce then none else mapBad (if c.code = Attr.plcInStripMap then s.ins else s.D) c.q.elem c.vals) with
  | some e => .error ⟨rRange, e, []⟩
  | none => admitWrite c s
/-- STRIP_MAP (R180). -/
def execStripMap (q : Req) (s : State) : Host.Outcome State Fault Refusal := .next (serve .stripMap writeStripMap q s)

/-! ### Inserts (R155 to R157, R241) -/

/-- The in-strip whose insert names a module and port. -/
def State.insertOn (s : State) (w : Nat) : Option Nat :=
  (s.listed Attr.insInsert).findSome? fun e => if e.2.2 = (w : Int) then some e.1 else none

/-- Why an insert word is refused: a kind other than 0 and 3 or a port not declared, RANGE (R155); a port in use,
STATE (R241). -/
def State.insertBad (s : State) (n w : Nat) : Option Nat :=
  let i := w % 2 ^ 28
  match w / 2 ^ 28 with
  | 0 => if i = 0 then none else some rRange
  | 3 =>
    (match s.mod? (i / 256) with
     | some m =>
       if m.image.nIn ≤ i % 256 ∨ m.image.nOut ≤ i % 256 then some rRange
       else if s.n Attr.modInSrc (i / 256) (i % 256) / 2 ^ 28 = 1 then some rState
       else match s.insertOn w with
         | some k => if k = n then none else some rState
         | none => none
     | none => some rRange)
  | _ => some rRange

/-- INSERT (R155, R157): binds, unbinds or rebinds after admission; the crossfade is the evaluation's. -/
def writeInsert (c : Ctx) (s : State) : Answer :=
  match (if c.atOnce then none else s.insertBad c.q.inst c.arg.toNat) with
  | some e => refuse e
  | none => admitWrite c s
/-- INSERT (R157). -/
def execInsert (q : Req) (s : State) : Host.Outcome State Fault Refusal := .next (serve .insert writeInsert q s)

/-- INSERT_BYPASS (R156). -/
def writeInsertBypass (c : Ctx) (s : State) : Answer := ok (s.store c)
/-- INSERT_BYPASS (R156). -/
def execInsertBypass (q : Req) (s : State) : Host.Outcome State Fault Refusal :=
  .next (serve .insertBypass writeInsertBypass q s)

/-! ### Meters and loudness (R164, R167, R168) -/

/-- PEAK_HOLD_EXPIRY (R164, R165): a meter's hold has run out, and its reading falls from the next frame. -/
def peakHoldExpiry (m : Nat) (s : State) : State :=
  match Store.find? s.mtr.meters m with
  | none => s
  | some x =>
    let p := if x.holdLeft = 0 ∧ 0 < x.held then [m] else []
    let t := if x.tpLeft = 0 ∧ 0 < x.tpHeld then [m + 65536] else []
    let new := (p ++ t).filter fun k => !s.mtr.peaksDone.contains k
    { s with mtr := { s.mtr with peaksDone := s.mtr.peaksDone ++ new } }
/-- PEAK_HOLD_EXPIRY (R164). -/
def execPeakHoldExpiry (m : Nat) (s : State) : Host.Outcome State Fault Refusal := .next (peakHoldExpiry m s)

/-- A tap word that may be written (R166). -/
def State.tapOk (s : State) (w : Nat) : Bool :=
  let i := w % 65536
  field w 16 12 == 0 &&
  (match w / 2 ^ 28 with
   | 0 => i == 0
   | 1 | 2 | 3 => decide (i < s.ins)
   | 4 | 5 => decide (i < s.D)
   | _ => false)

/-- A loudness in centi-LUFS: −0.691 dB on the mean of `e` over `n` samples, energies with 32 fraction bits scaled by
1000 (R166, R167); −32768 for silence. -/
def centiLufs (e n : Nat) : Int :=
  if e = 0 ∨ n = 0 then -32768
  else
    let ratio : Int := (e : Int) * fxOne / (n * 1000 * 2 ^ 78 : Nat)
    if ratio ≤ 0 then -32768 else clampInt (-32768) 32767 (fxRound (1000 * fxLog10 ratio - 691 * fxOne / 10))

/-- Whether a mean energy lies above a loudness in units of 0.1 LU. -/
def gateAbove (e n : Nat) (tenths : Int) : Bool :=
  decide (0 < e ∧ tenths * 100 * fxOne < 10 * (1000 * fxLog10 ((e : Int) * fxOne / (n * 1000 * 2 ^ 78 : Nat)) - 691 * fxOne / 10))

/-- Integrated loudness of 400 ms blocks of `n` samples (R167): the absolute gate at −70 LKFS, then the relative gate
10 LU below the loudness of what passed it. -/
def integrated (blocks : List Nat) (n : Nat) : Int :=
  let loud := blocks.filter fun e => gateAbove e n (-700)
  if loud = [] then -32768
  else
    let k := loud.length
    let sum := loud.sum
    -- a block 10 LU or more below the gated mean is left out
    let kept := loud.filter fun e => decide (sum < 10 * (e * k))
    if kept = [] then -32768 else centiLufs kept.sum (n * kept.length)

/-- The readings of one meter after a part of 100 ms (R167, R168). (PRESUMED, entry 8) -/
def loudnessReadings (m : Nat) (s : State) : State :=
  match Store.find? s.mtr.loud m with
  | none => s
  | some x =>
    if x.powers = [] then s else
    let part := s.eng.cfg.fs / 10
    let running := s.n Attr.loudRunning m 0 = 1
    let since := if running then x.since + 1 else x.since
    let block := (x.powers.take 4).sum
    let full4 := decide (4 ≤ x.powers.length)
    let x := { x with since := since
                      blocks := if running ∧ full4 ∧ 4 ≤ since then block :: x.blocks else x.blocks }
    let s := { s with mtr := { s.mtr with loud := Store.put s.mtr.loud m x } }
    let s := if full4 then
        let v := centiLufs block (4 * part)
        let s := s.set Attr.loudMomentary m 0 v
        s.peak Attr.loudMaxMomentary m 0 v
      else s
    let s := if 30 ≤ x.powers.length then
        let v := centiLufs (x.powers.take 30).sum (30 * part)
        let s := s.set Attr.loudShortTerm m 0 v
        s.peak Attr.loudMaxShortTerm m 0 v
      else s
    if running then
      (s.set Attr.loudIntegrated m 0 (integrated x.blocks (4 * part))).bump Attr.loudIntegratedTime m 0
    else s

/-- LOUDNESS_UPDATE (R167): every 100 ms of audio. -/
def loudnessUpdate (s : State) : State :=
  if s.mtr.loudDue then
    (List.range 64).foldl (fun s m => loudnessReadings m s) { s with mtr := { s.mtr with loudDue := false } }
  else s
/-- LOUDNESS_UPDATE (R167). -/
def execLoudnessUpdate (s : State) : Host.Outcome State Fault Refusal := .next (loudnessUpdate s)

/-- The context of a loudness meter. -/
def State.loudCtx (s : State) (m : Nat) : LoudCtx := Store.get LoudCtx.reset s.mtr.loud m

/-- LOUDNESS_START (R168): starts or resumes; the blocks of a new stretch begin with it. -/
def loudnessStart (c : Ctx) (s : State) : Answer :=
  let m := c.q.inst
  if s.n Attr.loudRunning m 0 = 1 then ok s
  else
    let x := { s.loudCtx m with since := 0 }
    ok ({ s with mtr := { s.mtr with loud := Store.put s.mtr.loud m x } }.set Attr.loudRunning m 0 1)
/-- LOUDNESS_START (R168). -/
def execLoudnessStart (q : Req) (s : State) : Host.Outcome State Fault Refusal :=
  .next (serve .loudnessStart loudnessStart q s)

/-- LOUDNESS_STOP (R168). -/
def loudnessStop (c : Ctx) (s : State) : Answer := ok (s.set Attr.loudRunning c.q.inst 0 0)
/-- LOUDNESS_STOP (R168). -/
def execLoudnessStop (q : Req) (s : State) : Host.Outcome State Fault Refusal :=
  .next (serve .loudnessStop loudnessStop q s)

/-- LOUDNESS_RESET (R168): clears the integrated value, the maxima and integrated_time; the running state stays. -/
def loudnessReset (c : Ctx) (s : State) : Answer :=
  let m := c.q.inst
  let x := { s.loudCtx m with blocks := [], since := 0 }
  let s := { s with mtr := { s.mtr with loud := Store.put s.mtr.loud m x } }
  ok ((((s.set Attr.loudIntegrated m 0 (-32768)).set Attr.loudMaxMomentary m 0 (-32768)).set
    Attr.loudMaxShortTerm m 0 (-32768)).set Attr.loudIntegratedTime m 0 0)
/-- LOUDNESS_RESET (R168). -/
def execLoudnessReset (q : Req) (s : State) : Host.Outcome State Fault Refusal :=
  .next (serve .loudnessReset loudnessReset q s)

/-! ### Silence detectors (R169 to R171) -/

/-- A change of a detector's state, with its log entry (R171). -/
def State.setSilent (s : State) (k : Nat) (silent : Bool) : State :=
  if s.n Attr.silState k 0 = b2n silent then s
  else
    let s := s.set Attr.silState k 0 (b2i silent)
    match s.n Attr.silSeverity k 0 with
    | 1 => s.logAt sevInfo Attr.silState k 0
    | 2 => s.logAt sevNotice Attr.silState k 0
    | _ => s

/-- The pins as the detectors drive them (R170): asserted when one detector or more names the pin and all that do are
SILENT; de-asserted unless the engine is in RUN, and on an engine that drives no outputs (R468). -/
def State.silPins (s : State) : State :=
  let named := (s.listed Attr.silPin).filter fun e => e.2.2 ≠ 255
  let on (p : Nat) : Bool := named.any (fun e => e.2.2 == (p : Int)) &&
    named.all fun e => e.2.2 != (p : Int) || s.n Attr.silState e.1 0 == 1
  let w : Nat := (((List.range 16).filter on).map fun p => 2 ^ p).sum
  let drives := s.engState == 1 && (s.role == 0 || s.role == 1)
  s.set Attr.silPinState 0xFFFF 0 (if drives then (w : Int) else 0)

/-- SILENCE_DETECTOR_SETTING (R166, R169): restarts the run; a SILENT detector returns to signal present. -/
def writeSilence (c : Ctx) (s : State) : Answer :=
  let k := c.q.inst
  if c.code = Attr.silTap ∧ ¬ c.atOnce ∧ ¬ s.tapOk c.arg.toNat then refuse rRange
  else
    let s := s.store c
    let s := { s with mtr := { s.mtr with
      sil := Store.del s.mtr.sil k, silFound := s.mtr.silFound.filter (· != k) } }
    ok (s.setSilent k false)
/-- SILENCE_DETECTOR_SETTING (R169). -/
def execSilenceDetectorSetting (q : Req) (s : State) : Host.Outcome State Fault Refusal :=
  .next (serve .silence writeSilence q s)

/-- SILENT (R169 to R171): a detector's run has reached its hold in a frame with no sample at or above threshold. -/
def silent (k : Nat) (s : State) : State :=
  if s.mtr.silFound.contains k then
    ({ s with mtr := { s.mtr with silFound := s.mtr.silFound.filter (· != k) } }.setSilent k true).silPins
  else s
/-- SILENT (R169). -/
def execSilent (k : Nat) (s : State) : Host.Outcome State Fault Refusal := .next (silent k s)

end Sys2Proof.Machine
end

