-- ==== Sys2Proof/Machine/Evaluate.lean ====
section
/-! DEFINITION. The work on one frame (R14 to R20, R54 to R63, R71 to R74, R84, R115 to R117, R135 to R171): strips,
the Crucible, meters, loudness and silence, each as a change of the state at a tick. Samples are numbered by the MD0
count; a frame is a list of N samples. -/

namespace Sys2Proof.Machine

/-! ### Stages -/

/-- A result limited to W32, with 1 where it was limited (R138). -/
def limW32 (q : Int) : Int × Nat := (clampW32 q, if clampW32 q = q then 0 else 1)

/-- A gain stage (R138). -/
def gainStage (g x : Int) : Int × Nat := limW32 (roundEven (g * x) 19)

/-- Runs a stage over a frame: `f` takes the state, the position and the sample, and gives the state, the sample and the
samples limited. -/
def runFrame {σ : Type} (f : σ → Nat → Int → σ × Int × Nat) : σ → Nat → List Int → σ × List Int × Nat
  | st, _, [] => (st, [], 0)
  | st, i, x :: xs =>
    let a := f st i x
    let b := runFrame f a.1 (i + 1) xs
    (b.1, a.2.1 :: b.2.1, a.2.2 + b.2.2)

/-- A stateless stage over a frame. -/
def mapFrame (f : Nat → Int → Int × Nat) (xs : List Int) : List Int × Nat :=
  let r := runFrame (fun (_ : Unit) i x => ((), f i x)) () 0 xs
  r.2

/-- A frame crossfaded over one block from `a` to `b` with linear-gain weights for L = N (R143, R149, R156, R157).
(DESIGN CHOICE, entry 14) -/
def crossfade (n : Nat) (a b : List Int) : List Int :=
  (List.range n).map fun i => fadeLinear i n (a.getD i 0) (b.getD i 0)

/-! ### Sections (R145, R146) -/

/-- A section's coefficients b0, b1, b2, a1, a2. -/
structure Coefs where
  b0 : Int
  b1 : Int
  b2 : Int
  a1 : Int
  a2 : Int
deriving DecidableEq, Repr

/-- The identity set (R148). -/
def Coefs.identity : Coefs := ⟨536870912, 0, 0, 0, 0⟩

/-- One sample of a section (R146); the history is x1, x2, y1, y2. -/
def biquad (k : Coefs) (h : List Int) (x : Int) : List Int × Int × Nat :=
  let x1 := h.getD 0 0
  let x2 := h.getD 1 0
  let y1 := h.getD 2 0
  let y2 := h.getD 3 0
  let acc := (k.b0 * x + k.b1 * x1 + k.b2 * x2) * 256 - k.a1 * y1 - k.a2 * y2
  let q := roundEven acc 29
  let y := clampInt (-549755813888) 549755813887 q
  let o := limW32 (roundEven y 8)
  ([x, x1, y, y1], o.1, (if y = q then 0 else 1) + o.2)

/-- One section over a frame, crossfading when its set changes (R149). -/
def sectionFrame (n : Nat) (old new : Coefs) (h : List Int) (xs : List Int) : List Int × List Int × Nat :=
  let r := runFrame (fun h _ x => biquad new h x) h 0 xs
  if old = new then r
  else
    let o := runFrame (fun h _ x => biquad old h x) h 0 xs
    (r.1, crossfade n o.2.1 r.2.1, o.2.2 + r.2.2)

/-- Sections in turn, each with its old and new set and its history. -/
def sectionsFrame (n : Nat) : List (Coefs × Coefs × List Int) → List Int → List (List Int) × List Int × Nat
  | [], xs => ([], xs, 0)
  | (o, w, h) :: rest, xs =>
    let a := sectionFrame n o w h xs
    let b := sectionsFrame n rest a.2.1
    (a.1 :: b.1, b.2.1, a.2.2 + b.2.2)

/-- The five coefficients at an element of an attribute. -/
def coefsAt (m : Store Int) (code inst e : Nat) : Coefs :=
  let a := fun i => attrIn m code inst (e + i)
  ⟨a 0, a 1, a 2, a 3, a 4⟩

/-- The sets of the first `k` sections of a strip in a snapshot, the identity where bypassed (R148). -/
def setsIn (m : Store Int) (coef bypass inst k : Nat) : List Coefs :=
  let w := (attrIn m bypass inst 0).toNat
  (List.range k).map fun j => if bit w j then Coefs.identity else coefsAt m coef inst (5 * j)

/-! ### Delay (R141 to R144) -/

/-- The address of the word `d` samples back from position `i` of a frame, in a line of `w` words at `base` that is written
next at word `at_` (R141). -/
def lineAddr (base w at_ i d : Nat) : Nat := base + 4 * ((at_ + i + w - d) % w)

/-- The sample delayed by `d` at position `i` of the frame `xs` (R141): of the frame itself, else of the line. -/
def State.delayed (s : State) (base w at_ : Nat) (xs : List Int) (i d : Nat) : Int :=
  if d ≤ i then xs.getD (i - d) 0 else signed 32 (s.word32 (lineAddr base w at_ i d))

/-- The words of the line that a frame of `n` samples reads with a delay. -/
def lineReads (base w at_ n d : Nat) : List Nat :=
  (List.range n).filterMap fun i => if d ≤ i then none else some (wordOf (lineAddr base w at_ i d))

/-- The base of an owner's region. -/
def State.regionBase (s : State) (o : Owner) : Option Nat := (s.plc.regions.find? (·.owner == o)).map (·.base)

/-- Writes a frame into a line of `w` words from word `at_` on, in one run up to the end of the ring and one after it. -/
def State.fillLine (s : State) (base w at_ : Nat) (xs : List Int) : State :=
  let bytes (l : List Int) : List Byte := l.flatMap fun x => leBytes 4 (toBits 32 x)
  let s := s.busWrite .delay (base + 4 * at_) (bytes (xs.take (w - at_)))
  if xs.length ≤ w - at_ then s else s.busWrite .delay base (bytes (xs.drop (w - at_)))

/-- The delay stage over a frame with the old and the new delay (R141 to R143): the line is a ring of 2 s of W32 words in
the strip's region of deep memory, which the delay engine reads and writes. (DEDUCED, entry 14) -/
def State.delayStage (s : State) (o : Owner) (n old new : Nat) (x : StripCtx) (xs : List Int) :
    State × StripCtx × List Int :=
  match s.regionBase o with
  | none => (s, x, xs)
  | some base =>
    let w := 2 * s.eng.cfg.fs
    let at_ := x.writePos
    let s := s.eccTouches ((lineReads base w at_ n new ++ lineReads base w at_ n old).eraseDups)
    let ys := (List.range n).map fun i =>
      let b := s.delayed base w at_ xs i new
      if old = new then b else fadeLinear i n (s.delayed base w at_ xs i old) b
    (s.fillLine base w at_ xs,
      { x with readPos := (at_ + n + w - new) % w, writePos := (at_ + n) % w }, ys)

/-- The delay a snapshot gives: 0 while the line is disabled (R143). -/
def delayIn (m : Store Int) (enable delay inst : Nat) : Nat :=
  if attrIn m enable inst 0 = 1 then (attrIn m delay inst 0).toNat else 0

/-! ### Dynamics (R150 to R154): levels and gains in dB with 96 fraction bits -/

/-- Centi-dB as a fixed-point dB value. -/
def fxDb (v : Int) : Int := v * fxOne / 100

/-- The level of the peak detector (R150). -/
def levelPeak (v : Int) : Int :=
  if v = 0 then -144 * fxOne else 20 * (fxLog10 ((v.natAbs : Int) * fxOne) - 23 * fxLog2)

/-- The level of the RMS detector, of a mean square with 96 fraction bits (R150). -/
def levelRms (ms : Int) : Int := if ms ≤ 0 then -144 * fxOne else 10 * (fxLog10 ms - 46 * fxLog2)

/-- 1 − exp(−1 / (τ fs)) for a time constant τ in µs (R153). (DESIGN CHOICE, entry 7) -/
def smoothing (tau fs : Nat) : Int := fxOne - fxExp (-(1000000 * fxOne / (tau * fs : Nat)))

/-- The mean square after a sample (R150): the time constant is 10 ms. (DESIGN CHOICE, entry 7) -/
def rmsStep (fs : Nat) (ms v : Int) : Int := ms + fxMul (smoothing 10000 fs) (v * v * fxOne - ms)

/-- The compressor's static gain (R151) with threshold and knee in centi-dB and ratio in hundredths. -/
def compStatic (e thr : Int) (ratio knee : Nat) : Int :=
  let excess := e - fxDb thr
  let k := fxDb knee
  let inv := if ratio = 65535 then 0 else 100 * fxOne / (ratio : Int)
  if 0 < k ∧ 2 * excess ≤ k ∧ -k ≤ 2 * excess then
    fxDiv (fxMul (inv - fxOne) (fxMul (excess + k / 2) (excess + k / 2))) (2 * k)
  else if k < 2 * excess then fxMul (inv - fxOne) excess
  else 0

/-- The gate's static gain (R152). -/
def gateStatic (e thr : Int) (ratio range : Nat) : Int :=
  let t := fxDb thr
  if t ≤ e then 0
  else if ratio = 65535 then -(fxDb range)
  else
    let g := fxMul ((ratio : Int) * fxOne / 100 - fxOne) (e - t)
    if g < -(fxDb range) then -(fxDb range) else g

/-- The gain the unit delivers: within 0.002 dB of the exact law (R154), and 0 dB exactly where the law gives 0.
(DESIGN CHOICE, entry 7) -/
def dynGain (g : Int) : Int :=
  if g = 0 then 0 else g + clampInt (-(fxOne / 500)) (fxOne / 500) (Config.dynError g)

/-- The G24 code nearest to a gain in dB, a tie to the higher code (R153). -/
def dynCode (g : Int) : Int := if g = 0 then 524288 else clampG24 (fxRound (524288 * fxPow10 (dynGain g / 20)))

/-- A gain as centi-dB for its attribute. -/
def dynCdb (g : Int) : Int := clampInt (-32768) 32767 (fxRound (100 * dynGain g))

/-- The settings of a compressor in a snapshot (R150, R151, R153); `inst` on class 0x30 or, for `out`, 0x31. -/
structure CompSet where
  enable : Bool
  thr : Int
  ratio : Nat
  knee : Nat
  attack : Nat
  release : Nat
  makeup : Int
  rms : Bool
  key : Nat
  filter : Coefs
deriving DecidableEq, Repr

/-- Reads a compressor's settings. -/
def compIn (m : Store Int) (out : Bool) (n : Nat) : CompSet :=
  let a := fun i o => attrIn m (if out then o else i) n 0
  { enable := a Attr.insCompEnable Attr.outsCompEnable == 1
    thr := a Attr.insCompThreshold Attr.outsCompThreshold
    ratio := (a Attr.insCompRatio Attr.outsCompRatio).toNat
    knee := (a Attr.insCompKnee Attr.outsCompKnee).toNat
    attack := (a Attr.insCompAttack Attr.outsCompAttack).toNat
    release := (a Attr.insCompRelease Attr.outsCompRelease).toNat
    makeup := a Attr.insCompMakeup Attr.outsCompMakeup
    rms := a Attr.insCompDetector Attr.outsCompDetector == 1
    key := (a Attr.insCompKey Attr.outsCompKey).toNat
    filter := coefsAt m (if out then Attr.outsCompKeyCoef else Attr.insCompKeyCoef) n 0 }

/-- The states of a compressor that run from sample to sample. -/
structure CompState where
  own : List Int
  ext : List Int
  msOwn : Int
  msExt : Int
  g : Int
deriving DecidableEq, Repr

/-- One sample of a compressor (R150, R151, R153): `key` is the external signal's sample. -/
def compStep (fs : Nat) (p : CompSet) (st : CompState) (x key : Int) : CompState × Int × Nat :=
  let mode := p.key / 2 ^ 30
  let a := biquad p.filter st.own (if mode = 1 then key else x)
  let b := if mode = 2 then biquad p.filter st.ext key else (st.ext, 0, 0)
  let ma := rmsStep fs st.msOwn a.2.1
  let mb := if mode = 2 then rmsStep fs st.msExt b.2.1 else st.msExt
  let la := if p.rms then levelRms ma else levelPeak a.2.1
  let lb := if p.rms then levelRms mb else levelPeak b.2.1
  let e := if mode = 2 ∧ la < lb then lb else la
  let target := if p.enable then compStatic e p.thr p.ratio p.knee + fxDb p.makeup else 0
  let g := if target = st.g then st.g
    else st.g + fxMul (smoothing (if target < st.g then p.attack else p.release) fs) (target - st.g)
  let y := gainStage (dynCode g) x
  (⟨a.1, b.1, ma, mb, g⟩, y.1, a.2.2 + b.2.2 + y.2)

/-- The settings of a gate in a snapshot (R152, R153). -/
structure GateSet where
  enable : Bool
  thr : Int
  range : Nat
  ratio : Nat
  attack : Nat
  hold : Nat
  release : Nat
deriving DecidableEq, Repr

/-- Reads a gate's settings; the hold in samples (R153). -/
def gateIn (m : Store Int) (fs n : Nat) : GateSet :=
  let a := fun c => attrIn m c n 0
  { enable := a Attr.insGateEnable == 1, thr := a Attr.insGateThreshold, range := (a Attr.insGateRange).toNat
    ratio := (a Attr.insGateRatio).toNat, attack := (a Attr.insGateAttack).toNat
    hold := samplesOf (a Attr.insGateHold).toNat fs, release := (a Attr.insGateRelease).toNat }

/-- One sample of a gate: its gain and hold counter (R152, R153). -/
def gateStep (fs : Nat) (p : GateSet) (st : Int × Nat) (x : Int) : (Int × Nat) × Int × Nat :=
  let e := levelPeak x
  let target := if p.enable then gateStatic e p.thr p.ratio p.range else 0
  let above := decide (fxDb p.thr ≤ e)
  let hold := if above then p.hold else st.2 - 1
  let g := if (!above && decide (0 < st.2)) || target = st.1 then st.1
    else st.1 + fxMul (smoothing (if st.1 < target then p.attack else p.release) fs) (target - st.1)
  let y := gainStage (dynCode g) x
  ((g, hold), y.1, y.2)

/-! ### Zero crossings (R115 to R117) -/

/-- Whether a sample after `prev` is a zero crossing (R116). -/
def crosses (prev x : Int) : Bool := x == 0 || sgn prev * sgn x == -1

/-- The step of a pending change found in a frame that begins at sample `b` (R117): the first crossing of its search, or
the sample after it. -/
def zFind (z : ZPend) : Nat → Int → List Int → Option (Nat × Bool)
  | _, _, [] => none
  | b, prev, x :: xs =>
    if b < z.first then zFind z (b + 1) x xs
    else if z.first + z.len ≤ b then some (b, true)
    else if crosses prev x then some (b, false)
    else zFind z (b + 1) x xs

/-- Searches a watched frame for the step of a parameter's pending change. -/
def State.zScan (s : State) (p : ZParam) (b : Nat) (prev : Int) (xs : List Int) : State :=
  match s.z? p with
  | none => s
  | some z =>
    if z.stepAt.isSome then s
    else match zFind z b prev xs with
      | some (k, late) => s.setZ p (some { z with stepAt := some k, timedOut := late })
      | none => s

/-- A Class Z parameter's values, mapped by `f`, over the `n` samples from `b`. -/
def State.zFrame (s : State) (p : ZParam) (f : Int → Int) (b n : Nat) : List Int :=
  match s.z? p with
  | none => List.replicate n (f (s.a (zKey p).1 (zKey p).2 0))
  | some z =>
    let old := f z.old
    let new := f z.new
    (List.range n).map fun i => match z.stepAt with
      | some k => if k ≤ b + i then new else old
      | none => old

/-- A gain stage with a gain for each sample. -/
def gainFrame (gs xs : List Int) : List Int × Nat := mapFrame (fun i x => gainStage (gs.getD i 0) x) xs

/-- Polarity (R139). -/
def polarityFrame (ps xs : List Int) : List Int × Nat :=
  mapFrame (fun i x => if ps.getD i 0 = 1 then limW32 (-x) else (x, 0)) xs

/-- The gain of cut (R139): 0 when set. -/
def cutGain (v : Int) : Int := if v = 1 then 0 else 524288

/-! ### In-strips (R135, R155 to R157) -/

/-- The in-strips that run in a snapshot: active and on a lane (R180). -/
def stripsIn (m : Store Int) (ins : Nat) : List Nat := (mapStrips m Attr.plcInStripMap).filter (· < ins)
/-- The out-strips that run in a snapshot. -/
def outStripsIn (m : Store Int) (d : Nat) : List Nat := (mapStrips m Attr.plcOutStripMap).filter (· < d)

/-- The captured input of an in-strip (R135, R174): zeros where none is bound. -/
def State.inputOf (s : State) (m : Store Int) (n : Nat) : List Int :=
  Store.get (zeros s.eng.cfg.n) s.tmp.cap (attrIn m Attr.insInput n 0).toNat

/-- A frame of a store, zeros where nothing is listed. -/
def frameOf (m : Store (List Int)) (k n : Nat) : List Int := Store.get (zeros n) m k

/-- The last sample of a frame. -/
def lastOf (xs : List Int) : Int := xs.getLast?.getD 0

/-- Adds limited samples to a strip's count. -/
def State.addSat (s : State) (code n k : Nat) : State :=
  if k = 0 then s else s.add code n 0 k

/-- The external key signal of a compressor (R150): the input before trim of an in-strip, of which `inputs` holds the same
frame; zeros for an inactive strip (R180). -/
def keyFrame (inputs : Store (List Int)) (p : CompSet) (n : Nat) : List Int :=
  if p.key / 2 ^ 30 = 0 then zeros n else frameOf inputs (p.key % 65536) n

/-- Stages 1 to 8 of an in-strip on the frame that begins at sample `b` (R135). (DESIGN CHOICE, entry 14) -/
def evalFront (b k : Nat) (s : State) : State :=
  let n := s.eng.cfg.n
  let fs := s.eng.cfg.fs
  let x := Store.get StripCtx.reset s.tmp.inCtx k
  let x0 := frameOf s.tmp.inputs k n
  let s := (s.zScan (.preamp k) b (x.watch.getD 0 0) x0).zScan (.trim k) b (x.watch.getD 0 0) x0
  let x1 := gainFrame (s.zFrame (.trim k) codeOfCdb b n) x0
  let s := s.zScan (.polarity k) b (x.watch.getD 1 0) x1.1
  let x2 := polarityFrame (s.zFrame (.polarity k) id b n) x1.1
  let on := s.sn Attr.insDelayEnable k 0 == 1 || s.sp Attr.insDelayEnable k 0 == 1
  let r := if on then s.delayStage (.inLine k) n (delayIn s.snapPrev Attr.insDelayEnable Attr.insDelay k)
      (delayIn s.snap Attr.insDelayEnable Attr.insDelay k) x x2.1
    else (s, x, x2.1)
  let s := r.1
  let x := r.2.1
  let sets := (setsIn s.snapPrev Attr.insCoef Attr.insSectionBypass k 12).zip
    ((setsIn s.snap Attr.insCoef Attr.insSectionBypass k 12).zip ((List.range 12).map fun j => x.hist.getD j []))
  let x4 := sectionsFrame n sets r.2.2
  let gate := gateIn s.snap fs k
  let x5 := runFrame (fun st _ v => gateStep fs gate st v) (x.gate, x.gateHold) 0 x4.2.1
  let comp := compIn s.snap false k
  let key := keyFrame s.tmp.inputs comp n
  let st : CompState := ⟨x.keyOwn, x.keyExt, x.msOwn, x.msExt, x.comp⟩
  let x6 := runFrame (fun st i v => compStep fs comp st v (key.getD i 0)) st 0 x5.2.1
  let ctx : StripCtx := { x with
    hist := x4.1, keyOwn := x6.1.own, keyExt := x6.1.ext, msOwn := x6.1.msOwn, msExt := x6.1.msExt
    comp := x6.1.g, gate := x5.1.1, gateHold := x5.1.2
    watch := [lastOf x0, lastOf x1.1, x.watch.getD 2 0] }
  let s := { s with tmp := { s.tmp with
    inCtx := Store.put s.tmp.inCtx k ctx
    frontPrev := Store.put s.tmp.frontPrev k (frameOf s.tmp.front k n)
    front := Store.put s.tmp.front k x6.2.1 } }
  let s := s.addSat Attr.insSatCount k (x1.2 + x2.2 + x4.2.2 + x5.2.2 + x6.2.2)
  (s.set Attr.insCompGain k 0 (dynCdb x6.1.g)).set Attr.insGateGain k 0 (dynCdb x5.1.1)

/-- An insert return (R155, R239): the output frame of the module and port that an insert word names. -/
def State.insertReturn (s : State) (w n : Nat) : List Int :=
  match s.mod? (w % 2 ^ 28 / 256) with
  | some m => frameOf m.frame (w % 256) n
  | none => zeros n

/-- Fader and cut over a frame (R139): the signal after the fader, after the cut, and the samples limited. -/
def faderCut (faders cuts xs : List Int) : List Int × List Int × Nat :=
  let a := gainFrame faders xs
  let c := gainFrame cuts a.1
  (a.1, c.1, a.2 + c.2)

/-- The fader values of an in-strip over the `n` samples from `b`. -/
def State.faderFrame (s : State) (p : RParam) (b n : Nat) : List Int := (List.range n).map fun i => s.applied p (b + i)

/-- Stages 9 to 11 of an in-strip in the period that works on the frame from sample `b` (R15, R156, R157): the path that
continues, and the path it crossfades from if there is one. -/
def evalBack (b k : Nat) (s : State) : State :=
  let n := s.eng.cfg.n
  let x := Store.get StripCtx.reset s.tmp.inCtx k
  let cur := frameOf s.tmp.front k n
  let prev := frameOf s.tmp.frontPrev k n
  let w0 := (s.sp Attr.insInsert k 0).toNat
  let w1 := (s.sn Attr.insInsert k 0).toNat
  let by0 := s.sp Attr.insInsertBypass k 0 == 1
  let by1 := s.sn Attr.insInsertBypass k 0 == 1
  let path (w : Nat) (byp : Bool) : List Int :=
    if w = 0 then cur else if byp then prev else s.insertReturn w n
  let new := if w1 ≠ 0 ∧ w0 ≠ w1 then prev else path w1 by1
  let old : Option (List Int) := if w0 = w1 ∧ (w1 = 0 ∨ by0 = by1) then none else some (path w0 by0)
  let base := if w1 = 0 then b else b - n
  let faders := s.faderFrame (.inFader k) base n
  let a := gainFrame faders new
  let s := s.zScan (.inCut k) base (x.watch.getD 2 0) a.1
  let cuts := s.zFrame (.inCut k) cutGain base n
  let y := gainFrame cuts a.1
  let out := match old with
    | none => (y.1, a.2 + y.2)
    | some o =>
      let z := faderCut faders cuts o
      (crossfade n z.2.1 y.1, a.2 + y.2 + z.2.2)
  let ctx := { x with watch := [x.watch.getD 0 0, x.watch.getD 1 0, lastOf a.1], lastOut := lastOf out.1 }
  let s := { s with tmp := { s.tmp with
    inCtx := Store.put s.tmp.inCtx k ctx
    pre := Store.put s.tmp.pre k new
    outIn := Store.put s.tmp.outIn k out.1 } }
  s.addSat Attr.insSatCount k out.2

/-! ### The Crucible (R46, R54 to R63, R71 to R74, R84) -/

/-- The frame an occupant delivers (R40). -/
def State.occupantFrame (s : State) (w n : Nat) : List Int :=
  let i := w % 2 ^ 28
  match w / 2 ^ 28 with
  | 1 => frameOf s.tmp.outIn i n
  | 2 => frameOf s.cru.sums i n
  | 3 => s.insertReturn w n
  | _ => zeros n

/-- The frame a source slot delivers over the `n` samples from `b`, through a row swap if one runs (R84, R88). -/
def State.rowFrame (s : State) (slot b n : Nat) : List Int :=
  match s.ramp? (.swap slot) with
  | none => s.occupantFrame (s.sn Attr.slotOccupant slot 0).toNat n
  | some r =>
    match r.segs with
    | [] => zeros n
    | g :: _ =>
      let o := s.occupantFrame g.g0.toNat n
      let w := s.occupantFrame g.g1.toNat n
      (List.range n).map fun i =>
        if b + i < g.first then o.getD i 0
        else if g.first + g.len ≤ b + i then w.getD i 0
        else fadeLinear (b + i - g.first) g.len (o.getD i 0) (w.getD i 0)

/-- Whether a slot is evaluated over the frame from `b`: its frame is not wholly zero (R62), or a swap runs in it between
source frames that are not both wholly zero (R87). -/
def State.rowOpen (s : State) (slot b n : Nat) : Bool :=
  (s.rowFrame slot b n).any (· != 0) ||
  (match s.ramp? (.swap slot) with
   | none => false
   | some r =>
     match r.segs with
     | [] => false
     | g :: _ => decide (g.first < b + n ∧ b < g.first + g.len) &&
       ((s.occupantFrame g.g0.toNat n).any (· != 0) || (s.occupantFrame g.g1.toNat n).any (· != 0)))

/-- The slots that may deliver something: those with an occupant or a swap. -/
def State.rowSlots (s : State) : List Nat :=
  let occ := (s.snap.filter fun e => keyCode e.1 == Attr.slotOccupant).map fun e => keyInst e.1
  let swaps := s.bel.ramps.filterMap fun r => match r.param with
    | .swap k => some k
    | _ => none
  (occ ++ swaps.filter fun k => !occ.contains k).filter (· < s.eng.cfg.S)

/-- The strike that has ended and whose source plane, as it stood then, is heard on plane `pl` at sample `n`. -/
def State.pastOn (s : State) (pl n : Nat) : Option PastStrike :=
  s.cru.past.find? fun k => k.source == pl && decide (n < k.strike.first + k.strike.len)

/-- The gain of a node at a sample (R59): its ramp's value, else the word's. -/
def State.gainAt (s : State) (pl sr d n : Nat) : Int :=
  let at_ (ramps : List Ramp) (word : Nat) : Int := match ramps.find? (·.param == .node pl sr d) with
    | some r => segsValue r.segs n
    | none => gainOf word
  match s.pastOn pl n with
  | some k => at_ k.ramps (Store.get 0 k.words (nodeKey sr d))
  | none => at_ s.bel.ramps (s.nodeWord pl sr d)

/-- The exact sum of a destination on a plane at position `i` of the frame from `b` (R54). -/
def State.sumAt (s : State) (rows : List (Nat × List Int)) (pl d b i : Nat) : Int :=
  (rows.map fun r => s.gainAt pl r.1 d (b + i) * r.2.getD i 0).sum

/-- The sum before rounding, its fraction bits, at a sample (R54, R71, R74): one plane, or both under the strike's
weights. -/
def State.mixAt (s : State) (rows : List (Nat × List Int)) (d b i : Nat) : Int × Nat :=
  let live := s.planeAt (b + i)
  match s.strikes.find? fun k => decide (k.first ≤ b + i ∧ b + i < k.first + k.len) with
  | some k =>
    let w := weights k.law (b + i - k.first) k.len
    (w.1 * s.sumAt rows (1 - live) d b i + w.2 * s.sumAt rows live d b i, 42)
  | none => (s.sumAt rows live d b i, 19)

/-- The destination frame and the samples saturated (R57, R58). -/
def State.destFrame (s : State) (rows : List (Nat × List Int)) (d b n : Nat) : List Int × Nat :=
  mapFrame (fun i _ => let m := s.mixAt rows d b i; limW32 (roundEven m.1 m.2)) (zeros n)

/-- The destinations some row may reach: those with a node that is not zero or ramps. -/
def State.reached (s : State) (rows : List (Nat × List Int)) : List Nat :=
  let nodes (m : Store Nat) : List Nat :=
    (m.filter fun e => rows.any fun r => r.1 == e.1 / 2048).map fun e => e.1 % 2048
  let ramps := (s.bel.ramps ++ s.cru.past.flatMap (·.ramps)).filterMap fun r => match r.param with
    | .node _ _ d => some d
    | _ => none
  (nodes s.cru.planeA ++ nodes s.cru.planeB ++ s.cru.past.flatMap (fun k => nodes k.words) ++ ramps).filter
    (· < s.eng.cfg.D)

/-- The Crucible evaluation of the destination frame from sample `b` (R14, R54 to R63). -/
def evalCrucible (b : Nat) (s : State) : State :=
  let n := s.eng.cfg.n
  let rows := (s.rowSlots.map fun k => (k, s.rowFrame k b n)).filter fun r => r.2.any (· != 0)
  let open_ := s.rowSlots.filter fun k => s.rowOpen k b n
  let sums : Store (List Int) × List (Nat × Nat) := (s.reached rows).foldl (fun (m : Store (List Int) × List (Nat × Nat)) d =>
      if (Store.find? m.1 d).isSome then m
      else
        let f := s.destFrame rows d b n
        (Store.put m.1 d f.1, if f.2 = 0 then m.2 else m.2 ++ [(d, f.2)])) ([], [])
  let s := { s with cru := { s.cru with sums := sums.1.filter fun e => e.2.any (· != 0) } }
  let s := sums.2.foldl (fun s e => s.addSat Attr.dstSumSatCount e.1 e.2) s
  -- zero-row gating (R62, R87)
  let s := (s.listed Attr.slotGated).foldl (fun s e => if open_.contains e.1 then s else s.set Attr.slotGated e.1 0 1) s
  let s := open_.foldl (fun s k => s.set Attr.slotGated k 0 0) s
  let s := s.set Attr.cruGatedRows 0 0 ((s.eng.cfg.S - open_.length : Nat) : Int)
  match s.cru.strike with
  | some k =>
    if s.n Attr.cruStrikeState 0 0 = 2 ∧ k.first < b + n then
      s.set Attr.cruStrikePosition 0 0 ((Nat.min k.len (b + n - k.first) : Nat) : Int)
    else s
  | none => s

/-! ### Out-strips (R136, R158 to R162) -/

/-- The Quench ceiling (R158). -/
def quenchCeiling (c : Int) : Int :=
  (Nat.min 8388607 (searchUp (fun k => decide (k ^ 2000 * 10 ^ (-c).toNat ≤ 2 ^ 46000)) 24 0) : Nat)

/-- The required gains (R159). -/
def quenchNeeds (c : Int) (xs : List Int) : List Int :=
  xs.map fun x => if (x.natAbs : Int) ≤ c then 8388608 else c * 8388608 / (x.natAbs : Int)

/-- The attack gain at the head of the remaining required gains (R159). -/
def quenchAttack (n : Nat) : Nat → List Int → Int → Int
  | _, [], best => best
  | k, r :: rs, best =>
    let v := r + (k : Int) * (8388608 - r) / (n : Int)
    quenchAttack n (k + 1) rs (if v < best then v else best)

/-- The Quench law over a frame from gain `g` (R159): the last gain and the samples. -/
def quenchFrame (n : Nat) (kq : Int) : Int → List Int → List Int → Int × List Int
  | g, r :: rs, x :: xs =>
    let a := quenchAttack n 0 (r :: rs) 8388608
    let up := g + (8388608 - g) * kq / 16777216
    let g1 := if a < up then a else up
    let rest := quenchFrame n kq g1 rs xs
    (rest.1, (g1 * x).tdiv 8388608 :: rest.2)
  | g, _, _ => (g, [])

/-- The release coefficient (R159). -/
def quenchRelease (t fs : Nat) : Int := fxRound (16777216 * smoothing t fs)

/-- 32 steps. -/
def ditherSteps : Nat → Nat → Nat
  | 0, w => w
  | k + 1, w => ditherSteps k (ditherStep w)

/-- The seed of a frame (R161). -/
def ditherSeed (count d : Nat) : Nat :=
  let v := (count % 2 ^ 32) ^^^ (d * 0x9E3779B9 % 2 ^ 32)
  if v = 0 then 1 else v

/-- The dithered samples of a frame for `bits` low bits (R161). -/
def ditherFrame (bits : Nat) : Nat → List Int → List Int
  | _, [] => []
  | w, x :: xs =>
    let w := ditherSteps 32 w
    let delta : Int := ((2 ^ bits : Nat) : Int)
    let v := x + (w % 2 ^ bits : Nat) + (w / 65536 % 2 ^ bits : Nat) - (delta - 1)
    (v + delta / 2) / delta * delta :: ditherFrame bits w xs

/-- Conversion to S24 (R162). -/
def convFrame (upper : Int) (xs : List Int) : List Int × Nat :=
  mapFrame (fun _ x => let y := clampInt (-8388608) upper x; (y, if y = x then 0 else 1)) xs

/-- An out-strip on the frame that begins at sample `b`, given its destination's frame (R136).
(DESIGN CHOICE, entry 14) -/
def evalOut (inputs : Store (List Int)) (b d : Nat) (x0 : List Int) (s : State) : State :=
  let n := s.eng.cfg.n
  let fs := s.eng.cfg.fs
  let x := Store.get StripCtx.reset s.tmp.outCtx d
  let sets := (setsIn s.snapPrev Attr.outsCoef Attr.outsSectionBypass d 16).zip
    ((setsIn s.snap Attr.outsCoef Attr.outsSectionBypass d 16).zip ((List.range 16).map fun j => x.hist.getD j []))
  let x1 := sectionsFrame n sets x0
  let comp := compIn s.snap true d
  let key := keyFrame inputs comp n
  let st : CompState := ⟨x.keyOwn, x.keyExt, x.msOwn, x.msExt, x.comp⟩
  let x2 := runFrame (fun st i v => compStep fs comp st v (key.getD i 0)) st 0 x1.2.1
  let x3 := gainFrame (s.faderFrame (.outFader d) b n) x2.2.1
  let s := s.zScan (.outCut d) b (x.watch.getD 0 0) x3.1
  let x4 := gainFrame (s.zFrame (.outCut d) cutGain b n) x3.1
  let on := s.sn Attr.outsDelayEnable d 0 == 1 || s.sp Attr.outsDelayEnable d 0 == 1
  let r := if on then s.delayStage (.outLine d) n (delayIn s.snapPrev Attr.outsDelayEnable Attr.outsDelay d)
      (delayIn s.snap Attr.outsDelayEnable Attr.outsDelay d) x x4.1
    else (s, x, x4.1)
  let s := r.1
  let x := r.2.1
  let x5 := r.2.2
  let c : Int := if s.sn Attr.outsQuenchEnable d 0 = 1 then quenchCeiling (s.sn Attr.outsQuenchCeiling d 0) else 2147483647
  let kq := quenchRelease (s.sn Attr.outsQuenchRelease d 0).toNat fs
  let x6 := quenchFrame n kq (8388608 - x.quench) (quenchNeeds c x5) x5
  let bits := match s.sn Attr.outsDither d 0 with
    | 1 => 8
    | 2 => 4
    | _ => 0
  let x7 := if bits = 0 then x6.2 else ditherFrame bits (ditherSeed b d) x6.2
  let x8 := convFrame (if bits = 0 then 8388607 else 8388608 - ((2 ^ bits : Nat) : Int)) x7
  let ctx : StripCtx := { x with
    hist := x1.1, keyOwn := x2.1.own, keyExt := x2.1.ext, msOwn := x2.1.msOwn, msExt := x2.1.msExt, comp := x2.1.g
    quench := 8388608 - x6.1
    watch := [lastOf x3.1], lastOut := lastOf x8.1 }
  let s := { s with tmp := { s.tmp with
    outCtx := Store.put s.tmp.outCtx d ctx
    outs := Store.put s.tmp.outs d x8.1 } }
  let s := (s.addSat Attr.outsSatCount d (x1.2.2 + x2.2.2 + x3.2 + x4.2)).addSat Attr.outsConvSatCount d x8.2
  (s.set Attr.outsCompGain d 0 (dynCdb x2.1.g)).set Attr.outsQuenchGain d 0
    (if x6.1 = 8388608 then 0 else if x6.1 ≤ 0 then -32768 else nearestLog 2000 x6.1.toNat 8388608 (-20000))

/-! ### Meters (R163 to R165) -/

/-- The interpolating filter of BS.1770 Annex 2: phases 0 and 1, with 13 fraction bits; phases 2 and 3 are phases 1
and 0 reversed. (PRESUMED, entry 8) -/
def tpPhases : List (List Int) :=
  let a : List Int := [14, 90, -161, 272, -487, 1125, 7964, -838, 390, -218, 122, -68]
  let b : List Int := [-239, 240, -424, 730, -1364, 3810, 6388, -1641, 832, -477, 271, -155]
  [a, b, b.reverse, a.reverse]

/-- The phases a family uses (R165). -/
def tpUsed (fam : Nat) : List (List Int) :=
  if fam = 0 then tpPhases else if fam = 1 then [tpPhases.getD 0 [], tpPhases.getD 2 []] else []

/-- The product of a phase and the newest samples. -/
def dot : List Int → List Int → Int
  | a :: as, b :: bs => a * b + dot as bs
  | _, _ => 0

/-- The largest true-peak magnitude of a frame, with 13 fraction bits, and the newest samples after it.
(PRESUMED, entry 8) -/
def truePeak (fam : Nat) : List Int → List Int → Nat × List Int
  | h, [] => (0, h)
  | h, x :: xs =>
    let h := (x :: h).take 12
    let here := if fam = 2 then x.natAbs * 8192
      else ((tpUsed fam).map fun p => (dot p h).natAbs).foldl Nat.max 0
    let r := truePeak fam h xs
    (Nat.max here r.1, r.2)

/-- A held reading after a frame (R164): level and hold left, from the frame's level; `done` says the hold has run
out. (PRESUMED, entry 8) -/
def ballistics (cur held : Int) (left hold n : Nat) (fall : Int) (done : Bool) : Int × Nat × Bool :=
  if held ≤ cur then (cur, hold, false)
  else if done then
    let f := held - fall
    (if f < cur then cur else if f < 0 then 0 else f, 0, true)
  else (held, left - n, false)

/-- The reading of a held level in centi-dB. -/
def heldReading (held : Int) (fs : Nat) : Int := (2 * held + fs) / (2 * fs : Nat) - 32768

/-- A meter's readings after a frame (R164, R165); `out` for an out-strip's. -/
def meterFrame (out : Bool) (m : Nat) (xs : List Int) (s : State) : State :=
  let fs := s.eng.cfg.fs
  let n := s.eng.cfg.n
  let x := Store.get MeterCtx.reset s.mtr.meters m
  let big := (xs.map Int.natAbs).foldl Nat.max 0
  if x = MeterCtx.reset ∧ big = 0 then s
  else
    let hold := ((s.sn Attr.mtrPeakHold 0xFFFF 0).toNat * fs + 500) / 1000
    let fall : Int := 10 * s.sn Attr.mtrPeakFall 0xFFFF 0 * n
    let level (c : Int) : Int := (c + 32768) * fs
    let p := ballistics (level (cdbOfPeak big)) x.held x.holdLeft hold n fall (s.mtr.peaksDone.contains m)
    let win := ((s.sn Attr.mtrRmsWindow 0xFFFF 0).toNat * fs + 500) / 1000
    let frames := Nat.max 1 ((2 * win + n) / (2 * n))
    let sq := ((xs.map fun v => v.natAbs * v.natAbs).sum :: x.squares).take frames
    let tp := if out then truePeak s.eng.cfg.family x.history xs else (0, [])
    let tpCdb : Int := if tp.1 = 0 then -32768 else nearestLog 2000 tp.1 (2 ^ 36) (-20000)
    let t := ballistics (level tpCdb) x.tpHeld x.tpLeft hold n fall (s.mtr.peaksDone.contains (m + 65536))
    let done := s.mtr.peaksDone.filter fun k => (k != m || p.2.2) && (k != m + 65536 || t.2.2)
    let s := { s with mtr := { s.mtr with
      meters := Store.put s.mtr.meters m ⟨p.1, p.2.1, t.1, t.2.1, sq, tp.2⟩, peaksDone := done } }
    let s := (s.set Attr.mtrPeak m 0 (heldReading p.1 fs)).set Attr.mtrRms m 0 (cdbOfPower sq.sum (frames * n * 2 ^ 46))
    let s := s.peak Attr.mtrMaxPeak m 0 (cdbOfPeak big)
    let s := s.add Attr.mtrOvers m 0 (xs.filter fun v => decide (8388607 ≤ v.natAbs)).length
    if out then (s.set Attr.mtrTruePeak m 0 (heldReading t.1 fs)).peak Attr.mtrMaxTruePeak m 0 tpCdb else s

/-- The signal of a tap (R163, R166, R180): kind 1 input, 2 pre-fader, 3 output, 4 destination sum (R420: the
welded total), 5 out-strip. -/
def State.tapFrame (s : State) (kind i : Nat) : List Int :=
  let n := s.eng.cfg.n
  match kind with
  | 1 => frameOf s.tmp.inputs i n
  | 2 => frameOf s.tmp.pre i n
  | 3 => frameOf s.tmp.outIn i n
  | 4 => if bit (s.sn Attr.weldBinding i 0).toNat 30 then frameOf s.net.welded i n else frameOf s.cru.sums i n
  | 5 => frameOf s.tmp.outs i n
  | _ => zeros n

/-- The meters a frame moves: those of running strips and of destinations with a sum, and those still falling. -/
def State.meterKeys (s : State) (ins outs : List Nat) : List Nat :=
  let a := ins ++ ((s.cru.sums ++ s.net.welded).map fun e => 0x1000 + e.1) ++ outs.map fun d => 0x2000 + d
  let a := a.eraseDups
  a ++ (s.mtr.meters.map (·.1)).filter fun k => !a.contains k

/-- Every meter over the frames just evaluated. -/
def evalMeters (ins outs : List Nat) (s : State) : State :=
  (s.meterKeys ins outs).foldl (fun s m =>
    if m < 0x1000 then meterFrame false m (s.tapFrame (s.sn Attr.mtrTap m 0).toNat m) s
    else if m < 0x2000 then meterFrame false m (s.tapFrame 4 (m - 0x1000)) s
    else meterFrame true m (s.tapFrame 5 (m - 0x2000)) s) s

/-! ### Loudness (R166, R167) -/

/-- The K-weighting coefficients (R167): at 48 kHz those of BS.1770, with 48 fraction bits. (PRESUMED, entry 8) -/
def kCoefs (fs : Nat) : List Int :=
  if fs = 48000 then
    [432099234100191, -757645122225322, 337317588525024, -475878285174173, 206175008863410,
     281474976710656, -562949953421312, 281474976710656, -560148561002495, 278680563613696]
  else Config.kFilter fs

/-- A section of the K filter on `x`, from history x1, x2, y1, y2. -/
def kSection (k h : List Int) (x : Int) : List Int × Int :=
  let y := (k.getD 0 0 * x + k.getD 1 0 * h.getD 0 0 + k.getD 2 0 * h.getD 1 0 - k.getD 3 0 * h.getD 2 0 -
    k.getD 4 0 * h.getD 3 0) / 281474976710656
  ([x, h.getD 0 0, y, h.getD 2 0], y)

/-- A channel after a sample, its signal with 16 fraction bits: filter histories (8) and energy. -/
def kStep (fs : Nat) (st : List Int) (x : Int) : List Int :=
  let a := kSection (kCoefs fs) (st.take 4) (x * 65536)
  let b := kSection ((kCoefs fs).drop 5) ((st.drop 4).take 4) a.2
  a.1 ++ b.1 ++ [st.getD 8 0 + b.2 * b.2]

/-- A loudness meter over a frame of channel signals, from sample `b`: at a multiple of a tenth of a second the running
part ends. The list of the running part begins with 1 once a whole part has begun. -/
def loudFrame (fs part : Nat) (ws : List Nat) : Nat → Nat → LoudCtx → List (List Int) → LoudCtx × Bool
  | 0, _, x, _ => (x, false)
  | k + 1, b, x, chans =>
    let head := x.running.headD [0]
    let edge := b % part = 0
    let states := x.running.drop 1
    let energy := ((states.zip ws).map fun e => (e.1.getD 8 0).toNat * e.2).sum
    let full := edge ∧ head = [1]
    let x := if full then { x with powers := (energy :: x.powers).take 30 } else x
    let states := if edge then states.map fun st => st.take 8 ++ [0] else states
    let states := chans.mapIdx fun i c => kStep fs (states.getD i (List.replicate 9 0)) (c.headD 0)
    let x := { x with running := (if edge then [1] else head) :: states }
    let r := loudFrame fs part ws k (b + 1) x (chans.map fun c => c.drop 1)
    (r.1, decide full || r.2)

/-- The loudness meters at work: those with a channel in use, and those whose filters have run since the last clear; on
the latter an unused channel carries silence (R167). -/
def State.loudMeters (s : State) : List Nat :=
  (List.range 64).filter fun m =>
    (Store.find? s.mtr.loud m).isSome || (List.range 24).any fun c => s.sn Attr.loudChannels m c != 0

/-- Every loudness meter at work over the frame from sample `b`. -/
def evalLoudness (b : Nat) (s : State) : State :=
  let fs := s.eng.cfg.fs
  s.loudMeters.foldl (fun s m =>
    let taps := (List.range 24).map fun c => (s.sn Attr.loudChannels m c).toNat
    let chans := taps.map fun w => s.tapFrame (w / 2 ^ 28) (w % 65536)
    let ws := (List.range 24).map fun c => if taps.getD c 0 = 0 then 0 else (s.sn Attr.loudWeights m c).toNat
    let r := loudFrame fs (fs / 10) ws s.eng.cfg.n b (Store.get LoudCtx.reset s.mtr.loud m) chans
    { s with mtr := { s.mtr with loud := Store.put s.mtr.loud m r.1, loudDue := s.mtr.loudDue || r.2 } }) s

/-! ### Silence detectors (R169, R170) -/

/-- The largest magnitude below a threshold in centi-dBFS. -/
def silenceLimit (thr : Int) : Nat :=
  searchUp (fun k => decide (k ^ 2000 * 10 ^ (-thr).toNat < 2 ^ 46000)) 24 0

/-- The run of samples below threshold after a frame. -/
def silenceRun (limit run : Nat) : List Int → Nat
  | [] => run
  | x :: xs => silenceRun limit (if x.natAbs ≤ limit then run + 1 else 0) xs

/-- How many frames behind the one in work the signal of a tap is (R14, R420). -/
def State.tapLag (s : State) (kind i : Nat) : Nat :=
  match kind with
  | 3 => if s.sn Attr.insInsert i 0 = 0 then 0 else 1
  | 4 => if bit (s.sn Attr.weldBinding i 0).toNat 30 then 2 else 0
  | 5 => if weldRole (s.sn Attr.weldBinding i 0) then 2 else 1
  | _ => 0

/-- A silence detector over a frame: it reads signal present again at once; reaching its hold is the SILENT event. -/
def silenceFrame (k : Nat) (s : State) : State :=
  let w := (s.sn Attr.silTap k 0).toNat
  let xs := s.tapFrame (w / 2 ^ 28) (w % 65536)
  let limit := silenceLimit (s.sn Attr.silThreshold k 0)
  let hold := Nat.max 1 (((s.sn Attr.silHold k 0).toNat * s.eng.cfg.fs + 500) / 1000)
  let loud := xs.any fun x => decide (limit < x.natAbs)
  let run := silenceRun limit (Store.get 0 s.mtr.sil k) xs
  let found := !loud && decide (hold ≤ run) && s.n Attr.silState k 0 == 0
  let s := { s with mtr := { s.mtr with
    sil := Store.set 0 s.mtr.sil k run
    silFound := (s.mtr.silFound.filter (· != k)) ++ (if found then [k] else []) } }
  if loud then s.setSilent k false else s

/-- Every detector with a tap, and the pins (R170). A frame from before the entry into RUN is not examined.
(DEDUCED, entry 13) -/
def evalSilence (s : State) : State :=
  let seen (w : Nat) : Bool := decide (w ≠ 0 ∧ 2 + s.tapLag (w / 2 ^ 28) (w % 65536) ≤ s.eng.frames)
  let taps := (s.snap.filter fun e => keyCode e.1 == Attr.silTap && decide (keyInst e.1 < 256)).filter fun e => seen e.2.toNat
  (taps.foldl (fun s e => silenceFrame (keyInst e.1) s) s).silPins

/-! ### The work of a period -/

/-- Drops the frames of strips that do not run (R180). -/
def State.keepActive (s : State) (ins outs : List Nat) : State :=
  let i := Store.keep fun k => ins.contains k
  let o := Store.keep fun k => outs.contains k
  { s with tmp := { s.tmp with
      front := i s.tmp.front, frontPrev := i s.tmp.frontPrev, inputs := i s.tmp.inputs
      pre := i s.tmp.pre, outIn := i s.tmp.outIn, outs := o s.tmp.outs } }

/-- The frame an out-strip takes: the welded total of a welded destination, else the sum of the frame before (R14, R425). -/
def State.outInput (s : State) (d : Nat) : List Int :=
  if weldRole (s.sn Attr.weldBinding d 0) then frameOf s.net.welded d s.eng.cfg.n else frameOf s.cru.sums d s.eng.cfg.n

/-- Whether a Class Z parameter belongs to a strip that does not run, by where its stage stands. -/
def zIdle (ins outs : List Nat) (front : Bool) : ZParam → Bool
  | .trim k | .polarity k | .preamp k => front && !ins.contains k
  | .inCut k => !front && !ins.contains k
  | .outCut k => !front && !outs.contains k

/-- The searches of strips that do not run: their signal is zero, which crosses at once (R116, R180). -/
def idleSearches (ins outs : List Nat) (front : Bool) (b : Nat) (s : State) : State :=
  ((s.bel.zs.map (·.param)).filter (zIdle ins outs front)).foldl
    (fun s p => s.zScan p b 0 (zeros s.eng.cfg.n)) s

/-- What is finished at the tick that ends a period whose frame began at sample `b` (R14, R15): in-strips from the insert
point on, out-strips on the sums of the frame before, the Crucible, measurement. No stage works on a frame from before the
entry into RUN. (DEDUCED, entry 13) -/
def finishPeriod (b : Nat) (s : State) : State :=
  let n := s.eng.cfg.n
  let ins := stripsIn s.snap s.eng.cfg.ins
  let outs := outStripsIn s.snap s.eng.cfg.D
  let s := s.keepActive ins outs
  if s.eng.frames < 2 then evalCrucible b s
  else
    let s := ins.foldl (fun s k => evalBack b k s) s
    let run := outs.filter fun d => decide (2 + s.tapLag 5 d ≤ s.eng.frames)
    let s := run.foldl (fun s d =>
      if weldRole (s.sn Attr.weldBinding d 0) then evalOut s.tmp.inputs2 (b - 2 * n) d (s.outInput d) s
      else evalOut s.tmp.inputs1 (b - n) d (s.outInput d) s) s
    let s := evalCrucible b s
    idleSearches ins outs false b (evalSilence (evalLoudness b (evalMeters ins run s)))

/-- What is done on the frame from sample `b` with the new snapshot (R14, R15): stages 1 to 8 of every in-strip.
(DEDUCED, entry 13) -/
def startPeriod (b : Nat) (s : State) : State :=
  let ins := stripsIn s.snap s.eng.cfg.ins
  let s := { s with tmp := { s.tmp with
    inputs := ins.foldl (fun m k => Store.put m k (s.inputOf s.snap k)) []
    inputs1 := s.tmp.inputs, inputs2 := s.tmp.inputs1 } }
  idleSearches ins [] true b (ins.foldl (fun s k => evalFront b k s) s)

end Sys2Proof.Machine
end

