-- ==== Sys2Proof/Machine/Card.lean ====
section
/-! DEFINITION. The Billet card as bytes (R504 to R510, R512, R516, R520): identity, superblocks, sectors, records, the
reading of snapshot and ring, scenes in their encoding. -/

namespace Sys2Proof.Machine

/-! ### Bytes and sectors (R504 to R506) -/

/-- Bytes of the card. -/
def CardSt.rd (c : CardSt) (off n : Nat) : List Byte := Store.getMany 0xFF c.mem off n
/-- A little-endian field of the card. -/
def CardSt.le (c : CardSt) (off n : Nat) : Nat := leNat (c.rd off n)
/-- Programs bytes. -/
def CardSt.wr (c : CardSt) (off : Nat) (b : List Byte) : CardSt := { c with mem := Store.setMany 0xFF c.mem off b }

/-- First byte of a sector. -/
def secBase (k : Nat) : Nat := 65536 * k
/-- Erases a sector's bytes. -/
def CardSt.wipe (c : CardSt) (k : Nat) : CardSt := { c with mem := Store.keep (fun a => a / 65536 != k) c.mem }

/-- Whether a sector's header stands (R506). -/
def CardSt.headed (c : CardSt) (k : Nat) : Bool :=
  let b := secBase k
  c.rd b 4 == [0x42, 0x53, 0x48, 0x31].map byteOf && c.le (b + 8) 4 == crc32 (c.rd b 8)
/-- Erase count of a sector. -/
def CardSt.erases (c : CardSt) (k : Nat) : Nat := c.le (secBase k + 4) 4
/-- Use of a sector: 255 free, 2 ring, 3 snapshot, 4 scene. -/
def CardSt.use (c : CardSt) (k : Nat) : Nat := c.le (secBase k + 16) 1
/-- The id of a sector. -/
def CardSt.secId (c : CardSt) (k : Nat) : Nat := c.le (secBase k + 20) 8

/-- The data sectors. -/
def CardSt.data (c : CardSt) : List Nat := (List.range (c.sectors - 3)).map (· + 3)
/-- The free sectors. -/
def CardSt.free (c : CardSt) : List Nat := c.data.filter fun k => c.headed k && c.use k == 255
/-- The highest erase count of the pool. -/
def CardSt.mostErased (c : CardSt) : Nat := ((c.data.filter c.headed).map c.erases).foldl Nat.max 0

/-- Erases a sector and writes its header with erase count `n` (R506). -/
def CardSt.eraseTo (c : CardSt) (k n : Nat) : CardSt :=
  let h := [0x42, 0x53, 0x48, 0x31].map byteOf ++ leBytes 4 n
  (c.wipe k).wr (secBase k) (h ++ leBytes 4 (crc32 h))
/-- Frees a sector: it is erased; one whose header fails gets a count one above the highest (R506).
(DEDUCED, entry 45) -/
def CardSt.release (c : CardSt) (k : Nat) : CardSt :=
  c.eraseTo k ((if c.headed k then c.erases k else c.mostErased) + 1)

/-- The data sectors whose header fails are erased, with an erase count one above the highest in the pool (R506).
(DEDUCED, entry 45) -/
def CardSt.mend (c : CardSt) : CardSt :=
  let n := c.mostErased + 1
  (c.data.filter fun k => !c.headed k).foldl (fun c k => c.eraseTo k n) c

/-- The free sector with the lowest erase count, ties to the lowest number (R516). (DEDUCED, entry 45) -/
def CardSt.pick (c : CardSt) : Option Nat :=
  c.free.foldl (fun b k =>
    match b with
    | none => some k
    | some j => if c.erases k < c.erases j then some k else some j) none

/-- Allocates a sector for a use (R506). (DEDUCED, entry 45) -/
def CardSt.allocate (c : CardSt) (use id : Nat) : Option (Nat × CardSt) :=
  c.pick.map fun k =>
    let h := [byteOf use, byteOf 255, byteOf 255, byteOf 255] ++ leBytes 8 id
    (k, c.wr (secBase k + 16) (h ++ leBytes 4 (crc32 h)))

/-- The largest ring, in sectors (R507). -/
def CardSt.ringLimit (c : CardSt) : Nat := (c.sectors - 3) / 8

/-- Whether the identity block stands (R505). -/
def CardSt.usable (c : CardSt) : Bool :=
  c.rd 0 4 == [0x42, 0x4C, 0x54, 0x31].map byteOf && c.le 4 2 == 1 && c.le 28 4 == crc32 (c.rd 0 28)

/-- A card as it is inserted (R505). -/
def cardOf (x : Card) : CardSt :=
  let c : CardSt := ⟨0, 0, 0, x.mem.foldl (fun m e => Store.set 0xFF m e.1 e.2) []⟩
  if c.usable then { c with id := c.le 8 8, sectors := c.le 16 4, rated := c.le 20 4 } else c

/-! ### Superblocks (R507) -/

/-- A superblock. -/
structure Super where
  gen : Nat
  ringStart : Nat
  firstSeq : Nat
  snapshot : Nat
deriving DecidableEq, Repr

/-- The superblock copy in sector 1 or 2, where it is valid. -/
def CardSt.super (c : CardSt) (k : Nat) : Option Super :=
  let b := secBase k
  if c.rd b 4 = [0x42, 0x53, 0x42, 0x31].map byteOf ∧ c.le (b + 60) 4 = crc32 (c.rd b 60) ∧ c.le (b + 8) 8 = c.id then
    some ⟨c.le (b + 4) 4, c.le (b + 16) 8, c.le (b + 24) 4, c.le (b + 28) 4⟩
  else none

/-- The current superblock, with its sector. -/
def CardSt.current (c : CardSt) : Option (Nat × Super) :=
  match c.super 1, c.super 2 with
  | some a, some b => if a.gen < b.gen then some (2, b) else some (1, a)
  | some a, none => some (1, a)
  | none, some b => some (2, b)
  | none, none => none

/-- Erases a superblock copy and programs it. -/
def CardSt.putSuper (c : CardSt) (k : Nat) (x : Super) : CardSt :=
  let h := [0x42, 0x53, 0x42, 0x31].map byteOf ++ leBytes 4 x.gen ++ leBytes 8 c.id ++ leBytes 8 x.ringStart ++
    leBytes 4 x.firstSeq ++ leBytes 4 x.snapshot ++ leBytes 4 c.ringLimit ++ List.replicate 24 (byteOf 0)
  (c.wipe k).wr (secBase k) (h ++ leBytes 4 (crc32 h))

/-- life_used in units of 0.01 % (R516): the mean erase count of the data sectors, or the more-erased superblock
sector's, which is erased once in two generations. -/
def CardSt.life (c : CardSt) : Nat :=
  let n := c.data.length
  let mean := (c.data.map fun k => if c.headed k then c.erases k else 0).sum
  let gen := match c.current with
    | some (_, x) => (x.gen + 1) / 2
    | none => 0
  if c.rated = 0 ∨ n = 0 then 0 else Nat.max (mean * 10000 / (n * c.rated)) (gen * 10000 / c.rated)

/-! ### Records (R509, R510) -/

/-- The bytes of a record. -/
def recBytes (seq : Nat) (more : Bool) (r : Rec) : List Byte :=
  let len := r.payload.length
  let b := leBytes 4 seq ++ [byteOf r.typ, byteOf (b2n more)] ++ leBytes 2 len ++ r.payload ++
    List.replicate ((4 - len % 4) % 4) (byteOf 0)
  b ++ leBytes 4 (crc32 b)

/-- What an append works on: the card, the sectors in order with their ids, and the next free byte of the last. -/
structure Tape where
  card : CardSt
  sectors : List (Nat × Nat)
  off : Nat
deriving DecidableEq, Repr

/-- Appends a record to a run of sectors of a use; a new sector opens with it where it does not fit (R509). `next` gives
the id of a sector after those there are; `most` limits their number. -/
def Tape.append (t : Tape) (use next most seq : Nat) (more : Bool) (r : Rec) : Option Tape :=
  let b := recBytes seq more r
  match t.sectors.getLast? with
  | some (_, k) =>
    if t.off + b.length ≤ 65536 then some { t with card := t.card.wr (secBase k + t.off) b, off := t.off + b.length }
    else if most ≤ t.sectors.length then none
    else (t.card.allocate use next).map fun e =>
      ⟨e.2.wr (secBase e.1 + 32) b, t.sectors ++ [(next, e.1)], 32 + b.length⟩
  | none =>
    if most = 0 then none
    else (t.card.allocate use next).map fun e => ⟨e.2.wr (secBase e.1 + 32) b, [(next, e.1)], 32 + b.length⟩

/-- Appends the records of a group to the ring; sector serials rise by one (R506). -/
def Tape.group (t : Tape) (base most : Nat) : (seq : Nat) → List Rec → Option Tape
  | _, [] => some t
  | seq, r :: rs =>
    match t.append 2 (match t.sectors.getLast? with | some e => e.1 + 1 | none => base) most seq (!rs.isEmpty) r with
    | none => none
    | some t => t.group base most (seqPlus seq 1) rs

/-- Writes a snapshot into free sectors (R514); its records are numbered from 0. -/
def Tape.snapshot (t : Tape) (number : Nat) : (seq : Nat) → List Rec → Option Tape
  | _, [] => some t
  | seq, r :: rs =>
    match t.append 3 number 65536 seq false r with
    | none => none
    | some t => t.snapshot number (seq + 1) rs

/-- The record at an offset of a sector: none where the sector ends, an error where it is torn (R512). -/
def CardSt.record (c : CardSt) (k off : Nat) : Except Unit (Option (Nat × Bool × Rec × Nat)) :=
  let b := secBase k + off
  if 65536 < off + 12 ∨ c.le b 4 = 0xFFFFFFFF then .ok none
  else
    let len := c.le (b + 6) 2
    let pad := 4 * ceilDiv len 4
    if 4064 < len ∨ 65536 < off + 12 + pad then .error ()
    else if c.le (b + 8 + pad) 4 ≠ crc32 (c.rd b (8 + pad)) then .error ()
    else .ok (some (c.le b 4, bit (c.le (b + 5) 1) 0, ⟨c.le (b + 4) 1, c.rd (b + 8) len⟩, off + 12 + pad))

/-- What replay has read (R512): the groups to apply in order, the pending group, the sequence expected, the sequence of
the first record not applied, torn records, and the ring sectors read. -/
structure Reading where
  groups : List (List Rec)
  pending : List Rec
  expected : Nat
  first : Nat
  torn : Nat
  sectors : List (Nat × Nat)
deriving DecidableEq, Repr

/-- Reads the records of a ring sector (R512). -/
def CardSt.readSector (c : CardSt) (k : Nat) : (fuel off : Nat) → Reading → Reading
  | 0, _, x => x
  | f + 1, off, x =>
    match c.record k off with
    | .ok none => x
    | .error _ => { x with pending := [], torn := x.torn + 1 }
    | .ok (some (seq, more, r, next)) =>
      if seq ≠ x.expected then { x with pending := [], torn := x.torn + 1 }
      else
        let pend := x.pending ++ [r]
        let x := { x with expected := seqPlus seq 1 }
        c.readSector k f next
          (if more then { x with pending := pend }
           else { x with groups := x.groups ++ [pend], pending := [], first := seqPlus seq 1 })

/-- Inserts a numbered sector in order. -/
def insertSector (e : Nat × Nat) : List (Nat × Nat) → List (Nat × Nat)
  | [] => [e]
  | a :: l => if e.1 < a.1 then e :: a :: l else a :: insertSector e l

/-- The sectors of a use whose id satisfies a test, in the order of `key`. -/
def CardSt.sectorsOf (c : CardSt) (use : Nat) (key : Nat → Nat) (p : Nat → Bool) : List (Nat × Nat) :=
  (c.data.filter fun k => c.headed k && c.use k == use && p (c.secId k)).foldl (fun l k => insertSector (key k, k) l) []

/-- Reads the ring sectors in serial order (R512). -/
def CardSt.readRing (c : CardSt) : (prev : Option Nat) → List (Nat × Nat) → Reading → Reading
  | _, [], x => x
  | prev, (serial, k) :: rest, x =>
    let firstSeq := c.le (secBase k + 32) 4
    if prev.any (· + 1 != serial) ∨ firstSeq ≠ x.expected then x
    else c.readRing (some serial) rest (c.readSector k 5500 32 { x with sectors := x.sectors ++ [(serial, k)] })

/-- The records of a snapshot (R512, R514), in the order of the first record of each sector. -/
def CardSt.readSnapshot (c : CardSt) (number : Nat) : List Rec :=
  (c.sectorsOf 3 (fun k => c.le (secBase k + 32) 4) (· == number)).foldl (fun l e =>
    l ++ (c.readSector e.2 5500 32 ⟨[], [], c.le (secBase e.2 + 32) 4, 0, 0, []⟩).groups.flatten) []

/-- All that replay reads from a card with a superblock (R512): the snapshot's records, then the groups. -/
def CardSt.read (c : CardSt) (x : Super) : List Rec × Reading :=
  let snap := if x.snapshot = 0 then [] else c.readSnapshot x.snapshot
  let ring := c.sectorsOf 2 c.secId (fun serial => decide (x.ringStart ≤ serial))
  (snap, c.readRing none ring ⟨[], [], x.firstSeq, x.firstSeq, 0, []⟩)

/-! ### Scenes (R520) -/

/-- The rows of a plane's nodes, in ascending source: source and its nodes as destination and gain. -/
def sceneRows : (nodes : List (Nat × Nat)) → List (Nat × List (Nat × Nat))
  | [] => []
  | (k, g) :: rest =>
    match sceneRows rest with
    | (src, l) :: rows =>
      if src = k / 2048 then (src, (k % 2048, g) :: l) :: rows else (k / 2048, [(k % 2048, g)]) :: (src, l) :: rows
    | [] => [(k / 2048, [(k % 2048, g)])]

/-- The body of a scene. -/
def sceneBody (rows : List (Nat × List (Nat × Nat))) : List Byte :=
  rows.flatMap fun r => leBytes 2 r.1 ++ leBytes 2 r.2.length ++
    r.2.flatMap fun e => leBytes 2 e.1 ++ leBytes 4 (toBits 32 (signed 24 e.2))

/-- A plane in the scene encoding (R520). -/
def sceneBytes (src dst : Nat) (name : List Byte) (time : Nat) (nodes : Store Nat) : List Byte :=
  let rows := sceneRows nodes
  let body := sceneBody rows
  [0x42, 0x53, 0x43, 0x31].map byteOf ++ leBytes 2 src ++ leBytes 2 dst ++ leBytes 4 rows.length ++
    leBytes 4 nodes.length ++ (List.range 16).map (fun i => name.getD i 0) ++ leBytes 8 time ++
    leBytes 4 (crc32 body) ++ List.replicate 20 (byteOf 0) ++ body

/-- The nodes of `n` entries of a row. -/
def rowNodes (src : Nat) : (n : Nat) → List Byte → List (Nat × Nat)
  | 0, _ => []
  | n + 1, b => (2048 * src + leNat (b.take 2), leNat ((b.drop 2).take 3)) :: rowNodes src n (b.drop 6)

/-- The nodes of `rows` rows of a body. -/
def bodyNodes : (rows : Nat) → List Byte → List (Nat × Nat)
  | 0, _ => []
  | r + 1, b =>
    let n := leNat ((b.drop 2).take 2)
    rowNodes (leNat (b.take 2)) n (b.drop 4) ++ bodyNodes r (b.drop (4 + 6 * n))

/-- The nodes of a scene, none where the body's crc fails (R522). -/
def sceneNodes (b : List Byte) : Option (Store Nat) :=
  let body := b.drop 64
  if leNat ((b.drop 40).take 4) ≠ crc32 body then none
  else some ((bodyNodes (leNat ((b.drop 8).take 4)) body).foldl (fun m e => Store.set 0 m e.1 e.2) [])

/-- Writes the bytes of a scene into sectors of use 4 (R521). -/
def CardSt.putScene (c : CardSt) (id : Nat) : (fuel : Nat) → List Byte → Option (List Nat × CardSt)
  | 0, _ => some ([], c)
  | _, [] => some ([], c)
  | f + 1, b =>
    match c.allocate 4 id with
    | none => none
    | some (k, c) =>
      match (c.wr (secBase k + 32) (b.take 65504)).putScene id f (b.drop 65504) with
      | none => none
      | some (ks, c) => some (k :: ks, c)

/-- The bytes of a scene of `size` bytes from its sectors. -/
def CardSt.getScene (c : CardSt) (size : Nat) : List Nat → List Byte
  | [] => []
  | k :: ks => c.rd (secBase k + 32) (Nat.min size 65504) ++ c.getScene (size - 65504) ks

end Sys2Proof.Machine
end

