-- ==== Sys2Proof/Machine/Journal.lean ====
section
/-! DEFINITION. The journal and the scenes (R508 to R526): groups made durable, compaction, the card's coming and going,
wear, save, stage and delete. -/

namespace Sys2Proof.Machine

/-! ### What a snapshot holds (R508, R514) -/

/-- The record of a listed attribute: its value as a write. -/
def State.attrRec (s : State) (code inst elem : Nat) : Rec :=
  let ty := match rowAt code inst with
    | some r => r.ty
    | none => 3
  let arr := match rowAt code inst with
    | some r => r.len != .scalar
    | none => false
  writeRec code inst elem (b2n arr) (encodeVal ty (s.a code inst elem))

/-- The records of the attributes that a test on code and access picks, as they differ from their defaults. -/
def State.attrRecs (s : State) (p : Nat → Acc → Bool) : List Rec :=
  let picks (k : Nat) : Bool := match rowAt (keyCode k) (keyInst k) with
    | some r => p (keyCode k) r.acc
    | none => false
  (s.attrs.filter fun e => picks e.1).map (fun e => s.attrRec (keyCode e.1) (keyInst e.1) (keyElem e.1)) ++
    (s.blobs.filter fun e => picks e.1).flatMap fun e =>
      let code := keyCode e.1
      let inst := keyInst e.1
      match rowAt code inst with
      | some r => if r.ty = 11 then [writeRec code inst 0 0 e.2] else writeRecs code inst 1 8192 0 e.2.length e.2
      | none => []

/-- The instance under which an IMAGE record carries a plane of a snapshot. (DEDUCED, entry 36) -/
def planeInst (p : Nat) : Nat := 4294967040 + p

/-- The records of the planes (R514), and of a strike where plane B is live. (DEDUCED, entry 36) -/
def State.planeRecs (s : State) : List Rec :=
  let one (p : Nat) (m : Store Nat) : List Rec :=
    chunkRecs 3 (leBytes 4 (planeInst p)) 8192 0 (sceneBytes s.S s.D [] s.mdTime (planeTargets m 4096 2048))
  one 0 s.cru.planeA ++ one 1 s.cru.planeB ++
    (if s.live = 1 then [actionRec Attr.cruStrike 0 [byteOf 0]] else [])

/-- The records of the declared modules' images. -/
def State.moduleRecs (s : State) : List Rec :=
  s.anv.mods.flatMap fun e => imageRecs e.1 (Store.get [] s.blobs (attrKey Attr.modImage e.1 0))

/-! ### The scene directory (R521, R526) -/

/-- The payload of a SCENE_DIR record. -/
def sceneEntry (n serial size nodes shape crc : Nat) (name : List Byte) (sectors : List Nat) : List Byte :=
  leBytes 4 n ++ leBytes 8 serial ++ leBytes 4 size ++ leBytes 4 nodes ++ leBytes 4 shape ++ leBytes 4 crc ++
    (List.range 16).map (fun i => name.getD i 0) ++ sectors.flatMap (leBytes 4)

/-- The sectors that the payload of a SCENE_DIR record names. -/
def entrySectors (b : List Byte) : List Nat := (List.range ((b.length - 44) / 4)).map fun i => fieldAt b (44 + 4 * i) 4

/-- Enters a SCENE_DIR record in the directory; the sectors of the scene replaced wait for the next compaction. -/
def State.enterScene (s : State) (b : List Byte) : State :=
  let f (off n : Nat) : Nat := fieldAt b off n
  let n := f 0 4
  let sectors := entrySectors b
  let gone := match Store.find? s.jrn.dir n with
    | some e => e.sectors.filter fun k => !sectors.contains k
    | none => []
  let s := { s with jrn := { s.jrn with
      dir := Store.put s.jrn.dir n (SceneEnt.mk sectors (f 4 8)), spare := s.jrn.spare ++ gone
      serial := Nat.max s.jrn.serial (f 4 8) } }
  let s := (((s.set Attr.scnPresent n 0 1).set Attr.scnSize n 0 (f 12 4)).set Attr.scnNodes n 0 (f 16 4)).set
    Attr.scnShape n 0 (f 20 4)
  let s := s.set Attr.scnCrc n 0 (f 24 4)
  { s with blobs := Store.set [] s.blobs (attrKey Attr.scnName n 0) (slice b 28 16) }

/-- The SCENE_DIR record of a scene as it stands. (DEDUCED, entry 36) -/
def State.sceneRec (s : State) (n : Nat) (e : SceneEnt) : Rec :=
  ⟨4, sceneEntry n e.serial (s.n Attr.scnSize n 0) (s.n Attr.scnNodes n 0) (s.n Attr.scnShape n 0)
    (s.n Attr.scnCrc n 0) (Store.get [] s.blobs (attrKey Attr.scnName n 0)) e.sectors⟩

/-- Removes a directory entry; its sectors wait for the next compaction (R526). -/
def State.dropScene (s : State) (n : Nat) : State :=
  match Store.find? s.jrn.dir n with
  | none => s
  | some e =>
    let s := { s with jrn := { s.jrn with dir := Store.del s.jrn.dir n, spare := s.jrn.spare ++ e.sectors } }
    let s := ((s.set Attr.scnPresent n 0 0).set Attr.scnSize n 0 0).set Attr.scnNodes n 0 0
    let s := (s.set Attr.scnShape n 0 0).set Attr.scnCrc n 0 0
    { s with blobs := Store.set [] s.blobs (attrKey Attr.scnName n 0) [] }

/-- The records of a snapshot (R514): all persistent state, then SNAPSHOT_END with their count.
(DEDUCED, entry 36) -/
def State.snapshotRecs (s : State) : List Rec :=
  let l := s.moduleRecs ++ s.attrRecs journalled ++ s.planeRecs ++
    (s.jrn.dir.map fun e => s.sceneRec e.1 e.2) ++ [s.modelRec, actionRec Attr.engGo 0 [byteOf s.engState]] ++
    ((List.range 8).filter fun t => s.n Attr.tbSteps t 0 != 0).map fun t =>
      ⟨5, leBytes 4 (address Attr.tbNow t) ++ leBytes 8 (s.tbNow t) ++ leBytes 8 (s.tbNow t)⟩
  l ++ [⟨7, leBytes 4 l.length⟩]

/-! ### Where the journal stands (R511, R516 to R518) -/

/-- Passes the journal to RAM (R518), full where what is not durable fills it. -/
def State.toRam (s : State) : State :=
  let fill := s.ramFill
  (s.set Attr.jrnJournalState 0 0 (if 65536 < fill then 2 else 1)).set Attr.jrnRamFill 0 0 fill

/-- The card's attributes after its contents have changed (R516, R517, R525): at 90 % of its life a warning, at 100 %
it is read-only. -/
def State.cardStats (s : State) (c : CardSt) : State :=
  let old := s.n Attr.jrnLifeUsed 0 0
  let life := Nat.min c.life 65535
  let s : State := { s with jrn := { s.jrn with card := some c } }
  let s := (s.set Attr.jrnLifeUsed 0 0 life).set Attr.scnFreeSectors 0xFFFF 0 c.free.length
  let s := s.set Attr.jrnRingFill 0 0 ((if c.ringLimit = 0 then 0 else s.jrn.ring.length * 10000 / c.ringLimit : Nat) : Int)
  let s := if old < 9000 ∧ 9000 ≤ life then s.logAt sevWarning Attr.jrnLifeUsed 0 0 else s
  if 10000 ≤ life ∧ s.n Attr.jrnCardState 0 0 = 2 then (s.set Attr.jrnCardState 0 0 3).toRam else s

/-- Whether groups go to the card: it is ready and the journal uses it (R518). -/
def State.onCard (s : State) : Bool := s.n Attr.jrnJournalState 0 0 == 0

/-- Sectors that records fill, at most. -/
def sectorsFor (l : List Rec) : Nat := (l.map Rec.size).sum / (65504 - 4076) + 1

/-- Starts a compaction or a fresh snapshot (R514); where the free sectors cannot hold it, it fails (R515).
(DEDUCED, entry 45) -/
def State.startCompaction (s : State) (c : CardSt) (ticket : Option Nat) (adopting : Bool) : State :=
  let recs := s.snapshotRecs
  if c.free.length < sectorsFor recs then
    (s.completeTicket? ticket rBusy).logAt sevWarning Attr.jrnRingFill 0 0
  else
    { s with jrn := { s.jrn with
        compaction := some (Compaction.mk (s.jrn.gen + 1) recs s.lastSeq ticket adopting none) } }

/-- An OFF that waits for durability, once durable_seq has reached committed_seq: its ticket completes and PWR_OFF is
asserted (R542). -/
def State.offIfDurable (s : State) : State :=
  match s.pow.offDue with
  | none => s
  | some k =>
    if s.n Attr.jrnDurableSeq 0 0 ≠ s.n Attr.jrnCommittedSeq 0 0 then s
    else
      let s := (s.completeTicket k rOk).set Attr.powPowerState 0 0 3
      { s with pow := { s.pow with offDue := none, pwrOff := true } }

/-- The state once the group `g` is programmed, as `t` holds it; `opens` says that it is the first after a snapshot, and
opened a ring sector (R514). -/
def State.programmed (s : State) (g : JGroup) (rest : List JGroup) (t : Tape) (opens : Bool) : State :=
  let serial := match s.jrn.ring.getLast? with
    | some e => e.1 + 1
    | none => s.jrn.nextSerial
  let s := { s with jrn := { s.jrn with
      ring := t.sectors, ringOff := t.off, pend := rest
      nextSerial := (match t.sectors.getLast? with | some e => e.1 + 1 | none => s.jrn.nextSerial)
      compaction := s.jrn.compaction.map fun (k : Compaction) => if opens then { k with start := some serial } else k } }
  (s.set Attr.jrnDurableSeq 0 0 (seqBefore (seqPlus g.first g.recs.length))).cardStats t.card

/-- Where the ring has grown to three quarters, and nothing else is under way, a compaction starts (R514).
(DEDUCED, entry 45) -/
def State.compactIfFull (s : State) (c : CardSt) (was : Nat) : State :=
  if 7500 ≤ s.n Attr.jrnRingFill 0 0 ∧ was < s.n Attr.jrnRingFill 0 0 ∧ s.jrn.compaction.isNone ∧ s.jrn.saving.isNone ∧ s.onCard then
    s.startCompaction c none false
  else s

/-- Whether a group was committed in the period that runs: its records are flushed from the next one on (R22). -/
def State.tooEarly (s : State) (g : JGroup) : Bool := s.eng.running && g.period == some s.eng.count

/-- GROUP_DURABLE (R511): the oldest group that is not durable is programmed. The record after a snapshot opens a ring
sector (R514). Where the ring has no room the journal passes to RAM (R518). -/
def groupDurable (s : State) : State :=
  match s.jrn.card, s.jrn.pend with
  | some c, g :: rest =>
    if ¬ s.onCard ∨ s.jrn.format.isSome ∨ s.tooEarly g then s
    else
      let opens := s.jrn.compaction.any fun k => k.start.isNone && seqPlus k.at_ 1 == g.first
      let tape : Tape := ⟨c, s.jrn.ring, if opens then 65536 else s.jrn.ringOff⟩
      match tape.group s.jrn.nextSerial c.ringLimit g.first g.recs with
      | none => ({ s with jrn := { s.jrn with full := true } }).toRam
      | some t => (s.programmed g rest t opens).compactIfFull t.card (s.n Attr.jrnRingFill 0 0)
  | _, _ => s
/-- GROUP_DURABLE (R511). -/
def execGroupDurable (s : State) : Host.Outcome State Fault Refusal := .next (groupDurable s).offIfDurable

/-- COMPACT (R514, R515). -/
def compact (_c : Ctx) (s : State) : Answer :=
  match s.jrn.card with
  | none => refuse rNoBillet
  | some c =>
    if s.n Attr.jrnCardState 0 0 ≠ 2 then refuse rState
    else if s.jrn.compaction.isSome ∨ s.jrn.saving.isSome ∨ s.jrn.format.isSome then refuse rBusy
    else match s.openTicket (address Attr.jrnCompact 0) 1 with
      | none => refuse rBusy
      | some (k, t) => okTicket (t.startCompaction c (some k) false) k
/-- COMPACT (R514). -/
def execCompact (q : Req) (s : State) : Host.Outcome State Fault Refusal := .next (serve .compact compact q s)

/-- COMPACTION_COMPLETE (R514, R519): the snapshot is written, the superblock programmed, the sectors before it freed.
(DEDUCED, entry 45) -/
def compactionComplete (s : State) : State :=
  match s.jrn.card, s.jrn.compaction with
  | some c, some k =>
    match (Tape.mk c [] 65536).snapshot k.snapshot 0 k.recs with
    | none =>
      let s := { s with jrn := { s.jrn with compaction := none } }
      (s.completeTicket? k.ticket rBusy).logAt sevWarning Attr.jrnRingFill 0 0
    | some t =>
      let start := k.start.getD s.jrn.nextSerial
      let gen := s.jrn.gen + 1
      let copy := match t.card.current with
        | some (1, _) => 2
        | _ => 1
      let card := t.card.putSuper copy ⟨gen, start, seqPlus k.at_ 1, k.snapshot⟩
      let kept := s.jrn.ring.filter fun e => decide (start ≤ e.1)
      let named := kept.map (·.2) ++ t.sectors.map (·.2)
      let old := card.data.filter fun x =>
        card.headed x && ((card.use x == 2 || card.use x == 3) && !named.contains x || s.jrn.spare.contains x)
      let card := old.foldl CardSt.release card
      let covered := s.jrn.pend.takeWhile fun g => !(k.start.isSome || seqPlus k.at_ 1 == g.first)
      let s := { s with jrn := { s.jrn with
          gen := gen, snapshot := k.snapshot, ring := kept, spare := [], compaction := none, full := false
          pend := s.jrn.pend.drop covered.length
          lastCard := some card.id } }
      let s := if covered = [] then s else s.set Attr.jrnDurableSeq 0 0 k.at_
      let s := (((s.set Attr.jrnCardState 0 0 2).set Attr.jrnJournalState 0 0 0).set Attr.jrnRamFill 0 0 0).cardStats card
      (s.bump Attr.jrnCompactions 0 0).completeTicket? k.ticket rOk
  | _, _ => s
/-- COMPACTION_COMPLETE (R514). -/
def execCompactionComplete (s : State) : Host.Outcome State Fault Refusal := .next (compactionComplete s).offIfDurable

/-! ### The card comes and goes (R518, R519, R524) -/

/-- A save or a stage ends with NO_BILLET as the card fails (R524). A stage whose rows are being written has been read. -/
def State.cardFails (s : State) : State :=
  let s : State := match s.jrn.saving with
    | none => s
    | some v =>
      let plain (r : Rec) : Rec := if r.typ = 4 ∧ r.payload = v.entry then actionRec Attr.scnSave v.scene [byteOf 0] else r
      let s := { s with jrn := { s.jrn with
          saving := none, spare := s.jrn.spare ++ entrySectors v.entry
          pend := s.jrn.pend.map fun (g : JGroup) => { g with recs := g.recs.map plain } } }
      (s.completeTicket v.ticket rNoBillet).logAt sevWarning Attr.scnPresent v.scene 0
  let s : State := match s.cru.load with
    | some l =>
      if l.kind = 2 ∧ l.rowsDone = 0 then
        let s := { s with cru := { s.cru with load := none } }
        ((s.set Attr.cruIdleBusy 0 0 0).completeTicket l.ticket rNoBillet).logAt sevWarning Attr.scnPresent l.scene 0
      else s
    | none => s
  match s.jrn.compaction with
  | some k => { (s.completeTicket? k.ticket rNoBillet) with jrn := { s.jrn with compaction := none } }
  | none => s

/-- What the engine takes up of a card's superblock: generation, snapshot, ring and serials. -/
def State.mount (s : State) (c : CardSt) : State :=
  match c.current with
  | none => s
  | some (_, x) =>
    let r := (c.read x).2
    let serials := (c.sectorsOf 2 c.secId fun _ => true).map (·.1)
    { s with jrn := { s.jrn with
        gen := x.gen, snapshot := x.snapshot, ring := r.sectors, ringOff := 65536
        nextSerial := (match r.sectors.getLast? with
          | some e => e.1 + 1
          | none => (serials.foldl Nat.max x.ringStart) + 1) } }

/-- CARD_DETECT (R518, R519): a card is removed or inserted. The card journalled earlier in this run takes a fresh
snapshot; another is foreign. -/
def cardDetect (card : Option Card) (s : State) : State :=
  match card, s.jrn.card with
  | none, some _ =>
    let s := s.cardFails
    let s := { s.completeTicket? s.jrn.format rNoBillet with jrn := { s.jrn with card := none, format := none } }
    let s := ((s.set Attr.jrnCardState 0 0 0).set Attr.jrnCardId 0 0 0).set Attr.jrnSectors 0 0 0
    let s := ((s.set Attr.jrnRatedCycles 0 0 0).set Attr.jrnRingFill 0 0 0).set Attr.jrnLifeUsed 0 0 0
    (s.set Attr.scnFreeSectors 0xFFFF 0 0).toRam
  | some x, none =>
    let c := cardOf x
    let s := { s with jrn := { s.jrn with card := some c } }
    if ¬ c.usable then s.set Attr.jrnCardState 0 0 5
    else
      let s := ((s.set Attr.jrnCardId 0 0 c.id).set Attr.jrnSectors 0 0 c.sectors).set Attr.jrnRatedCycles 0 0 c.rated
      if c.current.isNone then (s.set Attr.jrnCardState 0 0 1).cardStats c
      else if s.jrn.lastCard = some c.id then
        let c := c.mend
        let s := ((s.mount c).set Attr.jrnCardState 0 0 2).cardStats c
        if s.n Attr.jrnCardState 0 0 = 2 then s.startCompaction c none false else s
      else (s.set Attr.jrnCardState 0 0 4).cardStats c
  | _, _ => s
/-- CARD_DETECT (R519). -/
def execCardDetect (card : Option Card) (s : State) : Host.Outcome State Fault Refusal := .next (cardDetect card s)

/-- CARD_IO_ERROR (R518, R524): a card access fails through three retries. -/
def cardIoError (s : State) : State :=
  if s.jrn.card.isNone then s
  else
    let s := (s.bump Attr.jrnIoErrors 0 0).cardFails
    s.toRam
/-- CARD_IO_ERROR (R518). -/
def execCardIoError (s : State) : Host.Outcome State Fault Refusal := .next (cardIoError s)

/-- The scene with the least-erased sector, with that sector (R516). -/
def leastErased (c : CardSt) (dir : Store SceneEnt) : Option (Nat × Nat) :=
  (dir.flatMap fun e => e.2.sectors.map fun k => (e.1, k)).foldl (fun b e =>
    match b with
    | none => some e
    | some x => if c.erases e.2 < c.erases x.2 then some e else some x) none

/-- WEAR_LEVELLING_MOVE (R516): the least-erased scene sector moves, its directory entry follows. -/
def wearLevellingMove (s : State) : State :=
  match s.jrn.card with
  | none => s
  | some c =>
    let counts := (c.data.filter c.headed).map c.erases
    let spread := counts.foldl Nat.max 0 - counts.foldl Nat.min (counts.headD 0)
    if s.n Attr.jrnCardState 0 0 ≠ 2 ∨ spread ≤ 1000 ∨ s.jrn.saving.isSome then s
    else match leastErased c s.jrn.dir with
      | none => s
      | some (n, k) =>
        match c.allocate 4 (c.secId k) with
        | none => s
        | some (j, c2) =>
          let c2 := (c2.wr (secBase j + 32) (c.rd (secBase k + 32) 65504)).release k
          let e := Store.get (SceneEnt.mk [] 0) s.jrn.dir n
          let e := { e with sectors := e.sectors.map fun x => if x = k then j else x }
          let s := { s with jrn := { s.jrn with dir := Store.put s.jrn.dir n e } }
          (s.commit [s.sceneRec n e]).cardStats c2
/-- WEAR_LEVELLING_MOVE (R516). -/
def execWearLevellingMove (s : State) : Host.Outcome State Fault Refusal := .next (wearLevellingMove s)

/-- FORMAT (R525): argument 0xA5. (DEDUCED, entry 46) -/
def formatCard (c : Ctx) (s : State) : Answer :=
  if c.arg ≠ 0xA5 then refuse rRange
  else if s.jrn.card.isNone then refuse rNoBillet
  else if s.n Attr.jrnCardState 0 0 = 5 ∨ s.n Attr.jrnCardState 0 0 = 3 then refuse rState
  else if s.jrn.compaction.isSome ∨ s.jrn.saving.isSome ∨ s.jrn.format.isSome ∨ s.cru.load.any (·.kind == 2) then refuse rBusy
  else match s.openTicket (address Attr.jrnFormat 0) 1 with
    | none => refuse rBusy
    | some (k, t) => okTicket { t with jrn := { t.jrn with format := some k } } k
/-- FORMAT (R525). -/
def execFormat (q : Req) (s : State) : Host.Outcome State Fault Refusal := .next (serve .format formatCard q s)

/-- FORMAT_COMPLETE (R525): every sector but 0 is erased, superblock A stands at generation 1, the ring starts empty.
(DEDUCED, entry 46) -/
def formatComplete (s : State) : State :=
  match s.jrn.card, s.jrn.format with
  | some c, some k =>
    let card := c.data.foldl CardSt.release (c.wipe 2)
    let first := match s.jrn.pend with
      | g :: _ => g.first
      | [] => s.jrn.nextSeq
    let card := card.putSuper 1 ⟨1, 0, first, 0⟩
    let s := s.jrn.dir.foldl (fun s e => s.dropScene e.1) s
    let s := { s with jrn := { s.jrn with
        gen := 1, snapshot := 0, ring := [], ringOff := 65536, nextSerial := 0, spare := [], full := false, format := none
        lastCard := some card.id } }
    let s := (((s.set Attr.jrnCardState 0 0 2).set Attr.jrnJournalState 0 0 0).set Attr.jrnRamFill 0 0 0).cardStats card
    s.completeTicket k rOk
  | _, _ => s
/-- FORMAT_COMPLETE (R525). -/
def execFormatComplete (s : State) : Host.Outcome State Fault Refusal := .next (formatComplete s)

/-- The directory that records leave (R519): SCENE_DIR entries entered, deleted scenes dropped.
(DEDUCED, entry 46) -/
def State.scenesOf (s : State) (l : List Rec) : State :=
  l.foldl (fun s r =>
    if r.typ = 4 then s.enterScene r.payload
    else if r.typ = 2 ∧ fieldAt r.payload 0 1 = Attr.scnDelete % 256 ∧ fieldAt r.payload 3 1 = 0x79 then
      s.dropScene (fieldAt r.payload 1 2)
    else s) s

/-- ADOPT_CARD (R519): a snapshot of the engine's state goes to a foreign card, whose scenes stay.
(DEDUCED, entry 46) -/
def adoptCard (_c : Ctx) (s : State) : Answer :=
  match s.jrn.card with
  | none => refuse rNoBillet
  | some c =>
    match c.current with
    | none => refuse rState
    | some (_, x) =>
      if s.n Attr.jrnCardState 0 0 ≠ 4 then refuse rState
      else if s.jrn.compaction.isSome ∨ s.jrn.format.isSome then refuse rBusy
      else match s.openTicket (address Attr.jrnAdoptCard 0) 1 with
        | none => refuse rBusy
        | some (k, t) =>
          let t := t.jrn.dir.foldl (fun s e => s.dropScene e.1) t
          let c := c.mend
          let l := c.read x
          let t := { t.mount c with jrn := { (t.mount c).jrn with spare := [], dir := [], card := some c } }
          let t := t.scenesOf (l.1 ++ l.2.groups.flatten)
          okTicket (t.startCompaction c (some k) true) k
/-- ADOPT_CARD (R519). -/
def execAdoptCard (q : Req) (s : State) : Host.Outcome State Fault Refusal := .next (serve .adoptCard adoptCard q s)

/-! ### Scenes (R520 to R524) -/

/-- SAVE (R521): argument 0 the live plane's targets, 1 the idle plane. The sectors are written, then the directory
group is committed. (DEDUCED, entry 47) -/
def save (c : Ctx) (s : State) : Answer :=
  let n := c.q.inst
  let which := c.arg
  if c.atOnce then ok s
  else if which ≠ 0 ∧ which ≠ 1 then refuse rRange
  else if s.jrn.card.isSome ∧ s.n Attr.jrnCardState 0 0 ≠ 2 then refuse rState
  else if s.n Attr.cruStrikeState 0 0 = 2 ∨ s.n Attr.cruIdleBusy 0 0 = 1 then refuse rBusy
  else match s.jrn.card with
  | none => refuse rNoBillet
  | some card =>
    if s.jrn.saving.isSome ∨ s.jrn.compaction.isSome ∨ s.jrn.format.isSome then refuse rBusy
    else match s.openTicket (address c.code n) 1 with
      | none => refuse rBusy
      | some (k, t) =>
        let plane := if (t.live = 0) = (which = 0) then t.cru.planeA else t.cru.planeB
        let nodes := planeTargets plane t.S t.D
        let name := Store.get [] t.blobs (attrKey Attr.scnName n 0)
        let b := sceneBytes t.S t.D name t.mdTime nodes
        let serial := t.jrn.serial + 1
        match card.putScene (n + 65536 * serial) 16384 b with
        | none => okTicket { t with jrn := { t.jrn with saving := some (Saving.mk n k []) } } k
        | some (ks, card2) =>
          let e := sceneEntry n serial b.length nodes.length (t.S * 65536 + t.D) (leNat ((b.drop 40).take 4)) name ks
          let t := { t with jrn := { t.jrn with serial := serial } }
          let t := (t.commit [actionRec c.code n c.q.data, ⟨4, e⟩]).cardStats card2
          okTicket { t with jrn := { t.jrn with saving := some (Saving.mk n k e) } } k
/-- SAVE (R521). -/
def execSave (q : Req) (s : State) : Host.Outcome State Fault Refusal := .next (serve .save save q s)

/-- Warns of a scene action of a STANDBY that did not end with OK (R523). -/
def State.sceneEnds (s : State) (n ticket result : Nat) : State :=
  let s := s.completeTicket ticket result
  if s.role = 2 ∧ result ≠ rOk then s.logAt sevWarning Attr.scnPresent n 0 else s

/-- SCENE_COMPLETE (R521, R524): the directory group is durable, or the free sectors cannot hold the scene.
(DEDUCED, entry 47) -/
def sceneComplete (s : State) : State :=
  match s.jrn.saving with
  | none => s
  | some v =>
    let off := { s with jrn := { s.jrn with saving := none } }
    if v.entry = [] then off.sceneEnds v.scene v.ticket rRange
    else if s.jrn.pend.any (fun g => g.recs.any fun r => r.typ == 4 && r.payload == v.entry) then s
    else (off.enterScene v.entry).sceneEnds v.scene v.ticket rOk
/-- SCENE_COMPLETE (R524). -/
def execSceneComplete (s : State) : Host.Outcome State Fault Refusal := .next (sceneComplete s)

/-- The nodes of a scene inside a shape (R522). -/
def insideShape (m : Store Nat) (src dst : Nat) : Store Nat :=
  m.filter fun e => decide (e.1 / 2048 < src ∧ e.1 % 2048 < dst)

/-- Clears the idle plane; leftover ramps on it are cancelled (R52). (DEDUCED, entry 47) -/
def State.clearIdlePlane (s : State) : State :=
  let keep (r : Ramp) : Bool := match r.param with
    | .node p _ _ => p != 1 - s.live
    | _ => true
  ({ s with bel := { s.bel with ramps := s.bel.ramps.filter keep } }).setIdlePlane []

/-- STAGE (R65, R522): the idle plane is cleared, then the scene's rows are written. A card that holds no show of this
engine (R505, R519) is not read. (DEDUCED, entry 47) -/
def stage (c : Ctx) (s : State) : Answer :=
  let n := c.q.inst
  match s.jrn.card with
  | none =>
    if c.atOnce then ok (s.setIdlePlane [])
    else refuse (if (Store.find? s.jrn.dir n).isSome then rNoBillet else rState)
  | some card =>
    if ¬ c.atOnce ∧ s.n Attr.jrnCardState 0 0 ≠ 2 ∧ s.n Attr.jrnCardState 0 0 ≠ 3 then refuse rState
    else match Store.find? s.jrn.dir n with
    | none => refuse rState
    | some e =>
      let b := card.getScene (s.n Attr.scnSize n 0) e.sectors
      let m := (sceneNodes b).map fun m => insideShape m s.S s.D
      if c.atOnce then ok (s.setIdlePlane (m.getD []))
      else if s.loadBusy then refuse rBusy
      else
        match m with
        | some m =>
          match startLoad 2 (address c.code n) m n (leNat ((b.drop 8).take 4)) s with
          | .ok (t, o) => .ok (t.clearIdlePlane, o)
          | .error f => .error f
        | none =>
          match s.openTicket (address c.code n) 1 with
          | none => refuse rBusy
          | some (k, t) => okTicket ((t.clearIdlePlane.completeTicket k rType).logAt sevWarning Attr.scnCrc n 0) k
/-- STAGE (R522). -/
def execStage (q : Req) (s : State) : Host.Outcome State Fault Refusal := .next (serve .stage stage q s)

/-- DELETE (R526). -/
def deleteScene (c : Ctx) (s : State) : Answer := ok (s.dropScene c.q.inst)
/-- DELETE (R526). -/
def execDelete (q : Req) (s : State) : Host.Outcome State Fault Refusal := .next (serve .delete deleteScene q s)

end Sys2Proof.Machine
end

