-- ==== Sys2Proof/Machine/Sap.lean ====
section
/-! DEFINITION. The serial audio ports (R379 to R398): slots, slip buffers, faults and recovery, alignment groups, and the
frames a port exchanges with the engine at a tick. -/

namespace Sys2Proof.Machine

/-! ### Domains (R374 to R376) -/

/-- The rate of a domain: MD0 has the engine rate (R376). -/
def State.domRate (s : State) (m : Nat) : Nat := if m = 0 then s.fs else rateOfCode (s.n Attr.mdRate m 0)

/-- Whether a domain has the time base and rate of MD0 (R375, R385). -/
def State.sameAsMd0 (s : State) (m : Nat) : Bool :=
  m == 0 || (s.n Attr.mdTimeBase m 0 == s.md0Tb && s.domRate m == s.fs)

/-- Enabled ports and streams of a domain (R376). -/
def State.users (s : State) (m : Nat) : Nat :=
  let count (en dom : Nat) (n : Nat) : Nat :=
    ((List.range n).filter fun i => s.n en i 0 == 1 && s.n dom i 0 == m).length
  count Attr.sapEnable Attr.sapDomain 32 + count Attr.rxEnable Attr.rxDomain 512 +
    count Attr.txEnable Attr.txDomain 512

/-! ### Ports -/

/-- A port. -/
def State.port (s : State) (n : Nat) : SapSt := Store.get SapSt.reset s.sap n
/-- Replaces a port. -/
def State.setPort (s : State) (n : Nat) (x : SapSt) : State := { s with sap := Store.set SapSt.reset s.sap n x }

/-- State of a port: 0 disabled, 1 centring, 2 running, 3 faulted, 4 rate-mismatched (R397). -/
def State.sapSt (s : State) (n : Nat) : Nat := s.n Attr.sapState n 0

/-- Whether a port is a slave (R383). -/
def State.sapSlave (s : State) (n : Nat) : Bool := s.n Attr.sapClocking n 0 == 1

/-- Whether a slip buffer sits between a port and MD0 (R385). -/
def State.sapBuffered (s : State) (n : Nat) : Bool := s.sapSlave n || !s.sameAsMd0 (s.n Attr.sapDomain n 0)

/-- The S24 word of a slot word of `w` bits, first bit most significant (R382). -/
def slotIn (w : Nat) (v : Int) : Int :=
  if w = 16 then signed 16 (toBits 16 v) * 256
  else if w = 24 then signed 24 (toBits 24 v)
  else signed 24 (toBits 32 v / 256)

/-- What DO carries of an S24 word (R382). -/
def slotOut (w : Nat) (x : Int) : Int := if w = 16 then x / 256 * 256 else x

/-- Passes samples through a hold: the samples delivered and the hold after them. -/
def holdFrame (lh : Nat) : Hold → List Int → List Int × Hold
  | h, [] => ([], h)
  | h, x :: xs =>
    let r := h.sample lh x
    let t := holdFrame lh r.2 xs
    (r.1 :: t.1, t.2)

/-- The samples of an output through its hold, if it has one. -/
def State.throughHold (s : State) (o : OutRef) (xs : List Int) : List Int × State :=
  match s.holdOf o with
  | none => (xs, s)
  | some h =>
    let r := holdFrame (s.holdFade (s.outRate o)) h xs
    (r.1, s.setHold o (some r.2))

/-- Resumes a held output from the value it delivers (R132). -/
def State.resumeOut (s : State) (o : OutRef) : State :=
  match s.holdOf o with
  | some h => s.startResume o (h.current (s.holdFade (s.outRate o)))
  | none => s

/-- Resumes both directions of a port (R390); the outputs of an ORPHAN or FAULTED engine stay held (R467). -/
def State.resumePort (s : State) (n : Nat) : State :=
  let s := [OutRef.sapIn n 0, .sapIn n 1].foldl State.resumeOut s
  if 3 ≤ s.role then s else [OutRef.sapOut n 0, .sapOut n 1].foldl State.resumeOut s

/-- A port that centres delivers zeros: a hold of its inputs is over (R388). -/
def State.silencePort (s : State) (n : Nat) : State :=
  [OutRef.sapIn n 0, .sapIn n 1].foldl (fun s o =>
    match s.holdOf o with
    | some _ => s.setHold o (some ⟨3, 0, 0, 0, 0⟩)
    | none => s) s

/-- A port starts to centre (R388); one without a slip buffer runs at once. -/
def State.centrePort (s : State) (n : Nat) : State :=
  let x := s.port n
  let s := s.setPort n { x with
    rx := [], tx := if s.sapBuffered n then [(0, 0), (0, 0)] else [], fault := 0, warned := false, fresh := true }
  let s := s.set Attr.sapDistance n 0 512
  if s.sapBuffered n then (s.set Attr.sapState n 0 1).silencePort n
  else (s.set Attr.sapState n 0 2).resumePort n

/-- A port's enable, rate and domain are looked at again (R384, R397). -/
def State.sapEval (s : State) (n : Nat) : State :=
  if s.n Attr.sapEnable n 0 ≠ 1 then
    let s := [OutRef.sapIn n 0, .sapIn n 1, .sapOut n 0, .sapOut n 1].foldl (fun s o => s.setHold o none) s
    (s.setPort n SapSt.reset).set Attr.sapState n 0 0
  else if s.domRate (s.n Attr.sapDomain n 0) ≠ s.fs then
    if s.sapSt n = 4 then s
    else ((s.setPort n SapSt.reset).set Attr.sapState n 0 4).log sevWarning Attr.sapStatus n 0 8
  else if s.sapSt n = 0 ∨ s.sapSt n = 4 then s.centrePort n
  else s

/-- The samples of a channel that a port has received and the engine has not read, through the resume fade where one runs. -/
def State.resumeRead (s : State) (o : OutRef) (xs : List Int) : List Int × State :=
  if s.holdOf o |>.any (·.phase == 4) then s.throughHold o xs else (xs, s)

/-- A port faults (R389): counted, logged, both directions hold the value they delivered last (R131, R132). -/
def State.sapFault (s : State) (n why : Nat) : State :=
  if s.sapSt n ≠ 1 ∧ s.sapSt n ≠ 2 then s
  else
    let x := s.port n
    let code := if why = 3 then Attr.sapOverruns else if why = 4 then Attr.sapRateFaults else Attr.sapUnderruns
    let s := ((s.bump code n 0).set Attr.sapState n 0 3).setPort n { x with fault := why, good := 0, near := 0, warned := false }
    let s := s.logAt sevWarning code n 0
    let h := s.n Attr.sapHoldSamples n 0
    let (a, s) := s.resumeRead (.sapIn n 0) (x.rx.map (·.1))
    let (b, s) := s.resumeRead (.sapIn n 1) (x.rx.map (·.2))
    let s := s.setPort n { (s.port n) with rx := a.zip b }
    let s := (s.startHold (.sapIn n 0) (s.lastOut (.sapIn n 0) x.last.1) h).startHold (.sapIn n 1)
      (s.lastOut (.sapIn n 1) x.last.2) h
    s.holdSap n

/-! ### Alignment groups (R392 to R394) -/

/-- The group of a port and of a receive stream; 0xFF is none. -/
def State.sapGroupOf (s : State) (n : Nat) : Nat := s.n Attr.sapGroup n 0
def State.rxGroupOf (s : State) (k : Nat) : Nat := s.n Attr.rxGroup k 0

/-- Whether a receive stream is a member that is not faulted (R393, R416). -/
def State.rxRuns (s : State) (k : Nat) : Bool := s.n Attr.rxState k 0 == 2 && !(Store.get RxSt.reset s.net.rx k).fault

/-- The reference member of a group (R393): the lowest port that centres or runs, then the lowest stream, numbered from
0x1000. -/
def State.groupRef (s : State) (g : Nat) : Option Nat :=
  match (List.range 32).find? fun n => s.sapGroupOf n == g && (s.sapSt n == 1 || s.sapSt n == 2) with
  | some n => some n
  | none => ((List.range 512).find? fun k => s.rxGroupOf k == g && s.rxRuns k).map (· + 0x1000)

/-- The domains of the members of a group (R392), a port or stream aside. -/
def State.groupDomains (s : State) (g : Nat) (butPort butRx : Option Nat) : List Nat :=
  ((List.range 32).filter fun n => some n != butPort && s.sapGroupOf n == g).map (fun n => s.n Attr.sapDomain n 0) ++
    ((List.range 512).filter fun k => some k != butRx && s.rxGroupOf k == g).map fun k => s.n Attr.rxDomain k 0

/-- One slip of a port (R387): slow repeats an input sample and drops an output sample, fast the reverse.
(DEDUCED, entry 37) -/
def State.slipPort (s : State) (n : Nat) (slow : Bool) : State :=
  let x := s.port n
  let d := s.a Attr.sapDistance n 0
  if slow then
    ((s.setPort n { x with rx := x.rx ++ [x.last], tx := x.tx.drop 1 }).set Attr.sapDistance n 0 (d + 256)).bump
      Attr.sapSlipsSlow n 0
  else
    ((s.setPort n { x with rx := x.rx.dropLast, tx := x.sent :: x.tx }).set Attr.sapDistance n 0 (d - 256)).bump
      Attr.sapSlipsFast n 0

/-- One slip of a receive stream's buffer (R415). (DEDUCED, entry 37) -/
def State.slipRx (s : State) (k : Nat) (slow : Bool) : State :=
  let x := Store.get RxSt.reset s.net.rx k
  let d := s.a Attr.rxDistance k 0
  let fifo := if slow then (x.fifo.headD x.last) :: x.fifo else x.fifo.drop 1
  let s := { s with net := { s.net with rx := Store.put s.net.rx k { x with fifo := fifo } } }
  if slow then (s.set Attr.rxDistance k 0 (d + 256)).bump Attr.rxSlipsSlow k 0
  else (s.set Attr.rxDistance k 0 (d - 256)).bump Attr.rxSlipsFast k 0

/-- A slip of every member of a group that is not faulted (R393), but for port `but` and stream `butRx`. -/
def State.slipGroup (s : State) (g : Nat) (slow : Bool) (but butRx : Option Nat) : State :=
  let ports := (List.range 32).filter fun n => s.sapGroupOf n == g && s.sapSt n == 2 && some n != but && s.sapBuffered n
  let rxs := (List.range 512).filter fun k => s.rxGroupOf k == g && s.rxRuns k && some k != butRx &&
    !s.sameAsMd0 (s.n Attr.rxDomain k 0)
  let s := s.bump (if slow then Attr.sapSlipsSlowGroup else Attr.sapSlipsFastGroup) (0x100 + g) 0
  rxs.foldl (fun s k => s.slipRx k slow) (ports.foldl (fun s n => s.slipPort n slow) s)

/-! ### Frames at the pins (R381, R382, R386 to R391) -/

/-- The slip a distance asks for (R387): slow below 0.5, fast above 3.5. (DEDUCED, entry 37) -/
def slipOf (d : Int) : Option Bool := if d < 128 then some true else if 896 < d then some false else none

/-- A frame enters the buffer of a running port and leaves it a sample for DO. -/
def State.passFrame (s : State) (n : Nat) (p : Int × Int) : State :=
  let x := s.port n
  let room := s.eng.cfg.n + 4
  let rx := x.rx ++ [p]
  s.setPort n { x with rx := rx.drop (rx.length - room), last := p }

/-- A port frame of a running port with its slip (R386, R387, R393): the distance moves by `drift` 256ths of a frame. -/
def State.bufferFrame (s : State) (n : Nat) (p : Int × Int) (drift : Int) : State :=
  if ¬ s.sapBuffered n then s.passFrame n p
  else if ¬ s.ticking then s.passFrame n p
  else
    let g := s.sapGroupOf n
    let d := s.a Attr.sapDistance n 0 + drift
    let s := s.set Attr.sapDistance n 0 d
    let decides := g == 0xFF || s.groupRef g == some n
    let s := match (if decides then slipOf d else none) with
      | none => s.passFrame n p
      | some slow =>
        if s.paired then
          (if g = 0xFF then s.askSlip (if slow then Attr.sapSlipsSlow else Attr.sapSlipsFast) n slow
           else s.askSlip (if slow then Attr.sapSlipsSlowGroup else Attr.sapSlipsFastGroup) (0x100 + g) slow).passFrame n p
        else
        let s := if g = 0xFF then s else s.slipGroup g slow (some n) none
        if slow then (s.slipPort n true).passFrame n p else (s.passFrame n p).slipPort n false
    let d := s.a Attr.sapDistance n 0
    if d < 0 then s.sapFault n 1 else if 1024 < d then s.sapFault n 3 else s

/-- DO takes its sample, zeros where the buffer holds none (R388). -/
def State.sendFrame (s : State) (n : Nat) : State :=
  let x := s.port n
  let w := s.n Attr.sapSlot n 0
  let p := if s.sapSt n = 4 then (0, 0) else x.tx.headD (0, 0)
  s.setPort n { x with tx := x.tx.drop 1, sent := (slotOut w p.1, slotOut w p.2) }

/-- A frame met at a port: its clocks are judged and counted (R389), and the port's own next sample leaves with it. -/
def State.frameMet (s : State) (n : Nat) (offset : Int) (glitch : Bool) : State :=
  let slave := s.sapSlave n
  let bad := slave && glitch
  let off := slave && (glitch || decide (100000000 + offset < 50 * offset.natAbs))
  let s := s.set Attr.sapRateOffset n 0 (if slave then clampInt (-2147483648) 2147483647 offset else 0)
  let s := if bad then s.bump Attr.sapWsGlitches n 0 else s
  let x := s.port n
  let s := s.setPort n { x with
    good := if bad then 0 else x.good + 1
    near := if off then 0 else x.near + 1
    far := if off then x.far + 1 else 0 }
  s.sendFrame n

/-- SAP_FRAME (R381, R386, R387, R391): a port frame completes with the slot words `s0`, `s1`. The distance moves by
`drift` 256ths of a frame against MD0, `offset` is the measured rate offset in units of 0.01 ppm, and `glitch` says that
a word-select edge fell where none belongs. -/
def sapFrame (n : Nat) (s0 s1 drift offset : Int) (glitch : Bool) (s : State) : State :=
  if 32 ≤ n ∨ s.sapSt n = 0 then s
  else
    let w := s.n Attr.sapSlot n 0
    let bad := s.sapSlave n && glitch
    let last := (s.port n).last
    let s := s.frameMet n offset glitch
    let p := if bad then last else (slotIn w s0, slotIn w s1)
    match s.sapSt n with
    | 1 => let y := s.port n; s.setPort n { y with rx := (y.rx ++ [p]).drop (y.rx.length + 1 - 2), last := p }
    | 2 => s.bufferFrame n p drift
    | _ => s
/-- SAP_FRAME (R381). -/
def execSapFrame (n : Nat) (s0 s1 drift offset : Int) (glitch : Bool) (s : State) : Host.Outcome State Fault Refusal :=
  .next (sapFrame n s0 s1 drift offset glitch s)

/-- CLOCK_STOPPED (R389): a slave port sees no frame for two nominal periods. -/
def clockStopped (n : Nat) (s : State) : State :=
  if ¬ s.sapSlave n then s
  else
    let s := s.sapFault n 2
    if s.sapSt n = 0 then s else s.setPort n { (s.port n) with good := 0, near := 0, far := 0 }
/-- CLOCK_STOPPED (R389). -/
def execClockStopped (n : Nat) (s : State) : Host.Outcome State Fault Refusal := .next (clockStopped n s)

/-- RATE_FAULT (R389): eight consecutive frames outside 2 %. -/
def rateFault (n : Nat) (s : State) : State := if 8 ≤ (s.port n).far then s.sapFault n 4 else s
/-- RATE_FAULT (R389). -/
def execRateFault (n : Nat) (s : State) : Host.Outcome State Fault Refusal := .next (rateFault n s)

/-- PORT_RECOVERY (R390, R394): the clock has been valid long enough; the port is centred, or rejoined to its group where
a reference runs. `skew` is by how much its frames complete before the reference's, in 256ths. -/
def portRecovery (n : Nat) (skew : Int) (s : State) : State :=
  let x := s.port n
  let due := if x.fault = 4 then decide (64 ≤ x.near) else decide (16 ≤ x.good)
  if s.sapSt n ≠ 3 ∨ ¬ due then s
  else
    let g := s.sapGroupOf n
    match (if g = 0xFF then none else s.groupRef g) with
    | none => s.centrePort n
    | some r =>
      let d := (if r < 0x1000 then s.a Attr.sapDistance r 0 else s.a Attr.rxDistance (r - 0x1000) 0) + skew
      if d < 128 ∨ 896 < d then
        if x.warned then s
        else (s.setPort n { x with warned := true }).logAt sevWarning Attr.sapState n 0
      else
        let fill := List.replicate (if s.sapBuffered n then ((1024 - d) / 256).toNat else 0) (0, 0)
        let s := s.setPort n { x with rx := [], tx := fill, fault := 0, warned := false, fresh := true }
        ((s.set Attr.sapDistance n 0 d).set Attr.sapState n 0 2).resumePort n
/-- PORT_RECOVERY (R390). -/
def execPortRecovery (n : Nat) (skew : Int) (s : State) : Host.Outcome State Fault Refusal := .next (portRecovery n skew s)

/-- CENTRED (R388): a centring port reaches d = 2.0 and reads live samples. -/
def centred (n : Nat) (s : State) : State :=
  if s.sapSt n = 1 then
    (((s.set Attr.sapState n 0 2).set Attr.sapDistance n 0 512).setPort n { s.port n with fresh := true }).resumePort n
  else s
/-- CENTRED (R388). -/
def execCentred (n : Nat) (s : State) : Host.Outcome State Fault Refusal := .next (centred n s)

/-! ### Settings (R376, R384, R392) -/

/-- Why a write of a port's enable, domain or group is refused. -/
def State.sapBad (s : State) (code n v : Nat) : Bool :=
  let dom := s.n Attr.sapDomain n 0
  let g := s.sapGroupOf n
  if code = Attr.sapEnable then v == 1 && s.n Attr.mdEnable dom 0 != 1
  else if code = Attr.sapDomain then
    (s.n Attr.sapEnable n 0 == 1 && s.n Attr.mdEnable v 0 != 1) ||
      (g != 0xFF && (s.groupDomains g (some n) none).any (· != v))
  else v != 0xFF && (s.groupDomains v (some n) none).any (· != dom)

/-- SAP_SETTING (R384, R392): a write of a port's enable, domain or group. -/
def writeSapSetting (c : Ctx) (s : State) : Answer :=
  let n := c.q.inst
  let v := c.arg.toNat
  if s.sapBad c.code n v ∧ ¬ c.atOnce then refuse rState
  else
    let was := s.n c.code n 0
    let s := (s.store c).sapEval n
    ok (if c.code = Attr.sapDomain ∧ was ≠ v ∧ (s.sapSt n = 2 ∨ s.sapSt n = 3) then s.centrePort n else s)
/-- SAP_SETTING (R384). -/
def execSapSetting (q : Req) (s : State) : Host.Outcome State Fault Refusal := .next (serve .sapSetting writeSapSetting q s)

/-! ### At a tick (R14, R382, R388, R389) -/

/-- The input word of a port's channel (R174). -/
def sapWord (n ch : Nat) : Nat := 0x10000000 + n * 65536 + ch

/-- A channel of the frame a port hands to the engine: the samples read, then, once they are used up, its hold (R389) or
the last sample. -/
def State.channelIn (s : State) (n ch : Nat) (have_ : List Int) (k : Nat) (last : Int) : List Int × State :=
  let o := OutRef.sapIn n ch
  match s.holdOf o with
  | some h =>
    if h.phase = 4 then s.throughHold o (have_ ++ List.replicate k last)
    else
      let r := s.throughHold o (List.replicate k 0)
      (have_ ++ r.1, r.2)
  | none => (have_ ++ List.replicate k last, s)

/-- The first frame after a port starts to deliver (R388, R390): zeros, then its live samples under the resume fade; the
frames of its distance stay in the buffer. -/
def State.freshIn (s : State) (n : Nat) (x : SapSt) : (List Int × List Int) × State :=
  let len := s.eng.cfg.n
  let keep := if s.sapBuffered n then (s.a Attr.sapDistance n 0 / 256).toNat else 0
  let m := Nat.min len (x.rx.length - keep)
  let front := zeros (len - m)
  let (a, s) := s.throughHold (.sapIn n 0) ((x.rx.take m).map (·.1))
  let (b, s) := s.throughHold (.sapIn n 1) ((x.rx.take m).map (·.2))
  ((front ++ a, front ++ b), s.setPort n { x with rx := x.rx.drop m, fresh := decide (m = 0) })

/-- The frame a port hands to the engine at a tick (R14). -/
def State.sapCapture (s : State) (n : Nat) : State :=
  let len := s.eng.cfg.n
  let x := s.port n
  let put (s : State) (a b : List Int) : State :=
    { s with tmp := { s.tmp with cap := Store.put (Store.put s.tmp.cap (sapWord n 0) a) (sapWord n 1) b } }
  match s.sapSt n with
  | 0 | 1 | 4 => s
  | _ =>
    if x.fresh ∧ s.sapSt n = 2 then
      let r := s.freshIn n x
      put r.2 r.1.1 r.1.2
    else
    let got := x.rx.take len
    let k := len - got.length
    let (a, s) := s.channelIn n 0 (got.map (·.1)) k x.last.1
    let (b, s) := s.channelIn n 1 (got.map (·.2)) k x.last.2
    put (s.setPort n { (s.port n) with rx := x.rx.drop len }) a b

/-- The frame of an out-strip as it is emitted; zeros where none is named. -/
def State.emitted (s : State) (d : Nat) : List Int :=
  if d < s.eng.cfg.D then Store.get (zeros s.eng.cfg.n) s.tmp.emit d else zeros s.eng.cfg.n

/-- The length of the engine's entry and exit fades (R33, R133). -/
def State.engineFade (s : State) : Nat := samplesOf 5000 s.eng.cfg.fs

/-- A frame emitted from sample `b` under the engine's entry or exit fade (R133). -/
def State.faded (s : State) (b : Nat) (xs : List Int) : List Int :=
  let l := s.engineFade
  let at_ (i : Nat) (x : Int) : Int :=
    let (c, d) := if s.eng.fade = 1 then ((0 : Int), x) else (x, 0)
    if b + i < s.eng.fadeAt then c
    else if s.eng.fadeAt + l ≤ b + i then d
    else fadeLinear (b + i - s.eng.fadeAt) l c d
  if s.eng.fade = 0 then xs else xs.mapIdx at_

/-- The frame a port takes from the engine at the tick of count `count` (R14), through the hold of its outputs. -/
def State.sapEmit (s : State) (count n : Nat) : State :=
  if s.sapSt n = 0 ∨ s.sapSt n = 4 then s
  else
    let s := if 3 ≤ s.role then s.holdSap n else s
    let (a, s) := s.throughHold (.sapOut n 0) (s.emitted (s.sn Attr.sapOutSrc n 0).toNat)
    let (b, s) := s.throughHold (.sapOut n 1) (s.emitted (s.sn Attr.sapOutSrc n 1).toNat)
    let x := s.port n
    let tx := x.tx ++ (s.faded count a).zip (s.faded count b)
    s.setPort n { x with tx := tx.drop (tx.length - (s.eng.cfg.n + 4)) }

/-- The ports that are not disabled. -/
def State.portsOn (s : State) : List Nat := (s.listed Attr.sapState).map fun e => e.1

/-- Ports at an entry into RUN (R384, R395): looked at again, and centred anew. -/
def State.recentrePorts (s : State) : State :=
  (List.range 32).foldl (fun s n =>
    let s := s.sapEval n
    if s.sapSt n = 1 ∨ s.sapSt n = 2 then s.centrePort n else s) s

/-- Ports when the tick has stopped (R395): nothing is waiting either way. -/
def State.idlePorts (s : State) : State :=
  s.portsOn.foldl (fun s n => s.setPort n { (s.port n) with rx := [], tx := [] }) s

end Sys2Proof.Machine
end

