-- ==== Sys2Proof/Machine/Net.lean ====
section
/-! DEFINITION. Network media (R399 to R417): ports, receive and transmit streams, their packets and their frames at a
tick. -/

namespace Sys2Proof.Machine

/-! ### Ports (R399 to R401) -/

/-- The line rate of a port (R399). -/
def State.lineRate (s : State) (p : Nat) : Nat := if s.n Attr.portMode p 0 = 0 then 10000000000 else 1000000000

/-- The ports of a port code: N0 and N1 for 4 (R413). -/
def legPorts (code : Nat) : List Nat := if code = 4 then [0, 1] else [code]

/-! ### Stream shapes (R402, R403, R415) -/

/-- The attributes that give a stream its shape: enable, port, channels, encoding, packet time, domain. -/
structure StreamAttrs where
  enable : Nat
  port : Nat
  channels : Nat
  encoding : Nat
  time : Nat
  domain : Nat

/-- Those of receive and of transmit streams. -/
def rxAttrs : StreamAttrs :=
  ⟨Attr.rxEnable, Attr.rxPort, Attr.rxChannels, Attr.rxEncoding, Attr.rxPacketTime, Attr.rxDomain⟩
def txAttrs : StreamAttrs :=
  ⟨Attr.txEnable, Attr.txPort, Attr.txChannels, Attr.txEncoding, Attr.txPacketTime, Attr.txDomain⟩

/-- The family of a domain's rate. -/
def State.domFam (s : State) (m : Nat) : Nat := if m = 0 then s.fam else s.n Attr.mdRate m 0 / 2

/-- S, the samples of a packet (R403). -/
def State.packetLen (s : State) (x : StreamAttrs) (k : Nat) : Nat :=
  [6, 12, 16, 48].getD (s.n x.time k 0) 48 * 2 ^ s.domFam (s.n x.domain k 0)

/-- Bytes of a sample of an encoding. -/
def State.sampleBytes (s : State) (x : StreamAttrs) (k : Nat) : Nat := if s.n x.encoding k 0 = 0 then 2 else 3

/-- Payload bytes of a packet. -/
def State.payload (s : State) (x : StreamAttrs) (k : Nat) : Nat :=
  s.n x.channels k 0 * s.packetLen x k * s.sampleBytes x k

/-- The enabled streams below 512. -/
def State.streamsOn (s : State) (x : StreamAttrs) : List Nat :=
  ((s.listed x.enable).filter fun e => e.2.2 == 1).map fun e => e.1

/-- Whether a stream passes no slip buffer (R415). -/
def State.streamDirect (s : State) (x : StreamAttrs) (k : Nat) : Bool := s.sameAsMd0 (s.n x.domain k 0)

/-- Whether a stream is rate-mismatched (R415). -/
def State.streamMismatch (s : State) (x : StreamAttrs) (k : Nat) : Bool := s.domRate (s.n x.domain k 0) != s.fs

/-! ### Admission (R417, R428) -/

/-- A stream's charge in 192nds of a bit per second (R417). -/
def State.charge (s : State) (x : StreamAttrs) (k : Nat) : Nat :=
  (s.payload x k + 78) * 8 * s.domRate (s.n x.domain k 0) * (192 / s.packetLen x k)

/-- The charges of the enabled streams of a kind on a port. -/
def State.portCharge (s : State) (x : StreamAttrs) (p : Nat) : Nat :=
  (((s.streamsOn x).filter fun k => (legPorts (s.n x.port k 0)).contains p).map (s.charge x)).sum

/-- The destinations with a bit of their binding set, with their index (R419). -/
def State.welds (s : State) (b : Nat) : List (Nat × Nat) :=
  (s.listed Attr.weldBinding).filterMap fun e => if bit e.2.2.toNat b then some (e.1, e.2.2.toNat % 4096) else none

/-- The most entries of a fragment (R423). -/
def fragMax (n : Nat) : Nat := if n = 4 then 72 else if n = 8 then 40 else 21

/-- Inserts an entry by its index. -/
def insertIndex (e : Nat × Nat) : List (Nat × Nat) → List (Nat × Nat)
  | [] => [e]
  | a :: l => if e.2 < a.2 then e :: a :: l else a :: insertIndex e l

/-- Cuts a list into pieces of at most `n`. -/
def pieces {α : Type} (n : Nat) : (fuel : Nat) → List α → List (List α)
  | 0, _ => []
  | _, [] => []
  | f + 1, l => l.take n :: pieces n f (l.drop n)

/-- The fragments of a frame: lane, its entries as destination and index, in pieces (R422). -/
def State.fragments (s : State) : List (Nat × List (List (Nat × Nat))) :=
  let l := (s.welds 31).foldl (fun l e => insertIndex e l) []
  (List.range 64).filterMap fun lane =>
    let here := l.filter fun e => e.2 / 64 == lane
    if here = [] then none else some (lane, pieces (fragMax s.blk) 64 here)

/-- The Weld charge in 192nds of a bit per second (R423). -/
def State.weldCharge (s : State) : Nat :=
  if s.n Attr.weldWeldId 0xFFFF 0 = 255 then 0
  else (s.fragments.map fun e => (e.2.map fun p => p.length * (4 + 4 * s.blk) + 90).sum).sum * 8 * s.fs * 192 / s.blk

/-- The send charge of a port. -/
def State.sendCharge (s : State) (p : Nat) : Nat := s.portCharge txAttrs p + if 2 ≤ p then s.weldCharge else 0

/-- The entries a receiver must process (R428): the summed indices, once for each other contributor. -/
def State.weldEntries (s : State) : Nat :=
  let own := s.n Attr.weldWeldId 0xFFFF 0
  ((s.welds 30).map fun e =>
    let c := s.n Attr.weldContributors e.1 0
    ((List.range 32).filter fun m => bit c m && m != own).length).sum

/-- The tests of R417 and R428. -/
def State.netAdmits (s : State) : Bool :=
  let chans (x : StreamAttrs) : Nat := ((s.streamsOn x).map fun k => s.n x.channels k 0).sum
  let most := 4096 / 2 ^ s.fam
  decide (chans rxAttrs ≤ most ∧ chans txAttrs ≤ most ∧ s.weldEntries ≤ most) &&
    (List.range 4).all fun p =>
      let room := 9 * (192 * s.lineRate p)
      decide (10 * s.sendCharge p ≤ room ∧ 10 * s.portCharge rxAttrs p ≤ room)

/-! ### Receive streams (R408 to R413) -/

/-- A receive stream. -/
def State.rxs (s : State) (k : Nat) : RxSt := Store.get RxSt.reset s.net.rx k
/-- Replaces a receive stream. -/
def State.setRx (s : State) (k : Nat) (x : RxSt) : State :=
  { s with net := { s.net with rx := Store.set RxSt.reset s.net.rx k x } }
/-- Channels of a receive stream. -/
def State.rxCh (s : State) (k : Nat) : Nat := s.n Attr.rxChannels k 0

/-- The sample count of a domain now (R374). -/
def State.domCount (s : State) (m : Nat) : Nat := countAt (s.domRate m) (s.tbNow (s.n Attr.mdTimeBase m 0))
/-- The sample count of a domain at the last tick. -/
def State.domAtTick (s : State) (m : Nat) : Nat := countAt (s.domRate m) (s.tbAtTick (s.n Attr.mdTimeBase m 0))
/-- The progress of a domain at the last tick in 1/256 of a frame. -/
def State.domPhase (s : State) (m : Nat) : Nat := 256 * s.tbAtTick (s.n Attr.mdTimeBase m 0) * s.domRate m / 1000000000

/-- Replaces a bit of a stream's status. -/
def State.rxBit (s : State) (k b : Nat) (v : Bool) : State :=
  let w := s.n Attr.rxStatus k 0
  s.set Attr.rxStatus k 0 ((w - w / 2 ^ b % 2 * 2 ^ b + b2n v * 2 ^ b : Nat) : Int)

/-- A received stream's sample as S24: L16 takes bits [23:8] (R402). -/
def State.rxCode (s : State) (k : Nat) (v : Int) : Int :=
  if s.n Attr.rxEncoding k 0 = 0 then signed 16 (toBits 16 v) * 256 else signed 24 (toBits 24 v)

/-- Lo (R409). -/
def State.linkOffset (s : State) (k : Nat) : Nat :=
  samplesOf (s.n Attr.rxLinkOffset k 0) (s.domRate (s.n Attr.rxDomain k 0))

/-- Starts or ends a receive stream as its enable and rates say (R415, R430). -/
def State.rxEval (s : State) (k : Nat) : State :=
  let clear (s : State) : State :=
    (List.range 64).foldl (fun s c => s.setHold (.rx k c) none) ((s.rxBit k 0 false).rxBit k 1 false |>.rxBit k 5 false)
  let dom := s.n Attr.rxDomain k 0
  if s.n Attr.rxEnable k 0 ≠ 1 then ((clear s).setRx k RxSt.reset).set Attr.rxState k 0 0
  else if s.streamMismatch rxAttrs k then
    if s.n Attr.rxState k 0 = 5 then s
    else (((clear s).setRx k RxSt.reset).set Attr.rxState k 0 5).log sevWarning Attr.rxStatus k 0 8
  else if s.n Attr.rxState k 0 = 0 ∨ s.n Attr.rxState k 0 = 5 then
    let z := List.replicate (s.rxCh k) 0
    (((clear s).setRx k { RxSt.reset with next := s.domCount dom + 1, last := z, fifo := [z, z], phase := s.domPhase dom }).set
      Attr.rxState k 0 1).set Attr.rxDistance k 0 512
  else s

/-- Stores the samples of a packet (R410): `due` is the count of the first of them; samples at or before `rel`, and those
already there, are left. Answers the ring and how many came late. -/
def storeSamples (rel due : Int) : List (List Int) → Store (List Int) → Store (List Int) × Nat
  | [], ring => (ring, 0)
  | x :: xs, ring =>
    if due ≤ rel then
      let r := storeSamples rel (due + 1) xs ring
      (r.1, r.2 + 1)
    else
      storeSamples rel (due + 1) xs
        (if (Store.find? ring due.toNat).isSome then ring else Store.put ring due.toNat x)

/-- Notes a packet on a leg by the count of its last sample (R413). -/
def noteLeg (last leg : Nat) : List (Nat × Nat) → List (Nat × Nat)
  | [] => [(last, 2 ^ leg)]
  | (d, m) :: l => if d = last then (d, m ||| 2 ^ leg) :: l else (d, m) :: noteLeg last leg l

/-- RTP_PACKET_RECEIVED (R408 to R413): a packet that matches a stream's addresses. -/
def rtpPacketReceived (k : Nat) (p : RtpPacket) (s : State) : State :=
  let ports := legPorts (s.n Attr.rxPort k 0)
  if 512 ≤ k ∨ s.n Attr.rxState k 0 = 0 ∨ ¬ (ports[p.leg]?).any s.portUp then s
  else
    let len := s.packetLen rxAttrs k
    if ¬ p.wellFormed ∨ p.samples.length ≠ len ∨ p.samples.any (·.length != s.rxCh k) then s.bump Attr.rxBadPackets k 0
    else if s.n Attr.rxState k 0 = 5 then s
    else
      let x := s.rxs k
      let fs := s.domRate (s.n Attr.rxDomain k 0)
      let rel : Int := (countAt fs p.arrival : Nat)
      let diff := signed 32 (toBits 32 ((p.ts : Int) + s.linkOffset k - rel))
      if (8192 : Int) - len ≤ diff then (s.bump Attr.rxWindowErrors k 0).rxBit k 5 true
      else
        let due := rel + diff
        let codes := p.samples.map fun f => f.map (s.rxCode k)
        let keep := if s.ticking then x.next else (rel + 1).toNat
        let (ring, late) := storeSamples rel due codes (Store.keep (fun n => decide (keep ≤ n)) x.ring)
        let stored := decide (late < len)
        let m : Int := due * 1000000000 / fs - p.arrival
        let margins := (p.arrival, m) :: x.margins.filter fun e => decide (p.arrival < e.1 + 1000000000)
        let got := if stored then noteLeg (due + len - 1).toNat p.leg x.got else x.got
        let s := (s.rxBit k 5 false).rxBit k p.leg true
        let s := s.add Attr.rxLateSamples k 0 late
        let s := if stored then s.bump Attr.rxPackets k p.leg else s
        let s := s.set Attr.rxMargin k 0 (margins.foldl (fun a e => if e.2 < a then e.2 else a) m |> clampInt (-2147483648) 2147483647)
        let s := s.setRx k { x with ring := ring, got := got, margins := margins }
        if s.n Attr.rxState k 0 = 4 ∧ stored then
          s.set Attr.rxState k 0 (if x.missing ≠ 0 then 3 else if x.live then 2 else 1)
        else s
/-- RTP_PACKET_RECEIVED (R410). -/
def execRtpPacketReceived (k : Nat) (p : RtpPacket) (s : State) : Host.Outcome State Fault Refusal :=
  .next (rtpPacketReceived k p s)

/-- STREAM_LOST (R411): no packet stored for 100 ms. -/
def streamLost (k : Nat) (s : State) : State :=
  let st := s.n Attr.rxState k 0
  if st = 1 ∨ st = 2 ∨ st = 3 then
    ((s.set Attr.rxState k 0 4).bump Attr.rxLosses k 0).logAt sevWarning Attr.rxLosses k 0
  else s
/-- STREAM_LOST (R411). -/
def execStreamLost (k : Nat) (s : State) : Host.Outcome State Fault Refusal := .next (streamLost k s)

/-- LEG_TIMEOUT (R413): a leg without a packet for 100 ms. -/
def legTimeout (k leg : Nat) (s : State) : State :=
  if leg < 2 ∧ bit (s.n Attr.rxStatus k 0) leg ∧ s.n Attr.rxPort k 0 = 4 then
    (s.rxBit k leg false).logAt sevNotice Attr.rxStatus k 0
  else s
/-- LEG_TIMEOUT (R413). -/
def execLegTimeout (k leg : Nat) (s : State) : Host.Outcome State Fault Refusal := .next (legTimeout k leg s)

/-- Every channel of a stream starts to hold the sample it delivered last (R411, R132); channels that hold already keep their
hold. -/
def State.holdRx (s : State) (k : Nat) (last : List Int) : State :=
  (last.mapIdx fun c v => (c, v)).foldl
    (fun s e => s.startHold (.rx k e.1) (s.lastOut (.rx k e.1) e.2) (s.n Attr.rxHoldSamples k 0)) s

/-- Every held channel of a stream resumes (R411). -/
def State.resumeRx (s : State) (k : Nat) : State :=
  (List.range (s.rxCh k)).foldl (fun s c =>
    match s.holdOf (.rx k c) with
    | some h => if h.phase = 4 then s else s.resumeOut (.rx k c)
    | none => s) s

/-- Passes a frame of a stream through the holds of its channels. -/
def State.rxThrough (s : State) (k : Nat) : (c : Nat) → List Int → List Int × State
  | _, [] => ([], s)
  | c, x :: xs =>
    let (a, s) := s.throughHold (.rx k c) [x]
    let (b, s) := s.rxThrough k (c + 1) xs
    (a ++ b, s)

/-- The release of the next count of a stream (R409, R411): the frame delivered. (DEDUCED, entry 38) -/
def State.releaseOne (s : State) (k : Nat) : List Int × State :=
  let x := s.rxs k
  let n := x.next
  match Store.find? x.ring n with
  | some f =>
    let s := s.setRx k { x with ring := Store.del x.ring n, next := n + 1, last := f, missing := 0, live := true }
    let s := if s.n Attr.rxState k 0 = 4 then s else s.set Attr.rxState k 0 2
    (s.resumeRx k).rxThrough k 0 f
  | none =>
    let s := s.setRx k { x with next := n + 1, missing := if x.live then x.missing + 1 else 0 }
    if ¬ x.live then (x.last, s)
    else
      let s := if x.missing = 0 then (s.bump Attr.rxHolds k 0).holdRx k x.last else s
      let s := if s.n Attr.rxState k 0 = 4 then s else s.set Attr.rxState k 0 3
      s.rxThrough k 0 x.last

/-- Releases `n` counts of a stream. -/
def State.releaseMany (s : State) (k : Nat) : (n : Nat) → List (List Int) × State
  | 0 => ([], s)
  | n + 1 =>
    let (f, s) := s.releaseOne k
    let (l, s) := s.releaseMany k n
    (f :: l, s)

/-- Packets whose last sample has been released count a gap on the leg they missed (R413). (DEDUCED, entry 38) -/
def State.legGaps (s : State) (k : Nat) : State :=
  let x := s.rxs k
  let old := x.got.filter fun e => decide (e.1 < x.next)
  let s := s.setRx k { x with got := x.got.filter fun e => decide (x.next ≤ e.1) }
  if s.n Attr.rxPort k 0 ≠ 4 then s
  else old.foldl (fun s e =>
    if e.2 = 1 then s.bump Attr.rxLegGaps k 1 else if e.2 = 2 then s.bump Attr.rxLegGaps k 0 else s) s

/-- A fault of a stream's slip buffer (R389, R415). -/
def State.rxFault (s : State) (k : Nat) : State :=
  let x := s.rxs k
  if x.fault then s
  else
    let s := s.setRx k { x with fault := true, good := 0, fifo := [] }
    let s := (s.set Attr.rxState k 0 3).logAt sevWarning Attr.rxState k 0
    if x.live then (s.bump Attr.rxHolds k 0).holdRx k x.last else s

/-- The slip of a stream's buffer at a tick (R387, R393, R415): on its own, or by its group. -/
def State.rxSlip (s : State) (k : Nat) : State :=
  let g := s.rxGroupOf k
  let d := s.a Attr.rxDistance k 0
  if g ≠ 0xFF ∧ s.groupRef g ≠ some (0x1000 + k) then s
  else match slipOf d with
    | none => s
    | some slow =>
      if s.paired then
        (if g = 0xFF then s.askSlip (if slow then Attr.rxSlipsSlow else Attr.rxSlipsFast) k slow
         else s.askSlip (if slow then Attr.sapSlipsSlowGroup else Attr.sapSlipsFastGroup) (0x100 + g) slow)
      else (if g = 0xFF then s else s.slipGroup g slow none (some k)).slipRx k slow

/-- A transmit stream. -/
def State.txs (s : State) (k : Nat) : TxSt := Store.get TxSt.reset s.net.tx k
/-- Replaces a transmit stream. -/
def State.setTx (s : State) (k : Nat) (x : TxSt) : State :=
  { s with net := { s.net with tx := Store.set TxSt.reset s.net.tx k x } }

/-- One slip of a transmit stream's buffer (R387, R415): slow drops an MD0 sample, fast repeats one.
(DEDUCED, entry 37) -/
def State.slipTx (s : State) (k : Nat) (slow : Bool) : State :=
  let x := s.txs k
  let d := s.a Attr.txDistance k 0
  if slow then
    ((s.setTx k { x with fifo := x.fifo.drop 1 }).set Attr.txDistance k 0 (d + 256)).bump Attr.txSlipsSlow k 0
  else
    ((s.setTx k { x with fifo := x.fifo.headD x.last :: x.fifo }).set Attr.txDistance k 0 (d - 256)).bump
      Attr.txSlipsFast k 0

/-- A slip takes effect at the tick of both engines (R484). -/
def State.makeSlip (s : State) (p : PairSlip) : State :=
  let s := s.note 8 (address p.code p.inst) 0 p.count
  if p.code = Attr.sapSlipsSlow ∨ p.code = Attr.sapSlipsFast then
    (if s.sapSt p.inst = 2 then s.slipPort p.inst p.slow else s)
  else if p.code = Attr.rxSlipsSlow ∨ p.code = Attr.rxSlipsFast then
    (if s.rxRuns p.inst then s.slipRx p.inst p.slow else s)
  else if p.code = Attr.txSlipsSlow ∨ p.code = Attr.txSlipsFast then
    (if s.n Attr.txState p.inst 0 = 1 then s.slipTx p.inst p.slow else s)
  else s.slipGroup (p.inst - 0x100) p.slow none none

/-- The slips due at the tick of count `count` take effect. (DEDUCED, entry 37) -/
def State.makeSlips (s : State) (count : Nat) : State :=
  let due := s.pair.slips.filter fun p => decide (p.count ≤ count)
  due.foldl State.makeSlip { s with pair := { s.pair with slips := s.pair.slips.filter fun p => decide (count < p.count) } }

/-- The frames a buffered stream hands to the engine at a tick (R415): `n` frames from its buffer. -/
def State.bufferedRx (s : State) (k n : Nat) : List (List Int) × State :=
  let m := s.n Attr.rxDomain k 0
  let x := s.rxs k
  let ph := s.domPhase m
  let d := s.a Attr.rxDistance k 0 + ((ph : Int) - x.phase) - 256 * n
  let count := Nat.min (4 * n) (s.domAtTick m + 1 - x.next)
  let (fs, s) := s.releaseMany k count
  let y := s.rxs k
  let s := s.setRx k { y with phase := ph, fifo := y.fifo ++ fs, good := y.good + fs.length }
  if y.fault then
    -- after 16 frames the buffer is centred, or takes the group's distance (R390, R394)
    let s := if 16 ≤ (s.rxs k).good then
        let g := s.rxGroupOf k
        let d := match (if g = 0xFF then none else s.groupRef g) with
          | some r => if r < 0x1000 then s.a Attr.sapDistance r 0 else s.a Attr.rxDistance (r - 0x1000) 0
          | none => 512
        let z := s.rxs k
        let back := z.fifo.drop (z.fifo.length - (d / 256).toNat)
        ((s.setRx k { z with fault := false, fifo := back }).set Attr.rxDistance k 0 d).resumeRx k
      else s
    let (out, s) := (List.range n).foldl (fun (r : List (List Int) × State) _ =>
      let (f, t) := r.2.rxThrough k 0 (r.2.rxs k).last
      (r.1 ++ [f], t)) (([] : List (List Int)), s)
    (out, s)
  else
    let s := (s.set Attr.rxDistance k 0 d).rxSlip k
    let d := s.a Attr.rxDistance k 0
    let y := s.rxs k
    let got := y.fifo.take n
    let out := got ++ List.replicate (n - got.length) (got.getLast?.getD y.last)
    let s := s.setRx k { y with fifo := y.fifo.drop n }
    (out, if d < 0 ∨ 1024 < d then s.rxFault k else s)

/-- The input word of a stream's channel (R174). -/
def rxWord (k c : Nat) : Nat := 0x20000000 + k * 65536 + c

/-- The frame a receive stream hands to the engine at the tick of count `count` (R14, R409, R412).
(DEDUCED, entry 38) -/
def State.rxCapture (s : State) (count k : Nat) : State :=
  let n := s.eng.cfg.n
  let st := s.n Attr.rxState k 0
  if st = 0 ∨ st = 5 then s
  else
    let (fs, s) := if s.streamDirect rxAttrs k then
        let x := s.rxs k
        (s.setRx k { x with next := count - n, phase := s.domPhase (s.n Attr.rxDomain k 0) }).releaseMany k n
      else s.bufferedRx k n
    let s := s.legGaps k
    (List.range (s.rxCh k)).foldl (fun s c =>
      { s with tmp := { s.tmp with cap := Store.put s.tmp.cap (rxWord k c) (fs.map fun f => f.getD c 0) } }) s

/-! ### Transmit streams (R404 to R407, R414) -/

/-- Whether the engine's role and state let it send (R407, R427). -/
def State.sends (s : State) : Bool := decide (s.role ≤ 1) && s.engState == 1

/-- The state of a transmit stream from its enable, rates and the engine (R407, R431). -/
def State.txEval (s : State) (k : Nat) : State :=
  let dom := s.n Attr.txDomain k 0
  let stop (st : Nat) (s : State) : State :=
    if s.n Attr.txState k 0 = st then s else (s.setTx k TxSt.reset).set Attr.txState k 0 st
  if s.n Attr.txEnable k 0 ≠ 1 then (List.range 64).foldl (fun s c => s.setHold (.tx k c) none) (stop 0 s)
  else if s.streamMismatch txAttrs k then
    if s.n Attr.txState k 0 = 3 then s else (stop 3 s).log sevWarning Attr.txState k 0 3
  else if ¬ s.sends then stop 2 s
  else if s.n Attr.txState k 0 = 1 ∨ s.n Attr.txState k 0 = 4 then s
  else
    let z := List.replicate (s.n Attr.txChannels k 0) 0
    ((s.setTx k { TxSt.reset with
      last := z, fifo := [z, z], phase := s.domPhase dom, first := s.domAtTick dom + 1 }).set Attr.txState k 0 1).set
      Attr.txDistance k 0 512

/-- Adds frames to be sent from domain count `m` on: a packet starts at a multiple of S (R404).
(DEDUCED, entry 38) -/
def TxSt.push (x : TxSt) (len m : Nat) (fs : List (List Int)) : TxSt :=
  if x.buf = [] then
    let skip := (len - m % len) % len
    { x with buf := fs.drop skip, first := m + skip, last := fs.getLast?.getD x.last }
  else
    let buf := x.buf ++ fs
    let excess := if 4096 < buf.length then len else 0
    { x with buf := buf.drop excess, first := x.first + excess, last := fs.getLast?.getD x.last }

/-- A frame by channels as a list of instants. -/
def instants (n : Nat) (chs : List (List Int)) : List (List Int) := (List.range n).map fun i => chs.map fun c => c.getD i 0

/-- The frames of a stream's out-strips at a tick, through the holds of its channels (R406). -/
def State.txFrames (s : State) (count k : Nat) : List (List Int) × State :=
  let r := (List.range (s.n Attr.txChannels k 0)).foldl (fun (r : List (List Int) × State) c =>
    let (f, t) := r.2.throughHold (.tx k c) (r.2.emitted (r.2.sn Attr.txChSrc k c).toNat)
    (r.1 ++ [s.faded count f], t)) (([] : List (List Int)), s)
  (instants s.eng.cfg.n r.1, r.2)

/-- A fault of a transmit stream's slip buffer (R389, R415): its channels hold what they delivered last. The spec gives transmit
streams no hold time; the model takes 256 samples, the default of the ports and of the receive streams.
(DESIGN CHOICE, entry 67) -/
def State.txFault (s : State) (k : Nat) (under : Bool) : State :=
  let x := s.txs k
  if x.fault then s
  else
    let s := (s.setTx k { x with fault := true, good := 0, fifo := [] }).set Attr.txState k 0 4
    let s := (if under then s.bump Attr.txUnderruns k 0 else s).logAt sevWarning Attr.txUnderruns k 0
    (x.last.mapIdx fun c v => (c, v)).foldl (fun s e => s.startHold (.tx k e.1) e.2 256) s

/-- The frames of a buffered stream at a tick pass to its domain's counts (R415); those of a faulted stream are its hold
(R131). -/
def State.bufferedTx (s : State) (k : Nat) (fs : List (List Int)) : State :=
  let m := s.n Attr.txDomain k 0
  let n := s.eng.cfg.n
  let x := s.txs k
  let ph := s.domPhase m
  let now := s.domAtTick m
  let from_ := x.first + x.buf.length
  let count := Nat.min (4 * n) (now + 1 - from_)
  if x.fault then
    let held := fs.take count ++ List.replicate (count - fs.length) (fs.getLast?.getD x.last)
    let x : TxSt := { x.push (s.packetLen txAttrs k) from_ held with phase := ph, good := x.good + count }
    if 16 ≤ x.good then
      let s := (s.setTx k { x with fault := false, fifo := [x.last, x.last] }).set Attr.txState k 0 1
      (List.range x.last.length).foldl (fun s c => s.resumeOut (.tx k c)) (s.set Attr.txDistance k 0 512)
    else s.setTx k x
  else
    let d := s.a Attr.txDistance k 0 + ((ph : Int) - x.phase) - 256 * n
    let s := (s.setTx k { x with fifo := x.fifo ++ fs, phase := ph }).set Attr.txDistance k 0 d
    let s := match slipOf d with
      | none => s
      | some slow =>
        if s.paired then s.askSlip (if slow then Attr.txSlipsSlow else Attr.txSlipsFast) k slow else s.slipTx k slow
    let x := s.txs k
    let got := x.fifo.take count
    let got := got ++ List.replicate (count - got.length) (List.replicate x.last.length 0)
    let s := s.setTx k (({ x with fifo := x.fifo.drop count } : TxSt).push (s.packetLen txAttrs k) from_ got)
    let d := s.a Attr.txDistance k 0
    if d < 0 then s.txFault k true else if 1024 < d then s.txFault k false else s

/-- A transmit stream at the tick of count `count` (R405): the frame emitted now is that of three blocks before.
(DEDUCED, entry 62) -/
def State.txTick (s : State) (count k : Nat) : State :=
  let was := s.n Attr.txState k 0
  let s := s.txEval k
  let st := s.n Attr.txState k 0
  if st ≠ 1 ∧ st ≠ 4 then s
  else if ¬ s.streamDirect txAttrs k ∧ was ≠ 1 ∧ was ≠ 4 then s
  else
    let (fs, s) := s.txFrames count k
    let n := s.eng.cfg.n
    if s.streamDirect txAttrs k then
      s.setTx k { (s.txs k).push (s.packetLen txAttrs k) (count - 3 * n) fs with phase := s.domPhase (s.n Attr.txDomain k 0) }
    else s.bufferedTx k fs

/-- The bytes of an RTP packet (R404): version 2, sequence number, timestamp, SSRC, then the samples, big-endian. -/
def State.rtpBytes (s : State) (k first : Nat) (fs : List (List Int)) : List Byte :=
  let len := s.packetLen txAttrs k
  let b := s.sampleBytes txAttrs k
  let code (v : Int) : List Byte := if b = 2 then beBytes 2 (toBits 16 (v / 256)) else beBytes 3 (toBits 24 v)
  [byteOf 0x80, byteOf (s.n Attr.txPayloadType k 0)] ++ beBytes 2 (first / len % 65536) ++
    beBytes 4 (first % 2 ^ 32) ++ beBytes 4 (s.n Attr.txSsrc k 0) ++ fs.flatMap fun f => f.flatMap code

/-- RTP_PACKET_SEND (R404, R405, R414): the oldest full packet of a stream leaves, on one or both legs, that of a faulted stream
with what its channels hold (R131).
(DEDUCED, entry 62) -/
def rtpPacketSend (k : Nat) (s : State) : State :=
  let x := s.txs k
  let len := s.packetLen txAttrs k
  if ¬ (s.n Attr.txState k 0 = 1 ∨ s.n Attr.txState k 0 = 4) ∨ x.buf.length < len ∨ ¬ s.sends then s
  else
    let b := s.rtpBytes k x.first (x.buf.take len)
    let s := s.setTx k { x with buf := x.buf.drop len, first := x.first + len }
    let legs := (legPorts (s.n Attr.txPort k 0)).mapIdx fun i p => (i, p)
    let up := legs.filter fun e => s.portUp e.2
    let s := { s with net := { s.net with sentRtp := up.map fun e => (e.2, b) } }
    up.foldl (fun s e => (s.bump Attr.txPackets k e.1).bump Attr.portTxFrames e.2 0) s
/-- RTP_PACKET_SEND (R405). -/
def execRtpPacketSend (k : Nat) (s : State) : Host.Outcome State Fault Refusal := .next (rtpPacketSend k s)

/-! ### Settings (R376, R403, R417, R430, R431) -/

/-- STREAM_ENABLE (R417): a write of a stream's enable, or of what its charge rests on, which only a disabled stream
takes. -/
def writeStream (c : Ctx) (s : State) : Answer :=
  let k := c.q.inst
  let v := c.arg.toNat
  let rx := decide (c.code / 256 = 0x61)
  let x := if rx then rxAttrs else txAttrs
  if c.atOnce then
    let s := s.store c
    ok (if rx then s.rxEval k else s.txEval k)
  else if c.code ≠ x.enable ∧ s.n x.enable k 0 = 1 then refuse rState
  else if c.code = x.domain ∧ rx ∧ s.rxGroupOf k ≠ 0xFF ∧ (s.groupDomains (s.rxGroupOf k) none (some k)).any (· != v) then
    refuse rState
  else if c.code = x.enable ∧ v = 1 ∧ s.n Attr.mdEnable (s.n x.domain k 0) 0 ≠ 1 then refuse rState
  else
    let t := s.store c
    if 1460 < t.payload x k then refuse rRange
    else if c.code = x.enable ∧ ¬ t.netAdmits then refuse rAdmission
    else ok (if rx then t.rxEval k else t.txEval k)
/-- STREAM_ENABLE (R417). -/
def execStreamEnable (q : Req) (s : State) : Host.Outcome State Fault Refusal := .next (serve .streamEnable writeStream q s)

/-! ### Domain steps (R371, R389, R415) -/

/-- The sample count of a domain other than MD0 has jumped: its ports and streams take it as an underrun.
(DEDUCED, entry 37) -/
def State.domainStep (s : State) (m : Nat) : State :=
  if m = 0 then s
  else
    let s := ((List.range 32).filter fun n => s.n Attr.sapDomain n 0 == m).foldl (fun s n => (s.sapEval n).sapFault n 5) s
    let s := ((s.streamsOn rxAttrs).filter fun k => s.n Attr.rxDomain k 0 == m).foldl (fun s k =>
      let s := s.rxEval k
      let st := s.n Attr.rxState k 0
      if st = 0 ∨ st = 5 then s
      else
        let s := s.rxFault k
        let x := s.rxs k
        s.setRx k { x with
          ring := [], got := [], margins := [], next := s.domCount m + 1, phase := s.domPhase m
          fault := x.fault && !s.streamDirect rxAttrs k, missing := if x.live then x.missing + 1 else 0 }) s
    ((s.streamsOn txAttrs).filter fun k => s.n Attr.txDomain k 0 == m).foldl (fun s k =>
      let s := s.txEval k
      if s.n Attr.txState k 0 ≠ 1 then s
      else
        let s := s.txFault k true
        s.setTx k { (s.txs k) with buf := [], first := s.domCount m + 1, phase := s.domPhase m }) s

/-- The domains other than MD0 on a time base that are enabled. -/
def State.domainsOn (s : State) (t : Nat) : List Nat :=
  (List.range 16).filter fun m => m != 0 && s.n Attr.mdEnable m 0 == 1 && s.n Attr.mdTimeBase m 0 == t

/-! ### Frames at the ports (R400, R401) -/

/-- Whether a UDP datagram matches something the port serves: a stream's leg, a Weld lane, PTP, Yugal (R400).
(DEDUCED, entry 41) -/
def State.udpMatches (s : State) (p : Nat) (f : EthFrame) : Bool :=
  let stream := (s.streamsOn rxAttrs).any fun k =>
    ((legPorts (s.n Attr.rxPort k 0)).mapIdx fun i q => (i, q)).any fun e =>
      e.2 == p && s.n Attr.rxDstAddr k e.1 == f.dstAddr && s.n Attr.rxUdpPort k e.1 == f.dstPort &&
        (s.n Attr.rxSrcAddr k e.1 == 0 || s.n Attr.rxSrcAddr k e.1 == f.srcAddr)
  let base := s.n Attr.weldGroupBase 0xFFFF 0
  let lanes := (s.welds 30).map fun e => e.2 / 64
  let weld := decide (2 ≤ p) && s.n Attr.weldWeldId 0xFFFF 0 != 255 && f.dstPort == s.n Attr.weldUdpPort 0xFFFF 0 &&
    lanes.any fun l => base + l == f.dstAddr
  let ptp := s.n Attr.ptpEnable (0x100 + p) 0 == 1 && (f.dstPort == 319 || f.dstPort == 320) &&
    (f.dstAddr == 0xE0000181 || f.dstAddr == s.n Attr.portIpAddr p 0)
  let yugal := s.transportOn (p + 1) && f.dstAddr == s.n Attr.portIpAddr p 0 && f.dstPort == s.n Attr.yugUdpPort 0 0
  stream || weld || ptp || yugal

/-- ETHERNET_FRAME_RECEIVED (R400): counted, then matched or discarded; ARP for the port's address and an ICMP echo to it
are answered. What a matched frame carries is a command of its own. (DEDUCED, entry 41) -/
def ethernetFrameReceived (p : Nat) (f : EthFrame) (s : State) : State :=
  if 4 ≤ p ∨ ¬ s.portUp p then s
  else if ¬ f.fcs then s.bump Attr.portRxErrors p 0
  else
    let s := s.bump Attr.portRxFrames p 0
    let mine := f.dstAddr == s.n Attr.portIpAddr p 0
    if f.tagged ∨ 1518 < f.len ∨ f.fragment then s.bump Attr.portRxDiscards p 0
    else if f.etherType = 0x0806 then (if mine then s.bump Attr.portTxFrames p 0 else s)
    else if f.etherType ≠ 0x0800 then s.bump Attr.portRxDiscards p 0
    else if f.proto = 1 ∧ mine then s.bump Attr.portTxFrames p 0
    else if f.proto = 2 then s
    else if f.proto = 17 ∧ s.udpMatches p f then s
    else s.bump Attr.portRxDiscards p 0
/-- ETHERNET_FRAME_RECEIVED (R400). -/
def execEthernetFrameReceived (p : Nat) (f : EthFrame) (s : State) : Host.Outcome State Fault Refusal :=
  .next (ethernetFrameReceived p f s)

end Sys2Proof.Machine
end

