-- ==== Sys2Proof/Machine/TimeBase.lean ====
section
/-! DEFINITION. The time bases, the PTP instances and the domains (R363 to R378), and the links of the ports (R401). -/

namespace Sys2Proof.Machine

/-! ### Counters (R363 to R365) -/

/-- A time base. -/
def State.tbSt (s : State) (t : Nat) : TbSt := Store.get TbSt.reset s.tbs.tb t
/-- Replaces a time base. -/
def State.setTb (s : State) (t : Nat) (x : TbSt) : State :=
  { s with tbs := { s.tbs with tb := Store.set TbSt.reset s.tbs.tb t x } }

/-- State of a time base: 0 OFF, 1 FREE, 2 WAIT_STEP, 3 SYNC, 4 HOLD (R366). -/
def State.tbState (s : State) (t : Nat) : Nat := s.n Attr.tbState t 0

/-- Sets the running time (R364). -/
def State.setTime (s : State) (t v : Nat) : State :=
  s.setTb t { s.tbSt t with hi := v / 4294967296 % 4294967296, lastLo := v % 4294967296 }

/-- One read of a counter (R364). -/
def State.pollOne (s : State) (t lo : Nat) : State :=
  if s.tbState t = 0 then s
  else
    let x := s.tbSt t
    let lo := lo % 4294967296
    s.setTb t { x with hi := (if lo < x.lastLo then x.hi + 1 else x.hi) % 4294967296, lastLo := lo }

/-- The supervisor reads every running counter (R364). -/
def State.pollCounters (s : State) (values : List Nat) : State :=
  ((List.range 8).zip values).foldl (fun s e => s.pollOne e.1 e.2) s

/-- COUNTER_POLL (R364): the words the eight counters read. -/
def counterPoll (values : List Nat) (s : State) : State := s.pollCounters values
/-- COUNTER_POLL (R364). -/
def execCounterPoll (values : List Nat) (s : State) : Host.Outcome State Fault Refusal := .next (counterPoll values s)

/-- The TIME64 of a latched counter word (R365, R373): the one nearest the running time. -/
def State.extend (s : State) (t lo : Nat) : Int :=
  let now := (s.tbNow t : Int)
  now + signed 32 (toBits 32 ((lo : Int) - now))

/-! ### Rate (R363, R368, R377) -/

/-- The rate code nearest max_rate × 10 ^ -8 × 2 ^ 44 (R377). -/
def State.rateLimit (s : State) (t : Nat) : Int :=
  ((2 * (s.n Attr.tbMaxRate t 0 * 2 ^ 44) + 100000000) / 200000000 : Nat)

/-- Sets or clears a bit of a time base's status (R377). -/
def State.tbBit (s : State) (t b : Nat) (v : Bool) : State :=
  let w := s.n Attr.tbStatus t 0
  if bit w b = v then s else s.set Attr.tbStatus t 0 ((if v then w + 2 ^ b else w - 2 ^ b : Nat) : Int)

/-- Sets ρ; status bit 2 says whether it sits at a limit (R368). -/
def State.setTbRate (s : State) (t : Nat) (v : Int) : State :=
  let l := s.rateLimit t
  let v := clampInt (-l) l v
  (s.set Attr.tbRate t 0 v).tbBit t 2 (decide (v.natAbs = l.natAbs))

/-- One run of the servo (R368): `dt` is the time since the last source event in ns. (DEDUCED, entry 40) -/
def State.servo (s : State) (t : Nat) (theta : Int) (dt : Int) : State :=
  let x := s.tbSt t
  let l := s.rateLimit t * fxOne
  let w := 2 * fxPi * (s.n Attr.tbServoBw t 0 : Int) / 1000
  let i := clampInt (-l) l (x.integ - fxMul w w * theta * dt * ((2 ^ 44 : Nat) : Int) / ((10 ^ 18 : Nat) : Int))
  let r := clampInt (-l) l (i - 2 * w * theta * ((2 ^ 44 : Nat) : Int) / ((10 ^ 9 : Nat) : Int))
  (s.setTb t { x with integ := i }).setTbRate t (fxRound r)

/-! ### States (R366, R367, R370) -/

/-- Whether a time base feeds MD0 while the engine is in RUN (R366, R369). -/
def State.tbFeeds (s : State) (t : Nat) : Bool := s.md0Tb == t && s.engState == 1

/-- Records a step (R367, R369): counted, logged under `code`, journalled with the old and new times; the domains on
the time base jump (R371). (DEDUCED, entry 36) (DEDUCED, entry 40) -/
def State.recordStep (s : State) (t : Nat) (old : Nat) (code : Nat) : State :=
  let s := (s.bump Attr.tbSteps t 0).log sevNotice code t 0 (s.tbNow t)
  let s := s.commit [⟨5, leBytes 4 (address Attr.tbNow t) ++ leBytes 8 old ++ leBytes 8 (s.tbNow t)⟩]
  (s.domainsOn t).foldl State.domainStep s

/-- A step by −θ, into SYNC (R367). (DEDUCED, entry 40) -/
def State.stepTb (s : State) (t : Nat) (theta : Int) (code : Nat) : State :=
  let old := s.tbNow t
  let s := s.setTime t ((old : Int) - theta).toNat
  let s := s.setTb t { s.tbSt t with restep := false }
  let s := ((s.set Attr.tbState t 0 3).set Attr.tbOffset t 0 0).tbBit t 1 false
  let s := s.set Attr.tbMasterId t 0 (s.a Attr.ptpGrandmaster (0x100 + (s.n Attr.tbSource t 0 - 1)) 0)
  s.recordStep t old code

/-- The source of a time base is no longer ready (R366, R370). -/
def State.sourceLost (s : State) (t : Nat) : State :=
  let s := (s.tbBit t 0 false).tbBit t 1 false
  if s.tbState t = 3 then
    let s := ((s.set Attr.tbState t 0 4).setTbRate t (fxRound (s.tbSt t).integ)).bump Attr.tbHolds t 0
    s.logAt sevWarning Attr.tbState t 0
  else if s.tbState t = 2 then s.set Attr.tbState t 0 1
  else s

/-- The engine leaves RUN: a time base that waits to step does so at once (R366). -/
def State.stepWaiting (s : State) : State :=
  (List.range 8).foldl (fun s t =>
    if s.tbState t = 2 then s.stepTb t (s.a Attr.tbOffset t 0) Attr.tbState else s) s

/-- The time bases that follow a PTP instance. -/
def State.followers (s : State) (pp : Nat) : List Nat :=
  (List.range 8).filter fun t => s.n Attr.tbSource t 0 == pp + 1

/-! ### PTP instances (R372, R373) -/

/-- A PTP instance. -/
def State.ptp (s : State) (pp : Nat) : PtpSt := Store.get PtpSt.reset s.tbs.ptp pp
/-- Replaces a PTP instance. -/
def State.setPtp (s : State) (pp : Nat) (x : PtpSt) : State :=
  { s with tbs := { s.tbs with ptp := Store.set PtpSt.reset s.tbs.ptp pp x } }

/-- Whether an instance runs (R377). -/
def State.ptpOn (s : State) (pp : Nat) : Bool := decide (pp < 4) && s.n Attr.ptpEnable (0x100 + pp) 0 == 1 && s.portUp pp

/-- An instance leaves SLAVE for a port state: its time bases lose their source, its reference is checked again. -/
def State.leaveSlave (s : State) (pp st : Nat) : State :=
  let s := s.set Attr.ptpPortState (0x100 + pp) 0 st
  let s := s.setPtp pp { s.ptp pp with slaveSince := none, delay := none, reqOpen := false }
  let s := (s.followers pp).foldl State.sourceLost s
  (s.setRef (4 + pp) { s.ref (4 + pp) with window := [] }).recheck (4 + pp)

/-- An instance forgets its masters, into a port state. (PRESUMED, entry 39) -/
def State.dropMasters (s : State) (pp st : Nat) : State :=
  let s := s.leaveSlave pp st
  s.setPtp pp { s.ptp pp with masters := [], follows := none, announces := 0 }

/-- The port or the enable of an instance is looked at again: it listens while it runs (R372, R377, R401).
(PRESUMED, entry 39) -/
def State.ptpEval (s : State) (pp : Nat) : State :=
  let st := s.n Attr.ptpPortState (0x100 + pp) 0
  if s.ptpOn pp then (if st = 1 then s.set Attr.ptpPortState (0x100 + pp) 0 4 else s)
  else if st = 1 then s else s.dropMasters pp 1

/-- A profile write loads the profile's domain and Announce timeout (R372). -/
def State.loadProfile (s : State) (pp : Nat) : State :=
  let p := s.n Attr.ptpProfile (0x100 + pp) 0
  (s.set Attr.ptpDomain (0x100 + pp) 0 (if p = 0 then 127 else 0)).set Attr.ptpAnnounceTimeout (0x100 + pp) 0 3

/-- The order of masters (R372, the default algorithm of IEEE 1588): the lower list is the better master.
(PRESUMED, entry 39) -/
def announceKey (a : Announce) : List Nat :=
  [a.priority1, a.clockClass, a.accuracy, a.variance, a.priority2, a.grandmaster, a.steps, a.sender]

/-- Whether one list of numbers comes before another. (PRESUMED, entry 39) -/
def keyLt : List Nat → List Nat → Bool
  | x :: xs, y :: ys => decide (x < y) || (x == y && keyLt xs ys)
  | _, _ => false

/-- The best of the masters heard. (PRESUMED, entry 39) -/
def bestMaster (l : List Announce) : Option Announce :=
  l.foldl (fun b a =>
    match b with
    | none => some a
    | some x => if keyLt (announceKey a) (announceKey x) then some a else b) none

/-- The masters an instance knows once it has heard an Announce. -/
def State.heardMasters (s : State) (pp : Nat) (a : Announce) : List Announce :=
  a :: (s.ptp pp).masters.filter fun b => b.sender != a.sender

/-- The master an instance follows names another grandmaster: its SLAVE time starts again and its time bases lose their source
(R366). -/
def State.newGrandmaster (s : State) (pp : Nat) : State :=
  let s := s.setPtp pp { s.ptp pp with slaveSince := (s.ptp pp).slaveSince.map fun _ => s.hea.now }
  (s.followers pp).foldl State.sourceLost s

/-- ANNOUNCE_RECEIVED (R366, R372): master selection, clockClass and accuracy. (PRESUMED, entry 39) -/
def announceReceived (pp : Nat) (a : Announce) (s : State) : State :=
  let i := 0x100 + pp
  if ¬ s.ptpOn pp then s
  else if a.logInterval < -3 ∨ 3 < a.logInterval then s.bump Attr.ptpBadMessages i 0
  else if 255 ≤ a.steps then s
  else
    let x := s.ptp pp
    let masters := s.heardMasters pp a
    match bestMaster masters with
    | none => s
    | some m =>
      let same := x.follows == some m.sender
      let sameGm := same && s.n Attr.ptpGrandmaster i 0 == m.grandmaster
      let mine := m.sender == a.sender
      let s := s.setPtp pp { x with
        masters := masters, follows := some m.sender
        announces := if sameGm then x.announces + b2n mine else b2n mine }
      let s := s.set Attr.ptpGrandmaster i 0 m.grandmaster
      let s := (s.set Attr.refPtpClass (4 + pp) 0 m.clockClass).set Attr.refPtpAccuracy (4 + pp) 0 m.accuracy
      let s :=
        if ¬ same then s.leaveSlave pp 8
        else if sameGm then s
        else s.newGrandmaster pp
      (s.recheck (4 + pp)).chooseRef
/-- ANNOUNCE_RECEIVED (R372). -/
def execAnnounceReceived (pp : Nat) (a : Announce) (s : State) : Host.Outcome State Fault Refusal :=
  .next (announceReceived pp a s)

/-- ANNOUNCE_RECEIPT_TIMEOUT (R366): the instance listens again. (PRESUMED, entry 39) -/
def announceReceiptTimeout (pp : Nat) (s : State) : State :=
  if ¬ s.ptpOn pp ∨ (s.ptp pp).follows.isNone then s else s.dropMasters pp 4
/-- ANNOUNCE_RECEIPT_TIMEOUT (R366). -/
def execAnnounceReceiptTimeout (pp : Nat) (s : State) : Host.Outcome State Fault Refusal :=
  .next (announceReceiptTimeout pp s)

/-- DELAY_REQ (R372): the instance sends a Delay_Req to the master it follows. -/
def delayReq (pp : Nat) (s : State) : State :=
  let x := s.ptp pp
  if ¬ s.ptpOn pp ∨ x.follows.isNone then s
  else (s.setPtp pp { x with reqSeq := (x.reqSeq + 1) % 65536, reqOpen := true }).bump Attr.portTxFrames pp 0
/-- DELAY_REQ (R372). -/
def execDelayReq (pp : Nat) (s : State) : Host.Outcome State Fault Refusal := .next (delayReq pp s)

/-- Whether the source of a time base has been in SLAVE with one grandmaster for 2 s and has sent 4 Announces (R366). -/
def State.sourceIsReady (s : State) (t : Nat) : Bool :=
  let src := s.n Attr.tbSource t 0
  let x := s.ptp (src - 1)
  src != 0 && s.inSlave (src - 1) && x.slaveSince.any (fun u => decide (u + 2000 ≤ s.hea.now)) && decide (4 ≤ x.announces)

/-- SOURCE_READY (R366): status bit 0 is set; a free time base that feeds MD0 in RUN waits to step, another steps at its
next source event. -/
def sourceReady (t : Nat) (s : State) : State :=
  if 8 ≤ t ∨ s.tbState t = 0 ∨ ¬ s.sourceIsReady t then s
  else
    let s := s.tbBit t 0 true
    if s.tbState t = 1 ∧ s.tbFeeds t then (s.set Attr.tbState t 0 2).logAt sevNotice Attr.tbState t 0 else s
/-- SOURCE_READY (R366). -/
def execSourceReady (t : Nat) (s : State) : Host.Outcome State Fault Refusal := .next (sourceReady t s)

/-- A source event noted: its time, and the offset of the time base from it (R367). -/
def State.eventIn (s : State) (t : Nat) (master : Int) (lo : Nat) (time : Nat) : State :=
  (s.setTb t { s.tbSt t with lastEvent := some time }).set Attr.tbOffset t 0 (s.extend t lo - master)

/-- A source event at a time base (R366 to R368): `master` is the corrected master time, `lo` the counter latched.
(DEDUCED, entry 40) -/
def State.sourceEvent (s : State) (t : Nat) (master : Int) (lo : Nat) (time : Nat) : State :=
  if s.tbState t = 0 then s
  else
    let x := s.tbSt t
    let theta := s.extend t lo - master
    let dt : Int := match x.lastEvent with
      | some u => (time : Int) - u
      | none => 0
    let s := s.eventIn t master lo time
    let ready := bit (s.n Attr.tbStatus t 0) 0
    if x.restep then s.stepTb t theta Attr.tbRestep
    else match s.tbState t with
      | 1 => if ready ∧ ¬ s.tbFeeds t then s.stepTb t theta Attr.tbState
             else if ready then (s.set Attr.tbState t 0 2).logAt sevNotice Attr.tbState t 0 else s
      | 3 => s.servo t theta dt
      | 4 =>
        if ¬ ready then s
        else if theta.natAbs ≤ s.n Attr.tbCaptureLimit t 0 then
          let s := (s.set Attr.tbState t 0 3).tbBit t 1 false
          let s := s.set Attr.tbMasterId t 0 (s.a Attr.ptpGrandmaster (0x100 + (s.n Attr.tbSource t 0 - 1)) 0)
          s.servo t theta dt
        else s.tbBit t 1 true
      | _ => s

/-- A tenth of the Sync rate of a log interval, in units of 0.01 Hz. -/
def syncRate (l : Int) : Nat := if l < 0 then 10 * 2 ^ l.natAbs else 10 / 2 ^ l.natAbs

/-- A completed measurement of the mean path delay is taken, where one was asked for (R372). -/
def State.delayMeasured (s : State) (pp : Nat) (delay : Option Int) : State :=
  match delay with
  | some d =>
    if (s.ptp pp).reqOpen then
      (s.setPtp pp { s.ptp pp with delay := some d, reqOpen := false }).set Attr.ptpMeanPathDelay (0x100 + pp) 0 (clampS32 d)
    else s
  | none => s

/-- An instance that knows its path delay goes from UNCALIBRATED to SLAVE (R366). -/
def State.slaveFrom (s : State) (pp : Nat) : State :=
  if (s.ptp pp).delay.isSome ∧ s.n Attr.ptpPortState (0x100 + pp) 0 = 8 then
    (s.set Attr.ptpPortState (0x100 + pp) 0 9).setPtp pp { s.ptp pp with slaveSince := some s.hea.now }
  else s

/-- SYNC_RECEIVED (R335, R366, R372, R373): a Sync with master time `t1`, timestamped at Hearth's output time and the
eight latched counters; `delay` is the mean path delay where an outstanding measurement has completed. -/
def syncReceived (pp : Nat) (t1 hearthTime : Nat) (latched : List Nat) (delay : Option Int) (logInt : Int)
    (s : State) : State :=
  let i := 0x100 + pp
  if ¬ s.ptpOn pp then s
  else if logInt < -7 ∨ 1 < logInt then s.bump Attr.ptpBadMessages i 0
  else if (s.ptp pp).follows.isNone then s
  else
    let s := ((s.set Attr.ptpSyncInterval i 0 logInt).delayMeasured pp delay).slaveFrom pp
    let known := (s.ptp pp).delay
    let master := (t1 : Int) + known.getD 0 + s.a Attr.ptpAsymmetry i 0
    let s := s.phaseIn (4 + pp) 0 (syncRate logInt) (((hearthTime : Int) - master) * 20) hearthTime
    if known.isNone then s
    else (s.followers pp).foldl (fun s t => s.sourceEvent t master (latched.getD t 0) hearthTime) s
/-- SYNC_RECEIVED (R372). -/
def execSyncReceived (pp : Nat) (t1 hearthTime : Nat) (latched : List Nat) (delay : Option Int) (logInt : Int)
    (s : State) : Host.Outcome State Fault Refusal :=
  .next (syncReceived pp t1 hearthTime latched delay logInt s)

/-! ### Settings (R366, R369, R376 to R378) -/

/-- TIME_BASE_ENABLE (R366). -/
def writeTimeBaseEnable (c : Ctx) (s : State) : Answer :=
  let t := c.q.inst
  let v := c.arg
  let named := (List.range 16).any fun m => s.n Attr.mdEnable m 0 == 1 && s.n Attr.mdTimeBase m 0 == t
  if v = 0 ∧ named ∧ ¬ c.atOnce then refuse rState
  else if s.a Attr.tbEnable t 0 = v then ok s
  else if v = 1 then
    ok ((((s.store c).setTb t TbSt.reset).set Attr.tbState t 0 1).setTbRate t 0)
  else ok (((((s.store c).setTb t TbSt.reset).set Attr.tbState t 0 0).set Attr.tbOffset t 0 0).set Attr.tbStatus t 0 0)
/-- TIME_BASE_ENABLE (R366). -/
def execTimeBaseEnable (q : Req) (s : State) : Host.Outcome State Fault Refusal :=
  .next (serve .tbEnable writeTimeBaseEnable q s)

/-- SOURCE (R366): a synchronised time base holds. -/
def writeSource (c : Ctx) (s : State) : Answer :=
  let t := c.q.inst
  let s := s.sourceLost t
  ok ((s.setTb t { s.tbSt t with lastEvent := none, restep := false }).store c)
/-- SOURCE (R366). -/
def execSource (q : Req) (s : State) : Host.Outcome State Fault Refusal := .next (serve .tbSource writeSource q s)

/-- RESTEP (R369): to the source at its next event, or to the argument at once. (DEDUCED, entry 40) -/
def restep (c : Ctx) (s : State) : Answer :=
  let t := c.q.inst
  let v := c.arg.toNat
  let src := s.n Attr.tbSource t 0
  if s.tbFeeds t ∨ s.tbState t = 0 ∨ s.tbState t = 2 then refuse rState
  else if v = 0 then
    if src = 0 ∨ ¬ s.inSlave (src - 1) then refuse rState
    else ok (s.setTb t { s.tbSt t with restep := true })
  else if src ≠ 0 then refuse rState
  else
    let old := s.tbNow t
    ok (((s.setTime t v).set Attr.tbState t 0 1).recordStep t old Attr.tbRestep)
/-- RESTEP (R369). -/
def execRestep (q : Req) (s : State) : Host.Outcome State Fault Refusal := .next (serve .restep restep q s)

/-- RATE (R377). -/
def writeRate (c : Ctx) (s : State) : Answer :=
  let t := c.q.inst
  let v := c.arg
  if s.rateLimit t < (v.natAbs : Int) then refuse rRange
  else if s.n Attr.tbSource t 0 ≠ 0 ∧ ¬ c.atOnce then refuse rState
  else ok (s.setTbRate t v)
/-- RATE (R377). -/
def execRate (q : Req) (s : State) : Host.Outcome State Fault Refusal := .next (serve .rate writeRate q s)

/-- Every port and stream is looked at again, as MD0's time base or rate has changed (R384, R415). -/
def State.evalUsers (s : State) : State :=
  let s := (List.range 32).foldl State.sapEval s
  let s := (s.streamsOn rxAttrs).foldl State.rxEval s
  (s.streamsOn txAttrs).foldl State.txEval s

/-- TIME_BASE (R371, R376, R378): a write of a domain's time base or rate moves its sample count. -/
def writeTimeBase (c : Ctx) (s : State) : Answer :=
  let m := c.q.inst
  if m = 0 ∧ c.code = Attr.mdRate then refuse rAccess
  else if m = 0 ∧ s.engState ≠ 0 ∧ ¬ c.atOnce then refuse rState
  else
    let same := s.a c.code m 0 == c.arg
    let s := s.store c
    ok (if same then s else if m = 0 then s.evalUsers else s.domainStep m)
/-- TIME_BASE (R376). -/
def execTimeBase (q : Req) (s : State) : Host.Outcome State Fault Refusal := .next (serve .timeBase writeTimeBase q s)

/-! ### Links (R401) -/

/-- LINK_CHANGE (R401): the link of a port goes up or down; its PTP instance runs while it is up. -/
def linkChange (p : Nat) (up : Bool) (s : State) : State :=
  if 4 ≤ p then s else (s.set Attr.portLink p 0 (b2i up)).ptpEval p
/-- LINK_CHANGE (R401). -/
def execLinkChange (p : Nat) (up : Bool) (s : State) : Host.Outcome State Fault Refusal := .next (linkChange p up s)

end Sys2Proof.Machine
end

