-- ==== Sys2Proof/Machine/Engine.lean ====
section
/-! DEFINITION. The engine states (R33 to R36): entering and leaving RUN and HALT, the go action, the end of the entry and
exit fades (R133), and the deadline miss (R31). -/

namespace Sys2Proof.Machine

/-! ### References beyond the ranges (R36) -/

/-- A tap word whose index lies beyond the counts (R36). -/
def tapBeyond (ins dst w : Nat) : Bool :=
  match w / 2 ^ 28 with
  | 1 | 2 | 3 => decide (ins ≤ w % 65536)
  | 4 | 5 => decide (dst ≤ w % 65536)
  | _ => false

/-- An attribute element to be cleared: class and attribute, instance, element, its "none" value. -/
structure Cleared where
  code : Nat
  inst : Nat
  elem : Nat
  value : Int
deriving DecidableEq, Repr

/-- What R36 does to an element of the dictionary that holds `v`, for `src` slots, `dst` destinations and `ins`
in-strips. (DEDUCED, entry 49) -/
def clearRef (src dst ins code inst elem : Nat) (v : Int) : List Cleared :=
  let w := v.toNat
  let to_ (x : Int) : List Cleared := [⟨code, inst, elem, x⟩]
  if inst = 0xFFFF then []
  else if code = Attr.plcInStripMap then (if ins ≤ 32 * elem then to_ 0 else [])
  else if code = Attr.plcOutStripMap then (if dst ≤ 32 * elem then to_ 0 else [])
  else if code = Attr.slotOccupant then
    let k := w / 2 ^ 28
    let i := w % 2 ^ 28
    if (k = 1 ∧ ins ≤ i) ∨ (k = 2 ∧ dst ≤ i) ∨ src ≤ inst then
      to_ 0 ++ (if k = 1 ∧ i < ins then [⟨Attr.insSource, i, 0, 0xFFFF⟩] else [])
    else []
  else if code = Attr.sapOutSrc ∨ code = Attr.txChSrc then (if w ≠ 0xFFFF ∧ dst ≤ w then to_ 0xFFFF else [])
  else if code = Attr.modInSrc then (if w / 2 ^ 28 = 1 ∧ dst ≤ w % 2 ^ 16 then to_ 0 else [])
  else if code = Attr.insCompKey ∨ code = Attr.outsCompKey then (if ins ≤ w % 65536 then to_ 0 else [])
  else if code = Attr.loudChannels ∨ code = Attr.silTap then
    (if tapBeyond ins dst w then to_ 0 else [])
  else if code = Attr.weldBinding ∨ code = Attr.weldContributors then (if dst ≤ inst then to_ 0 else [])
  else []

/-- The references that R36 clears. -/
def State.beyond (s : State) : List Cleared :=
  s.attrs.flatMap fun e => clearRef s.S s.D s.ins (keyCode e.1) (keyInst e.1) (keyElem e.1) e.2

/-- Clears the references beyond the ranges (R36): each is journalled as a write, with one WARNING for each class.
(DEDUCED, entry 49) -/
def State.clearRefs (s : State) : State :=
  let l := s.beyond
  let s := l.foldl (fun s c => (s.set c.code c.inst c.elem c.value).commitAttr c.code c.inst c.elem) s
  (l.foldl (fun (a : List Nat × State) c =>
    let k := c.code / 256
    if a.1.contains k then a else (k :: a.1, a.2.logAt sevWarning c.code c.inst c.elem)) ([], s)).2

/-- Delays above the limit of the new rate become the limit (R142). (DEDUCED, entry 49) -/
def State.clampDelays (s : State) : State :=
  let most : Int := ((2 * s.fs : Nat) : Int)
  [Attr.insDelay, Attr.outsDelay].foldl (fun s code =>
    ((s.listed code).filter fun e => decide (most < e.2.2)).foldl (fun s e =>
      (s.set code e.1 0 most).logAt sevWarning code e.1 0) s) s

/-- Both planes keep the nodes inside the shape (R53). -/
def State.repack (s : State) : State :=
  { s with cru := { s.cru with
      planeA := insideShape s.cru.planeA s.S s.D, planeB := insideShape s.cru.planeB s.S s.D } }

/-- The configuration that the attributes name. -/
def State.written (s : State) : InForce := ⟨s.fam, s.n Attr.engRateBase 0 0, s.blk, s.shape⟩

/-- Delay lines of another size than the rate asks for are freed, to be placed anew (R185). -/
def State.dropLines (s : State) : State :=
  let old (r : Region) : Bool := match r.owner with
    | .inLine _ | .outLine _ => r.size != lineBytes s.fs
    | _ => false
  let gone := s.plc.regions.filter old
  { s with plc := { s.plc with
      regions := s.plc.regions.filter fun r => !old r
      zeroing := s.plc.zeroing ++ gone.map fun (r : Region) => (r.base, r.size) } }

/-- Admits the whole topology, its streams among it (R2, R400), and packs it afresh (R33, R186, R190), or says why not. -/
def State.admitAll (s : State) : Except Nat State :=
  let t := s.topo
  if ¬ t.totals ∨ ¬ s.netAdmits then .error rAdmission
  else match t.reference, t.fresh s.retired with
  | some ref, some p =>
    if ¬ t.chain ref none ∨ ¬ t.chain p none then .error rAdmission
    else (match s.dropLines.freshRegions with
      | .ok (u, regions) => .ok ((u.moveAll p regions).freeRegions).assignChannels
      | .error e => .error e)
  | _, _ => .error rAdmission

/-! ### Entering RUN (R33, R35, R190) -/

/-- What a change of family, rate base, N or shape clears (R35): delay lines, filter and dynamics state, meter
ballistics, module data regions on the cores, in the banks and in deep memory, and the latches of the modules' lines; code and parameters stay.
(DEDUCED, entry 49) -/
def State.clearAudio (s : State) : State :=
  let quiet : Nat → Bool := fun k => decide (keyInst k = 0xFFFF) ||
    !(keyCode k ∈ [Attr.mtrPeak, Attr.mtrRms, Attr.mtrTruePeak, Attr.loudMomentary, Attr.loudShortTerm])
  let s := s.plc.regions.foldl (fun (s : State) (r : Region) => s.zeroRun r.base r.size) s
  let s := { s with
    attrs := Store.keep quiet s.attrs
    tmp := { s.tmp with inCtx := [], outCtx := [] }
    mtr := { s.mtr with
      meters := [], peaksDone := []
      loud := s.mtr.loud.map fun (e : Nat × LoudCtx) => (e.1, { e.2 with powers := [], running := [] }) }
    anv := { s.anv with cores := s.anv.cores.map fun (e : Nat × CoreSt) => (e.1, { e.2 with latch := [] }) } }
  s.modules.foldl (fun s e =>
    let c := s.n Attr.plcModuleCore 0 e.1
    if c = 255 then s else s.putSegs c e.1 e.2 (s.constOver e.1 e.2.image e.2.image.start)) s

/-- Nothing of the frames of an earlier run is in work, and the modules have released nothing. -/
def State.clearFrames (s : State) : State :=
  { s with
    tmp := { Tmp.reset with
      inCtx := s.tmp.inCtx.map fun (e : Nat × StripCtx) => (e.1, { e.2 with watch := [], quench := 0, lastOut := 0 })
      outCtx := s.tmp.outCtx.map fun (e : Nat × StripCtx) => (e.1, { e.2 with watch := [], quench := 0, lastOut := 0 }) }
    cru := { s.cru with sums := [] }
    net := { s.net with seen := [], parts := [], own := [], welded := [], last := [], due := none }
    anv := { s.anv with mods := s.anv.mods.map fun (e : Nat × Option Mod) =>
      (e.1, e.2.map fun m => { m with frame := [], released := false, resume := [], resumePos := none }) } }

/-- The tagging generators and record numbers start anew (R560, R562). -/
def State.seedTags (s : State) : State :=
  let seed (c : Nat) : Nat :=
    let w := s.n Attr.cntTagSeed 0x100 0 ^^^ (c * 0x9E3779B9 % 2 ^ 32)
    if w = 0 then 1 else w
  { s with hlt := { s.hlt with lfsr := (List.range 48).map (fun c => (c, seed c)), tagSeq := 1, tagEnd := [] } }

/-- Every silence detector restarts its run and reads signal present (R169). -/
def State.restartSilence (s : State) : State :=
  let l := (s.listed Attr.silState).filter fun e => e.2.2 = 1
  l.foldl (fun s e => s.setSilent e.1 false) { s with mtr := { s.mtr with sil := [], silFound := [] } }

/-- A timed change's due sample at the rate in force (R121), from its time as it was converted at acceptance (R122).
(DEDUCED, entry 49) -/
def State.redue (s : State) (t : Timed) : Timed := { t with due := firstAt s.eng.cfg.fs t.at_ }

/-- The tick starts (R33): outputs rise from silence from its first sample on. -/
def State.startTick (s : State) : State :=
  let now := countAt s.fs s.mdTime
  let s := { s with eng := { s.eng with
    running := true, offset := false, cfg := s.written, count := now / s.blk * s.blk, frames := 0, fade := 1,
    fadeAt := 0, missed := [] } }
  let s := { s with
    bel := { s.bel with timed := s.bel.timed.map s.redue }
    snap := s.attrs
    snapPrev := s.attrs }
  let s := ((s.set Attr.engState 0 0 1).set Attr.engBlockCount 0 0 0).clearFrames
  ((s.seedTags.restartSilence.recentrePorts).evalUsers).silPins

/-- Places the work for an entry into RUN or HALT from CONFIG (R33 to R36, R53, R142). -/
def State.enterFresh (s : State) : Except Nat State :=
  let changed := s.written ≠ s.eng.cfg
  let s := ((s.repack).clearRefs).clampDelays
  match s.admitAll with
  | .error e => .error e
  | .ok t =>
    let t := { t with eng := { t.eng with cfg := t.written } }
    .ok (if changed then t.clearAudio else t)

/-! ### Leaving RUN (R33, R78, R114) -/

/-- Ramps in flight and queued jump to their targets, and pending Class Z changes apply (R33, R114). -/
def State.jump (s : State) : State :=
  let ramps := s.bel.ramps.map (·.param)
  let queued := s.bel.queue.flatMap (·.ramps)
  let zs := s.bel.zs
  let s := { s with bel := { s.bel with ramps := [], queue := [], zs := [] } }
  let s := ramps.foldl (fun s p => s.commitParam p (s.held p) false) s
  let s := queued.foldl (fun s r => s.commitParam (s.resolve r.param s.eng.count) r.target false) s
  zs.foldl (fun s z => match z.param with
    | .preamp n => s.releasePreamp n z.new
    | _ => s) s

/-- A strike that runs completes and a pending one is withdrawn (R78). -/
def State.settleStrike (s : State) : State :=
  let s := s.settlePast fun _ => true
  match s.cru.strike with
  | some k => if s.n Attr.cruStrikeState 0 0 = 2 then s.endStrike k.ticket else s.withdrawStrike
  | none => s

/-- The exit fade starts with the next frame emitted, and a strike is settled at once (R33, R78, R133); ramps and Class Z
changes go on until the tick stops. (DEDUCED, entry 48) -/
def State.startExit (s : State) (target : Nat) (ticket : Option Nat) : State :=
  let s := s.settleStrike
  { s with eng := { s.eng with
      fade := 2, fadeAt := s.eng.count + s.eng.cfg.n, target := target, goTicket := ticket } }

/-- A core when the tick stops: its posted writes complete, its module's block is abandoned, and the const words that wait for
an entry are written as a write made from now on is, at once (R114, R243). (DESIGN CHOICE, entry 18) -/
def State.idleCore (s : State) (c : Nat) : State :=
  let s := s.drain c
  let q := (s.core c).constQ
  let s := s.setCore c { s.core c with constQ := [] }
  let s := q.foldl (fun s w => match s.mod? w.m with
    | some md => s.setCore c ((s.aenv c w.m md).storeWord (s.core c) w.inY w.addr w.word)
    | none => s) s
  s.setCore c { s.core c with run := none, todo := [], stall := none, draining := false }

/-- The tick has stopped (R33, R34, R114, R190, R366, R395): plans and retirements complete by direct copy. -/
def State.stopTick (s : State) (target : Nat) : State :=
  let s := s.settleStrike.jump
  let s := { s with eng := { s.eng with running := false, fade := 0, missed := [] }, bel := { s.bel with stored := [] } }
  let s := (s.anv.cores.map (·.1)).foldl State.idleCore s
  let s := { s with tng := { s.tng with
    chans := s.tng.chans.map fun (e : Nat × TChan) => (e.1, { e.2 with paused := false }) } }
  let s := s.finishPlans State.leaveModules
  let s := { s with plc := { s.plc with
    retiring := s.plc.retiring.map fun (r : Retire) => { r with copied := r.copied || r.spare.isSome } } }
  let s := s.endRetirements
  let s := s.set Attr.engState 0 0 target
  let s := (s.idlePorts.stepWaiting).silPins
  (s.streamsOn txAttrs).foldl State.txEval s

/-! ### GO (R33) -/

/-- The record of a go that reached its target (R508). -/
def goRec (target : Nat) : Rec := actionRec Attr.engGo 0 [byteOf target]

/-- An answer whose ticket completes at once. (DEDUCED, entry 48) -/
def atOnceTicket (s : State) (result : Nat) : Answer :=
  match s.openTicket (address Attr.engGo 0) 0 with
  | none => refuse rBusy
  | some (k, t) => okTicket (t.completeTicket k result) k

/-- An answer whose ticket completes with OK at once, with the go recorded. (DEDUCED, entry 48) -/
def wentTo (s : State) (target : Nat) : Answer := atOnceTicket (s.commit [goRec target]) rOk

/-- GO (R33, R37, R114): a move between CONFIG, RUN and HALT under a ticket that completes when the target state is
reached. (DEDUCED, entry 48) -/
def go (c : Ctx) (s : State) : Answer :=
  let target := c.arg.toNat
  let st := s.engState
  if 2 < target then refuse rRange
  else if c.atOnce then ok { s with pow := { s.pow with go := some target } }
  else if s.pow.broken ∨ s.n Attr.powPowerState 0 0 ≠ 0 then refuse rState
  else if s.eng.fade = 2 then refuse rBusy
  else if target = st then wentTo s target
  else if st = 0 ∧ target = 2 then refuse rState
  else if target = 1 then
    if s.n Attr.tbState s.md0Tb 0 = 0 then atOnceTicket s rState
    else if st = 2 then wentTo s.startTick 1
    else match s.enterFresh with
      | .ok t => wentTo t.startTick 1
      | .error e => atOnceTicket s e
  else if st = 1 then
    match s.openTicket (address Attr.engGo 0) 0 with
    | none => refuse rBusy
    | some (k, t) => okTicket (t.startExit target (some k)) k
  else wentTo (s.set Attr.engState 0 0 target) target
/-- GO (R33). -/
def execGo (q : Req) (s : State) : Host.Outcome State Fault Refusal := .next (serve .go go q s)

/-- FADE_COMPLETE (R33, R133): the fade has reached its last sample; after an exit fade the tick stops and the ticket
completes. -/
def fadeComplete (s : State) : State :=
  let e := s.eng
  if ¬ s.ticking ∨ e.frames = 0 ∨ e.count + e.cfg.n < e.fadeAt + s.engineFade then s
  else if e.fade = 1 then
    let s : State := { s with eng := { e with fade := 0 } }
    if s.pow.entryDue then
      { s with pow := { s.pow with entryDue := false } }.set Attr.powStartupTime 0 0 s.hea.now
    else s
  else if e.fade = 2 then
    let s : State := { s with pow := { s.pow with entryDue := false } }
    let s := (s.stopTick e.target).commit [goRec e.target]
    ({ s with eng := { s.eng with goTicket := none } }).completeTicket? e.goTicket rOk
  else s
/-- FADE_COMPLETE (R133). -/
def execFadeComplete (s : State) : Host.Outcome State Fault Refusal := .next (fadeComplete s)

/-! ### A deadline missed (R31) -/

/-- DEADLINE_MISS (R31): the out-strips `outs` have not finished their frames at the tick that ends the period; each
repeats the last sample of its previous frame, the miss is counted and logged, and the condition rises. -/
def deadlineMiss (outs : List Nat) (s : State) : State :=
  if ¬ s.ticking then s
  else
    let s := { s with eng := { s.eng with missed := s.eng.missed ++ (outs.filter (· < s.eng.cfg.D)).filter (!s.eng.missed.contains ·) } }
    let s := s.bump Attr.engDeadlineMisses 0 0
    (s.logAt sevError Attr.engDeadlineMisses 0 0).raise 0
/-- DEADLINE_MISS (R31). -/
def execDeadlineMiss (outs : List Nat) (s : State) : Host.Outcome State Fault Refusal := .next (deadlineMiss outs s)

end Sys2Proof.Machine
end

