-- ==== Sys2Proof/Machine/Pair.lean ====
section
/-! DEFINITION. The redundant pair (R467 to R479, R495 to R501): roles, the token and its lease, formation, giving up and
taking over, and the Tether's lanes and frames. -/

namespace Sys2Proof.Machine

/-! ### Frames of the Tether (R472, R474) -/

/-- A Tether frame as it is read: type, sequence number, the sender's MD0 count and tick, payload. -/
structure TFrame where
  typ : Nat
  seq : Nat
  count : Nat
  tick : Nat
  payload : List Byte
deriving DecidableEq, Repr

/-- Reads a frame; none where R472 discards it. (DEDUCED, entry 52) -/
def tetherParse (b : List Byte) : Option TFrame :=
  let typ := fieldAt b 0 1
  let len := fieldAt b 2 2
  if b.length ≠ 28 + len ∨ 4096 < len ∨ typ = 0 ∨ 10 < typ ∨ fieldAt b 1 1 ≠ 1 ∨
      fieldAt b (24 + len) 4 ≠ crc32 (b.take (24 + len)) then none
  else some ⟨typ, fieldAt b 4 4, fieldAt b 8 8, fieldAt b 16 8, slice b 24 len⟩

/-- The fields of a token payload (R474). -/
structure Token where
  epoch : Nat
  flag : Bool
  role : Nat
  state : Nat
  preference : Nat
  ackSeq : Nat
  lease : Nat
  node : Nat
  hold : Nat
deriving DecidableEq, Repr

/-- Reads a token payload. -/
def tokenOf (p : List Byte) : Token :=
  ⟨fieldAt p 0 4, bit (fieldAt p 4 1) 0, fieldAt p 5 1, fieldAt p 6 1, fieldAt p 7 1, fieldAt p 8 4, fieldAt p 12 2,
    fieldAt p 14 2, fieldAt p 16 8⟩

/-- Whether a sequence number is later than another, modulo 2 ^ 32. -/
def seqLater (a b : Nat) : Bool := a != b && decide ((a + 2 ^ 32 - b) % 2 ^ 32 < 2 ^ 31)

/-- Whether a frame is a copy of one already taken (R473): its number is among the last 64. (DEDUCED, entry 52) -/
def State.tetherSeen (s : State) (typ seq : Nat) : Bool :=
  match Store.find? s.pair.seqIn typ with
  | some l => decide ((l + 2 ^ 32 - seq) % 2 ^ 32 < 64)
  | none => false

/-- The skew of the peer's tick, from a frame that names the count of this engine's last tick (R472), and since when it
has kept its side of 2000 ns (R493, R494). (DEDUCED, entry 52) -/
def State.skewIn (s : State) (f : TFrame) : State :=
  if f.count ≠ s.eng.count ∨ ¬ s.ticking then s
  else
    let v : Int := (f.tick : Int) - s.tbAtTick s.md0Tb
    let wide := decide (2000 < v.natAbs)
    let s := s.set Attr.pairTickSkew 0 0 (clampInt (-2147483648) 2147483647 v)
    if wide = s.lck.skewOver then s
    else { s with lck := { s.lck with skewOver := wide, skewSince := s.pair.now } }

/-- Takes a frame of a type at pair time `now` on a lane (R471 to R473): none where it is discarded, a second copy, or of
another type. (DEDUCED, entry 52) -/
def State.tetherIn (s : State) (typ now lane : Nat) (b : List Byte) : Option TFrame × State :=
  if s.n Attr.pairPairEnable 0 0 ≠ 1 ∨ 2 ≤ lane ∨ ¬ bit (s.n Attr.pairLanes 0 0) lane then (none, s)
  else
    let s : State := { s with pair := { s.pair with now := now } }
    match tetherParse b with
    | none => (none, s.bump Attr.pairFrameErrors 0 lane)
    | some f =>
      if f.typ ≠ typ then (none, s)
      else if s.tetherSeen typ f.seq then (none, s)
      else
        let s : State := { s with pair := { s.pair with seqIn := Store.put s.pair.seqIn typ f.seq } }
        (some f, s.skewIn f)

/-! ### Roles (R467 to R469) -/

/-- Whether a STANDBY is entitled (R495). -/
def State.entitled (s : State) : Bool :=
  let st := s.n Attr.pairStandbyState 0 0
  s.role == 2 && s.n Attr.diaPresent 0 0 == 0 && (st == 3 || (st == 2 && s.n Attr.pairWarmTakeover 0 0 == 1))

/-- The own epoch. -/
def State.epoch (s : State) : Nat := s.n Attr.pairEpoch 0 0

/-- The output of SAP port `n` at an MD0 count, from the frames emitted now and before; the last word sent where the count
lies outside them. -/
def State.sapAt (s : State) (n count : Nat) : Int × Int :=
  let len := s.eng.cfg.n
  let w := s.n Attr.sapSlot n 0
  let at_ (m : Store (List Int)) (b ch : Nat) : Int :=
    let d := s.n Attr.sapOutSrc n ch
    let f := if d < s.eng.cfg.D then Store.get (zeros len) m d else zeros len
    slotOut w ((s.faded b f).getD (count - b) 0)
  let c := s.eng.count
  if c ≤ count ∧ count < c + len then (at_ s.tmp.emit c 0, at_ s.tmp.emit c 1)
  else if c ≤ count + len ∧ count < c then (at_ s.tmp.emitPrev (c - len) 0, at_ s.tmp.emitPrev (c - len) 1)
  else (Store.get SapSt.reset s.sap n).sent

/-- Every SAP output holds, from the next tick on, its value at an MD0 count (R498, R499). -/
def State.holdFrom (s : State) (count : Nat) : State :=
  (List.range 32).foldl (fun s n =>
    if s.sapSt n = 0 then s
    else
      let v := s.sapAt n count
      let h := s.n Attr.sapHoldSamples n 0
      (s.startHold (.sapOut n 0) v.1 h).startHold (.sapOut n 1) v.2 h) s

/-- Outputs that are held resume (R132) at the tick of count `count`. -/
def State.resumeOutputs (s : State) (count : Nat) : State :=
  match s.pair.resumeFrom with
  | none => s
  | some c =>
    if count < c then s
    else (List.range 32).foldl (fun s n => (s.resumeOut (.sapOut n 0)).resumeOut (.sapOut n 1))
      { s with pair := { s.pair with resumeFrom := none } }

/-- Takes the token with an epoch (R470, R478, R479): renewals begin with armed 0; outputs resume at the next tick. -/
def State.becomeActive (s : State) (epoch : Nat) : State :=
  let s := ((s.setRole 1 0).set Attr.pairEpoch 0 0 (epoch % 2 ^ 32 : Nat)).bump Attr.pairTakeovers 0 0
  { s with
    pair := { s.pair with
      renewals := [], lastAcked := none, tAck := s.pair.now, armedNext := false, tRen := none, taking := none,
      giveUpDue := 0, sE := none, enrol := [], enrolLen := 0, acked := 0, mirror := [], convergeEnd := 0,
      resumeFrom := some (s.eng.count + 1) }
    lck := Lock.reset }

/-- A STANDBY takes over (R478, R499): each SAP output takes its value `v` of an MD0 count, or its last sample, and
resumes from it. -/
def State.takeOver (s : State) (held : Option Nat) : State :=
  let s := match held with
    | some c => s.holdFrom c
    | none => s.holdSaps
  s.becomeActive (s.pair.peerEpoch + 1)

/-- Sends a RELEASE with h_c (R496). -/
def State.release (s : State) (hold : Nat) : State := s.send tRelease (s.token 0 0 0 hold)

/-- An ACTIVE gives its token up (R469, R477, R496): it counts, and becomes ORPHAN or FAULTED with its outputs held. -/
def State.yieldTo (s : State) (role : Nat) : State :=
  let s := (s.bump Attr.pairGiveUps 0 0).dropRole role
  { s with pair := { s.pair with renewals := [], giveUpDue := 0, armedNext := false } }

/-- The frames a STANDBY that enrols sends: it asks for the state from offset 0 (R485). -/
def State.askEnrol (s : State) (off : Nat) : State := s.send tEnrol (leBytes 4 off)

/-- Enrolment begins (R469, R485): the STANDBY is in CONFIG and holds nothing of an earlier one.
(DEDUCED, entry 53) -/
def State.beginEnrol (s : State) : State :=
  let s := if s.ticking then s.stopTick 0 else s.set Attr.engState 0 0 0
  let s := (s.setRole 2 1).set Attr.pairEnrolProgress 0 0 0
  let s : State := { s with
    pair := { s.pair with
      seqIn := Store.del s.pair.seqIn tMirror, mirror := [], sE := none, enrol := [], enrolLen := 0, acked := 0,
      convergeEnd := 0, taking := none, slips := [] }
    lck := { Lock.reset with skewSince := s.lck.skewSince, skewOver := s.lck.skewOver } }
  s.askEnrol 0

/-- What the peer says of itself in a token frame. -/
def State.hear (s : State) (t : Token) (told : Bool) : State :=
  let s := (s.set Attr.pairPeerNode 0 0 t.node).set Attr.pairPeerRole 0 0 t.role
  { s with pair := { s.pair with
      peerEpoch := t.epoch, peerPref := t.preference, peerState := t.state,
      peerEntitled := if told then t.flag else s.pair.peerEntitled } }

/-- Whether an ACTIVE that hears its peer ACTIVE yields (R469, R478). -/
def State.yields (s : State) (t : Token) : Bool :=
  let node := s.n Attr.yugNodeId 0 0
  let pref := s.n Attr.pairPreference 0 0
  decide (s.epoch < t.epoch) ||
    (s.epoch == t.epoch && (decide (t.preference < pref) || (t.preference == pref && decide (t.node ≤ node))))

/-- The role settles on what the peer is heard as (R469, R478). -/
def State.settle (s : State) (t : Token) : State :=
  if s.role = 3 ∧ t.role = 1 then s.beginEnrol
  else if s.role = 1 ∧ t.role = 1 then
    if s.yields t then (s.yieldTo 3).logAt sevError Attr.pairRole 0 0 else s
  else if s.role = 2 ∧ (t.role = 3 ∨ t.role = 4) then (s.dropRole 3).logAt sevError Attr.pairRole 0 0
  else s

/-! ### The token (R476, R477) -/

/-- The guard, in ns (R476). -/
def guardNs : Nat := 12000

/-- The flags byte of an ACK or HELLO. -/
def State.entitledFlag (s : State) : Nat := b2n s.entitled

/-- An ACTIVE sends RENEW with the armed flag it last learnt, and keeps the renewal until it is answered (R476, R477). -/
def State.sendRenewal (s : State) (now : Nat) : State :=
  let armed := s.pair.armedNext
  let s := s.send tRenew (s.token (b2n armed) 0 (s.n Attr.pairLeaseTime 0 0) 0)
  let r : Renewal := ⟨Store.get 0 s.pair.seqOut tRenew, now, armed⟩
  { s with pair := { s.pair with renewals := (s.pair.renewals ++ [r]).drop (s.pair.renewals.length - 63) } }

/-- RENEW_INTERVAL (R476, R477): the ACTIVE sends a RENEW; any other member of a pair says HELLO. What is not
acknowledged of an enrolment is sent again (R473). (DEDUCED, entry 52) -/
def renewInterval (now : Nat) (s : State) : State :=
  if s.n Attr.pairPairEnable 0 0 ≠ 1 then s
  else
    let s : State := { s with pair := { s.pair with now := now } }
    if s.role ≠ 1 then
      let s := s.send tHello (s.token s.entitledFlag 0 0 0)
      if s.role = 2 ∧ s.n Attr.pairStandbyState 0 0 = 1 then s.askEnrol s.pair.acked else s
    else s.sendRenewal now
/-- RENEW_INTERVAL (R476). -/
def execRenewInterval (now : Nat) (s : State) : Host.Outcome State Fault Refusal := .next (renewInterval now s)

/-- Whether this engine is the one that sends TAKE (R470): an ORPHAN in RUN, before a peer that is no ORPHAN, or with
the lower preference, then the lower node_id. -/
def State.takes (s : State) (t : Token) : Bool :=
  let mine := s.n Attr.pairPreference 0 0
  s.role == 3 && s.engState == 1 && t.role != 1 &&
    (t.role != 3 || decide (mine < t.preference) || (mine == t.preference && decide (s.n Attr.yugNodeId 0 0 < t.node)))

/-- HELLO (R468 to R470): the peer is heard, roles settle, and the engine that formation names sends TAKE. -/
def hello (now lane : Nat) (frame : List Byte) (s : State) : State :=
  match s.tetherIn tHello now lane frame with
  | (none, s) => s
  | (some f, s) =>
    let t := tokenOf f.payload
    let s := (s.hear t true).settle t
    if s.takes t then
      let s := s.send tTake (s.token 0 0 0 0)
      { s with pair := { s.pair with taking := some (Store.get 0 s.pair.seqOut tTake) } }
    else s
/-- HELLO (R468). -/
def execHello (now lane : Nat) (frame : List Byte) (s : State) : Host.Outcome State Fault Refusal :=
  .next (hello now lane frame s)

/-- RENEW (R477): a STANDBY restarts its lease and answers. -/
def renew (now lane : Nat) (frame : List Byte) (s : State) : State :=
  match s.tetherIn tRenew now lane frame with
  | (none, s) => s
  | (some f, s) =>
    let t := tokenOf f.payload
    let s := (s.hear t false).settle t
    if s.role ≠ 2 then s
    else
      let s : State := { s with pair := { s.pair with tRen := some now, arm := t.flag, lease := t.lease } }
      s.send tAck (s.token s.entitledFlag f.seq 0 0)
/-- RENEW (R477). -/
def execRenew (now lane : Nat) (frame : List Byte) (s : State) : Host.Outcome State Fault Refusal :=
  .next (renew now lane frame s)

/-- ACK (R477): t_a becomes the send time of the RENEW acknowledged, and the entitlement arms the next renewals. -/
def ack (now lane : Nat) (frame : List Byte) (s : State) : State :=
  match s.tetherIn tAck now lane frame with
  | (none, s) => s
  | (some f, s) =>
    let t := tokenOf f.payload
    let s := (s.hear t true).settle t
    let later : Bool := match s.pair.lastAcked with
      | some l => seqLater t.ackSeq l
      | none => true
    match (if s.role = 1 ∧ later then s.pair.renewals.find? (·.seq == t.ackSeq) else none) with
    | none => s
    | some r =>
      let s := s.set Attr.pairTetherRtt 0 0 (Nat.min (now - r.sent) 4294967295 : Nat)
      { s with pair := { s.pair with
          lastAcked := some r.seq, tAck := r.sent, armedNext := t.flag
          renewals := s.pair.renewals.filter fun x => x.seq == r.seq || seqLater x.seq r.seq } }
/-- ACK (R477). -/
def execAck (now lane : Nat) (frame : List Byte) (s : State) : Host.Outcome State Fault Refusal :=
  .next (ack now lane frame s)

/-- TETHER_RELEASE (R469, R499): a STANDBY that is entitled takes over from its own output at h_c; another becomes
ORPHAN. -/
def tetherRelease (now lane : Nat) (frame : List Byte) (s : State) : State :=
  match s.tetherIn tRelease now lane frame with
  | (none, s) => s
  | (some f, s) =>
    let t := tokenOf f.payload
    let s := s.hear t false
    if s.role ≠ 2 then s
    else if s.entitled then s.takeOver (some t.hold)
    else (s.dropRole 3).logAt sevError Attr.pairRole 0 0
/-- TETHER_RELEASE (R469). -/
def execTetherRelease (now lane : Nat) (frame : List Byte) (s : State) : Host.Outcome State Fault Refusal :=
  .next (tetherRelease now lane frame s)

/-- TAKE (R470): answered with GRANT unless the engine is ACTIVE or not in RUN; an ORPHAN that grants enrols. -/
def takeFrame (now lane : Nat) (frame : List Byte) (s : State) : State :=
  match s.tetherIn tTake now lane frame with
  | (none, s) => s
  | (some f, s) =>
    let t := tokenOf f.payload
    let s := (s.hear t false).settle t
    if s.role = 1 ∨ s.engState ≠ 1 then s
    else
      let s := if s.role = 3 then s.beginEnrol else s
      s.send tGrant (s.token 0 f.seq 0 0)
/-- TAKE (R470). -/
def execTake (now lane : Nat) (frame : List Byte) (s : State) : Host.Outcome State Fault Refusal :=
  .next (takeFrame now lane frame s)

/-- GRANT (R470): the taker becomes ACTIVE with an epoch one above the greater of the two. -/
def grant (now lane : Nat) (frame : List Byte) (s : State) : State :=
  match s.tetherIn tGrant now lane frame with
  | (none, s) => s
  | (some f, s) =>
    let t := tokenOf f.payload
    let s := s.hear t false
    if s.role = 3 ∧ s.engState = 1 ∧ s.pair.taking = some t.ackSeq then s.becomeActive (Nat.max s.epoch t.epoch + 1)
    else s.settle t
/-- GRANT (R470). -/
def execGrant (now lane : Nat) (frame : List Byte) (s : State) : Host.Outcome State Fault Refusal :=
  .next (grant now lane frame s)

/-- LEASE_LAPSE (R477): armed renewals have stood unacknowledged to t_a + L − G. -/
def leaseLapse (now : Nat) (s : State) : State :=
  let l := 1000 * s.n Attr.pairLeaseTime 0 0
  if s.role = 1 ∧ s.pair.renewals.any (·.armed) ∧ s.pair.tAck + l ≤ now + guardNs then
    (({ s with pair := { s.pair with now := now } } : State).bump Attr.pairLeaseLapses 0 0).yieldTo 3
  else s
/-- LEASE_LAPSE (R477). -/
def execLeaseLapse (now : Nat) (s : State) : Host.Outcome State Fault Refusal := .next (leaseLapse now s)

/-- LEASE_EXPIRY (R469, R477): no renewal for L + G. (DEDUCED, entry 11) -/
def leaseExpiry (now : Nat) (s : State) : State :=
  match s.pair.tRen with
  | none => s
  | some t =>
    if s.role ≠ 2 ∨ now < t + 1000 * s.pair.lease + guardNs then s
    else
      let s : State := { s with pair := { s.pair with now := now } }
      if s.pair.arm ∧ s.entitled then s.takeOver none
      else (s.dropRole 3).logAt sevWarning Attr.pairRole 0 0
/-- LEASE_EXPIRY (R477). -/
def execLeaseExpiry (now : Nat) (s : State) : Host.Outcome State Fault Refusal := .next (leaseExpiry now s)

/-! ### Giving up (R496 to R498) -/

/-- The MD0 count of the last sample emitted live before the tick to come. -/
def State.lastLive (s : State) : Nat := s.eng.count + s.eng.cfg.n - 1

/-- The ACTIVE gives the outputs up (R496): RELEASE with its last live sample, the outputs held from there. -/
def State.givenUp (s : State) : State :=
  let last := s.lastLive
  let s := ((s.release last).bump Attr.pairGiveUps 0 0).holdFrom last
  { s with pair := { s.pair with renewals := [], giveUpDue := 0, armedNext := false } }

/-- The former ACTIVE as a STANDBY that warms on the state it has (R497). -/
def State.warmAgain (s : State) : State :=
  let s := (s.setRole 2 2).set Attr.silPinState 0xFFFF 0 0
  { s with
    pair := { s.pair with
      convergeEnd := 0, resumeFrom := some (s.eng.count + 2 * s.eng.cfg.n)
      seqIn := Store.del s.pair.seqIn tMirror, mirror := [] }
    lck := { Lock.reset with skewSince := s.lck.skewSince, skewOver := s.lck.skewOver } }

/-- GIVE_UP (R496 to R498): at the first tick after a condition was reported, or a switchover accepted, an ACTIVE whose
renewals carry armed 1 sends RELEASE; it becomes FAULTED, or a warming STANDBY whose convergence period has run out and
whose outputs resume at its next tick. (DEDUCED, entry 52) -/
def giveUp (s : State) : State :=
  let why := s.pair.giveUpDue
  if why = 0 ∨ ¬ s.armed then s
  else
    let s := s.givenUp
    if why = 1 then (s.setRole 4 0).set Attr.silPinState 0xFFFF 0 0 else s.warmAgain
/-- GIVE_UP (R496). -/
def execGiveUp (s : State) : Host.Outcome State Fault Refusal := .next (giveUp s)

/-- LANE_CHANGE (R471, R501): a lane gains or loses block lock; an ACTIVE left with one lane warns. HELLO is said where a
lane returns. (DEDUCED, entry 52) -/
def laneChange (lane : Nat) (up : Bool) (s : State) : State :=
  let w := s.n Attr.pairLanes 0 0
  if 2 ≤ lane ∨ bit w lane = up then s
  else
    let w := if up then w + 2 ^ lane else w - 2 ^ lane
    let s := s.set Attr.pairLanes 0 0 w
    if up then (if s.n Attr.pairPairEnable 0 0 = 1 then s.send tHello (s.token s.entitledFlag 0 0 0) else s)
    else if w ≠ 0 ∧ s.role = 1 then s.logAt sevWarning Attr.pairLanes 0 0
    else s
/-- LANE_CHANGE (R501). -/
def execLaneChange (lane : Nat) (up : Bool) (s : State) : Host.Outcome State Fault Refusal := .next (laneChange lane up s)

/-! ### The host's actions -/

/-- SWITCHOVER (R497): at the next tick; refused on any engine that is not ACTIVE with armed 1. -/
def switchover (_c : Ctx) (s : State) : Answer :=
  if s.armed then ok { s with pair := { s.pair with giveUpDue := if s.pair.giveUpDue = 1 then 1 else 2 } } else refuse rState
/-- SWITCHOVER (R497). -/
def execSwitchover (q : Req) (s : State) : Host.Outcome State Fault Refusal := .next (serve .switchover switchover q s)

/-- REJOIN (R497): a FAULTED engine with no condition present becomes ORPHAN. -/
def rejoin (_c : Ctx) (s : State) : Answer :=
  if s.role = 4 ∧ s.n Attr.diaPresent 0 0 = 0 then ok (s.setRole 3 0) else refuse rState
/-- REJOIN (R497). -/
def execRejoin (q : Req) (s : State) : Host.Outcome State Fault Refusal := .next (serve .rejoin rejoin q s)

/-- FORCE_ACTIVE (R479): on an ORPHAN or a STANDBY with both lanes down. (DEDUCED, entry 55) -/
def forceActive (_c : Ctx) (s : State) : Answer :=
  if (s.role = 3 ∨ s.role = 2) ∧ s.n Attr.pairLanes 0 0 % 4 = 0 then
    ok (s.holdSaps.becomeActive (Nat.max s.epoch s.pair.peerEpoch + 1))
  else refuse rState
/-- FORCE_ACTIVE (R479). -/
def execForceActive (q : Req) (s : State) : Host.Outcome State Fault Refusal := .next (serve .forceActive forceActive q s)

/-- The role that pair_enable gives (R468, R469): 0 makes the engine SOLO, with a RELEASE where it was ACTIVE; 1 makes a
SOLO engine an ORPHAN, or FAULTED where bring-up stopped on a fault (R536). (DEDUCED, entry 55) -/
def State.pairEnabled (s : State) : State :=
  if s.n Attr.pairPairEnable 0 0 = 0 then
    let s := if s.role = 1 then (s.release s.lastLive).bump Attr.pairGiveUps 0 0 else s
    let s := (s.setRole 0 0).silPins
    { s with
      pair := { s.pair with
        renewals := [], tRen := none, taking := none, giveUpDue := 0, armedNext := false, mirror := [], slips := []
        convergeEnd := 0, resumeFrom := some 0 }
      lck := Lock.reset }
  else if s.role = 0 then s.dropRole (if s.pow.broken then 4 else 3)
  else s

/-- PAIR_ENABLE (R468): an engine that leaves or enters SOLO changes the Tether's charge, so the topology is admitted anew
(R24, R27, R30). (DEDUCED, entry 55) -/
def writePairEnable (c : Ctx) (s : State) : Answer :=
  let t := (s.store c).pairEnabled
  if (t.role = 0 ↔ s.role = 0) ∨ c.atOnce then ok t
  else match t.admits with
    | .no e => refuse e
    | _ => ok (t.loadAttrs t.topo t.place)
/-- PAIR_ENABLE (R468). -/
def execPairEnable (q : Req) (s : State) : Host.Outcome State Fault Refusal := .next (serve .pairEnable writePairEnable q s)

end Sys2Proof.Machine
end

