-- ==== Sys2Proof/Machine/Weld.lean ====
section
/-! DEFINITION. Weld (R418 to R428): fragments sent and received, the totals, absent members, bindings. -/

namespace Sys2Proof.Machine

/-- The weld_id of this engine; 255 takes no part (R418). -/
def State.weldId (s : State) : Nat := s.n Attr.weldWeldId 0xFFFF 0

/-- The rate code of MD0 (R378). -/
def State.md0Code (s : State) : Nat := 2 * s.fam + s.n Attr.engRateBase 0 0

/-- The contributors of a summing destination, without the own bit (R432). -/
def State.weldPeers (s : State) (d : Nat) : List Nat :=
  if s.weldId = 255 then []
  else (List.range 32).filter fun m => m != s.weldId && bit (s.n Attr.weldContributors d 0) m

/-- Every contributor of a summing destination. -/
def State.weldMembers (s : State) : List Nat :=
  (List.range 32).filter fun m => (s.welds 30).any fun e => (s.weldPeers e.1).contains m

/-- The frame the receiver next sums (R424). -/
def State.weldNext (s : State) : Nat := s.eng.count - 2 * s.eng.cfg.n

/-! ### Sending (R422, R423, R427) -/

/-- The bytes of a fragment of the frame at count `frame`. -/
def State.fragmentBytes (s : State) (frame lane number fragments : Nat) (entries : List (Nat × Nat)) : List Byte :=
  let n := s.eng.cfg.n
  leBytes 4 (s.n Attr.weldSystemId 0xFFFF 0) ++ [byteOf 1, byteOf s.weldId, byteOf n, byteOf s.md0Code] ++
    leBytes 8 frame ++ [byteOf lane, byteOf number, byteOf fragments, byteOf (b2n (s.role != 0))] ++
    leBytes 2 entries.length ++ leBytes 2 0 ++
    entries.flatMap fun e => leBytes 2 e.2 ++ leBytes 2 0 ++
      (frameOf s.cru.sums e.1 n).flatMap fun x => leBytes 4 (toBits 32 x)

/-- Sends the partials of a frame, on N2 and N3 at once (R422, R427). (DEDUCED, entry 42) -/
def State.sendWeld (s : State) (frame : Nat) : State :=
  if s.weldId = 255 ∨ ¬ s.sends then s
  else
    let l := s.fragments.flatMap fun e =>
      (e.2.mapIdx fun i p => s.fragmentBytes frame e.1 i e.2.length p)
    let s := { s with net := { s.net with frags := l } }
    [2, 3].foldl (fun s p => if s.portUp p then s.add Attr.portTxFrames p 0 l.length else s) s

/-! ### Receiving (R424 to R428) -/

/-- The least margin of the last second (R425). -/
def State.weldMargins (s : State) (l : List (Nat × Int)) : State :=
  match l with
  | [] => s
  | e :: rest => s.set Attr.weldMargin 0xFFFF 0 (clampInt (-2147483648) 2147483647
      (rest.foldl (fun m x => min m x.2) e.2))

/-- A member is heard (R426, R432): its silence ends. (DEDUCED, entry 42) -/
def State.hearMember (s : State) (m : Nat) : State :=
  let s := { s with net := { s.net with heard := m :: s.net.heard.filter (· != m), gone := Store.set 0 s.net.gone m 0 } }
  let w := s.n Attr.weldMembersAbsent 0xFFFF 0
  if bit w m then
    let s := s.set Attr.weldMembersAbsent 0xFFFF 0 ((w - 2 ^ m : Nat) : Int)
    s.logAt sevNotice Attr.weldMembersAbsent 0xFFFF 0
  else s

/-- The entries of a fragment that the frame's table still has room for (R424). -/
def State.weldRoom (s : State) : Nat := 4096 / 2 ^ s.eng.cfg.family - s.net.entries

/-- Counts a fragment's entries into the frame's table; those beyond its room are counted lost and logged (R424). -/
def State.countEntries (s : State) (f : WeldFrag) : State :=
  let excess := f.entries.length - s.weldRoom
  let s := { s with net := { s.net with entries := s.net.entries + (f.entries.length - excess) } }
  if excess = 0 then s
  else (s.add Attr.weldOverflow 0xFFFF 0 excess).logAt sevError Attr.weldOverflow 0xFFFF 0

/-- What a fragment's first `room` entries give this member: the parts of the indices it sums with the sender (R424). -/
def State.weldParts (s : State) (f : WeldFrag) (room : Nat) : List Part :=
  (f.entries.take room).filterMap fun e =>
    if (s.welds 30).any (fun w => w.2 == e.1 && (s.weldPeers w.1).contains f.sender) then
      some (Part.mk f.sender e.1 f.frame e.2) else none

/-- The margins of the last second, with that of a new arrival (R426). -/
def recentMargins (arrival : Nat) (margin : Int) (l : List (Nat × Int)) : List (Nat × Int) :=
  ((arrival, margin) :: l).filter fun e => decide (arrival < e.1 + 1000000000)

/-- When the parts of a frame are due (R426), in ns of Hearth's output time. -/
def State.weldDue (s : State) (frame : Nat) : Int := (((frame + 3 * s.eng.cfg.n) * 1000000000 / s.eng.cfg.fs : Nat) : Int)

/-- Keeps a fragment's parts for their deadline, with the margin it arrived by (R424, R426). -/
def State.keepParts (s : State) (f : WeldFrag) (mine : List Part) : State :=
  if mine = [] then s
  else
    let margins := recentMargins f.arrival (s.weldDue f.frame - f.arrival) s.net.margins
    let s := { s with net := { s.net with parts := s.net.parts ++ mine, margins := margins } }
    s.weldMargins margins

/-- WELD_FRAGMENT_RECEIVED (R424, R425, R428). (DEDUCED, entry 42) -/
def weldFragmentReceived (p : Nat) (f : WeldFrag) (s : State) : State :=
  let n := s.eng.cfg.n
  let joined := (s.welds 30).any fun e => e.2 / 64 == f.lane
  if ¬ (p = 2 ∨ p = 3) ∨ ¬ s.portUp p ∨ s.weldId = 255 ∨ ¬ s.ticking ∨ ¬ joined then s
  else
    let id := (f.sender, f.frame, f.lane, f.fragment)
    let next := s.weldNext
    if f.system ≠ s.n Attr.weldSystemId 0xFFFF 0 ∨ f.version ≠ 1 ∨ f.n ≠ n ∨ f.rate ≠ s.md0Code ∨ 32 ≤ f.sender ∨
        next + n < f.frame ∨ f.frame % n ≠ 0 then
      s.bump Attr.weldMismatches 0xFFFF 0
    else if s.net.seen.contains id then s
    else
      let s := { s with net := { s.net with seen := id :: s.net.seen } }
      let s := s.hearMember f.sender
      if f.frame < next then s.bump Attr.weldLate 0xFFFF f.sender
      else
        let room := s.weldRoom
        let s := s.countEntries f
        s.keepParts f (s.weldParts f room)
/-- WELD_FRAGMENT_RECEIVED (R424). -/
def execWeldFragmentReceived (p : Nat) (f : WeldFrag) (s : State) : Host.Outcome State Fault Refusal :=
  .next (weldFragmentReceived p f s)

/-- The part of a contributor for a frame, through its hold where it is missing (R426); whether it had arrived. -/
def State.weldPart (s : State) (d index frame m : Nat) : Bool × List Int × State :=
  let n := s.eng.cfg.n
  let o := OutRef.weld d m
  match s.net.parts.find? fun x => x.member == m && x.index == index && x.frame == frame with
  | some x =>
    let s : State := match s.holdOf o with
      | some h => if h.phase = 4 then s else s.startResume o (h.current (s.holdFade (s.outRate o)))
      | none => s
    let r := s.throughHold o ((List.range n).map fun i => x.samples.getD i 0)
    let s := r.2
    (true, r.1, { s with net := { s.net with last := Store.set 0 s.net.last (32 * d + m) (lastOf r.1) } })
  | none =>
    let s := s.startHold o (Store.get 0 s.net.last (32 * d + m)) (s.n Attr.weldWeldHold 0xFFFF 0)
    let r := s.throughHold o (zeros n)
    (false, r.1, r.2)

/-- The total of a summing destination (R420), and the contributors whose parts are missing. -/
def State.weldTotal (s : State) (d index frame : Nat) : List Nat × State :=
  let n := s.eng.cfg.n
  let own := frameOf s.net.own d n
  let r := (s.weldPeers d).foldl (fun (a : List Int × List Nat × Nat × State) m =>
    let p := a.2.2.2.weldPart d index frame m
    ((List.range n).map (fun i => a.1.getD i 0 + p.2.1.getD i 0),
     if p.1 then a.2.1 else m :: a.2.1, if p.1 then a.2.2.1 + 2 ^ m else a.2.2.1, p.2.2)) (own, [], 0, s)
  let total := r.1.map clampW32
  let sat := ((r.1.zip total).filter fun e => e.1 != e.2).length
  let s := (r.2.2.2.addSat Attr.dstSumSatCount d sat).set Attr.weldPresent d 0 r.2.2.1
  (r.2.1, { s with net := { s.net with welded := if total.all (· == 0) then s.net.welded else Store.put s.net.welded d total } })

/-- The totals of a frame at every summing destination, and the members some destination missed (R426). -/
def State.sumWelds (s : State) (frame : Nat) : List Nat × State :=
  (s.welds 30).foldl (fun (a : List Nat × State) e =>
    let t := a.2.weldTotal e.1 e.2 frame
    (a.1 ++ t.1, t.2)) ([], s)

/-- Drops a frame's parts once they are summed, and the marks of copies 64 frames old (R424, R426). -/
def State.dropParts (s : State) (frame : Nat) : State :=
  { s with net := { s.net with
      parts := s.net.parts.filter fun x => decide (frame < x.frame)
      seen := s.net.seen.filter fun x => decide (frame < x.2.1 + 64 * s.eng.cfg.n) } }

/-- WELD_DEADLINE (R420, R425, R426): the totals of the frame whose deadline the last tick was. -/
def weldDeadline (s : State) : State :=
  match s.net.due with
  | none => s
  | some frame =>
    let s := { s with net := { s.net with due := none, welded := [] } }
    let r := s.sumWelds frame
    (r.1.eraseDups.foldl (fun s m => s.bump Attr.weldMissing 0xFFFF m) r.2).dropParts frame
/-- WELD_DEADLINE (R426). -/
def execWeldDeadline (s : State) : Host.Outcome State Fault Refusal := .next (weldDeadline s)

/-- At a tick: the members heard in the block that ends (R426, R432), the partials whose total is due (R420). -/
def State.weldTick (s : State) (count : Nat) : State :=
  let heard := s.net.heard
  let s := s.set Attr.weldMembersPresent 0xFFFF 0 (((heard.filter (· < 32)).map (2 ^ ·)).sum : Nat)
  let gone : Store Nat := s.weldMembers.foldl (fun g m =>
    if heard.contains m then g else Store.set 0 g m (Store.get 0 s.net.gone m + 1)) []
  { s with net := { s.net with
      heard := [], entries := 0, gone := gone, own := s.cru.sums, due := some (count - 3 * s.eng.cfg.n) } }

/-- MEMBER_ABSENT (R426): a contributor has sent no fragment for 64 frames. -/
def memberAbsent (m : Nat) (s : State) : State :=
  let w := s.n Attr.weldMembersAbsent 0xFFFF 0
  if 32 ≤ m ∨ Store.get 0 s.net.gone m < 64 ∨ bit w m then s
  else
    let s := s.set Attr.weldMembersAbsent 0xFFFF 0 ((w + 2 ^ m : Nat) : Int)
    s.logAt sevWarning Attr.weldMembersAbsent 0xFFFF 0
/-- MEMBER_ABSENT (R426). -/
def execMemberAbsent (m : Nat) (s : State) : Host.Outcome State Fault Refusal := .next (memberAbsent m s)

/-- BINDING (R48, R419, R428): a write of a destination's binding or contributors, in CONFIG. -/
def writeBinding (c : Ctx) (s : State) : Answer :=
  let d := c.q.inst
  let v := c.arg
  let w := v.toNat
  let twin (b : Nat) : Bool := bit w b && (s.welds b).any fun e => e.1 != d && e.2 == w % 4096
  if c.code = Attr.weldBinding ∧ w / 4096 % 2 ^ 18 ≠ 0 then refuse rRange
  else if c.code = Attr.weldBinding ∧ (twin 31 || twin 30) then refuse rRange
  else if c.code = Attr.weldBinding ∧ weldRole v ∧ (s.slotOf (2 * 2 ^ 28 + d)).isSome then refuse rState
  else
    let t := s.store c
    if t.netAdmits ∨ c.atOnce then ok t else refuse rAdmission
/-- BINDING (R419). -/
def execBinding (q : Req) (s : State) : Host.Outcome State Fault Refusal := .next (serve .binding writeBinding q s)

end Sys2Proof.Machine
end

