-- ==== Sys2Proof/Machine/Lockstep.lean ====
section
/-! DEFINITION. Lockstep (R484 to R495): the cycle-end digest and its judgement, adoption, convergence and eligibility. -/

namespace Sys2Proof.Machine

/-! ### Bytes of a strip context (R193) -/

/-- Signed bytes. -/
def sBytes (n : Nat) (v : Int) : List Byte := leBytes n (toBits (8 * n) v)
/-- A signed field. -/
def sField (b : List Byte) (off n : Nat) : Int := signed (8 * n) (fieldAt b off n)

/-- A history x1, x2, y1, y2 in 18 bytes. -/
def histBytes (h : List Int) : List Byte :=
  sBytes 4 (h.getD 0 0) ++ sBytes 4 (h.getD 1 0) ++ sBytes 5 (h.getD 2 0) ++ sBytes 5 (h.getD 3 0)
/-- Reads a history. -/
def histAt (b : List Byte) (off : Nat) : List Int :=
  [sField b off 4, sField b (off + 4) 4, sField b (off + 8) 5, sField b (off + 13) 5]

/-- Sections of an in-strip or an out-strip. -/
def sectionCount (out : Bool) : Nat := if out then 16 else 12

/-- The sections, the key filter history, the compressor's 12 bytes, and for an in-strip the gate's 16 bytes and the delayed
insert front frame, for an out-strip the Quench gain's 4; then the delay-line positions (R193, the table *Strip context*). The
compressor's 12 bytes are the high 4 of each mean square and of the gain, the gate's the high 12 of its gain and the hold. -/
def ctxTable (out : Bool) (x : StripCtx) (front : List Int) : List Byte :=
  ((List.range (sectionCount out)).flatMap fun j => histBytes (x.hist.getD j [])) ++ histBytes x.keyOwn ++
    (sBytes 24 x.msOwn).drop 20 ++ (sBytes 24 x.msExt).drop 20 ++ (sBytes 16 x.comp).drop 12 ++
    (if out then sBytes 4 (8388608 - x.quench)
     else (sBytes 16 x.gate).drop 4 ++ leBytes 4 x.gateHold ++ (List.range 16).flatMap fun i => sBytes 4 (front.getD i 0)) ++
    leBytes 4 x.readPos ++ leBytes 4 x.writePos

/-- The rest of a context: what the table's widths leave of the model's own fixed-point numbers, and the second key filter
history of linked mode. -/
def ctxRest (x : StripCtx) : List Byte :=
  (sBytes 24 x.msOwn).take 20 ++ (sBytes 24 x.msExt).take 20 ++ (sBytes 16 x.comp).take 12 ++ (sBytes 16 x.gate).take 4 ++
    histBytes x.keyExt

/-- The context record of a strip with its insert front frame (R193): 512 bytes, of which the table lays out 334 or 330 and
calls the rest padding, where the model's own low-order parts stand. (DESIGN CHOICE, entry 54) -/
def ctxBytes (out : Bool) (x : StripCtx) (front : List Int) : List Byte :=
  let b := ctxTable out x front ++ ctxRest x
  b ++ List.replicate (512 - b.length) 0

/-- A strip context from its record, and its insert front frame of `n` samples; what no record holds stays as in `x`. -/
def ctxOf (out : Bool) (x : StripCtx) (n : Nat) (b : List Byte) : StripCtx × List Int :=
  let k := 18 * sectionCount out
  let p := if out then k + 34 else k + 110
  let r := p + 8
  let join (low len high m : Nat) : Int := signed (8 * (len + m)) (leNat (slice b low len ++ slice b high m))
  ({ x with
     hist := (List.range (sectionCount out)).map fun j => histAt b (18 * j)
     keyOwn := histAt b k, keyExt := histAt b (r + 56)
     msOwn := join r 20 (k + 18) 4, msExt := join (r + 20) 20 (k + 22) 4, comp := join (r + 40) 12 (k + 26) 4
     gate := if out then x.gate else join (r + 52) 4 (k + 30) 12
     gateHold := if out then x.gateHold else fieldAt b (k + 42) 4
     quench := if out then 8388608 - sField b (k + 30) 4 else x.quench
     readPos := fieldAt b p 4, writePos := fieldAt b (p + 4) 4 },
   if out then [] else (List.range n).map fun i => sField b (k + 46 + 4 * i) 4)

/-- The record of a strip as it stood at the end of the last period; bit 15 marks an out-strip. -/
def State.stripRecord (s : State) (id : Nat) : List Byte :=
  if 32768 ≤ id then ctxBytes true (Store.get StripCtx.reset s.tmp.outCtx (id - 32768)) []
  else ctxBytes false (Store.get StripCtx.reset s.tmp.inEnd id) (frameOf s.tmp.frontPrev id s.eng.cfg.n)

/-! ### The digest (R487 to R490) -/

/-- The strips of the topology in the order of the rotations: in-strips, then out-strips with bit 15. -/
def State.stripIds (s : State) : List Nat :=
  stripsIn s.snap s.eng.cfg.ins ++ (outStripsIn s.snap s.eng.cfg.D).map (· + 32768)

/-- `n` items of a list in rotation from place `k`. -/
def rotate {α : Type} (l : List α) (k n : Nat) : List α :=
  if l = [] then [] else (List.range (Nat.min n l.length)).filterMap fun i => l[(k + i) % l.length]?

/-- An envelope record (R488). -/
def State.envelope (s : State) (id : Nat) : List Byte :=
  let out := decide (32768 ≤ id)
  let x := if out then Store.get StripCtx.reset s.tmp.outCtx (id - 32768) else Store.get StripCtx.reset s.tmp.inEnd id
  let gain (g : Int) : List Byte := sBytes 4 (g / 2 ^ 80)
  let b := leBytes 2 id ++ leBytes 2 0 ++ sBytes 8 (x.msOwn / 2 ^ 96) ++ gain x.comp ++
    (if out then sBytes 4 (8388608 - x.quench) else leBytes 8 0 ++ gain x.gate ++ leBytes 4 x.gateHold)
  b ++ List.replicate (32 - b.length) 0

/-- The CRC of 16 out-strips' output frames (R489). -/
def State.groupCrc (s : State) (g : Nat) : Nat :=
  crc32 ((List.range 16).flatMap fun i => (frameOf s.tmp.outs (16 * g + i) s.eng.cfg.n).flatMap fun x => sBytes 3 x)

/-- The CRC of the partials sent (R489). -/
def State.weldCrc (s : State) : Nat :=
  let sent := (s.fragments.flatMap fun e => e.2.flatMap id).foldl (fun l e => insertRun (e.2, e.1) l) []
  if s.weldId = 255 ∨ sent = [] then 0
  else crc32 (sent.flatMap fun e => (frameOf s.cru.sums e.2 s.eng.cfg.n).flatMap fun x => sBytes 4 x)

/-- A module slice (R488): the next ceil(s / 16) STATE words from word `k`. -/
def moduleSlice (m k : Nat) (words : List Nat) : List Byte :=
  let n := ceilDiv words.length 16
  let part := (words.drop k).take n
  leBytes 2 m ++ leBytes 2 k ++ leBytes 2 part.length ++ leBytes 2 0 ++ part.flatMap (leBytes 4)

/-- The digest of the period that the count `count` opened (R487), at its end. -/
def State.digestBytes (s : State) (count : Nat) : List Byte :=
  let groups := ceilDiv s.eng.cfg.D 16
  let ev := s.lck.events.take 512
  let cs := s.lck.counters.take 256
  let ts := s.lck.timed.take 64
  let ids := s.stripIds
  let env := (rotate ids s.lck.rotEnv (ceilDiv ids.length 16)).map s.envelope
  let mods := s.lck.states.map fun e => moduleSlice e.1 (Store.get 0 s.lck.rotMods e.1) e.2
  let tail := ((List.range groups).flatMap fun g => leBytes 4 (s.groupCrc g)) ++
    (ev.flatMap fun e => [byteOf e.1, 0, 0, 0] ++ leBytes 4 e.2.1 ++ leBytes 4 e.2.2.1 ++ leBytes 4 e.2.2.2) ++
    (cs.flatMap fun e =>
      let k := e.1
      let code := k / 2 ^ 24 * 256 + k % 256
      leBytes 4 k ++ leBytes 4 e.2 ++ leBytes 8 (toBits 64 (s.a code (k / 256 % 65536) e.2))) ++
    (ts.flatMap fun e => leBytes 4 e.1 ++ leBytes 4 e.2.1 ++ [byteOf e.2.2.1, 0, 0, 0] ++ leBytes 8 e.2.2.2.1 ++
      leBytes 4 e.2.2.2.2) ++
    env.flatMap id ++ mods.flatMap id
  leBytes 8 count ++ leBytes 4 (64 + tail.length) ++ leBytes 4 s.pair.lastApplied ++ leBytes 2 groups ++
    leBytes 2 ev.length ++ leBytes 2 cs.length ++ leBytes 2 ts.length ++ leBytes 2 env.length ++ leBytes 2 mods.length ++
    [byteOf (if 512 < s.lck.events.length then 1 else 0), 0, 0, 0] ++ leBytes 4 s.weldCrc ++ List.replicate 28 0 ++ tail

/-- Pieces of at most 4092 bytes with their offsets. -/
def fragmentsOf : (fuel off : Nat) → List Byte → List (Nat × List Byte)
  | 0, _, _ => []
  | f + 1, off, b =>
    if b.length ≤ 4092 then [(off, b)] else (off, b.take 4092) :: fragmentsOf f (off + 4092) (b.drop 4092)

/-- Sends an object in frames of a type (R474). -/
def State.sendObject (s : State) (typ : Nat) (b : List Byte) : State :=
  (fragmentsOf (b.length / 4092 + 1) 0 b).foldl (fun s e => s.send typ (leBytes 4 e.1 ++ e.2)) s

/-- The period that the count `count` opened has ended: its digest is assembled and kept, the ACTIVE sends it, and the lists
of the next period start empty (R487, R488). -/
def State.closeDigest (s : State) (count : Nat) : State :=
  if ¬ s.paired then s
  else
    let b := s.digestBytes count
    let ids := s.stripIds
    let step := fun (k len n : Nat) => if len = 0 then 0 else (k + n) % len
    let mods : Store Nat := s.lck.states.map fun e =>
      (e.1, step (Store.get 0 s.lck.rotMods e.1) e.2.length (ceilDiv e.2.length 16))
    let s := if s.role = 1 then (s.sendObject tDigest b).peak Attr.pairDigestPeak 0 0 b.length else s
    { s with lck := { s.lck with
        events := [], counters := s.lck.counters.drop 256, timed := s.lck.timed.drop 64
        own := ((count, s.lck.mirrorBad, b) :: s.lck.own).take 4
        mirrorBad := false, rotEnv := step s.lck.rotEnv ids.length (ceilDiv ids.length 16), rotMods := mods } }

/-! ### Judgement (R491, R493, R494) -/

/-- The parts of a digest that are judged: groups with weld_crc, events, timed entries, envelope and module slices. -/
def digestParts (b : List Byte) : List (List Byte) :=
  let g := 4 * fieldAt b 16 2
  let e := 16 * fieldAt b 18 2
  let c := 16 * fieldAt b 20 2
  let t := 24 * fieldAt b 22 2
  [slice b 32 4 ++ slice b 64 g, slice b (64 + g) e, slice b (64 + g + e + c) t, b.drop (64 + g + e + c + t)]

/-- Whether two digests agree (R491); truncated events are not compared. -/
def digestsMatch (a b : List Byte) : Bool :=
  let x := digestParts a
  let y := digestParts b
  let cut := bit (fieldAt a 28 1) 0 || bit (fieldAt b 28 1) 0
  x.getD 0 [] == y.getD 0 [] && (cut || x.getD 1 [] == y.getD 1 []) && x.getD 2 [] == y.getD 2 [] &&
    x.getD 3 [] == y.getD 3 []

/-- The counter records of a digest: address, element, value. -/
def counterRecords (b : List Byte) : List (Nat × Nat × Nat) :=
  let o := 64 + 4 * fieldAt b 16 2 + 16 * fieldAt b 18 2
  (List.range (fieldAt b 20 2)).map fun i =>
    (fieldAt b (o + 16 * i) 4, fieldAt b (o + 16 * i + 4) 4, fieldAt b (o + 16 * i + 8) 8)

/-- The digest received whole, if there is one. -/
def State.digestIn (s : State) : Option (List Byte) :=
  let n := s.lck.digIn.length
  let b := s.lck.digIn.map (·.2)
  if 64 ≤ n ∧ fieldAt b 8 4 = n ∧ (s.lck.digIn.getLast?.map (·.1)).getD 0 + 1 = n then some b else none

/-- Whether the skew has kept its side of 2000 ns for a second. -/
def State.skewSettled (s : State) (wide : Bool) : Bool :=
  s.lck.skewOver == wide && decide (s.lck.skewSince + 1000000000 ≤ s.pair.now)

/-- A warming STANDBY becomes eligible (R493), an eligible one warming again (R494). -/
def State.judgeState (s : State) : State :=
  if s.role ≠ 2 then s
  else
    let st := s.n Attr.pairStandbyState 0 0
    let l := s.lck.judged
    if st = 2 ∧ s.pair.convergeEnd = 0 ∧ s.lck.passDone ∧ l.length = 64 ∧ l.all (· == 2) ∧ s.skewSettled false ∧
        s.n Attr.diaPresent 0 0 = 0 then
      (s.set Attr.pairStandbyState 0 0 3).logAt sevNotice Attr.pairStandbyState 0 0
    else if st = 3 ∧ (8 < (l.filter (· != 2)).length ∨ s.skewSettled true) then
      let s : State := { s with lck := { s.lck with passDone := false, converged := [] } }
      (s.set Attr.pairStandbyState 0 0 2).logAt sevWarning Attr.pairStandbyState 0 0
    else s

/-- The STANDBY judges the period that the count `count` opened, at the end of the one after it (R491). -/
def State.judge (s : State) (count : Nat) : State :=
  match (if s.role = 2 then s.lck.own.find? (·.1 == count) else none) with
  | none => s
  | some (_, bad, mine) =>
    let push (s : State) (v : Nat) : State := { s with lck := { s.lck with judged := (v :: s.lck.judged).take 64 } }
    let got : Option (List Byte) := match s.digestIn with
      | some b => if fieldAt b 0 8 = count ∧ fieldAt b 12 4 = fieldAt mine 12 4 then some b else none
      | none => none
    let s := match got with
      | none => (push s 0).bump Attr.pairUnconfirmed 0 0
      | some b =>
        let s := (counterRecords b).foldl (fun (s : State) (e : Nat × Nat × Nat) =>
          let code := e.1 / 2 ^ 24 * 256 + e.1 % 256
          s.set code (e.1 / 256 % 65536) e.2.1 (e.2.2 : Int)) s
        if digestsMatch b mine ∧ ¬ bad then
          (push s 2).set Attr.pairMatchRun 0 0 (Nat.min 65535 (s.n Attr.pairMatchRun 0 0 + 1) : Nat)
        else
          let s := ((push s 1).bump Attr.pairMismatches 0 0).set Attr.pairLastMismatch 0 0 count
          if s.n Attr.pairStandbyState 0 0 = 3 then s.logAt sevWarning Attr.pairMismatches 0 0 else s
    let s := if got.isSome ∧ s.lck.judged.headD 0 = 2 then s else s.set Attr.pairMatchRun 0 0 0
    s.judgeState

/-- Puts bytes at consecutive offsets. -/
def putBytes : Store Byte → Nat → List Byte → Store Byte
  | m, _, [] => m
  | m, k, b :: bs => putBytes (Store.put m k b) (k + 1) bs

/-- A fragment of an object enters a buffer of bytes by offset; frames of another count start it anew. -/
def fragmentIn (buf : Store Byte) (was count : Nat) (p : List Byte) : Store Byte :=
  putBytes (if was = count then buf else []) (fieldAt p 0 4) (p.drop 4)

/-- DIGEST (R487, R491): a fragment of the digest of the period before. -/
def digestFrame (now lane : Nat) (frame : List Byte) (s : State) : State :=
  match s.tetherIn tDigest now lane frame with
  | (none, s) => s
  | (some f, s) =>
    if s.role ≠ 2 then s
    else { s with lck := { s.lck with
        digIn := fragmentIn s.lck.digIn s.lck.digFor f.count f.payload, digFor := f.count } }
/-- DIGEST (R487). -/
def execDigest (now lane : Nat) (frame : List Byte) (s : State) : Host.Outcome State Fault Refusal :=
  .next (digestFrame now lane frame s)

/-! ### Adoption (R486) -/

/-- The items of a pass: the active strips, then the placed modules, numbered from 2 ^ 16. (DEDUCED, entry 54) -/
def State.adoptItems (s : State) : List Nat :=
  s.stripIds ++ (s.modules.filter fun e => s.a Attr.plcModuleCore 0 e.1 != 255).map fun e => 65536 + e.1

/-- The bytes of an item: a strip's record, or a module's STATE. -/
def State.adoptData (s : State) (item : Nat) : List Byte :=
  if item < 65536 then s.stripRecord item else (Store.get [] s.lck.states (item - 65536)).flatMap (leBytes 4)

/-- The ACTIVE sends the next item of the rotation while its peer is warming (R486): item, whether it opens a pass, the
count of the period, length and bytes. (DEDUCED, entry 54) -/
def State.sendAdopt (s : State) (count : Nat) : State :=
  if s.role ≠ 1 ∨ s.n Attr.pairPeerRole 0 0 ≠ 2 ∨ s.pair.peerState ≠ 2 then s
  else
    let l := s.adoptItems
    let k := s.lck.rotAdopt % Nat.max 1 l.length
    match l[k]? with
    | none => s
    | some item =>
      let d := s.adoptData item
      let s := s.sendObject tAdopt (leBytes 4 item ++ leBytes 4 (if k = 0 then 1 else 0) ++ leBytes 8 count ++
        leBytes 4 d.length ++ d)
      { s with lck := { s.lck with rotAdopt := k + 1 } }

/-- A module that differs runs on a spare core from the STATE received, against the same input half (R486).
(DEDUCED, entry 54) -/
def State.startTrial (s : State) (m : Nat) (words : List Nat) : State :=
  match s.mod? m, s.emptyCore with
  | some md, some c =>
    let old := s.n Attr.plcModuleCore 0 m
    if s.lck.shadow.isSome ∨ old = 255 ∨ s.headMove.isSome then s
    else
      let d := s.segData old md
      let d := ((md.image.data.filter fun r => r.kind == 1).foldl (fun (a : SegData × List Nat) r =>
        let ws : List Word24 := (List.range r.size).map fun i => BitVec.ofNat 24 (a.2.getD i 0)
        (if r.inY then { a.1 with y := Store.setMany 0 a.1.y r.base ws }
         else { a.1 with x := Store.setMany 0 a.1.x r.base ws }, a.2.drop r.size)) (d, words)).1
      let s := s.putSegs c m md d
      let s := s.setCore c { (s.core c).entry md.image.entry with run := some m, todo := [] }
      { s with lck := { s.lck with shadow := some ⟨m, c, false⟩ } }
  | _, _ => s

/-- A whole item is compared with the STANDBY's own for the same period (R486). (DEDUCED, entry 54) -/
def State.adoptItem (s : State) (b : List Byte) : State :=
  let item := fieldAt b 0 4
  let items := s.adoptItems
  let s : State := if fieldAt b 4 4 = 0 then s
    else { s with lck := { s.lck with
        passDone := s.lck.passDone || (s.lck.converged != [] && items.all fun i => s.lck.converged.contains i)
        converged := [] } }
  let data := b.drop 20
  if fieldAt b 8 8 + s.eng.cfg.n ≠ s.eng.count ∨ ¬ items.contains item then s
  else if s.adoptData item = data then
    { s with lck := { s.lck with converged := item :: s.lck.converged } }
  else if item < 65536 then
    let out := decide (32768 ≤ item)
    let x := if out then Store.get StripCtx.reset s.tmp.outCtx (item - 32768) else Store.get StripCtx.reset s.tmp.inEnd item
    { s with lck := { s.lck with adopting := s.lck.adopting ++ [(item, ctxOf out x s.eng.cfg.n data)] } }
  else s.startTrial (item - 65536) ((List.range (data.length / 4)).map fun i => fieldAt data (4 * i) 4)

/-- The strips adopted run again over the frame in work from the contexts received, which replace their own at the tick
(R486). `b` is the first sample of that frame. -/
def State.adoptStrips (s : State) (b : Nat) : State :=
  s.lck.adopting.foldl (fun s e =>
    if 32768 ≤ e.1 then
      { s with tmp := { s.tmp with outCtx := Store.put s.tmp.outCtx (e.1 - 32768) e.2.1 } }
    else
      let s1 : State := { s with tmp := { s.tmp with
        inCtx := Store.put s.tmp.inCtx e.1 e.2.1, front := Store.put s.tmp.front e.1 e.2.2 } }
      let t := evalFront b e.1 s1
      { s with tmp := t.tmp, fab := t.fab }) { s with lck := { s.lck with adopting := [] } }

/-- A fragment of an item to adopt (R486): the item is adopted once all of it has come. -/
def State.adoptPart (s : State) (f : TFrame) : State :=
  let buf := fragmentIn s.lck.adIn s.lck.adFor f.count f.payload
  let s : State := { s with lck := { s.lck with adIn := buf, adFor := f.count } }
  let b := buf.map (·.2)
  if 20 ≤ b.length ∧ fieldAt b 16 4 + 20 = b.length ∧ (buf.getLast?.map (·.1)).getD 0 + 1 = b.length then
    ({ s with lck := { s.lck with adIn := [] } } : State).adoptItem b
  else s

/-- ADOPT (R486): a fragment of an item; a whole item is compared, and a strip or module that differs is adopted. -/
def adoptFrame (now lane : Nat) (frame : List Byte) (s : State) : State :=
  match s.tetherIn tAdopt now lane frame with
  | (none, s) => s
  | (some f, s) =>
    if s.role ≠ 2 ∨ s.n Attr.pairStandbyState 0 0 ≠ 2 then s
    else s.adoptPart f
/-- ADOPT (R486). -/
def execAdopt (now lane : Nat) (frame : List Byte) (s : State) : Host.Outcome State Fault Refusal :=
  .next (adoptFrame now lane frame s)

/-! ### Convergence (R492) -/

/-- The convergence period in ms (R492): the longest configured delay plus a second. -/
def State.convergePeriod (s : State) : Nat :=
  let fs := s.eng.cfg.fs
  let delays (en dl most : Nat) : List Nat :=
    ((s.listed en).filter fun e => e.2.2 == 1 && decide (e.1 < most)).map fun e => ceilDiv (1000 * s.n dl e.1 0) fs
  let mods := s.modules.map fun e => ceilDiv (1000 * e.2.image.deeps.sum) (4 * fs)
  ((delays Attr.insDelayEnable Attr.insDelay s.eng.cfg.ins) ++
    (delays Attr.outsDelayEnable Attr.outsDelay s.eng.cfg.D) ++ mods).foldl Nat.max 0 + 1000

/-- CONVERGENCE_EXPIRY (R492): the convergence period of a STANDBY has run out. -/
def convergenceExpiry (s : State) : State :=
  if s.role ≠ 2 ∨ s.pair.convergeEnd = 0 then s
  else
    ({ s with pair := { s.pair with now := Nat.max s.pair.now s.pair.convergeEnd, convergeEnd := 0 } } : State).judgeState
/-- CONVERGENCE_EXPIRY (R492). -/
def execConvergenceExpiry (s : State) : Host.Outcome State Fault Refusal := .next (convergenceExpiry s)

end Sys2Proof.Machine
end

