-- ==== Sys2Proof/Machine/Writes.lean ====
section
/-! DEFINITION. A write of an attribute without a row of its own (R441): the rules that its chapter lays on it, the value
stored, and what follows at once. -/

namespace Sys2Proof.Machine

/-! ### Byte objects and strings -/

/-- A byte object with bytes written at an offset; bytes in between that nothing has written are 0. -/
def blobPut (old : List Byte) (off : Nat) (data : List Byte) : List Byte :=
  let head := old.take off
  head ++ List.replicate (off - head.length) 0 ++ data ++ old.drop (off + data.length)

/-- Whether every byte is 0. -/
def allZero (b : List Byte) : Bool := b.all (· == 0)

/-- Writes the values of a request: numbers, the 16 bytes of a string, or bytes of a byte object. -/
def State.storeAny (s : State) (c : Ctx) : State :=
  let k := attrKey c.code c.q.inst 0
  if c.row.ty = 11 then
    { s with blobs := Store.set [] s.blobs k (if allZero c.q.data then [] else c.q.data) }
  else if c.row.ty = 12 then
    { s with blobs := Store.set [] s.blobs k (blobPut (Store.get [] s.blobs k) c.q.elem c.q.data) }
  else s.store c

/-! ### The rules of the chapters -/

/-- A refusal of a scalar write. -/
def bad (code : Nat) (cond : Bool) : Option Fail := if cond then some ⟨code, 0, []⟩ else none

/-- A refusal with RANGE at the first element that breaks a rule. -/
def badElem (p : Nat → Int → Bool) : Nat → List Int → Option Fail
  | _, [] => none
  | e, v :: vs => if p e v then some ⟨rRange, e, []⟩ else badElem p (e + 1) vs

/-- Attributes of an enabled stream that a write does not reach, beside those its charge rests on (R430, R431). -/
def streamFixed (code : Nat) : Bool :=
  [Attr.rxDstAddr, Attr.rxSrcAddr, Attr.rxUdpPort, Attr.rxPayloadType, Attr.rxLinkOffset].contains code

/-- The same for transmit streams. -/
def sendFixed (code : Nat) : Bool :=
  [Attr.txDstAddr, Attr.txUdpPort, Attr.txSrcUdp, Attr.txPayloadType, Attr.txSsrc, Attr.txTtl].contains code

/-- Whether an input word may be written: a SAP port and channel, a receive stream and channel, or none, with every other
bit 0 (R174). -/
def inputOk (w : Nat) : Bool :=
  field w 6 10 == 0 && field w 26 2 == 0 &&
  (match w / 2 ^ 28 with
   | 0 => w == 0
   | 1 => decide (field w 16 10 < 32) && decide (w % 64 < 2)
   | 2 => decide (field w 16 10 < 512)
   | _ => false)

/-- Why a write is refused by the rule of its own attribute. -/
def State.writeBad (s : State) (c : Ctx) : Option Fail :=
  let n := c.q.inst
  let v := c.arg.toNat
  if c.code = Attr.engFamily then bad rState (v != 0 && s.shape == 1)
  else if c.code = Attr.engShape then bad rRange (v == 1 && s.fam != 0)
  else if c.code = Attr.insInput then bad rRange (!inputOk v)
  else if c.code = Attr.modImage then
    (match bad rRange (decide (1048576 < c.q.elem + c.q.count)) with
     | some f => some f
     | none => bad rState (s.mod? n).isSome)
  else if c.code = Attr.fwImage then bad rRange (decide (16777216 < c.q.elem + c.q.count))
  else if c.code = Attr.loudChannels then badElem (fun _ x => !s.tapOk x.toNat) c.q.elem c.vals
  else if c.code = Attr.memParkMaster ∧ n = 0x300 then
    badElem (fun t x => x != 0xFF && !reaches x.toNat t) c.q.elem c.vals
  else if c.code = Attr.mdEnable then
    if n = 0 then bad rAccess true else bad rState (v == 0 && decide (0 < s.users n))
  else if c.code = Attr.sapClocking ∨ c.code = Attr.sapFormat ∨ c.code = Attr.sapSlot then
    bad rState (s.n Attr.sapEnable n 0 == 1)
  else if c.code = Attr.sapOutSrc ∨ c.code = Attr.txChSrc then
    badElem (fun _ x => x != 0xFFFF && decide ((s.D : Int) ≤ x)) c.q.elem c.vals
  else if c.code = Attr.portMode then bad rState (s.n Attr.portEnable n 0 == 1)
  else if streamFixed c.code ∧ s.n Attr.rxEnable n 0 = 1 then bad rState true
  else if sendFixed c.code ∧ s.n Attr.txEnable n 0 = 1 then bad rState true
  else if c.code = Attr.rxLinkOffset then
    bad rRange (decide (v * s.domRate (s.n Attr.rxDomain n 0) < 1000000 * s.packetLen rxAttrs n ∨ 20000 < v))
  else if c.code = Attr.rxGroup then
    bad rState (v != 0xFF && (s.groupDomains v none (some n)).any (· != s.n Attr.rxDomain n 0))
  else if c.code = Attr.scnName then bad rState (s.n Attr.scnPresent n 0 == 0)
  else none

/-- What follows a write at once. -/
def State.afterWrite (s : State) (c : Ctx) : State :=
  let n := c.q.inst
  let v := c.arg.toNat
  if c.code = Attr.refEnable then (if v = 0 then s.disqualify n false else s.chooseRef)
  else if [Attr.refQuality, Attr.refPriority, Attr.heaMode, Attr.heaForcedRef].contains c.code then s.chooseRef
  else if c.code = Attr.heaHostTemperature then { s with hea := { s.hea with stale := false } }
  else if c.code = Attr.tbMaxRate then s.setTbRate n (s.a Attr.tbRate n 0)
  else if c.code = Attr.ptpEnable ∧ 0x100 ≤ n then s.ptpEval (n - 0x100)
  else if (c.code = Attr.ptpProfile ∨ c.code = Attr.ptpDomain) ∧ 0x100 ≤ n then
    let s := if c.code = Attr.ptpProfile then s.loadProfile (n - 0x100) else s
    if s.ptpOn (n - 0x100) then s.dropMasters (n - 0x100) 4 else s
  else if c.code = Attr.portEnable then s.ptpEval n
  else if c.code / 256 = 0x34 then s.silPins
  else s

/-- WRITE (R441): a write that its row and the rule of its attribute allow is committed. -/
def writeValue (c : Ctx) (s : State) : Answer :=
  if c.code = Attr.plcSpareCores then admitWrite c s
  else if c.code = Attr.insCompKeyCoef ∨ c.code = Attr.outsCompKeyCoef then writeCoefs c s
  else match (if c.atOnce then none else s.writeBad c) with
    | some f => .error f
    | none => ok ((s.storeAny c).afterWrite c)

/-- WRITE (R441). -/
def execWrite (q : Req) (s : State) : Host.Outcome State Fault Refusal := .next (serve .write writeValue q s)

/-! ### Clear actions (R452) -/

/-- CLEAR_COUNTS (R452): the counters and peaks that the action names read 0. -/
def clearCounts (c : Ctx) (s : State) : Answer :=
  let s := ((clearTargets c.code c.q.inst).getD []).foldl (fun s code => s.clearAttr code c.q.inst) s
  let s : State := if c.code = Attr.engClearCounts then { s with eng := { s.eng with peakUse := [] } } else s
  let seen : List Nat := if c.code = Attr.monClearMax ∨ c.code = Attr.vmClearMax then s.hlt.seen.filter (· != c.q.inst) else s.hlt.seen
  ok { s with hlt := { s.hlt with seen := seen } }
/-- CLEAR_COUNTS (R452). -/
def execClearCounts (q : Req) (s : State) : Host.Outcome State Fault Refusal := .next (serve .clearCounts clearCounts q s)

end Sys2Proof.Machine
end

