-- ==== Sys2Proof/Machine/Yugal.lean ====
section
/-! DEFINITION. Yugal around the requests (R433 to R438, R445, R448, R456 to R462, R466): arrival of frames, the SPI host
port, kept replies, sessions and keys, node_id. -/

namespace Sys2Proof.Machine

/-! ### Arrival (R434, R438, R441, R445) -/

/-- A frame joins the queue of 32, or is dropped (R445). -/
def State.enqueue (s : State) (q : Req) : State :=
  if 32 ≤ s.yug.queue.length then s.bump Attr.yugQueueDrops 0 0
  else { s with yug := { s.yug with queue := s.yug.queue ++ [q], spiBusy := s.yug.spiBusy || q.via == 0 } }

/-- A frame's last byte arrives on a transport: it is discarded under R438 or joins the queue. -/
def State.frameArrives (s : State) (via peer : Nat) (bytes : List Byte) : State :=
  if 4 < via ∨ s.pow.pwrOff then s
  else if ¬ s.transportOn via then s.noTransport via
  else
    match parseFrame via peer bytes with
    | none => (s.bump Attr.yugRxFrames 0 via).bump Attr.yugBadFrames 0 via
    | some q =>
      match s.arrive q with
      | .no => s
      | .dropped t => t
      | .got t => t.enqueue q

/-- A WRITE_FRAME transaction on the SPI host port (R461, R462): it ends the held reply, unless a request is in
progress. -/
def State.spiFrame (s : State) (bytes : List Byte) : State :=
  if s.pow.pwrOff then s
  else
  let s := { s with yug := { s.yug with miso := [0] } }
  if s.yug.spiBusy then s.bump Attr.yugSpiOverruns 0 0
  else ({ s with yug := { s.yug with spiReply := [], spiReady := false } }).frameArrives 0 0 bytes

/-- YUGAL_FRAME_ARRIVAL (R445). -/
def yugalFrameArrival (via peer : Nat) (bytes : List Byte) (s : State) : State :=
  if via = 0 then s.spiFrame bytes else s.frameArrives via peer bytes
/-- YUGAL_FRAME_ARRIVAL (R445). -/
def execYugalFrameArrival (via peer : Nat) (bytes : List Byte) (s : State) : Host.Outcome State Fault Refusal :=
  .next (yugalFrameArrival via peer bytes s)

/-- KEPT_REPLY_EXPIRY (R448): the oldest kept reply reaches 2 s. (DEDUCED, entry 51) -/
def keptReplyExpiry (s : State) : State := { s with yug := { s.yug with kept := s.yug.kept.dropLast } }
/-- KEPT_REPLY_EXPIRY (R448). -/
def execKeptReplyExpiry (s : State) : Host.Outcome State Fault Refusal := .next (keptReplyExpiry s)

/-! ### The SPI host port (R461, R462)

In OFF a transaction only wakes the chip, which is the event WAKE (R542). -/

/-- WRITE_FRAME (R461). -/
def writeFrame (bytes : List Byte) (s : State) : State := s.spiFrame bytes
/-- WRITE_FRAME (R461). -/
def execWriteFrame (bytes : List Byte) (s : State) : Host.Outcome State Fault Refusal := .next (writeFrame bytes s)

/-- READ_STATE (R461): reply ready, request in progress, reply length. -/
def readState (s : State) : State :=
  if s.pow.pwrOff then s
  else { s with yug := { s.yug with
      miso := [byteOf 0xFF, byteOf (b2n s.yug.spiReady + 2 * b2n s.yug.spiBusy), 0] ++ leBytes 2 s.yug.spiReply.length } }
/-- READ_STATE (R461). -/
def execReadState (s : State) : Host.Outcome State Fault Refusal := .next (readState s)

/-- READ_REPLY (R462): `wanted` bytes of the held reply, zeros beyond its end. -/
def readReply (wanted : Nat) (s : State) : State :=
  if s.pow.pwrOff then s
  else { s with yug := { s.yug with
      miso := byteOf 0xFF :: (List.range wanted).map fun i => s.yug.spiReply.getD i 0 } }
/-- READ_REPLY (R462). -/
def execReadReply (wanted : Nat) (s : State) : Host.Outcome State Fault Refusal := .next (readReply wanted s)

/-- SPI_BAD_COMMAND (R461): an undefined command byte; 1 to 3 are no such event. -/
def spiBadCommand (command : Byte) (s : State) : State :=
  if s.pow.pwrOff ∨ (1 ≤ command.toNat ∧ command.toNat ≤ 3) then s
  else ({ s with yug := { s.yug with miso := [0] } }).bump Attr.yugBadFrames 0 0
/-- SPI_BAD_COMMAND (R461). -/
def execSpiBadCommand (command : Byte) (s : State) : Host.Outcome State Fault Refusal := .next (spiBadCommand command s)

/-! ### Sessions (R457 to R459) -/

/-- A session ID that is free, from 1 to 65535, searched from `id`. (DEDUCED, entry 43) -/
def State.freeSession (s : State) : (fuel id : Nat) → Nat
  | 0, id => id
  | f + 1, id =>
    let id := if 65535 < id ∨ id = 0 then 1 else id
    if s.yug.sessions.any (·.id == id) then s.freeSession f (id + 1) else id

/-- OPEN_SESSION (R457): the session ID and a device nonce; the session key is derived from them.
(DEDUCED, entry 43) -/
def openSession (c : Ctx) (s : State) : Answer :=
  let slot := c.arg.toNat
  let nonce := c.q.data.drop 1
  if 7 < slot then refuse rRange
  else match Store.find? s.yug.keys slot with
    | none => refuse rState
    | some key =>
      if 16 ≤ s.yug.sessions.length then refuse rBusy
      else
        let (k, s) := s.fresh
        let r := Config.randomBytes k 16
        let dev := (List.range 16).map fun i => r.getD i 0
        let id := s.freeSession 17 s.yug.nextSession
        let key := hmac key ([0x59, 0x47, 0x53, 0x31].map byteOf ++ nonce ++ dev ++ leBytes 2 id)
        .ok ({ s with yug := { s.yug with
                sessions := s.yug.sessions ++ [Session.mk id slot key none 0], nextSession := id + 1 } },
             { data := leBytes 2 id ++ dev })
/-- OPEN_SESSION (R457). -/
def execOpenSession (q : Req) (s : State) : Host.Outcome State Fault Refusal := .next (serve .openSession openSession q s)

/-- Closes the sessions that a test picks. -/
def State.closeSessions (s : State) (p : Session → Bool) : State :=
  { s with yug := { s.yug with sessions := s.yug.sessions.filter fun k => !p k } }

/-- CLOSE_SESSION (R457). (DEDUCED, entry 43) -/
def closeSession (c : Ctx) (s : State) : Answer :=
  let id := c.arg.toNat
  if s.yug.sessions.any (·.id == id) then ok (s.closeSessions (·.id == id)) else refuse rRange
/-- CLOSE_SESSION (R457). -/
def execCloseSession (q : Req) (s : State) : Host.Outcome State Fault Refusal := .next (serve .closeSession closeSession q s)

/-- SESSION_TIMEOUT (R457): 60 s with no valid frame. -/
def sessionTimeout (id : Nat) (s : State) : State := s.closeSessions (·.id == id)
/-- SESSION_TIMEOUT (R457). -/
def execSessionTimeout (id : Nat) (s : State) : Host.Outcome State Fault Refusal := .next (sessionTimeout id s)

/-! ### Keys (R456) -/

/-- KEY (R456, R463): all 32 bytes in one write. (DEDUCED, entry 43) -/
def writeKey (c : Ctx) (s : State) : Answer :=
  if c.q.elem ≠ 0 ∨ c.q.count ≠ 32 then refuse rRange
  else ok { s with yug := { s.yug with keys := Store.put s.yug.keys c.q.inst c.q.data } }
/-- KEY (R456). -/
def execKey (q : Req) (s : State) : Host.Outcome State Fault Refusal := .next (serve .key writeKey q s)

/-- KEY_ERASE (R456): the slot is emptied and its sessions close. -/
def keyErase (c : Ctx) (s : State) : Answer :=
  let k := c.q.inst
  ok (({ s with yug := { s.yug with keys := Store.keep (fun i => i != k) s.yug.keys } }).closeSessions (·.slot == k))
/-- KEY_ERASE (R456). -/
def execKeyErase (q : Req) (s : State) : Host.Outcome State Fault Refusal := .next (serve .keyErase keyErase q s)

/-! ### The node (R466) -/

/-- NODE_ID (R466): node_id or udp_port; the reply to the write still carries the old node_id. -/
def writeNode (c : Ctx) (s : State) : Answer := ok (s.store c)
/-- NODE_ID (R466). -/
def execNodeId (q : Req) (s : State) : Host.Outcome State Fault Refusal := .next (serve .nodeId writeNode q s)

end Sys2Proof.Machine
end

