-- ==== Sys2Proof/Machine/Commands.lean ====
section
/-! DEFINITION. Requests that are performed without a frame of the host: timed changes that fall due (R121, R126), MIRROR
records (R483), the enrolled state (R485) and the records of replay (R512, R513). -/

namespace Sys2Proof.Machine

/-- The effect of a row that a record can name; the rows that none can name are refused. -/
def effectOf : Row → Effect
  | .go => go
  | .clearCounts => clearCounts
  | .gain => writeGain
  | .idleGain => writeIdleGain
  | .occupant => writeOccupant
  | .strike => doStrike
  | .cancelStrike => cancelStrike
  | .copyLiveToIdle => copyLiveToIdle
  | .clearIdle => clearIdle
  | .fader => writeFader
  | .trim => writeTrim
  | .polarity => writePolarity
  | .cut => writeCut
  | .preampGain => writePreampGain
  | .cancelTimed => cancelTimed
  | .coef => writeCoefs
  | .sectionBypass => writeSectionBypass
  | .delayEnable => writeDelayEnable
  | .delay => writeDelay
  | .compKey => writeCompKey
  | .insert => writeInsert
  | .insertBypass => writeInsertBypass
  | .loudnessStart => loudnessStart
  | .loudnessStop => loudnessStop
  | .loudnessReset => loudnessReset
  | .silence => writeSilence
  | .stripMap => writeStripMap
  | .defragment => defragment
  | .reinstateCore => reinstateCore
  | .load => loadModule
  | .unload => unloadModule
  | .inSrc => writeInSrc
  | .const => writeConst
  | .marchRun => marchRun
  | .clearWtr => clearWtr
  | .modelReset => modelReset
  | .tbEnable => writeTimeBaseEnable
  | .tbSource => writeSource
  | .restep => restep
  | .rate => writeRate
  | .timeBase => writeTimeBase
  | .sapSetting => writeSapSetting
  | .streamEnable => writeStream
  | .binding => writeBinding
  | .write => writeValue
  | .nodeId => writeNode
  | .pairEnable => writePairEnable
  | .save => save
  | .stage => stage
  | .delete => deleteScene
  | .clearConditions => clearConditions
  | .control => writeControl
  | .clearMask => clearMask
  | .tagClear => tagClear
  | .tmuxSelect => tmuxSelect
  | _ => fun _ _ => refuse rType

/-! ### Timed changes that fall due (R121, R126, R129) -/

/-- A state with one timed change withdrawn from those that wait (R128, R134). -/
def State.without (s : State) (id : Nat) : State :=
  let s : State := { s with bel := { s.bel with timed := s.bel.timed.filter (·.id != id) } }
  s.set Attr.belTimedPending 0 0 s.bel.timed.length

/-- The effect of a timed change that has fallen due: it is journalled, and elements that a change accepted later has written
for the same frame keep what that one wrote (R129, R137). -/
def State.applyTimed (s : State) (c : Ctx) : State :=
  let lost := c.keys.filter (s.overtaken c)
  if lost ≠ [] ∧ lost = c.keys then s
  else match effectOf (rowOf c.q) c s with
  | .ok (u, _) =>
    if c.q.op = 5 then u
    else
      let u := lost.foldl (fun (u : State) k =>
        u.set (keyCode k) (keyInst k) (keyElem k) (s.a (keyCode k) (keyInst k) (keyElem k))) u
      (u.noteStored c).journal c
  | .error f => s.bumps f.counts

/-- A change that applies late is counted, warned of and noted (R126). -/
def State.countLate (s : State) (q : Req) : State :=
  ((s.bump Attr.belLateCount 0 0).logAt sevWarning Attr.belLateCount 0 0).note 9 (address (reqCode q) q.inst) q.elem
    s.eng.count

/-- TIMED_CHANGE_DUE (R121, R126, R129): a change that the hardware holds applies from its due sample and is journalled. One
that the supervisor holds waits for a place, and applies late when its sample can no longer be reached; one that its
checks refuse by then is withdrawn. (DEDUCED, entry 57) -/
def timedChangeDue (id : Nat) (s : State) : State :=
  match s.bel.timed.find? (·.id == id) with
  | none => s
  | some t =>
    let reach := s.reach (reqCode t.req) t.req.inst
    if (if s.ticking then reach + (if t.inHardware then s.eng.cfg.n else 0) ≤ t.due else s.countNow < t.due) then s
    else match s.checks t.req with
      | .error _ => s.without id
      | .ok c =>
        let c : Ctx := { c with accepted := true, id := some id, mirrored := true }
        if s.ticking && !t.inHardware && decide (t.due < reach) then
          ((s.without id).countLate t.req).applyTimed { c with due := if c.q.op = 5 then some s.eng.count else none }
        else (s.without id).applyTimed { c with due := some t.due }
/-- TIMED_CHANGE_DUE (R121). -/
def execTimedChangeDue (id : Nat) (s : State) : Host.Outcome State Fault Refusal := .next (timedChangeDue id s)

/-! ### Mirrored writes (R483, R484) -/

/-- The slips a record may name. -/
def slowSlip (code : Nat) : Bool :=
  [Attr.sapSlipsSlow, Attr.sapSlipsSlowGroup, Attr.rxSlipsSlow, Attr.txSlipsSlow].contains code

/-- A request of a body that no frame brings. -/
def bodyReq (b : List Byte) : Req := (parseBody b).req 0 0 1 0 0 4096 0 none [] true

/-- Performs a mirrored request; one that is refused makes its period a mismatch (R483). -/
def State.performMirror (s : State) (q : Req) : State :=
  let bad : State := { s with lck := { s.lck with mirrorBad := true } }
  match s.checks q with
  | .error _ => bad
  | .ok c =>
    let c : Ctx := { c with mirrored := true }
    match s.shared c with
    | some _ => bad
    | none =>
      match perform (effectOf (rowOf q)) c s with
      | .ok (t, _) => t
      | .error f => bad.bumps f.counts

/-- Applies a MIRROR record (R483, R484): a slip waits for its tick, anything else is performed. -/
def State.applyMirror (s : State) (r : MirrorRec) : State :=
  let s : State :=
    if fieldAt r.body 0 1 = 6 then
      let a := fieldAt r.body 4 4
      let code := a / 2 ^ 24 * 256 + a % 256
      { s with pair := { s.pair with
          slips := s.pair.slips ++ [PairSlip.mk (fieldAt r.body 16 8) code (a / 256 % 65536) (slowSlip code)] } }
    else s.performMirror (bodyReq r.body)
  { s with pair := { s.pair with lastApplied := r.seq } }

/-- Applies the records held for the tick of count `count`, and counts the late ones (R483). -/
def State.applyMirrors (s : State) (count : Nat) : State :=
  let due := s.pair.mirror.filter fun r => decide (r.period ≤ count)
  let s : State := { s with pair := { s.pair with mirror := s.pair.mirror.filter fun r => decide (count < r.period) } }
  due.foldl (fun s r =>
    (if r.period < count then s.bump Attr.pairMirrorLate 0 0 else s).applyMirror r) s

/-- A MIRROR record in its turn (R483, R484): applied in its period, late and counted after it, kept while its period has not
come, another is kept before it, or the STANDBY still enrols. -/
def State.takeMirror (s : State) (r : MirrorRec) : State :=
  let hold : State := { s with pair := { s.pair with mirror := s.pair.mirror ++ [r] } }
  if s.n Attr.pairStandbyState 0 0 = 1 then hold
  else if s.eng.count < r.period ∨ s.pair.mirror ≠ [] then hold
  else (if r.period < s.eng.count then s.bump Attr.pairMirrorLate 0 0 else s).applyMirror r

/-- MIRROR (R483): a STANDBY applies the records in order, each in its stamped period, and enrols again where one is
missing; while it enrols they queue. -/
def mirrorFrame (now lane : Nat) (frame : List Byte) (s : State) : State :=
  let last := Store.find? s.pair.seqIn tMirror
  match s.tetherIn tMirror now lane frame with
  | (none, s) => s
  | (some f, s) =>
    if s.role ≠ 2 then s
    else if last.any (fun l => (l + 1) % 2 ^ 32 != f.seq) then s.beginEnrol
    else s.takeMirror ⟨f.seq, fieldAt f.payload 0 8, f.payload.drop 8⟩
/-- MIRROR (R483). -/
def execMirror (now lane : Nat) (frame : List Byte) (s : State) : Host.Outcome State Fault Refusal :=
  .next (mirrorFrame now lane frame s)

/-! ### Records of persistent state (R509, R512) -/

/-- The request of a WRITE record (R509). (DEDUCED, entry 63) -/
def writeReq (p : List Byte) : Req :=
  let a := fieldAt p 0 4
  let code := a / 2 ^ 24 * 256 + a % 256
  let inst := a / 256 % 65536
  let arr : Bool := match rowAt code inst with
    | some r => r.ty != 11 && r.len != .scalar
    | none => false
  { via := 0, peer := 0, src := 1, dst := 0, seq := 0, maxReply := 4096, session := 0, trailer := none, signed := []
    formed := true, op := if arr then 4 else 2, cls := code / 256, inst := inst, attr := code % 256
    elem := if arr then fieldAt p 4 4 else 0, count := if arr then fieldAt p 8 4 else 0
    ramp := none, shape := none, when_ := none, token := none, data := p.drop 12 }

/-- The request of an ACTION record. (DEDUCED, entry 63) -/
def actionReq (p : List Byte) : Req :=
  let a := fieldAt p 0 4
  { via := 0, peer := 0, src := 1, dst := 0, seq := 0, maxReply := 4096, session := 0, trailer := none, signed := []
    formed := true, op := 5, cls := a / 2 ^ 24, inst := a / 256 % 65536, attr := a % 256, elem := 0, count := 0
    ramp := none, shape := none, when_ := none, token := none, data := p.drop 4 }

/-- Performs a request of replay: its final value at once (R512). (DEDUCED, entry 63) -/
def State.replayReq (s : State) (q : Req) : State :=
  match s.checks q with
  | .error _ => s
  | .ok c =>
    match effectOf (rowOf q) { c with atOnce := true } s with
    | .ok (t, _) => t
    | .error _ => s

/-- Restores the Hearth model from its record (R360). -/
def State.restoreModel (s : State) (p : List Byte) : State :=
  let at_ (off n : Nat) : Int := signed (8 * n) (fieldAt p off n)
  let s := (List.range 4).foldl (fun s i => s.set Attr.heaModelCoef 0 i (at_ (4 * i) 4)) s
  let s := (List.range 2).foldl (fun s i => s.set Attr.heaModelRange 0 i (at_ (18 + 2 * i) 2)) (s.set Attr.heaModelT0 0 0 (at_ 16 2))
  let s := (s.set Attr.heaModelHistory 0 0 (fieldAt p 22 4)).set Attr.heaModelAge 0 0 (fieldAt p 26 4)
  { s with hea := { s.hea with restored := true, resumed := true, train := [], acc := [], written := fieldAt p 22 4 } }

/-- A whole IMAGE object of an instance: a module's image is staged and loaded, a plane takes its nodes. -/
def State.restoreImage (s : State) (m : Nat) (b : List Byte) : State :=
  if planeInst 0 ≤ m then
    let nodes := (sceneNodes b).getD []
    if m = planeInst 0 then { s with cru := { s.cru with planeA := nodes } }
    else { s with cru := { s.cru with planeB := nodes } }
  else
    let s : State := { s with blobs := Store.set [] s.blobs (attrKey Attr.modImage m 0) b }
    match rowAt Attr.modLoad m with
    | some r =>
      (match loadModule { q := actionReq (leBytes 4 (address Attr.modLoad m) ++ [byteOf 0]), row := r, code := Attr.modLoad,
                          vals := [0], atOnce := true } s with
       | .ok (t, _) => t
       | .error _ => s)
    | none => s

/-- Applies records in order (R512); the chunks of an object that is open are gathered in `open_`.
(DEDUCED, entry 63) -/
def applyRecs : (open_ : Option (Nat × List Byte)) → List Rec → State → State
  | none, [], s => s
  | some (m, b), [], s => s.restoreImage m b
  | open_, r :: rs, s =>
    let m := fieldAt r.payload 0 4
    let off := fieldAt r.payload 4 4
    let goesOn := r.typ == 3 && open_.any fun e => e.1 == m && e.2.length == off
    let s : State := match open_ with
      | some (k, b) => if goesOn then s else s.restoreImage k b
      | none => s
    match r.typ with
    | 1 => applyRecs none rs (s.replayReq (writeReq r.payload))
    | 2 => applyRecs none rs (s.replayReq (actionReq r.payload))
    | 3 => applyRecs (some (m, (if goesOn then (open_.map (·.2)).getD [] else []) ++ r.payload.drop 8)) rs s
    | 4 => applyRecs none rs (s.enterScene r.payload)
    | 5 =>
      let t := fieldAt r.payload 1 2
      applyRecs none rs (if s.n Attr.tbEnable t 0 = 1 then s.setTime t (fieldAt r.payload 12 8) else s)
    | 6 => applyRecs none rs (s.restoreModel r.payload)
    | _ => applyRecs none rs s

/-! ### The enrolled state (R485) -/

/-- Signed 8-byte words. -/
def words8 (l : List Int) : List Byte := l.flatMap fun v => leBytes 8 (toBits 64 v)
/-- Word `i` of 8 bytes. -/
def word8 (b : List Byte) (i : Nat) : Int := signed 64 (fieldAt b (8 * i) 8)
/-- The same as a natural number. -/
def nat8 (b : List Byte) (i : Nat) : Nat := (word8 b i).toNat

/-- A ramped parameter in four words. -/
def paramWords : RParam → List Int
  | .node p r d => [0, p, r, d]
  | .inFader n => [1, n, 0, 0]
  | .outFader n => [2, n, 0, 0]
  | .swap n => [3, n, 0, 0]
/-- Reads a ramped parameter from word `i`. -/
def paramAt (b : List Byte) (i : Nat) : RParam :=
  match nat8 b i with
  | 0 => .node (nat8 b (i + 1)) (nat8 b (i + 2)) (nat8 b (i + 3))
  | 1 => .inFader (nat8 b (i + 1))
  | 2 => .outFader (nat8 b (i + 1))
  | _ => .swap (nat8 b (i + 1))

/-- An optional count in two words. -/
def optWords (x : Option Nat) : List Int := match x with
  | some v => [1, (v : Int)]
  | none => [0, 0]
/-- Reads an optional count. -/
def optAt (b : List Byte) (i : Nat) : Option Nat := if nat8 b i = 0 then none else some (nat8 b (i + 1))

/-- A ramp with its stretches. -/
def rampRec (r : Ramp) : Rec :=
  ⟨16, words8 (paramWords r.param ++ [b2i r.slot] ++ r.segs.flatMap fun g =>
    [g.g0, g.g1, (g.len : Int), (g.shape : Int), (g.first : Int), (g.ord : Int)])⟩
/-- Reads a ramp. -/
def rampAt (b : List Byte) : Ramp :=
  ⟨paramAt b 0, (List.range ((b.length / 8 - 5) / 6)).map fun i =>
    let k := 5 + 6 * i
    Seg.mk (word8 b k) (word8 b (k + 1)) (nat8 b (k + 2)) (nat8 b (k + 3)) (nat8 b (k + 4)) (nat8 b (k + 5)), nat8 b 4 == 1⟩

/-- A queued group. -/
def groupRec (g : Group) : Rec :=
  ⟨17, words8 (optWords g.due ++ g.ramps.flatMap fun r =>
    paramWords r.param ++ [r.target, (r.len : Int), (r.shape : Int), r.g0, (r.ord : Int)])⟩
/-- Reads a queued group. -/
def groupAt (b : List Byte) : Group :=
  ⟨(List.range ((b.length / 8 - 2) / 9)).map fun i =>
    let k := 2 + 9 * i
    NewRamp.mk (paramAt b k) (word8 b (k + 4)) (nat8 b (k + 5)) (nat8 b (k + 6)) (word8 b (k + 7)) (nat8 b (k + 8)), optAt b 0⟩

/-- A Class Z parameter in two words. -/
def zWords : ZParam → List Int
  | .trim n => [0, n]
  | .polarity n => [1, n]
  | .inCut n => [2, n]
  | .outCut n => [3, n]
  | .preamp n => [4, n]
/-- Reads a Class Z parameter. -/
def zParamAt (b : List Byte) : ZParam :=
  let n := nat8 b 1
  match nat8 b 0 with
  | 0 => .trim n
  | 1 => .polarity n
  | 2 => .inCut n
  | 3 => .outCut n
  | _ => .preamp n

/-- A pending Class Z change. -/
def zRec (z : ZPend) : Rec :=
  ⟨18, words8 (zWords z.param ++ [z.old, z.new, (z.first : Int), (z.len : Int)] ++ optWords z.stepAt ++
    [b2i z.timedOut, b2i z.release])⟩
/-- Reads a pending Class Z change. -/
def zRecAt (b : List Byte) : ZPend :=
  ⟨zParamAt b, word8 b 2, word8 b 3, nat8 b 4, nat8 b 5, optAt b 6, nat8 b 8 == 1, nat8 b 9 == 1⟩

/-- A pending timed change: its due sample, its holder, its place in the order of acceptance, its time on MD0's time base,
its request. -/
def timedRec (t : Timed) : Rec :=
  ⟨19, words8 [(t.due : Int), b2i t.inHardware, (t.id : Int), (t.at_ : Int)] ++ bodyBytes t.req⟩
/-- A strike that is pending or runs. -/
def strikeRec (state : Nat) (k : Strike) : Rec := ⟨20, words8 [(k.first : Int), (k.len : Int), (k.law : Int), (state : Int)]⟩

/-- The records of the state that a STANDBY takes (R485). (DEDUCED, entry 53) -/
def State.enrolRecs (s : State) : List Rec :=
  s.moduleRecs ++ s.attrRecs replicated ++ s.planeRecs ++ s.bel.ramps.map rampRec ++ s.bel.queue.map groupRec ++
    s.bel.zs.map zRec ++ s.bel.timed.map timedRec ++
    (match s.cru.strike with
     | some k => [strikeRec (s.n Attr.cruStrikeState 0 0) k]
     | none => [])

/-- A list of records as bytes: length, type, payload. -/
def recsBytes (l : List Rec) : List Byte := l.flatMap fun r => leBytes 2 r.payload.length ++ [byteOf r.typ] ++ r.payload
/-- Reads records from bytes. -/
def recsAt : (fuel : Nat) → List Byte → List Rec
  | 0, _ => []
  | f + 1, b =>
    if b.length < 3 then []
    else
      let n := fieldAt b 0 2
      ⟨fieldAt b 2 1, slice b 3 n⟩ :: recsAt f (b.drop (3 + n))

/-- What an ACTIVE answers an enrolling STANDBY that has `off` bytes: from 0 the state as it stands now, then the next
fragment of it. (DEDUCED, entry 53) -/
def State.serveEnrol (s : State) (off : Nat) : State :=
  let s : State :=
    if off = 0 then
      let recs := recsBytes s.enrolRecs
      let sE := Store.get 0 s.pair.seqOut tMirror
      let b := leBytes 4 sE ++ leBytes 4 (8 + recs.length) ++ recs
      { s with pair := { s.pair with sE := some sE, enrol := putBytes [] 0 b, enrolLen := b.length, acked := 0 } }
    else { s with pair := { s.pair with acked := off } }
  let len := s.pair.enrolLen
  let s := s.set Attr.pairEnrolProgress 0 0 ((10000 * Nat.min s.pair.acked len / Nat.max 1 len : Nat) : Int)
  if len ≤ off then s
  else s.send tEnrol (leBytes 4 off ++ (Store.getMany 0 s.pair.enrol off (Nat.min 4088 (len - off))))

/-- The enrolling STANDBY takes the next stretch of the state, and asks for the one after it (R485). -/
def State.enrolData (s : State) (off : Nat) (data : List Byte) : State :=
  let buf := putBytes s.pair.enrol off data
  let got := off + data.length
  let len := if off = 0 then fieldAt data 4 4 else s.pair.enrolLen
  let s : State := { s with pair := { s.pair with
      enrol := buf, enrolLen := len, acked := got, sE := some (leNat (Store.getMany 0 buf 0 4)) } }
  (s.set Attr.pairEnrolProgress 0 0 ((10000 * Nat.min got len / Nat.max 1 len : Nat) : Int)).askEnrol got

/-- ENROL (R485): the ACTIVE answers the offset that a STANDBY asks for; the STANDBY takes a fragment and acknowledges it.
(DEDUCED, entry 53) -/
def enrolFrame (now lane : Nat) (frame : List Byte) (s : State) : State :=
  match s.tetherIn tEnrol now lane frame with
  | (none, s) => s
  | (some f, s) =>
    let off := fieldAt f.payload 0 4
    if f.payload.length = 4 then
      if s.role ≠ 1 ∨ (off ≠ 0 ∧ s.pair.enrolLen = 0) then s
      else (s.set Attr.pairPeerRole 0 0 2).serveEnrol off
    else if s.role ≠ 2 ∨ s.n Attr.pairStandbyState 0 0 ≠ 1 ∨ off ≠ s.pair.acked then s
    else s.enrolData off (f.payload.drop 4)
/-- ENROL (R485). -/
def execEnrol (now lane : Nat) (frame : List Byte) (s : State) : Host.Outcome State Fault Refusal :=
  .next (enrolFrame now lane frame s)

/-- Plane A is live and no strike or loading stands. -/
def State.clearStrike (s : State) : State :=
  [Attr.cruLivePlane, Attr.cruStrikeState, Attr.cruStrikePosition, Attr.cruIdleBusy].foldl (fun s c => s.set c 0 0 0) s

/-- Nothing replicated is left of the state a STANDBY had. -/
def State.clearReplicated (s : State) : State :=
  let keep (k : Nat) : Bool := match rowAt (keyCode k) (keyInst k) with
    | some r => !replicated (keyCode k) r.acc
    | none => true
  let s := s.modules.foldl (fun s e => s.removeModule e.1) s
  { s with
    attrs := Store.keep keep s.attrs
    blobs := Store.keep keep s.blobs
    cru := { s.cru with planeA := [], planeB := [], strike := none, past := [], load := none }
    bel := { Bel.reset with holds := s.bel.holds } }.clearStrike

/-- Takes up the ramps, groups, searches, timed changes and the strike of the enrolled state.
(DEDUCED, entry 53) -/
def State.takeRunning (s : State) (r : Rec) : State :=
  let b := r.payload
  match r.typ with
  | 16 =>
    let x := rampAt b
    let s : State := { s with bel := { s.bel with ramps := s.bel.ramps ++ [x] } }
    (match x.param with
     | .node p sr d => s.setNode p sr d (nodeOf (gainOf (s.nodeWord p sr d)) true)
     | .swap k => s.set Attr.slotSwapping k 0 1
     | _ => s)
  | 17 => { s with bel := { s.bel with queue := s.bel.queue ++ [groupAt b] } }
  | 18 => { s with bel := { s.bel with zs := s.bel.zs ++ [zRecAt b] } }
  | 19 =>
    let t : Timed := ⟨nat8 b 2, bodyReq (b.drop 32), nat8 b 0, nat8 b 1 == 1, nat8 b 3⟩
    { s with bel := { s.bel with timed := s.bel.timed ++ [t], nextId := Nat.max s.bel.nextId (t.id + 1) } }
  | 20 =>
    (match s.openTicket (address Attr.cruStrike 0) 0 with
     | some (k, s) =>
       ({ s with cru := { s.cru with strike := some (Strike.mk (nat8 b 0) (nat8 b 1) (nat8 b 2) k) } } : State).set
         Attr.cruStrikeState 0 0 (nat8 b 3)
     | none => s)
  | _ => s

/-- Applies a queued record as committed in the period it is stamped with (R485). (DEDUCED, entry 53) -/
def State.applyQueued (s : State) (r : MirrorRec) : State :=
  let now := s.eng.count
  let s := ({ s with eng := { s.eng with count := r.period } } : State).applyMirror r
  { s with eng := { s.eng with count := now } }

/-- The enrolled STANDBY runs and warms (R485, R492): the running state is taken after a clean start, `sE` is the last record
applied, and its convergence time begins. -/
def State.startWarm (t : State) (recs : List Rec) (sE : Nat) : State :=
  let t := (recs.filter (16 ≤ ·.typ)).foldl State.takeRunning t.clearAudio.startTick
  let t := (t.set Attr.belTimedPending 0 0 t.bel.timed.length).setRole 2 2
  { t with pair := { t.pair with
      mirror := [], lastApplied := sE, enrol := [], enrolLen := 0, acked := 0, sE := none
      convergeEnd := t.pair.now + 1000000 * t.convergePeriod } }

/-- The journal of an enrolled STANDBY starts from a new image, where it is on a card (R485). -/
def State.freshImage (t : State) : State :=
  match t.jrn.card with
  | some c => if t.onCard ∧ t.jrn.compaction.isNone then t.startCompaction c none false else t
  | none => t

/-- The state enrolled from is applied with the queued MIRROR records (R485), or logged where it is not admitted. -/
def State.enrolled (s : State) (recs : List Rec) (queued : List MirrorRec) (sE : Nat) : State :=
  match (applyRecs none (recs.filter (·.typ < 16)) s.clearReplicated).enterFresh with
  | .error _ => s.logAt sevError Attr.pairStandbyState 0 0
  | .ok t => (queued.foldl State.applyQueued (t.startWarm recs sE)).freshImage

/-- ENROLMENT_COMPLETE (R485, R492): the STANDBY has the whole state; it applies it and the queued records, enters RUN and
becomes warming, and its convergence period starts. (DEDUCED, entry 53) -/
def enrolmentComplete (s : State) : State :=
  let b := s.pair.enrol.map (·.2)
  match s.pair.sE with
  | none => s
  | some sE =>
    if s.role ≠ 2 ∨ s.n Attr.pairStandbyState 0 0 ≠ 1 ∨ s.pair.enrolLen < 8 ∨ b.length ≠ s.pair.enrolLen then s
    else
      let queued := s.pair.mirror.filter fun r => seqLater r.seq sE
      if (match queued with
          | r :: _ => r.seq != (sE + 1) % 2 ^ 32
          | [] => false) then s.beginEnrol
      else s.enrolled (recsAt b.length (b.drop 8)) queued sE
/-- ENROLMENT_COMPLETE (R485). -/
def execEnrolmentComplete (s : State) : Host.Outcome State Fault Refusal := .next (enrolmentComplete s)

end Sys2Proof.Machine
end

