-- ==== Sys2Proof/Machine/Tick.lean ====
section
/-! DEFINITION. The block tick (R7, R12 to R22): what ends and what opens with it, in order; and the watchdog (R529). -/

namespace Sys2Proof.Machine

/-! ### Emission and capture (R14, R31) -/

/-- The frames emitted in the period that opens (R14): those the out-strips have finished; one that missed its deadline
repeats its last sample (R31). -/
def State.emitFrames (s : State) : State :=
  let n := s.eng.cfg.n
  let outs := s.eng.missed.foldl (fun m d =>
    Store.put m d (List.replicate n (lastOf (frameOf s.tmp.emit d n)))) s.tmp.outs
  { s with
    tmp := { s.tmp with emitPrev := s.tmp.emit, emit := outs }
    eng := { s.eng with missed := [] } }

/-- The parameter snapshot of the period that opens (R21), with which strips that are no longer declared leave (R180), and
regions that nothing reads any more are freed (R185). -/
def State.takeSnapshot (s : State) : State :=
  ({ s with snapPrev := s.snap, snap := s.inForce, plc := { s.plc with switched := 0 } }.dropContexts).freeRegions

/-- A buffered receive stream at an entry into RUN (R388, R415): centred anew. (DEDUCED, entry 38) -/
def State.recentreRx (s : State) (k : Nat) : State :=
  if s.streamDirect rxAttrs k then s
  else
    let m := s.n Attr.rxDomain k 0
    let x := s.rxs k
    (s.setRx k { x with next := s.domAtTick m + 1, fifo := [x.last, x.last], phase := s.domPhase m, good := 0,
                        fault := false }).set Attr.rxDistance k 0 512

/-- The input frame captured in the period that ends (R14). A frame before the entry into RUN is silent. -/
def State.captureFrames (s : State) (count : Nat) : State :=
  let s : State := { s with tmp := { s.tmp with cap := [] } }
  if s.eng.frames = 0 then
    let s := s.portsOn.foldl (fun s n =>
      let x := s.port n
      s.setPort n { x with rx := if s.sapBuffered n then x.rx.drop (x.rx.length - 2) else [] }) s
    (s.streamsOn rxAttrs).foldl State.recentreRx s
  else
    let s := s.portsOn.foldl State.sapCapture s
    (s.streamsOn rxAttrs).foldl (fun s k => s.rxCapture count k) s

/-! ### Measured load (R37) -/

/-- Raises the highest measured use of a resource. -/
def State.noteUse (s : State) (i v : Nat) : State :=
  let v := Nat.min v 65535
  { s with eng := { s.eng with peakUse := Store.put s.eng.peakUse i (Nat.max (Store.get 0 s.eng.peakUse i) v) } }

/-- The use of every resource in the period that ends: Anvil and the Tether as counted; the Crucible, Temper, Tongs, deep memory
and the completion of the chain test (indexes 0, 1, 3, 4 and 6) as they are measured, which is left open.
(DESIGN CHOICE, entry 24) -/
def State.noteUses (s : State) : State :=
  let fam := s.eng.cfg.family
  let n := s.eng.cfg.n
  let anvil := centiPercent (((s.listed Attr.coreCyclesLast).map fun e => e.2.2.toNat).foldl Nat.max 0) (blockCycles fam n)
  let digest := match s.lck.own with
    | (_, _, b) :: _ => if s.paired then b.length else 0
    | [] => 0
  let (k, s) := s.fresh
  (List.range 7).foldl (fun s i =>
    s.noteUse i (if i = 2 then anvil else if i = 5 then centiPercent digest (tetherBudget fam n) else Config.measuredUse k i)) s

/-! ### What the reads of a period touch (R285) -/

/-- The words of the live plane in error that the Crucible reads: those of rows that are not gated (R63). -/
def State.livePlaneWords (s : State) : List Nat :=
  (s.fab.upset.map (·.1)).filter fun a =>
    match areaOf a with
    | .plane p off =>
      (p == s.live || s.n Attr.cruStrikeState 0 0 == 2) &&
        (match s.nodeKeyAt off with
         | some k => s.n Attr.slotGated (k / 2048) 0 == 0
         | none => false)
    | _ => false

/-- The words of the lane contexts in error: the lanes read them for every frame (R193, R285, R288).
(DESIGN CHOICE, entry 25) -/
def State.laneWords (s : State) : List Nat :=
  (s.fab.upset.map (·.1)).filter fun a => (groupOf a).any fun g => decide (67 ≤ g ∧ g < 91)

/-- Value steps that hold no slot are forgotten once every stage has passed them (R104). -/
def State.dropSteps (s : State) : State :=
  let done (r : Ramp) : Bool :=
    !r.slot && (match r.segs with
      | g :: _ => s.evaluated (s.lagOf r.param) (g.first + 1)
      | [] => true)
  { s with bel := { s.bel with ramps := s.bel.ramps.filter fun r => !done r } }

/-! ### The tick -/

/-- The counters of the lanes' busy cycles, which are left open, and of the rows gated in the frame (R556).
(DESIGN CHOICE, entry 24) -/
def State.laneEvents (s : State) : State :=
  let (k, s) := s.fresh
  let s := (List.range 25).foldl (fun s i => s.events (0x0C0 + i) (Nat.min s.periodCycles (Config.busyCycles k i))) s
  s.events 0x0D9 (s.n Attr.cruGatedRows 0 0)

/-- What ends with the period: the frame in work is finished, and a total that is due is formed (R14, R15, R420).
(DEDUCED, entry 13) -/
def State.closePeriod (s : State) (count : Nat) : State :=
  if s.eng.frames = 0 then s
  else
    let n := s.eng.cfg.n
    let s := if s.paired then (s.judge (count - 2 * n)).adoptStrips (count - 2 * n) else s
    finishPeriod (count - 2 * n) ((weldDeadline s).weldTick count)

/-- The period that a tick of count `count` ends (R12 to R15, R31, R365): counters are polled and latched, slips that are due are
made, outputs resume, the frame in work is finished, its outputs are taken, and the snapshot of the next period is made. -/
def State.endPeriod (s : State) (count : Nat) (latch : List Nat) : State :=
  let s := (if s.eng.frames = 0 then s else s.passPeriod).pollCounters latch
  let s := ((List.range 8).zip latch).foldl (fun s e =>
    if s.tbState e.1 = 0 then s else s.set Attr.tbTickTime e.1 0 (e.2 % 4294967296 : Nat)) s
  let s := (s.makeSlips count).resumeOutputs count
  let s : State := if s.eng.frames = 0 ∧ s.eng.fade = 1 then { s with eng := { s.eng with fadeAt := count } } else s
  ((s.closePeriod count).emitFrames).takeSnapshot

/-- The period of count `count` is open: its offset tick is still to come. -/
def State.openPeriod (s : State) (count : Nat) : State :=
  { s with
    eng := { s.eng with count := count, offset := false }
    bel := { s.bel with stored := [] }
    tmp := { s.tmp with inEnd := if s.paired then s.tmp.inCtx else [] } }

/-- The frame captured in the period before is evaluated, and ports and streams are given the frame to emit (R14, R75). -/
def State.evalPeriod (s : State) (count : Nat) : State :=
  let s := (s.settlePast fun k => s.evaluated 0 (k.strike.first + k.strike.len)).captureFrames count
  let s := if s.eng.frames = 0 then s else startPeriod (count - s.eng.cfg.n) s
  let s := s.portsOn.foldl (fun s k => s.sapEmit count k) s
  (s.streamsOn txAttrs).foldl (fun s k => s.txTick count k) s

/-- What goes out at a tick that ends the period of count `last`, and what is moved at it (R420, R482, R486, R607, R197). -/
def State.sendPeriod (s : State) (count last : Nat) : State :=
  let s : State := if s.eng.frames = 0 then s
    else ((s.sendWeld (count - 2 * s.eng.cfg.n)).closeDigest last).sendAdopt last
  ((((s.eccTouches (s.livePlaneWords ++ s.laneWords)).dropSteps).belCounts).advanceLoad).regionSwitch true

/-- The tick is counted, with the uses and events of the period it ends (R37, R556). -/
def State.countTick (s : State) : State :=
  let s := ((s.event 0x0F0).noteUses).laneEvents
  let s := s.set Attr.engBlockCount 0 0 ((s.n Attr.engBlockCount 0 0 + 1 : Nat) : Int)
  { s with eng := { s.eng with frames := s.eng.frames + 1 } }

/-- The tick of MD0 count `count` (R12 to R22), with the counters latched at it (R365); a STANDBY that tracks applies what was
mirrored for the period (R483). (DEDUCED, entry 13) -/
def State.tick (s : State) (count : Nat) (latch : List Nat) : State :=
  let t := (((((s.endPeriod count latch).openPeriod count).evalPeriod count).sendPeriod count s.eng.count)).countTick
  if t.role = 2 ∧ t.n Attr.pairStandbyState 0 0 ≠ 1 then t.applyMirrors count else t

/-- A condition that stops bring-up is present: a supply outside its window or critical temperature (R536).
(DEDUCED, entry 50) -/
def State.bringUpFault (s : State) : Bool := s.condition 3 || s.condition 4

/-- Bring-up stops after step 3 (table *Bring-up faults*): the engine stays in CONFIG, and a paired engine is FAULTED.
(DEDUCED, entry 50) -/
def State.stopBringUp (s : State) : State :=
  let s := ({ s with pow := { s.pow with broken := true, entryDue := false } }).set Attr.powBringUpStep 0 0 3
  if s.n Attr.pairPairEnable 0 0 = 1 then s.dropRole 4 else s

/-- Whether bring-up is at the entry into RUN (R536, R539). -/
def State.atEntry (s : State) : Bool := !s.ticking && s.pow.entryDue && s.n Attr.powBringUpStep 0 0 == 5

/-- Whether the entry of bring-up into RUN still waits for its time base (R539). (DEDUCED, entry 50) -/
def State.entryWaits (s : State) : Bool := s.n Attr.tbSource s.md0Tb 0 != 0 && s.tbState s.md0Tb == 1

/-- The entry of bring-up into RUN at the MD0 count `count` (R536, R539). -/
def State.enterRun (s : State) (count : Nat) : State :=
  let s := s.startTick.set Attr.powBringUpStep 0 0 6
  { s with eng := { s.eng with count := count - s.eng.cfg.n } }

/-- BLOCK_TICK (R12): an MD0 sample whose count is a multiple of N opens a block period. The first of them after the wait of
bring-up enters RUN, unless a fault stops bring-up. (DEDUCED, entry 11) (DEDUCED, entry 13) -/
def blockTick (count : Nat) (latch : List Nat) (s : State) : State :=
  if s.atEntry ∧ s.bringUpFault then s.stopBringUp
  else if s.atEntry ∧ ¬ s.entryWaits ∧ s.blk ≤ count ∧ count % s.blk = 0 then (s.enterRun count).tick count latch
  else if ¬ s.ticking ∨ count % s.eng.cfg.n ≠ 0 then s
  else if (if s.eng.frames = 0 then decide (s.eng.count < count) else count == s.eng.count + s.eng.cfg.n) then
    s.tick count latch
  else s
/-- BLOCK_TICK (R12). -/
def execBlockTick (count : Nat) (latch : List Nat) (s : State) : Host.Outcome State Fault Refusal :=
  .next (blockTick count latch s)

/-! ### The watchdog (R33, R331, R529, R553) -/

/-- WATCHDOG_EXPIRY (R529): the condition rises; a SOLO engine in RUN halts with its outputs silent at once, an ACTIVE
gives up; Tongs is reset with the supervisor, whose own bursts the matrix closes (R303, R331). The reset of cause 3 follows. (DEDUCED, entry 52) -/
def watchdogExpiry (s : State) : State :=
  let s := giveUp (s.raise 5)
  let s := if s.role = 0 ∧ s.engState = 1 then s.stopTick 2 else s
  (s.tongsReset).closeMaster 0
/-- WATCHDOG_EXPIRY (R529). -/
def execWatchdogExpiry (s : State) : Host.Outcome State Fault Refusal := .next (watchdogExpiry s)

end Sys2Proof.Machine
end

