-- ==== Sys2Proof/Machine/Power.lean ====
section
/-! DEFINITION. Reset, boot, bring-up, the power states and firmware update (R527 to R546). -/

namespace Sys2Proof.Machine

/-! ### Firmware images (R532, R533) -/

/-- The fuse security_version. -/
def State.fuseLevel (s : State) : Nat := s.pow.fuse.getD Config.fuseSecurity

/-- Whether the boot ROM accepts an image under a fuse security_version (R533). -/
def imageOk (fuse : Nat) (b : List Byte) : Bool :=
  let key := slice b 52 64
  let size := fieldAt b 16 4
  let slot := fieldAt b 6 1
  slice b 0 4 == [0x5A, 0x42, 0x46, 0x57].map byteOf && fieldAt b 4 2 == 1 && decide (slot ≤ 3) && fieldAt b 7 1 == 0 &&
    (slice b 180 76).all (· == 0) && decide (size ≤ 16776960) && decide (256 + size ≤ b.length) &&
    sha256 key == Config.fuseKeyHash slot && !bit Config.fuseRevoked slot &&
    ecdsaVerify key (sha256 (b.take 116)) (slice b 116 64) && decide (fuse ≤ fieldAt b 12 4) &&
    sha256 (slice b 256 size) == slice b 20 32

/-- fw_version of an image. -/
def imageVersion (b : List Byte) : Nat := fieldAt b 8 4

/-- The staged image. -/
def State.staged (s : State) : List Byte := Store.get [] s.blobs (attrKey Attr.fwImage 0 0)

/-- The image of a slot; empty where the slot is as the part was delivered. -/
def State.slotImage (s : State) (k : Nat) : List Byte := s.pow.slots.getD k []

/-- The slot that runs. -/
def State.runningSlot (s : State) : Nat := s.n Attr.fwRunningSlot 0 0

/-- slot_state (R546): 0 empty, 1 valid, 2 trial, 3 invalid. -/
def State.slotState (s : State) (k : Nat) : Nat :=
  if s.pow.trial = some k then 2 else if s.runningSlot = k ∧ ¬ s.pow.recovery then 1 else s.n Attr.fwSlotState 0 k

/-- Whether a slot passes the checks of the ROM at a boot. (DEDUCED, entry 58) -/
def State.slotPasses (s : State) (b : BootIn) (k : Nat) : Bool :=
  if s.slotImage k = [] then b.slotGood.getD k false else imageOk s.fuseLevel (s.slotImage k)

/-- What slot_state shows of a slot after a boot. (DEDUCED, entry 58) -/
def State.noteSlot (s : State) (b : BootIn) (k : Nat) : State :=
  s.set Attr.fwSlotState 0 k (if s.slotPasses b k then 1 else if s.slotImage k = [] ∧ s.n Attr.fwSlotState 0 k = 0 then 0 else 3)

/-! ### The boot ROM (R530, R534, R535) -/

/-- What the ROM boots: a slot, or none for recovery; and boot_status. (DEDUCED, entry 58) -/
def State.bootChoice (s : State) (b : BootIn) : Option Nat × Nat :=
  match b.bootsel with
  | 0 =>
    let named := s.pow.boot
    let first := if s.pow.trial = some named ∧ s.pow.tried then 1 - named else named
    if s.slotPasses b first then (some first, b2n (first != named))
    else if s.slotPasses b (1 - first) then (some (1 - first), b2n (1 - first != named))
    else (none, 2)
  | 1 => if s.slotPasses b 0 then (some 0, 0) else (none, 2)
  | 2 => if s.slotPasses b 1 then (some 1, 0) else (none, 2)
  | 4 | 5 => (none, 2)
  | _ => (none, 3)

/-- The current boot parameter block (R537): the valid copy with the higher generation. -/
def State.params (s : State) : Option ParamBlock :=
  match s.pow.params.getD 0 none, s.pow.params.getD 1 none with
  | some x, some y => if x.gen < y.gen then some y else some x
  | some x, none => some x
  | none, y => y

/-- The address of N0 in network recovery (R535): the one of the block, or 169.254.a.b. -/
def State.recoveryIp (s : State) : Nat :=
  match s.params with
  | some p => (((p.values.lookup (attrKey Attr.portIpAddr 0 0)).getD 0).toNat)
  | none =>
    let mac := macOf 0
    169 * 2 ^ 24 + 254 * 2 ^ 16 + (mac / 256 % 256 % 254 + 1) * 256 + mac % 256

/-- The ROM enters recovery (R535) over SPI, or over N0 at 1000BASE-X on UDP port 40961. -/
def State.enterRecovery (s : State) (b : BootIn) : State :=
  let s : State := { s with pow := { s.pow with recovery := true, waitingIn := some b } }
  if b.bootsel = 5 then
    ((s.set Attr.portEnable 0 0 1).set Attr.portMode 0 0 1).set Attr.portIpAddr 0 0 s.recoveryIp
  else s

/-! ### Bring-up (R536 to R539) -/

/-- Step 1: the boot parameter block is applied (R537). -/
def State.applyParams (s : State) : State :=
  match s.params with
  | none => s
  | some p => p.values.foldl (fun s e =>
      let code := keyCode e.1
      let inst := keyInst e.1
      match rowAt code inst with
      | some r => s.replayReq (writeReq (writeRec code inst (keyElem e.1) (b2n (r.len != .scalar)) (encodeVal r.ty e.2)).payload)
      | none => s) s

/-- A failure of the start-up march (R292, table *Bring-up faults*): a core is retired before placement and needs no copy,
a bank but SB0 is withheld, any other group stops bring-up. -/
def State.startMarchFail (s : State) (f : MarchFail) : State :=
  let g := f.group
  let s := s.marchFailed f true
  if 16 ≤ g ∧ g < 64 then
    let gone := s.n Attr.plcRetiredCores 0 0
    if bit gone (g - 16) then s
    else
      let s := (s.set Attr.plcRetiredCores 0 0 ((gone + 2 ^ (g - 16) : Nat) : Int)).bump Attr.plcRetirements 0 0
      let s := (s.setCore (g - 16) { (s.core (g - 16)) with condemned := true, halted := true }).logAt sevError Attr.plcRetirements 0 0
      s.loadAttrs s.topo s.place
  else if 0 < g ∧ g < 16 then s
  else { s with pow := { s.pow with broken := true } }

/-- Steps 1 and 2: parameters, then the march or the zero-fill of the on-chip groups, while deep memory trains and fills
(R287, R295). (DEDUCED, entry 50) -/
def State.startFirmware (s : State) (b : BootIn) : State :=
  let s := s.applyParams.set Attr.powBringUpStep 0 0 2
  let s := if s.n Attr.memStartupMarch 0x100 0 = 1 then
      (b.marchFail.filter fun f => decide (f.group < 92)).foldl State.startMarchFail s else s
  if s.pow.broken ∨ b.deepFail then s.stopBringUp else s

/-- The sectors that replay leaves free (R506, R512): of a bad header, snapshots that the superblock does not name, scenes
that no directory entry names. (DEDUCED, entry 45) -/
def CardSt.tidy (c : CardSt) (snapshot : Nat) (scenes : List Nat) : CardSt :=
  (c.data.filter fun k => c.headed k && ((c.use k == 3 && c.secId k != snapshot) || (c.use k == 4 && !scenes.contains k))).foldl
    CardSt.release c.mend

/-- Step 4 with a formatted card: replay (R512). (DEDUCED, entry 63) -/
def State.replay (s : State) (c : CardSt) (x : Super) : State :=
  let (snap, r) := c.read x
  let s := (s.set Attr.jrnCardState 0 0 2).set Attr.jrnJournalState 0 0 0
  let s := applyRecs none (snap ++ r.groups.flatten) (s.mount c)
  let last : Int := (seqBefore r.first : Int)
  let s := ((s.set Attr.jrnCommittedSeq 0 0 last).set Attr.jrnDurableSeq 0 0 last).set Attr.jrnTornRecords 0 0 r.torn
  let s : State := { s with jrn := { s.jrn with nextSeq := r.first, lastCard := some c.id, spare := [] } }
  s.cardStats (c.tidy x.snapshot (s.jrn.dir.flatMap fun e => e.2.sectors))

/-- Step 4: the card that is in the slot (R505, R507, R512, R518). -/
def State.findCard (s : State) : State :=
  match s.jrn.card with
  | none => s
  | some c =>
    if ¬ c.usable then s.set Attr.jrnCardState 0 0 5
    else
      let s := ((s.set Attr.jrnCardId 0 0 c.id).set Attr.jrnSectors 0 0 c.sectors).set Attr.jrnRatedCycles 0 0 c.rated
      match c.current with
      | none => (s.set Attr.jrnCardState 0 0 1).cardStats c
      | some (_, x) => s.replay c x

/-- Where the values that replay left differ from the boot parameter block, the block is rewritten (R537). -/
def State.agreeParams (s : State) : State :=
  let held := match s.params with
    | some p => p.values
    | none => []
  if held = s.bootValues then s else s.writeParams

/-- Step 5: the state of the last go record (R513, R536). An entry into RUN waits for its tick; with the time base of MD0 OFF
the engine stays in CONFIG (R366). -/
def State.lastState (s : State) : State :=
  let done (s : State) : State := ({ s with pow := { s.pow with go := none } }).set Attr.powBringUpStep 0 0 6
  let target := s.pow.go.getD 0
  if (target ≠ 1 ∧ target ≠ 2) ∨ (target = 1 ∧ s.tbState s.md0Tb = 0) then done s
  else match s.enterFresh with
  | .error _ => done (s.logAt sevError Attr.engState 0 0)
  | .ok t =>
    if target = 2 then done (t.set Attr.engState 0 0 2)
    else ({ t with pow := { t.pow with go := none, entryDue := true } }).set Attr.powBringUpStep 0 0 5

/-- DEEP_MEMORY_FILL_COMPLETE (R295, R536): masters may access deep memory; bring-up goes on with steps 3 to 5, unless a
fault stops it. -/
def deepMemoryFillComplete (s : State) : State :=
  if s.fab.deepReady ∨ s.pow.recovery then s
  else
    let s : State := { s with fab := { s.fab with deepReady := true } }
    if s.n Attr.powBringUpStep 0 0 ≠ 2 then s
    else if s.bringUpFault then s.stopBringUp
    else s.findCard.agreeParams.lastState
/-- DEEP_MEMORY_FILL_COMPLETE (R295). -/
def execDeepMemoryFillComplete (s : State) : Host.Outcome State Fault Refusal := .next (deepMemoryFillComplete s)

/-- SYNC_WAIT_EXPIRY (R539): the entry into RUN waits no longer. -/
def syncWaitExpiry (s : State) : State :=
  if s.atEntry ∧ s.bringUpFault then s.stopBringUp
  else if s.atEntry ∧ s.entryWaits then
    (s.logAt sevWarning Attr.powSyncWait 0 0).startTick.set Attr.powBringUpStep 0 0 6
  else s
/-- SYNC_WAIT_EXPIRY (R539). -/
def execSyncWaitExpiry (s : State) : Host.Outcome State Fault Refusal := .next (syncWaitExpiry s)

/-! ### Reset (R528, R529) -/

/-- What a reset leaves (R287, R295, R451, R453, R456, R537): boot flash, fuses and the card in its slot stay; every other
memory is cleared and every unit is at its start. (DEDUCED, entry 58) -/
def State.cold (s : State) : State :=
  let flash : Nat → Bool := fun k =>
    [Attr.sesAuthPolicy, Attr.fwSlotState, Attr.fwSlotVersion].contains (keyCode k) &&
      (keyCode k != Attr.sesAuthPolicy || keyInst k == 0xFFFF)
  { State.reset with
    pending := s.pending
    free := s.free
    attrs := Store.keep flash s.attrs
    yug := { Yug.reset with keys := s.yug.keys, runs := s.yug.runs + 1 }
    fab := { Fab.reset with deepReady := false }
    pair := { Pair.reset with now := s.pair.now }
    jrn := { Jrn.reset with card := s.jrn.card }
    pow := { Pow.reset with
      params := s.pow.params, slots := s.pow.slots, trial := s.pow.trial, tried := s.pow.tried, boot := s.pow.boot
      fuse := s.pow.fuse } }

/-- A reset of a cause ends (R529): the ROM boots a slot and its firmware starts, or the ROM enters recovery.
(DEDUCED, entry 58) -/
def State.boot (s : State) (cause : Nat) (b : BootIn) : State :=
  let s := (s.cold.set Attr.powLastResetCause 0 0 cause).set Attr.powBringUpStep 0 0 1
  let s : State := match b.card with
    | some x => { s with jrn := { s.jrn with card := some (cardOf x) } }
    | none => s
  let s := (s.noteSlot b 0).noteSlot b 1
  let (slot, status) := s.bootChoice b
  let s := s.set Attr.fwBootStatus 0 0 status
  match slot with
  | none => s.enterRecovery b
  | some k =>
    let version : Int := if s.slotImage k = [] then s.a Attr.fwSlotVersion 0 k else imageVersion (s.slotImage k)
    let s := (s.set Attr.fwRunningSlot 0 0 k).set Attr.idFwVersion 0 0 version
    let s : State := if s.pow.trial = some k then { s with pow := { s.pow with tried := true } } else s
    s.startFirmware b

/-- Whether a reset of a cause can come now (R529, R542, R553). (DEDUCED, entry 59) -/
def State.resetDue (s : State) (cause : Nat) : Bool :=
  match cause with
  | 0 | 1 => true
  | 2 => s.pow.restartDue && s.n Attr.jrnDurableSeq 0 0 == s.n Attr.jrnCommittedSeq 0 0
  | 3 => s.condition 5
  | 4 => s.pow.pwrOff
  | _ => false

/-- POWER_ON_RESET (R529): PORn is released, or a reset of another cause acts as one. -/
def powerOnReset (b : BootIn) (s : State) : State := if s.resetDue b.cause then s.boot b.cause b else s
/-- POWER_ON_RESET (R529). -/
def execPowerOnReset (b : BootIn) (s : State) : Host.Outcome State Fault Refusal := .next (powerOnReset b s)

/-- PORN_PULSE (R528): a pulse of 10 µs or longer is a full reset; a shorter one is ignored. -/
def pornPulse (ns : Nat) (b : BootIn) (s : State) : State := if 10000 ≤ ns then s.boot 1 b else s
/-- PORN_PULSE (R528). -/
def execPornPulse (ns : Nat) (b : BootIn) (s : State) : Host.Outcome State Fault Refusal := .next (pornPulse ns b s)

/-- WAKE (R542): a rising edge on WAKE or an SPI transaction in OFF is a reset of cause 4. -/
def wake (b : BootIn) (s : State) : State := if s.pow.pwrOff then s.boot 4 b else s
/-- WAKE (R542). -/
def execWake (b : BootIn) (s : State) : Host.Outcome State Fault Refusal := .next (wake b s)

/-- RESTART (R529): argument 0xA5. An ACTIVE with armed 1 gives up; the reset follows once the journal is durable.
(DEDUCED, entry 59) -/
def restart (c : Ctx) (s : State) : Answer :=
  if c.arg ≠ 0xA5 then refuse rRange
  else
    let s : State := { s with pow := { s.pow with restartDue := true } }
    ok (if s.armed then giveUp { s with pair := { s.pair with giveUpDue := 1 } } else s)
/-- RESTART (R529). -/
def execRestart (q : Req) (s : State) : Host.Outcome State Fault Refusal := .next (serve .restart restart q s)

/-- RESTART_DURABLE_WAIT_EXPIRY (R529): the reset of a restart comes though the journal is not durable.
(DEDUCED, entry 59) -/
def restartDurableWaitExpiry (b : BootIn) (s : State) : State := if s.pow.restartDue then s.boot 2 b else s
/-- RESTART_DURABLE_WAIT_EXPIRY (R529). -/
def execRestartDurableWaitExpiry (b : BootIn) (s : State) : Host.Outcome State Fault Refusal :=
  .next (restartDurableWaitExpiry b s)

/-! ### Power states (R540 to R542) -/

/-- The conditions of R541: CONFIG or HALT, and SOLO, ORPHAN or FAULTED. -/
def State.mayRest (s : State) : Bool :=
  (s.engState == 0 || s.engState == 2) && (s.role == 0 || s.role == 3 || s.role == 4)

/-- ENTER_LOW (R541, R542): arguments 1 and above 3 are refused. -/
def enterLow (c : Ctx) (s : State) : Answer :=
  if c.arg ≠ 2 then refuse rRange
  else if ¬ s.mayRest then refuse rState
  else ok (s.set Attr.powPowerState 0 0 2)
/-- ENTER_LOW (R541). -/
def execEnterLow (q : Req) (s : State) : Host.Outcome State Fault Refusal := .next (serve .enterLow enterLow q s)

/-- WAKE_FROM_LOW (R541): everything is as it was; in RUN nothing changes. -/
def wakeFromLow (_c : Ctx) (s : State) : Answer := ok (s.set Attr.powPowerState 0 0 0)
/-- WAKE_FROM_LOW (R541). -/
def execWakeFromLow (q : Req) (s : State) : Host.Outcome State Fault Refusal :=
  .next (serve .wakeFromLow wakeFromLow q s)

/-- ENTER_OFF (R542): under a ticket that completes once the journal is durable. (DEDUCED, entry 59) -/
def enterOff (_c : Ctx) (s : State) : Answer :=
  if ¬ s.mayRest then refuse rState
  else if s.pow.offDue.isSome then refuse rBusy
  else match s.openTicket (address Attr.powEnter 0) 0 with
    | none => refuse rBusy
    | some (k, t) => okTicket { t with pow := { t.pow with offDue := some k } } k
/-- ENTER_OFF (R542). -/
def execEnterOff (q : Req) (s : State) : Host.Outcome State Fault Refusal :=
  .next (serve .enterOff enterOff q s).offIfDurable

/-! ### Firmware update (R543, R544) -/

/-- INSTALL (R543): the staged image is checked, and is then written under a ticket. -/
def install (_c : Ctx) (s : State) : Answer :=
  if ¬ imageOk s.fuseLevel s.staged then refuse rType
  else if s.pow.installing.isSome then refuse rBusy
  else match s.openTicket (address Attr.fwInstall 0) 0 with
    | none => refuse rBusy
    | some (k, t) => okTicket { t with pow := { t.pow with installing := some (k, s.staged) } } k
/-- INSTALL (R543). -/
def execInstall (q : Req) (s : State) : Host.Outcome State Fault Refusal := .next (serve .install install q s)

/-- INSTALL_COMPLETE (R543): the slot that does not run holds the image, valid and untried. -/
def installComplete (s : State) : State :=
  match s.pow.installing with
  | none => s
  | some (k, b) =>
    let slot := 1 - s.runningSlot
    let s : State := { s with pow := { s.pow with
        installing := none
        slots := s.pow.slots.set slot b
        trial := if s.pow.trial = some slot then none else s.pow.trial
        boot := if s.pow.trial = some slot then s.runningSlot else s.pow.boot
        tried := s.pow.tried && s.pow.trial != some slot } }
    ((s.set Attr.fwSlotState 0 slot 1).set Attr.fwSlotVersion 0 slot (imageVersion b)).completeTicket k rOk
/-- INSTALL_COMPLETE (R543). -/
def execInstallComplete (s : State) : Host.Outcome State Fault Refusal := .next (installComplete s)

/-- ACTIVATE (R544): refused unless the other slot is valid. -/
def activate (_c : Ctx) (s : State) : Answer :=
  let other := 1 - s.runningSlot
  if s.slotState other ≠ 1 then refuse rState
  else ok { s with pow := { s.pow with trial := some other, tried := false, boot := other } }
/-- ACTIVATE (R544). -/
def execActivate (q : Req) (s : State) : Host.Outcome State Fault Refusal := .next (serve .activate activate q s)

/-- CONFIRM (R544): the running trial slot is made permanent, and the fuse is raised to its level. -/
def confirm (_c : Ctx) (s : State) : Answer :=
  let run := s.runningSlot
  if s.pow.trial ≠ some run then ok s
  else
    let level := Nat.max s.fuseLevel (fieldAt (s.slotImage run) 12 4)
    ok { s with pow := { s.pow with
        trial := none, tried := false, boot := run
        fuse := if s.fuseLevel < level then some level else s.pow.fuse } }
/-- CONFIRM (R544). -/
def execConfirm (q : Req) (s : State) : Host.Outcome State Fault Refusal := .next (serve .confirm confirm q s)

/-- RUN_IMAGE (R535): in recovery the staged image runs without being written; under firmware it is refused. -/
def runImage (_c : Ctx) (s : State) : Answer :=
  match s.pow.waitingIn with
  | none => refuse rState
  | some b =>
    let img := s.staged
    if ¬ s.pow.recovery then refuse rState
    else if ¬ imageOk s.fuseLevel img then refuse rType
    else
      let s : State := { s with pow := { s.pow with recovery := false, waitingIn := none } }
      ok ((s.set Attr.idFwVersion 0 0 (imageVersion img)).startFirmware b)
/-- RUN_IMAGE (R535). -/
def execRunImage (q : Req) (s : State) : Host.Outcome State Fault Refusal := .next (serve .runImage runImage q s)

end Sys2Proof.Machine
end

