-- ==== Sys2Proof/Machine/Read.lean ====
section
/-! DEFINITION. Reading the dictionary (R441, R446, R447, R450 to R454): the attributes that are a view of the state of a
unit, and READ, READ_ARRAY and TICKET_READ. No read changes what is read (R452). -/

namespace Sys2Proof.Machine

/-! ### Views of the engine and its routing -/

/-- Sets bit `b` where a condition holds. -/
def flag (b : Nat) (p : Bool) : Nat := if p then 2 ^ b else 0

/-- The last sample evaluated (R20): the frame captured two ticks ago ends before it. -/
def State.lastEvaluated (s : State) : Nat := s.eng.count - s.eng.cfg.n - 1

/-- The attributes of a node (R89). -/
def State.viewNode (s : State) (code sr d : Nat) : Option Int :=
  let live := RParam.node s.live sr d
  let idle := RParam.node (1 - s.live) sr d
  if code = Attr.nodeGain then some (s.target live)
  else if code = Attr.nodeGainCdb then some (cdbOfCode (s.target live))
  else if code = Attr.nodeIdleGain then some (s.held idle)
  else if code = Attr.nodeIdleGainCdb then some (cdbOfCode (s.held idle))
  else if code = Attr.nodeGainNow then some (s.applied live s.lastEvaluated)
  else if code = Attr.nodeRamping then some ((flag 0 (s.inFlight live) + flag 1 (s.inFlight idle) : Nat) : Int)
  else none

/-- The slot of an occupant word, 0xFFFF where it has none. -/
def State.slotView (s : State) (w : Nat) : Int := (((s.slotOf w).getD 0xFFFF : Nat) : Int)

/-- Faders in centi-dB, the bound slot of a strip, the return slot of a destination (R91, R173, R174). -/
def State.viewStrip (s : State) (code inst : Nat) : Option Int :=
  if code = Attr.insFaderCdb then some (cdbOfCode (s.a Attr.insFader inst 0))
  else if code = Attr.outsFaderCdb then some (cdbOfCode (s.a Attr.outsFader inst 0))
  else if code = Attr.insSource then some (s.slotView (2 ^ 28 + inst))
  else if code = Attr.dstReturnSlot then some (s.slotView (2 * 2 ^ 28 + inst))
  else none

/-- Status of a core (R249). -/
def State.coreStatus (s : State) (c : Nat) : Nat :=
  if bit (s.n Attr.plcRetiredCores 0 0) c then 2 else if s.n Attr.coreModuleCount c 0 = 0 then 0 else 1

/-- Whether a module move stands for a module (R196). -/
def State.moduleMoves (s : State) (m : Nat) : Bool :=
  match s.headMove with
  | some (.module x _) => x == m
  | _ => false

/-- State of a module (R250): moving in a plan (R196) or to a spare (R201); one that waits for the plan that adds it is
declared and not running. -/
def State.modState (s : State) (m : Nat) : Nat :=
  if (s.mod? m).isNone then 0
  else if s.moduleMoves m ∨ s.plc.retiring.any (fun r => r.spare.isSome && r.modules.contains m) then 3
  else if s.engState = 1 ∧ ¬ s.arriving m then 2 else 1

/-- The source of a module's input port: the in-strip whose insert names it stands as kind 2 (R241, R250).
(DEDUCED, entry 61) -/
def State.inSrcView (s : State) (m p : Nat) : Int :=
  match insertNaming s.attrs m p with
  | some n => ((2 * 2 ^ 28 + n : Nat) : Int)
  | none => s.a Attr.modInSrc m p

/-- Views of the cores and modules. (DEDUCED, entry 61) -/
def State.viewAnvil (s : State) (code inst elem : Nat) : Option Int :=
  if code = Attr.coreStatus then some (s.coreStatus inst : Nat)
  else if code = Attr.modState then some (s.modState inst : Nat)
  else if code = Attr.modInSrc then some (s.inSrcView inst elem)
  else if code = Attr.modDeclaredCycles then
    some (match (s.mod? inst).bind fun m => m.image.budgetFor s.fam s.blk with
      | some b => ((b.cycles : Nat) : Int)
      | none => 0)
  else none

/-- Whether the placement manager has work for TC14 and for TC15: a final or a retirement copy; a pre-copy, a region copy, a
zero-fill or the loading of the idle plane (R192, R305). -/
def State.managerBusy (s : State) (ch : Nat) : Bool :=
  if ch = 14 then s.plc.finalBlock || s.plc.retiring.any fun r => !r.copied && r.spare.isSome
  else ch == 15 && (!s.plc.zeroing.isEmpty || s.cru.load.isSome || match s.headMove with
    | some (.module _ _) => !s.plc.preCopied
    | some (.region _ _) => !s.plc.copied
    | _ => false)

/-- Whether a channel waits for its peripheral: every burst that it could issue touches it, and the request is not held
(R325). -/
def State.waitsPace (s : State) (r : Running) : Bool :=
  let l := [r.nextRead, r.nextWrite].filterMap id
  l != [] && l.all fun b => !s.paceHeld r.desc b.addr

/-- State of a Tongs channel (R332). (DEDUCED, entry 61) -/
def State.chanState (s : State) (ch : Nat) : Nat :=
  let c := s.chan ch
  match c.run with
  | none => if c.queue ≠ [] then 1 else if s.managerBusy ch then 2 else 0
  | some r => if c.paused then 5 else if c.preempted then 3 else if s.waitsPace r then 4 else 2

/-- Views of Tongs and of the memories (R304, R332). -/
def State.viewMemory (s : State) (code inst : Nat) : Option Int :=
  if inst < 16 ∧ code = Attr.tngLevel then some (tongsLevel inst : Nat)
  else if inst < 16 ∧ code = Attr.tngOwner then some (if inst < 12 then 1 else if inst < 14 then 2 else 0)
  else if inst < 16 ∧ code = Attr.tngState then some (s.chanState inst : Nat)
  else if inst = 0x200 ∧ code = Attr.memFittedBytes then some (fittedBytes : Nat)
  else if inst = 0x200 ∧ code = Attr.memUsableBytes then some (usableBytes : Nat)
  else if code = Attr.plcDeepFree then
    let used := (((runsOf s.plc.regions).filter fun r => deepBase ≤ r.1).map (·.2)).sum
    some (((poolEnd - (poolBase + used + (s.plc.zeroing.map (·.2)).sum) : Nat) : Int))
  else none

/-! ### Views of clocks, ports and networks -/

/-- Status of a reference (R361). -/
def State.refStatusView (s : State) (r : Nat) : Nat :=
  let x := s.ref r
  flag 0 x.present + flag 1 x.inTol + flag 2 x.qualified + flag 3 x.waitEnd.isSome +
    flag 4 (s.hea.disagree.any fun p => p.1 == r || p.2 == r) + flag 5 (s.selectable r) + flag 6 (s.current == some r)

/-- Views of the references, Hearth, the time bases and the domains (R361, R362, R377, R378). -/
def State.viewClock (s : State) (code inst : Nat) : Option Int :=
  if code = Attr.refKind then some (if inst < 4 then 0 else 1)
  else if code = Attr.refQuality ∧ 4 ≤ inst then some (s.rank inst : Nat)
  else if code = Attr.refStatus then some (s.refStatusView inst : Nat)
  else if code = Attr.refWtrLeft then
    some (match (s.ref inst).waitEnd with
      | some e => ((ceilDiv (e - s.hea.now) 1000 : Nat) : Int)
      | none => 0)
  else if code = Attr.heaModelValid then some (b2i s.modelValid)
  else if code = Attr.tbNow ∧ inst < 8 then some ((if s.ticking then s.tbAtTick inst else s.tbNow inst : Nat) : Int)
  else if code = Attr.mdRate ∧ inst = 0 then some (s.md0Code : Nat)
  else if code = Attr.mdSampleCount then some ((if s.ticking then s.domAtTick inst else s.domCount inst : Nat) : Int)
  else if code = Attr.mdUsers then some (s.users inst : Nat)
  else none

/-- Status of a serial audio port (R397). -/
def State.sapStatusView (s : State) (n : Nat) : Nat :=
  let x := s.port n
  let on := s.n Attr.sapEnable n 0 == 1
  let g := s.sapGroupOf n
  flag 0 (on && (!s.sapSlave n || decide (0 < x.good))) + flag 1 (x.fault == 4 && s.sapSt n == 3) +
    flag 2 (on && s.sapBuffered n) + flag 3 (s.sapSt n == 4) + flag 4 (decide (g < 8) && s.groupRef g == some n)

/-- Views of the ports and alignment groups (R397, R398). (DEDUCED, entry 61) -/
def State.viewSap (s : State) (code inst : Nat) : Option Int :=
  if inst < 0x100 then (if code = Attr.sapStatus then some (s.sapStatusView inst : Nat) else none)
  else
    let g := inst - 0x100
    if code = Attr.sapPortMembers then
      some ((((List.range 32).map fun n => flag n (s.sapGroupOf n == g)).sum : Nat) : Int)
    else if code = Attr.sapDomainGroup then some (((s.groupDomains g none none).headD 0xFF : Nat) : Int)
    else if code = Attr.sapReference then some (((s.groupRef g).getD 0xFFFF : Nat) : Int)
    else none

/-- A charge in 192nds of a bit per second, in units of 0.01 % of a port's line rate. -/
def State.lineShare (s : State) (p charge : Nat) : Int := ((Nat.min 65535 (centiPercent charge (192 * s.lineRate p)) : Nat) : Int)

/-- Views of the network ports and the streams (R407, R429 to R431). (DEDUCED, entry 61) -/
def State.viewNet (s : State) (code inst : Nat) : Option Int :=
  if code = Attr.portMac then some (macOf inst : Nat)
  else if code = Attr.portTxAdmitted then some (s.lineShare inst (s.sendCharge inst))
  else if code = Attr.portRxAdmitted then some (s.lineShare inst (s.portCharge rxAttrs inst))
  else if code = Attr.rxStatus then
    let w := s.n Attr.rxStatus inst 0
    let on := s.n Attr.rxEnable inst 0 == 1
    let g := s.rxGroupOf inst
    some ((flag 0 (bit w 0) + flag 1 (bit w 1) + flag 2 (on && !s.streamDirect rxAttrs inst) +
      flag 3 (s.n Attr.rxState inst 0 == 5) + flag 4 (decide (g < 8) && s.groupRef g == some (0x1000 + inst)) +
      flag 5 (bit w 5) : Nat) : Int)
  else if code = Attr.txState then
    some (if ¬ s.sends ∧ (s.n Attr.txState inst 0 = 1 ∨ s.n Attr.txState inst 0 = 4) then 2 else s.a Attr.txState inst 0)
  else none

/-! ### Views of the supervisor -/

/-- The power state (R540): IDLE while every row is gated in RUN. -/
def State.powerState (s : State) : Int :=
  if s.ticking ∧ (s.listed Attr.slotGated).all (fun e => e.2.2 != 0) then 1 else s.a Attr.powPowerState 0 0

/-- Views of the session, the event log, the pair, the counters and the monitors (R463, R464, R503, R567, R569). -/
def State.viewHost (s : State) (code inst elem : Nat) : Option Int :=
  if code = Attr.sesKeyPresent ∧ inst < 8 then some (b2i (Store.find? s.yug.keys inst).isSome)
  else if code = Attr.sesSessionsOpen ∧ inst = 0xFFFF then some (s.yug.sessions.length : Nat)
  else if code = Attr.staSummary then some ((s.status * 256 : Nat) : Int)
  else if code = Attr.staLogNewest then some (((s.yug.log.head?.map (·.seq)).getD 0 : Nat) : Int)
  else if code = Attr.staLogOldest then some (((s.yug.log.getLast?.map (·.seq)).getD 0 : Nat) : Int)
  else if code = Attr.engPeakLoad then some (Store.get 0 s.eng.peakUse elem : Nat)
  else if code = Attr.pairEntitled then some (b2i s.entitled)
  else if code = Attr.pairConvergeTime then some (s.convergePeriod : Nat)
  else if code = Attr.pairConvergeLeft then some (ceilDiv (s.pair.convergeEnd - s.pair.now) 1000000 : Nat)
  else if code = Attr.pairDigestCharge then some (s.topo.digest : Nat)
  else if code = Attr.powPowerState then some s.powerState
  else if code = Attr.vmNominal ∧ 0x10 ≤ inst ∧ inst < 0x20 then some (vmNominal (inst - 0x10) : Nat)
  else if code = Attr.pxFactory ∧ 0x20 ≤ inst then some (Config.pxFactory (inst - 0x20) % 2 ^ 32 : Nat)
  else if code = Attr.cntValues ∧ inst = 0xFFFF then some (s.a Attr.cntValue elem 0)
  else if code = Attr.cntPair64 ∧ inst = 0xFFFF then
    some (s.a Attr.cntValue (2 * elem + 1) 0 * 4294967296 + s.a Attr.cntValue (2 * elem) 0)
  else if code = Attr.cntTagNewest ∧ inst = 0x100 then
    some ((if s.hlt.tags = [] then 0 else oldestOf s.hlt.tagSeq 1 : Nat) : Int)
  else if code = Attr.cntTagOldest ∧ inst = 0x100 then
    some ((if s.hlt.tags = [] then 0 else oldestOf s.hlt.tagSeq s.hlt.tags.length : Nat) : Int)
  else if code = Attr.fwSlotState then some (s.slotState elem : Nat)
  else if code = Attr.fwSecurityVersion then some (s.fuseLevel % 2 ^ 32 : Nat)
  else if code = Attr.idStepping then some (Config.stepping % 2 ^ 16 : Nat)
  else if code = Attr.idUid then some (Config.uid % 2 ^ 64 : Nat)
  else if code = Attr.idRomVersion then some (Config.romVersion % 2 ^ 32 : Nat)
  else if code = Attr.idDirectoryCount then some (s.directoryCount : Nat)
  else none

/-- The value of an attribute's element as a read returns it (R441): a view where it is one, else the committed value.
(DEDUCED, entry 61) -/
def State.value (s : State) (code inst elem : Nat) : Int :=
  let cls := code / 256
  let view :=
    if cls = 0x20 then s.viewNode code inst elem
    else if cls = 0x22 ∨ cls = 0x30 ∨ cls = 0x31 then s.viewStrip code inst
    else if cls = 0x40 ∨ cls = 0x41 then s.viewAnvil code inst elem
    else if cls = 0x11 ∨ cls = 0x48 ∨ cls = 0x4C then s.viewMemory code inst
    else if 0x50 ≤ cls ∧ cls < 0x58 then s.viewClock code inst
    else if cls = 0x58 then s.viewSap code inst
    else if 0x60 ≤ cls ∧ cls ≤ 0x62 then s.viewNet code inst
    else s.viewHost code inst elem
  view.getD (s.a code inst elem)

/-! ### Bytes -/

/-- A string of 16 bytes (R573). -/
def str16 (b : List Byte) : List Byte := (List.range 16).map fun i => b.getD i 0

/-- The bytes of a string attribute. -/
def State.stringOf (s : State) (code inst : Nat) : List Byte :=
  str16 (if code = Attr.idVendor then [0x46, 0x6A, 0x6F, 0x6E, 0x61, 0x72].map byteOf
    else if code = Attr.idPart then [0x5A, 0x42, 0x32, 0x30, 0x34, 0x38].map byteOf
    else Store.get [] s.blobs (attrKey code inst 0))

/-- A record of the event log (R454). -/
def LogEntry.bytes (e : LogEntry) : List Byte :=
  leBytes 4 e.seq ++ [byteOf e.severity, byteOf 0, byteOf 0, byteOf 0] ++ leBytes 8 (toBits 64 e.time) ++
    leBytes 4 (address (e.cls * 256 + e.attr) e.inst) ++ leBytes 4 e.elem ++ leBytes 8 (toBits 64 e.value)

/-- Bytes of one element as it travels (R437): of the event log and the tag buffer a record of 32. -/
def elemBytes (code inst ty : Nat) : Nat :=
  if code = Attr.staLog ∨ (code = Attr.cntRecords ∧ inst = 0x100) then 32 else tyBytes ty

/-- `count` elements from `elem` as bytes. -/
def State.elemsRead (s : State) (r : ARow) (code inst elem count : Nat) : List Byte :=
  if code = Attr.staLog then
    (List.range count).flatMap fun i =>
      match s.yug.log.find? (·.seq == (elem + i) % 2 ^ 32) with
      | some e => e.bytes
      | none => []
  else if code = Attr.cntRecords ∧ inst = 0x100 then
    (List.range count).flatMap fun i =>
      (s.hlt.tags.find? fun b => leNat (b.take 4) == (elem + i) % 2 ^ 32).getD []
  else if code = Attr.idDirectory then slice s.directory.flatten elem count
  else if r.ty = 12 then slice (Store.get [] s.blobs (attrKey code inst 0)) elem count
  else (List.range count).flatMap fun i => encodeVal r.ty (s.value code inst (elem + i))

/-! ### READ, READ_ARRAY, TICKET_READ -/

/-- Bytes that a reply has for values: 36 bytes are header, fixed body and CRC, 8 a token, 24 a trailer (R446).
(DEDUCED, entry 60) -/
def roomFor (q : Req) (token : Bool) : Nat :=
  replyLimit q - (36 + (if token then 8 else 0) + (if q.trailer.isSome then 24 else 0))

/-- READ (R441, R446): the committed value, or TOO_BIG. (DEDUCED, entry 60) -/
def readValue (c : Ctx) (s : State) : Answer :=
  let data := if c.row.ty = 11 then s.stringOf c.code c.q.inst else encodeVal c.row.ty (s.value c.code c.q.inst 0)
  if roomFor c.q false < data.length then refuse rTooBig else .ok (s, { data := data })
/-- READ (R441). -/
def execRead (q : Req) (s : State) : Host.Outcome State Fault Refusal := .next (serve .read readValue q s)

/-- READ_ARRAY (R446, R447): as many whole elements as fit, with a token for the rest. (DEDUCED, entry 60) -/
def readArray (c : Ctx) (s : State) : Answer :=
  let (elem, count) := c.q.token.getD (c.q.elem, c.q.count)
  let w := elemBytes c.code c.q.inst c.row.ty
  let k := if count * w ≤ roomFor c.q false then count else roomFor c.q true / w
  if k = 0 then .error ⟨rTooBig, elem, []⟩
  else .ok (s, { elem := elem, count := k
                 token := if k < count then some ((elem + k) % 2 ^ 32, count - k) else none
                 data := s.elemsRead c.row c.code c.q.inst elem k })
/-- READ_ARRAY (R447). -/
def execReadArray (q : Req) (s : State) : Host.Outcome State Fault Refusal := .next (serve .readArray readArray q s)

/-- TICKET_READ (R450): progress and total of the ticket that a word names, and its result. (DEDUCED, entry 60) -/
def ticketRead (c : Ctx) (s : State) : Answer :=
  let (word, count) := c.q.token.getD (c.q.elem, c.q.count)
  let slot := word % 16
  let x := Store.get TicketAux.none s.yug.aux slot
  if count ≠ 1 then refuse rRange
  else if roomFor c.q false < 8 then .error ⟨rTooBig, word, []⟩
  else if s.n Attr.tktState slot 0 = 0 ∨ s.n Attr.tktTicket slot 0 ≠ word then .error ⟨rStale, word, []⟩
  else .ok (s, { elem := word, count := 1, result := s.n Attr.tktResult slot 0
                 data := leBytes 4 x.progress ++ leBytes 4 x.total })
/-- TICKET_READ (R450). -/
def execTicketRead (q : Req) (s : State) : Host.Outcome State Fault Refusal := .next (serve .ticketRead ticketRead q s)

end Sys2Proof.Machine
end

