-- ==== Sys2Proof/Machine/Dispatch.lean ====
section
/-! DEFINITION. One arm per command: each is one call of its meaning. -/

namespace Sys2Proof.Machine

/-- The effect of a command on everything but the queue. (DESIGN CHOICE, entry 1) -/
def exec (i : Instr) (s : State) : Host.Outcome State Fault Refusal :=
  match i with
  | .blockTick count latch => Sys2Proof.Machine.execBlockTick count latch s
  | .deadlineMiss outs => Sys2Proof.Machine.execDeadlineMiss outs s
  | .goAction q => Sys2Proof.Machine.execGo q s
  | .fadeComplete => Sys2Proof.Machine.execFadeComplete s
  | .watchdogExpiry => Sys2Proof.Machine.execWatchdogExpiry s
  | .clearCounts q => Sys2Proof.Machine.execClearCounts q s
  | .gain q => Sys2Proof.Machine.execGain q s
  | .idleGain q => Sys2Proof.Machine.execIdleGain q s
  | .occupant q => Sys2Proof.Machine.execOccupant q s
  | .rowSwapEnd slot => Sys2Proof.Machine.execRowSwapEnd slot s
  | .strike q => Sys2Proof.Machine.execStrike q s
  | .strikeEnd => Sys2Proof.Machine.execStrikeEnd s
  | .cancelStrike q => Sys2Proof.Machine.execCancelStrike q s
  | .copyLiveToIdle q => Sys2Proof.Machine.execCopyLiveToIdle q s
  | .clearIdle q => Sys2Proof.Machine.execClearIdle q s
  | .idleLoadComplete => Sys2Proof.Machine.execIdleLoadComplete s
  | .fader q => Sys2Proof.Machine.execFader q s
  | .queuedGroupStart => Sys2Proof.Machine.execQueuedGroupStart s
  | .rampEnd p => Sys2Proof.Machine.execRampEnd p s
  | .trim q => Sys2Proof.Machine.execTrim q s
  | .polarity q => Sys2Proof.Machine.execPolarity q s
  | .cut q => Sys2Proof.Machine.execCut q s
  | .preampGain q => Sys2Proof.Machine.execPreampGain q s
  | .zeroCrossing p => Sys2Proof.Machine.execZeroCrossing p s
  | .zcTimeout p => Sys2Proof.Machine.execZcTimeout p s
  | .preampRelease n => Sys2Proof.Machine.execPreampRelease n s
  | .timedHandover => Sys2Proof.Machine.execTimedHandover s
  | .timedChangeDue id => Sys2Proof.Machine.execTimedChangeDue id s
  | .cancelTimed q => Sys2Proof.Machine.execCancelTimed q s
  | .holdTimeExpiry o => Sys2Proof.Machine.execHoldTimeExpiry o s
  | .holdFadeEnd o => Sys2Proof.Machine.execHoldFadeEnd o s
  | .resumeFadeEnd o => Sys2Proof.Machine.execResumeFadeEnd o s
  | .coef q => Sys2Proof.Machine.execCoef q s
  | .sectionBypass q => Sys2Proof.Machine.execSectionBypass q s
  | .delayEnable q => Sys2Proof.Machine.execDelayEnable q s
  | .delay q => Sys2Proof.Machine.execDelay q s
  | .compKey q => Sys2Proof.Machine.execCompKey q s
  | .insertWrite q => Sys2Proof.Machine.execInsert q s
  | .insertBypass q => Sys2Proof.Machine.execInsertBypass q s
  | .peakHoldExpiry m => Sys2Proof.Machine.execPeakHoldExpiry m s
  | .loudnessUpdate => Sys2Proof.Machine.execLoudnessUpdate s
  | .loudnessStart q => Sys2Proof.Machine.execLoudnessStart q s
  | .loudnessStop q => Sys2Proof.Machine.execLoudnessStop q s
  | .loudnessReset q => Sys2Proof.Machine.execLoudnessReset q s
  | .silenceDetectorSetting q => Sys2Proof.Machine.execSilenceDetectorSetting q s
  | .silent k => Sys2Proof.Machine.execSilent k s
  | .stripMap q => Sys2Proof.Machine.execStripMap q s
  | .movePlanTakesEffect => Sys2Proof.Machine.execMovePlanTakesEffect s
  | .stripMoveSwitch strip => Sys2Proof.Machine.execStripMoveSwitch strip s
  | .preCopyComplete m => Sys2Proof.Machine.execPreCopyComplete m s
  | .regionCopyComplete => Sys2Proof.Machine.execRegionCopyComplete s
  | .zeroFillComplete => Sys2Proof.Machine.execZeroFillComplete s
  | .coreRetirement c => Sys2Proof.Machine.execCoreRetirement c s
  | .retirementCopyComplete c => Sys2Proof.Machine.execRetirementCopyComplete c s
  | .defragment q => Sys2Proof.Machine.execDefragment q s
  | .reinstateCore q => Sys2Proof.Machine.execReinstateCore q s
  | .offsetTick => Sys2Proof.Machine.execOffsetTick s
  | .meterLimit c => Sys2Proof.Machine.execMeterLimit c s
  | .moduleOverrun c => Sys2Proof.Machine.execModuleOverrun c s
  | .outputReleased d => Sys2Proof.Machine.execOutputReleased d s
  | .loadModule q => Sys2Proof.Machine.execLoad q s
  | .unloadModule q => Sys2Proof.Machine.execUnload q s
  | .inSrc q => Sys2Proof.Machine.execInSrc q s
  | .constWrite q => Sys2Proof.Machine.execConst q s
  | .nop c mv => Sys2Proof.Machine.execNop c mv s
  | .mul c da s1 s2 n1 mv => Sys2Proof.Machine.execMul c da s1 s2 n1 mv s
  | .mac c da s1 s2 n1 mv => Sys2Proof.Machine.execMac c da s1 s2 n1 mv s
  | .mul2 c da s1 s2 s3 s4 n1 n2 mv => Sys2Proof.Machine.execMul2 c da s1 s2 s3 s4 n1 n2 mv s
  | .mac2 c da s1 s2 s3 s4 n1 n2 mv => Sys2Proof.Machine.execMac2 c da s1 s2 s3 s4 n1 n2 mv s
  | .dmul c da db s1 s2 s3 s4 n1 n2 mv => Sys2Proof.Machine.execDmul c da db s1 s2 s3 s4 n1 n2 mv s
  | .dmac c da db s1 s2 s3 s4 n1 n2 mv => Sys2Proof.Machine.execDmac c da db s1 s2 s3 s4 n1 n2 mv s
  | .macrn c da s1 s2 n1 mv => Sys2Proof.Machine.execMacrn c da s1 s2 n1 mv s
  | .add c da db mv => Sys2Proof.Machine.execAdd c da db mv s
  | .sub c da db mv => Sys2Proof.Machine.execSub c da db mv s
  | .addsub c da db mv => Sys2Proof.Machine.execAddsub c da db mv s
  | .addx c da s1 mv => Sys2Proof.Machine.execAddx c da s1 mv s
  | .subx c da s1 mv => Sys2Proof.Machine.execSubx c da s1 mv s
  | .mova c da db mv => Sys2Proof.Machine.execMova c da db mv s
  | .clr c da mv => Sys2Proof.Machine.execClr c da mv s
  | .neg c da mv => Sys2Proof.Machine.execNeg c da mv s
  | .abs c da mv => Sys2Proof.Machine.execAbs c da mv s
  | .max c da db mv => Sys2Proof.Machine.execMax c da db mv s
  | .min c da db mv => Sys2Proof.Machine.execMin c da db mv s
  | .cmp c da db mv => Sys2Proof.Machine.execCmp c da db mv s
  | .cmpx c da s1 mv => Sys2Proof.Machine.execCmpx c da s1 mv s
  | .tst c da mv => Sys2Proof.Machine.execTst c da mv s
  | .rnd c da mv => Sys2Proof.Machine.execRnd c da mv s
  | .scalei c da k mv => Sys2Proof.Machine.execScalei c da k mv s
  | .scaler c da s1 mv => Sys2Proof.Machine.execScaler c da s1 mv s
  | .norm c da s2 mv => Sys2Proof.Machine.execNorm c da s2 mv s
  | .divs c da s1 mv => Sys2Proof.Machine.execDivs c da s1 mv s
  | .bexp c s2 mv => Sys2Proof.Machine.execBexp c s2 mv s
  | .andx c da s1 mv => Sys2Proof.Machine.execAndx c da s1 mv s
  | .orx c da s1 mv => Sys2Proof.Machine.execOrx c da s1 mv s
  | .xorx c da s1 mv => Sys2Proof.Machine.execXorx c da s1 mv s
  | .ldi c dst imm => Sys2Proof.Machine.execLdi c dst imm s
  | .move c dst src => Sys2Proof.Machine.execMove c dst src s
  | .movc c dst cr => Sys2Proof.Machine.execMovc c dst cr s
  | .ldx c dst addr => Sys2Proof.Machine.execLdx c dst addr s
  | .ldy c dst addr => Sys2Proof.Machine.execLdy c dst addr s
  | .stx c src addr => Sys2Proof.Machine.execStx c src addr s
  | .sty c src addr => Sys2Proof.Machine.execSty c src addr s
  | .lea c p off => Sys2Proof.Machine.execLea c p off s
  | .addi c da imm => Sys2Proof.Machine.execAddi c da imm s
  | .cmpi c da imm => Sys2Proof.Machine.execCmpi c da imm s
  | .bra c cond target => Sys2Proof.Machine.execBra c cond target s
  | .call c cond target => Sys2Proof.Machine.execCall c cond target s
  | .ret c cond => Sys2Proof.Machine.execRet c cond s
  | .loop c target count => Sys2Proof.Machine.execLoop c target count s
  | .loopr c target reg => Sys2Proof.Machine.execLoopr c target reg s
  | .loopn c target => Sys2Proof.Machine.execLoopn c target s
  | .breakOp c => Sys2Proof.Machine.execBreak c s
  | .evwait c j => Sys2Proof.Machine.execEvwait c j s
  | .evwaitWake c waited => Sys2Proof.Machine.execEvwaitWake c waited s
  | .evpulse c j => Sys2Proof.Machine.execEvpulse c j s
  | .release c => Sys2Proof.Machine.execRelease c s
  | .remoteRead c others clashes rb acc ix xr off => Sys2Proof.Machine.execRemoteRead c others clashes rb acc ix xr off s
  | .remoteWrite c others clashes rb acc ix xr off => Sys2Proof.Machine.execRemoteWrite c others clashes rb acc ix xr off s
  | .atomicAddWrapping c others clashes rb acc ix xr off => Sys2Proof.Machine.execAtomicAddWrapping c others clashes rb acc ix xr off s
  | .atomicAddSaturating c others clashes rb acc ix xr off => Sys2Proof.Machine.execAtomicAddSaturating c others clashes rb acc ix xr off s
  | .atomicSwap c others clashes rb acc ix xr off => Sys2Proof.Machine.execAtomicSwap c others clashes rb acc ix xr off s
  | .undefinedInstruction c => Sys2Proof.Machine.execUndefinedInstruction c s
  | .matrixBurstGrant t cycles arrivals upsets beats => Sys2Proof.Machine.execMatrixBurstGrant t cycles arrivals upsets beats s
  | .eccWriteback addr => Sys2Proof.Machine.execEccWriteback addr s
  | .marchRun q => Sys2Proof.Machine.execMarchRun q s
  | .marchComplete reads => Sys2Proof.Machine.execMarchComplete reads s
  | .deepMemoryFillComplete => Sys2Proof.Machine.execDeepMemoryFillComplete s
  | .doorbellTrigger line => Sys2Proof.Machine.execDoorbellTrigger line s
  | .descriptorTake ch addr => Sys2Proof.Machine.execDescriptorTake ch addr s
  | .descriptorComplete ch => Sys2Proof.Machine.execDescriptorComplete ch s
  | .paceRequest p => Sys2Proof.Machine.execPaceRequest p s
  | .tongsReset beats => Sys2Proof.Machine.execTongsReset beats s
  | .phaseSample r phase time => Sys2Proof.Machine.execPhaseSample r phase time s
  | .referenceQualified r => Sys2Proof.Machine.execReferenceQualified r s
  | .referenceDisqualified r => Sys2Proof.Machine.execReferenceDisqualified r s
  | .wtrExpiry r => Sys2Proof.Machine.execWtrExpiry r s
  | .clearWtr q => Sys2Proof.Machine.execClearWtr q s
  | .disagree a b set => Sys2Proof.Machine.execDisagree a b set s
  | .selectorRun now => Sys2Proof.Machine.execSelectorRun now s
  | .switchComplete => Sys2Proof.Machine.execSwitchComplete s
  | .holdoverSteerUpdate => Sys2Proof.Machine.execHoldoverSteerUpdate s
  | .holdoverLimit => Sys2Proof.Machine.execHoldoverLimit s
  | .trainingSample => Sys2Proof.Machine.execTrainingSample s
  | .modelJournal => Sys2Proof.Machine.execModelJournal s
  | .modelReset q => Sys2Proof.Machine.execModelReset q s
  | .hostTemperatureTimeout => Sys2Proof.Machine.execHostTemperatureTimeout s
  | .syncReceived pp t1 hearthTime latched delay logInt => Sys2Proof.Machine.execSyncReceived pp t1 hearthTime latched delay logInt s
  | .announceReceived pp a => Sys2Proof.Machine.execAnnounceReceived pp a s
  | .announceReceiptTimeout pp => Sys2Proof.Machine.execAnnounceReceiptTimeout pp s
  | .delayReq pp => Sys2Proof.Machine.execDelayReq pp s
  | .sourceReady t => Sys2Proof.Machine.execSourceReady t s
  | .counterPoll values => Sys2Proof.Machine.execCounterPoll values s
  | .timeBaseEnable q => Sys2Proof.Machine.execTimeBaseEnable q s
  | .sourceWrite q => Sys2Proof.Machine.execSource q s
  | .restep q => Sys2Proof.Machine.execRestep q s
  | .rateWrite q => Sys2Proof.Machine.execRate q s
  | .timeBase q => Sys2Proof.Machine.execTimeBase q s
  | .sapFrame n s0 s1 drift offset glitch => Sys2Proof.Machine.execSapFrame n s0 s1 drift offset glitch s
  | .clockStopped n => Sys2Proof.Machine.execClockStopped n s
  | .rateFault n => Sys2Proof.Machine.execRateFault n s
  | .portRecovery n skew => Sys2Proof.Machine.execPortRecovery n skew s
  | .centred n => Sys2Proof.Machine.execCentred n s
  | .sapSetting q => Sys2Proof.Machine.execSapSetting q s
  | .ethernetFrameReceived p f => Sys2Proof.Machine.execEthernetFrameReceived p f s
  | .linkChange p up => Sys2Proof.Machine.execLinkChange p up s
  | .rtpPacketReceived k pkt => Sys2Proof.Machine.execRtpPacketReceived k pkt s
  | .streamLost k => Sys2Proof.Machine.execStreamLost k s
  | .legTimeout k leg => Sys2Proof.Machine.execLegTimeout k leg s
  | .rtpPacketSend k => Sys2Proof.Machine.execRtpPacketSend k s
  | .streamEnable q => Sys2Proof.Machine.execStreamEnable q s
  | .weldFragmentReceived p f => Sys2Proof.Machine.execWeldFragmentReceived p f s
  | .weldDeadline => Sys2Proof.Machine.execWeldDeadline s
  | .memberAbsent m => Sys2Proof.Machine.execMemberAbsent m s
  | .binding q => Sys2Proof.Machine.execBinding q s
  | .yugalFrameArrival via peer bytes => Sys2Proof.Machine.execYugalFrameArrival via peer bytes s
  | .keptReplyExpiry => Sys2Proof.Machine.execKeptReplyExpiry s
  | .readAttr q => Sys2Proof.Machine.execRead q s
  | .readArray q => Sys2Proof.Machine.execReadArray q s
  | .ticketRead q => Sys2Proof.Machine.execTicketRead q s
  | .writeAttr q => Sys2Proof.Machine.execWrite q s
  | .writeFrame bytes => Sys2Proof.Machine.execWriteFrame bytes s
  | .readState => Sys2Proof.Machine.execReadState s
  | .readReply wanted => Sys2Proof.Machine.execReadReply wanted s
  | .spiBadCommand command => Sys2Proof.Machine.execSpiBadCommand command s
  | .openSession q => Sys2Proof.Machine.execOpenSession q s
  | .closeSession q => Sys2Proof.Machine.execCloseSession q s
  | .sessionTimeout id => Sys2Proof.Machine.execSessionTimeout id s
  | .keyWrite q => Sys2Proof.Machine.execKey q s
  | .keyErase q => Sys2Proof.Machine.execKeyErase q s
  | .nodeId q => Sys2Proof.Machine.execNodeId q s
  | .renewInterval now => Sys2Proof.Machine.execRenewInterval now s
  | .hello now lane frame => Sys2Proof.Machine.execHello now lane frame s
  | .renew now lane frame => Sys2Proof.Machine.execRenew now lane frame s
  | .ack now lane frame => Sys2Proof.Machine.execAck now lane frame s
  | .tetherRelease now lane frame => Sys2Proof.Machine.execTetherRelease now lane frame s
  | .take now lane frame => Sys2Proof.Machine.execTake now lane frame s
  | .grant now lane frame => Sys2Proof.Machine.execGrant now lane frame s
  | .mirror now lane frame => Sys2Proof.Machine.execMirror now lane frame s
  | .digest now lane frame => Sys2Proof.Machine.execDigest now lane frame s
  | .enrol now lane frame => Sys2Proof.Machine.execEnrol now lane frame s
  | .enrolmentComplete => Sys2Proof.Machine.execEnrolmentComplete s
  | .adopt now lane frame => Sys2Proof.Machine.execAdopt now lane frame s
  | .leaseLapse now => Sys2Proof.Machine.execLeaseLapse now s
  | .leaseExpiry now => Sys2Proof.Machine.execLeaseExpiry now s
  | .giveUp => Sys2Proof.Machine.execGiveUp s
  | .laneChange lane up => Sys2Proof.Machine.execLaneChange lane up s
  | .convergenceExpiry => Sys2Proof.Machine.execConvergenceExpiry s
  | .switchover q => Sys2Proof.Machine.execSwitchover q s
  | .rejoin q => Sys2Proof.Machine.execRejoin q s
  | .forceActive q => Sys2Proof.Machine.execForceActive q s
  | .pairEnable q => Sys2Proof.Machine.execPairEnable q s
  | .groupDurable => Sys2Proof.Machine.execGroupDurable s
  | .cardDetect card => Sys2Proof.Machine.execCardDetect card s
  | .cardIoError => Sys2Proof.Machine.execCardIoError s
  | .compact q => Sys2Proof.Machine.execCompact q s
  | .compactionComplete => Sys2Proof.Machine.execCompactionComplete s
  | .wearLevellingMove => Sys2Proof.Machine.execWearLevellingMove s
  | .format q => Sys2Proof.Machine.execFormat q s
  | .adoptCard q => Sys2Proof.Machine.execAdoptCard q s
  | .save q => Sys2Proof.Machine.execSave q s
  | .stage q => Sys2Proof.Machine.execStage q s
  | .deleteScene q => Sys2Proof.Machine.execDelete q s
  | .sceneComplete => Sys2Proof.Machine.execSceneComplete s
  | .powerOnReset b => Sys2Proof.Machine.execPowerOnReset b s
  | .pornPulse ns b => Sys2Proof.Machine.execPornPulse ns b s
  | .syncWaitExpiry => Sys2Proof.Machine.execSyncWaitExpiry s
  | .enterLow q => Sys2Proof.Machine.execEnterLow q s
  | .enterOff q => Sys2Proof.Machine.execEnterOff q s
  | .wakeFromLow q => Sys2Proof.Machine.execWakeFromLow q s
  | .wake b => Sys2Proof.Machine.execWake b s
  | .restart q => Sys2Proof.Machine.execRestart q s
  | .install q => Sys2Proof.Machine.execInstall q s
  | .activate q => Sys2Proof.Machine.execActivate q s
  | .confirm q => Sys2Proof.Machine.execConfirm q s
  | .runImage q => Sys2Proof.Machine.execRunImage q s
  | .temperatureSample readings => Sys2Proof.Machine.execTemperatureSample readings s
  | .voltageSample readings => Sys2Proof.Machine.execVoltageSample readings s
  | .processSample readings deviations => Sys2Proof.Machine.execProcessSample readings deviations s
  | .clearConditions q => Sys2Proof.Machine.execClearConditions q s
  | .control q => Sys2Proof.Machine.execControl q s
  | .clearMask q => Sys2Proof.Machine.execClearMask q s
  | .tagClear q => Sys2Proof.Machine.execTagClear q s
  | .issueChallenge q => Sys2Proof.Machine.execIssueChallenge q s
  | .challengeExpiry => Sys2Proof.Machine.execChallengeExpiry s
  | .unlock q => Sys2Proof.Machine.execUnlock q s
  | .unlockLockoutExpiry => Sys2Proof.Machine.execUnlockLockoutExpiry s
  | .lock q => Sys2Proof.Machine.execLock q s
  | .tmuxSelect q => Sys2Proof.Machine.execTmuxSelect q s
  | .formatComplete => Sys2Proof.Machine.execFormatComplete s
  | .installComplete => Sys2Proof.Machine.execInstallComplete s
  | .restartDurableWaitExpiry b => Sys2Proof.Machine.execRestartDurableWaitExpiry b s
  | .restoredModelWithholdEnd => Sys2Proof.Machine.execRestoredModelWithholdEnd s

end Sys2Proof.Machine
end

