-- ==== Sys2Proof/WellFormed.lean ====
section
/-! DEFINITION. Which commands can be given. A well-formed command names objects that the block has (a core, a
port, a stream, a slot, a plane) and carries fields that fit the widths the spec gives them. The meanings are total
and do not rely on it; it says what a sender can spell. -/

namespace Sys2Proof

/-- The value fits in `n` bits. -/
def fits (n v : Nat) : Bool := decide (v < 2 ^ n)

/-- A request frame's fields are inside their widths (R435, R436): transport 0 to 4, a source of 1 to 2047, a
16-bit destination and sequence number, a reply of at least 68 bytes, and an address of class,
instance, attribute and element. -/
def Req.wf (q : Req) : Bool :=
  decide (q.via ≤ 4) && decide (1 ≤ q.src) && decide (q.src ≤ 2047) && fits 16 q.dst &&
  fits 16 q.seq && decide (68 ≤ q.maxReply) && fits 16 q.maxReply && fits 16 q.session && fits 8 q.op &&
  fits 8 q.cls && fits 16 q.inst && fits 8 q.attr && fits 32 q.elem && fits 32 q.count

/-- A node of a plane: plane 0 or 1, a source slot and a destination of the largest shape (R38). -/
def RParam.wf : RParam → Bool
  | .node p s d => decide (p < 2) && decide (s < 4096) && decide (d < 2048)
  | .inFader n => decide (n < 2048)
  | .outFader n => decide (n < 2048)
  | .swap s => decide (s < 4096)

/-- A Class Z parameter names a strip that exists (R93). -/
def ZParam.wf : ZParam → Bool
  | .trim n | .polarity n | .inCut n | .preamp n => decide (n < 2048)
  | .outCut n => decide (n < 2048)

/-- An output that holds names a SAP channel, a stream channel or a welded contributor that exists (R131). -/
def OutRef.wf : OutRef → Bool
  | .sapOut n ch | .sapIn n ch => decide (n < 32) && decide (ch < 2)
  | .tx s ch | .rx s ch => decide (s < 512) && decide (ch < 64)
  | .weld d m => decide (d < 2048) && decide (m < 32)

/-- A burst of a master other than Tongs is at most 8 beats of 32 bytes (R297); an atomic operation is of one word of a bank,
and the supervisor's (R280). -/
def Burst.wf (b : Burst) : Bool :=
  decide (1 ≤ b.len) && decide (b.addr % 32 + b.len ≤ 256) && [0, 2, 3, 4].contains b.master &&
    (match b.kind with
     | .read => true
     | .write => b.data.length == b.len
     | _ => b.master == 0 && b.len == 4 && b.data.length == 4 && b.addr % 4 == 0 && decide (b.addr < 0x400000))

/-- What one access meets: other cores, each once, and a master that reaches the banks (R281, R283, R297). -/
def Gate.wf (c : Nat) (g : Gate) : Bool :=
  g.others.all (fun o => decide (o < 48) && o != c) && decide g.others.Nodup &&
    g.clash.all fun x => [0, 1, 3, 4].contains x.master && (!x.atomic || x.master == 0)

/-- A core with what its accesses meet: at most four posted writes and one more (R231). -/
def gatesWf (c : Nat) (l : List Gate) : Bool := decide (c < 48) && decide (l.length ≤ 5) && l.all (Gate.wf c)

/-- A read that differs belongs to an element that reads (R289). -/
def MarchRead.wf (r : MarchRead) : Bool := decide (2 ≤ r.element ∧ r.element ≤ 6)

/-- A march failure names a line whose read data differ (R292). -/
def MarchFail.wf (f : MarchFail) : Bool := decide (f.diff ≠ 0)

/-- What stands at the pins when a reset ends: a reset cause of 0 to 4 (R529), and three BOOTSEL pins (R530). -/
def BootIn.wf (b : BootIn) : Bool := decide (b.cause ≤ 4) && decide (b.bootsel < 8) && b.marchFail.all MarchFail.wf

/-- A core number: 48 cores (R249). -/
def coreWf (c : Nat) : Bool := decide (c < 48)

/-- The two moves of one instruction do not post-modify one pointer (R254). -/
def movesWf (c : Nat) (mv : Moves) : Bool := coreWf c && mv.ok

/-- Which commands can be given. (DEDUCED, entry 12) -/
def Instr.wf : Instr → Bool
  | .blockTick _ latch => decide (latch.length ≤ 8)
  | .deadlineMiss _ | .fadeComplete | .watchdogExpiry => true
  | .rowSwapEnd s => decide (s < 4096)
  | .strikeEnd | .idleLoadComplete | .queuedGroupStart | .timedHandover => true
  | .rampEnd p => p.wf
  | .zeroCrossing p | .zcTimeout p => p.wf
  | .preampRelease n => decide (n < 2048)
  | .timedChangeDue _ => true
  | .holdTimeExpiry o | .holdFadeEnd o | .resumeFadeEnd o => o.wf
  | .peakHoldExpiry _ | .loudnessUpdate | .silent _ => true
  | .movePlanTakesEffect | .stripMoveSwitch _ | .preCopyComplete _ | .regionCopyComplete | .zeroFillComplete => true
  | .coreRetirement c | .retirementCopyComplete c => coreWf c
  | .offsetTick => true
  | .meterLimit c | .moduleOverrun c => coreWf c
  | .goAction q | .clearCounts q | .gain q | .idleGain q | .occupant q | .strike q | .cancelStrike q
  | .copyLiveToIdle q | .clearIdle q | .fader q | .trim q | .polarity q | .cut q | .preampGain q | .cancelTimed q
  | .coef q | .sectionBypass q | .delayEnable q | .delay q | .compKey q | .insertWrite q | .insertBypass q
  | .loudnessStart q | .loudnessStop q | .loudnessReset q | .silenceDetectorSetting q | .stripMap q
  | .defragment q | .reinstateCore q | .loadModule q | .unloadModule q | .inSrc q | .constWrite q | .marchRun q
  | .clearWtr q | .modelReset q | .timeBaseEnable q | .sourceWrite q | .restep q | .rateWrite q | .timeBase q
  | .sapSetting q | .streamEnable q | .binding q | .readAttr q | .readArray q | .ticketRead q | .writeAttr q
  | .openSession q | .closeSession q | .keyWrite q | .keyErase q | .nodeId q | .switchover q | .rejoin q
  | .forceActive q | .pairEnable q | .compact q | .format q | .adoptCard q | .save q | .stage q | .deleteScene q
  | .enterLow q | .enterOff q | .wakeFromLow q | .restart q | .install q | .activate q | .confirm q | .runImage q
  | .clearConditions q | .control q | .clearMask q | .tagClear q | .issueChallenge q | .unlock q | .lock q
  | .tmuxSelect q => q.wf
  | .nop c mv | .mul c _ _ _ _ mv | .mac c _ _ _ _ mv | .mul2 c _ _ _ _ _ _ _ mv | .mac2 c _ _ _ _ _ _ _ mv
  | .macrn c _ _ _ _ mv | .add c _ _ mv | .sub c _ _ mv | .addx c _ _ mv | .subx c _ _ mv | .mova c _ _ mv
  | .clr c _ mv | .neg c _ mv | .abs c _ mv | .max c _ _ mv | .min c _ _ mv | .cmp c _ _ mv | .cmpx c _ _ mv
  | .tst c _ mv | .rnd c _ mv | .scalei c _ _ mv | .scaler c _ _ mv | .norm c _ _ mv | .divs c _ _ mv
  | .bexp c _ mv | .andx c _ _ mv | .orx c _ _ mv | .xorx c _ _ mv => movesWf c mv
  | .dmul c da db _ _ _ _ _ _ mv | .dmac c da db _ _ _ _ _ _ mv | .addsub c da db mv =>
    movesWf c mv && decide (da ≠ db)
  | .ldi c d _ | .movc c d _ | .ldx c d _ | .ldy c d _ => coreWf c && dstOk d
  | .move c d r => coreWf c && dstOk d && srcOk r
  | .stx c r _ | .sty c r _ => coreWf c && srcOk r
  | .lea c _ _ | .addi c _ _ | .cmpi c _ _ => coreWf c
  | .bra c _ _ | .call c _ _ | .ret c _ | .loop c _ _ | .loopn c _ | .breakOp c => coreWf c
  | .loopr c _ r => coreWf c && srcOk r
  | .evwait c _ | .evwaitWake c _ | .evpulse c _ | .release c | .undefinedInstruction c => coreWf c
  | .remoteRead c os xs _ _ _ _ _ | .remoteWrite c os xs _ _ _ _ _ | .atomicAddWrapping c os xs _ _ _ _ _
  | .atomicAddSaturating c os xs _ _ _ _ _ | .atomicSwap c os xs _ _ _ _ _ => gatesWf c (gatesOf os xs)
  | .outputReleased d => gatesWf d.core d.gates
  | .matrixBurstGrant _ _ arrivals _ _ => arrivals.all Burst.wf
  | .eccWriteback _ => true
  | .marchComplete l => l.all MarchRead.wf
  | .deepMemoryFillComplete | .doorbellTrigger _ => true
  | .descriptorTake ch _ | .descriptorComplete ch => decide (ch < 16)
  | .paceRequest _ | .tongsReset _ => true
  | .phaseSample _ _ _ | .referenceQualified _ | .referenceDisqualified _ | .wtrExpiry _ | .disagree _ _ _
  | .selectorRun _ | .switchComplete | .holdoverSteerUpdate | .holdoverLimit | .trainingSample | .modelJournal
  | .hostTemperatureTimeout | .syncReceived _ _ _ _ _ _ | .announceReceived _ _ | .announceReceiptTimeout _
  | .delayReq _ | .sourceReady _ => true
  | .counterPoll values => decide (values.length ≤ 8)
  | .sapFrame n _ _ _ _ _ | .clockStopped n | .rateFault n | .portRecovery n _ | .centred n => decide (n < 32)
  | .ethernetFrameReceived p _ | .linkChange p _ => decide (p < 4)
  | .rtpPacketReceived s pkt => decide (s < 512) && decide (pkt.leg < 2) && fits 16 pkt.seq && fits 32 pkt.ts
  | .streamLost s => decide (s < 512)
  | .legTimeout s leg => decide (s < 512) && decide (leg < 2)
  | .rtpPacketSend s => decide (s < 512)
  | .weldFragmentReceived p f => decide (p < 4) && fits 8 f.sender && fits 16 f.fragment
  | .weldDeadline => true
  | .memberAbsent m => decide (m < 32)
  | .yugalFrameArrival via _ _ => decide (via ≤ 4)
  | .keptReplyExpiry | .writeFrame _ | .readState | .readReply _ => true
  | .spiBadCommand c => decide (c ≠ 0x01 ∧ c ≠ 0x02 ∧ c ≠ 0x03)
  | .sessionTimeout _ => true
  | .renewInterval _ | .enrolmentComplete | .leaseLapse _ | .leaseExpiry _ | .giveUp | .convergenceExpiry => true
  | .hello _ l _ | .renew _ l _ | .ack _ l _ | .tetherRelease _ l _ | .take _ l _ | .grant _ l _ | .mirror _ l _
  | .digest _ l _ | .enrol _ l _ | .adopt _ l _ | .laneChange l _ => decide (l < 2)
  | .groupDurable | .cardDetect _ | .cardIoError | .compactionComplete | .wearLevellingMove | .sceneComplete => true
  | .powerOnReset b | .pornPulse _ b | .wake b | .restartDurableWaitExpiry b => b.wf
  | .syncWaitExpiry | .temperatureSample _ | .voltageSample _ | .processSample _ _ => true
  | .challengeExpiry | .unlockLockoutExpiry | .formatComplete | .installComplete | .restoredModelWithholdEnd => true

end Sys2Proof
end

