-- ==== Sys2Proof/Safety.lean ====
section
/-! DEFINITION. What claims about the block are said in: a run that goes on, the canonical form of its tables, a request
that is served, and an Anvil instruction that completes. -/

namespace Sys2Proof.Machine

/-! ### Going on -/

/-- A step that goes on: neither a fault nor a refusal. -/
def goesOn (o : Host.Outcome State Fault Refusal) : Bool :=
  match o with
  | .next _ => true
  | .fault _ => false
  | .refused _ => false

/-- The queue of waiting commands holds only commands that can be given. -/
def State.queueWf (s : State) : Bool := s.pending.all Instr.wf

/-! ### Canonical tables -/

/-- Memory is in its canonical form: addresses strictly rising, and no byte listed that is 0, which is what an unlisted
address reads as (R287, R295). -/
def Memory.wf (m : Store Byte) : Bool := Store.wf (fun _ => 0) m

/-- The state's memory is in its canonical form. -/
def State.memoryWf (s : State) : Bool := Memory.wf s.fab.mem

/-! ### A request that is served (R439, R441) -/

/-- The state in which the effect of a request is formed: its session's counter has moved, and the request is counted. -/
def State.opened (v : State) (sess : Option Session) : State :=
  (v.putSession (sess.map fun k => { k with tx := k.tx + 1 })).event 0x0F1

/-- Whether request `q` is served as `row`: it is that row's, it is taken, authentication passes, and the checks of R439
that every operation shares find nothing. The session of the request, the state after it is taken, and what its effect
is told; none where it is not served so. -/
def serving (row : Row) (q : Req) (s : State) : Option (Option Session × State × Ctx) :=
  if rowOf q ≠ row then none
  else match s.take q with
  | .got v =>
    (match v.auth q with
     | .pass sess =>
       (match (v.opened sess).checks q with
        | .ok c => if ((v.opened sess).shared c).isNone then some (sess, v, c) else none
        | .error _ => none)
     | _ => none)
  | _ => none

/-- The state after a request has had its effect `t` with answer `o`: committed, mirrored, answered and its reply kept
(R442, R448, R482, R508). -/
def State.replied (v : State) (q : Req) (sess : Option Session) (c : Ctx) (t : State) (o : Out) : State :=
  let t := ((t.noteStored c).journal c).mirrorWrite c
  let b := replyFrame t (v.n Attr.yugNodeId 0 0) q o.result o (sess.map fun k => { k with tx := k.tx + 1 })
  (t.deliver q b).keep q b

/-- The state after a request that is refused with `f`: the counters it names rise, and the refusal is answered. -/
def State.repliedRefusal (v : State) (q : Req) (sess : Option Session) (f : Fail) : State :=
  let t := (v.opened sess).bumps f.counts
  let b := replyFrame t (v.n Attr.yugNodeId 0 0) q f.code { elem := f.elem } (sess.map fun k => { k with tx := k.tx + 1 })
  (t.deliver q b).keep q b

/-- The answer of an operation under the ticket in slot `k` of `t` (R449). -/
def ticketed (k : Nat) (t : State) : State × Out :=
  (t, { result := rPending, data := leBytes 4 (t.n Attr.tktTicket k 0) })

/-- Every request without a take-effect time that is served as `row` in a state that meets `cond` has the effect `eff`,
and its command answers the state that this leaves. -/
def Performs (mk : Req → Instr) (row : Row) (cond : Ctx → State → Prop) (eff : Ctx → State → State × Out) : Prop :=
  ∀ s q sess v c, serving row q s = some (sess, v, c) → q.when_ = none → cond c (v.opened sess) →
    exec (mk q) s = .next (v.replied q sess c (eff c (v.opened sess)).1 (eff c (v.opened sess)).2)

/-- Every request without a take-effect time that is served as `row` in a state that meets `cond` is answered as `res` says:
where what decides between success and refusal is a value that the spec leaves open. -/
def Answers (mk : Req → Instr) (row : Row) (cond : Ctx → State → Prop) (res : Ctx → State → Answer) : Prop :=
  ∀ s q sess v c, serving row q s = some (sess, v, c) → q.when_ = none → cond c (v.opened sess) →
    exec (mk q) s = .next (match res c (v.opened sess) with
      | .ok (t, o) => v.replied q sess c t o
      | .error f => v.repliedRefusal q sess f)

/-- The claim of `Performs` for a row whose effect is under a ticket: it is opened in the state `pre`, for the action `origin` and with
the total `total`; `k` is its slot, `t` the state with it, and `eff` what follows. -/
def PerformsTicket (mk : Req → Instr) (row : Row) (cond : Ctx → State → Prop) (pre : Ctx → State → State)
    (origin : Ctx → Nat) (total : Ctx → State → Nat) (eff : Ctx → State → Nat → State → State) : Prop :=
  ∀ s q sess v c k t, serving row q s = some (sess, v, c) → q.when_ = none → cond c (v.opened sess) →
    (pre c (v.opened sess)).openTicket (origin c) (total c (v.opened sess)) = some (k, t) →
    exec (mk q) s = .next (v.replied q sess c (ticketed k (eff c (v.opened sess) k t)).1
      (ticketed k (eff c (v.opened sess) k t)).2)

/-- Every request without a take-effect time that is served as `row` in a state that meets `cond` is refused as `f` says,
and nothing but the reply and the counters it names come of it. -/
def RefusesWith (mk : Req → Instr) (row : Row) (cond : Ctx → State → Prop) (f : Ctx → State → Fail) : Prop :=
  ∀ s q sess v c, serving row q s = some (sess, v, c) → q.when_ = none → cond c (v.opened sess) →
    exec (mk q) s = .next (v.repliedRefusal q sess (f c (v.opened sess)))

/-- The same with a code alone. -/
def Refuses (mk : Req → Instr) (row : Row) (cond : Ctx → State → Prop) (code : Nat) : Prop :=
  RefusesWith mk row cond fun _ _ => ⟨code, 0, []⟩

/-- A change of the declared topology that is admitted while the tick stands, or at once without a move: the state that
binds it (R187, R190). -/
def State.admitted (t : State) : Option State :=
  match t.admits with
  | .no _ => none
  | .inc p w =>
    if t.ticking then some (((w.bind ((w.place.only [t.topo]).join p)).prune).freeRegions) else some (w.bind p).freeRegions
  | .plan p regions w => if t.ticking then none else some (w.moveAll p regions).freeRegions

/-! ### An Anvil instruction that completes (R227, R228, R234, R268) -/

/-- The registers an instruction of core `c` works on: those of the core, with the loop entries that end at its pc gone. -/
def State.regsAt (s : State) (c : Nat) : CoreSt :=
  { s.core c with stack := (loopEnd (s.core c).pc (s.core c).stack).1 }

/-- Core `c` fetches instruction `i` next, for module `m`. -/
def State.fetches (s : State) (c : Nat) (i : Instr) (m : Nat) (md : Mod) : Prop :=
  s.runs c = some (m, md) ∧ decodeAnvil c (s.core c).pc (s.fetchWord c md).1 = some i

/-- The cycles an instruction takes: its own, and one more where it waits for what the last one wrote. -/
def State.cyclesOf (s : State) (c : Nat) (needs : Hazard) (r : Ran) : Nat := r.cost + b2n (hazardOf (s.core c).haz needs != 0)

/-- The core after an instruction that ran to `r`. -/
def State.coreAfter (s : State) (c : Nat) (needs : Hazard) (r : Ran) : CoreSt :=
  { r.k with
    pc := r.next.getD (loopEnd (s.core c).pc (s.core c).stack).2
    meter := (s.core c).meter + s.cyclesOf c needs r
    haz := r.wrote }

/-- The instruction that ran to `r` ends within its module's meter, and the fetch after it is below Sp. -/
def State.fitsMeter (s : State) (c : Nat) (md : Mod) (needs : Hazard) (r : Ran) : Prop :=
  (s.core c).meter + s.cyclesOf c needs r ≤ s.limitOf md.image ∧ (s.coreAfter c needs r).pc < md.image.sp

/-- The parallel moves of an instruction of core `c` meet no bound: `x` and `y` are what they do. -/
def State.movesOk (s : State) (c m : Nat) (md : Mod) (mv : Moves) (x y : Option MoveDone) : Prop :=
  (s.aenv c m md).move (s.regsAt c) false mv.x = .ok x ∧ (s.aenv c m md).move (s.regsAt c) true mv.y = .ok y

/-- What an instruction of core `c` leaves: every other core, the modules, every byte of memory outside its own window and the
bytes `stored` to, the queue, the engine, the fabric's planes and the placement are as before. -/
def State.elsewhere (s : State) (c : Nat) (stored : Nat → Prop) (t : State) : Prop :=
  (∀ d, d ≠ c → t.core d = s.core d) ∧ (∀ m, t.mod? m = s.mod? m) ∧
    (∀ a, ¬ stored a → (∀ o, areaOf a ≠ .window c o) → t.readByte a = s.readByte a) ∧
    t.pending = s.pending ∧ t.eng = s.eng ∧ t.cru = s.cru ∧ t.plc = s.plc

/-- No word of memory is upset, no event is counted and core `c` is not tagged. -/
def State.quiet (s : State) (c : Nat) : Prop :=
  s.fab.upset = [] ∧ s.listed Attr.cntControl = [] ∧ bit (s.n Attr.cntTagCores 0x100 0) c = false

/-- The state in which core `c` has gone on to `k`, and its tag generator one step (R560). -/
def State.tagStepped (s : State) (c : Nat) (k : CoreSt) : State :=
  { s.setCore c k with
    hlt := { s.hlt with lfsr := Store.put s.hlt.lfsr c (ditherStep (Store.get 1 s.hlt.lfsr c)) } }

/-- Core `c` has gone on to `k` and nothing else has changed, but for what is counted, tagged or corrected. -/
def State.wentOn (s : State) (c : Nat) (k : CoreSt) (t : State) : Prop :=
  t.core c = k ∧ s.elsewhere c (fun _ => False) t ∧ (s.quiet c → t = s.tagStepped c k)

/-- Every format P instruction `i` of core `c` that is fetched, whose moves meet no bound and that ends within its meter
runs, and leaves the core as its arithmetic, formed on the registers before it, and its moves say (R255), and all else as it was. -/
def RunsP (c : Nat) (i : Instr) (mv : Moves) (arith : CoreSt → Arith) : Prop :=
  ∀ s m md x y, s.fetches c i m md → s.movesOk c m md mv x y →
    s.fitsMeter c md (movesNeed mv) ((s.aenv c m md).retireP mv x y (arith (s.regsAt c)) (s.regsAt c)) →
    ∃ t, exec i s = .next t ∧
      s.wentOn c (s.coreAfter c (movesNeed mv) ((s.aenv c m md).retireP mv x y (arith (s.regsAt c)) (s.regsAt c))) t

/-- Every instruction `i` of core `c` that is fetched, for which `f` gives what it does, and that ends within its meter runs,
leaves the core as `f` says, and all else as it was. -/
def Runs (c : Nat) (i : Instr) (needs : Hazard) (f : State → AEnv → CoreSt → Option Ran) : Prop :=
  ∀ s m md r, s.fetches c i m md → f s (s.aenv c m md) (s.regsAt c) = some r → s.fitsMeter c md needs r →
    ∃ t, exec i s = .next t ∧ s.wentOn c (s.coreAfter c needs r) t

/-- Every instruction `i` of core `c` that is fetched and meets the bound `f` of its module is a module fault of that code: the
core runs it in a state that has its cores and modules as they were. -/
def Faults (c : Nat) (i : Instr) (f : State → AEnv → CoreSt → Option Nat) : Prop :=
  ∀ s m md x, s.fetches c i m md → f s (s.aenv c m md) (s.regsAt c) = some x →
    ∃ u : State, u.anv = s.anv ∧ exec i s = .next (u.moduleFault c m x)

/-- What a remote access of `cost` cycles that returns `old` leaves of the core: the old word in the accumulator with AL clear; an
atomic operation sets SOV where its operand was limited (R230, R280). -/
def tookWord (acc : Fin 4) (cost old : Nat) (atomic : Bool) (k : CoreSt) : Ran :=
  let r := k.setAcc acc.val (remoteAcc old)
  { k := { r with sr := srSetSov r.sr ((remoteWord k.rm (k.accReg acc.val)).2 && atomic) }
    cost := cost
    wrote := { regs := [], accs := [acc.val], flags := false } }

/-- The bytes that a store of a word at `a` reaches: its four bytes, and their second copies where they move (R197). -/
def State.wordStored (s : State) (a b : Nat) : Prop := (a ≤ b ∧ b < a + 4) ∨ ∃ i, i < 4 ∧ s.copyAt (a + i) = some b

/-- A word of the scratch banks; where it moves, its second copy lies elsewhere (R197). -/
def State.bankWord (s : State) (a : Nat) : Prop :=
  a + 4 ≤ 0x400000 ∧ ∀ i j, i < 4 → j < 4 → s.copyAt (a + i) ≠ some (a + j)

/-- The posted writes of core `c`, at most four, go to words of the scratch banks (R231). -/
def State.posts (s : State) (c : Nat) : Prop := (s.core c).wbuf.length ≤ 4 ∧ ∀ w ∈ (s.core c).wbuf, s.bankWord w.1

/-- The bytes that the posted writes of core `c` reach. -/
def State.posted (s : State) (c b : Nat) : Prop := ∃ w ∈ (s.core c).wbuf, s.wordStored w.1 b

/-- The cycles that a remote access of core `c` to address `a` waits at the banks: those of its posted writes, which go
before it, and its own, by what they meet there (R231, R281 to R283). -/
def State.waitAt (s : State) (c a : Nat) (atomic : Bool) (gates : List Gate) : Nat :=
  (s.gateServe c ((s.core c).postedAccesses ++ [(a, atomic)]) gates).1

/-- A remote access of core `c` to word `a` of the scratch banks that is fetched and ends within the meter of its module
(R231, R272). -/
def State.remoteReady (s : State) (c m : Nat) (md : Mod) (i : Instr) (a : Nat) (needs : Hazard) (r : Ran) (x : AEnv → CoreSt →
    Except Nat Nat) : Prop :=
  s.fetches c i m md ∧ x (s.aenv c m md) (s.regsAt c) = .ok a ∧ s.posts c ∧ s.fitsMeter c md needs r ∧ s.bankWord a

/-! ### The terms of single statements -/

/-- The nodes that a gain write names, on the plane that is live in this period, with their new gains (R5, R60, R80). -/
def gainTargets (c : Ctx) (u : State) : List (RParam × Int) :=
  c.vals.mapIdx fun i v =>
    let p := RParam.node (u.planeAt u.eng.count) c.q.inst (c.q.elem + i)
    (p, if c.code = Attr.nodeGainCdb then cdbWrite (u.target p) v else v)

/-- The fader that a fader write names, with its new gain (R5, R109). -/
def faderTarget (c : Ctx) (u : State) : RParam × Int :=
  let p := if c.code / 256 = 0x30 then RParam.inFader c.q.inst else .outFader c.q.inst
  (p, if c.code = Attr.insFaderCdb ∨ c.code = Attr.outsFaderCdb then cdbWrite (u.target p) c.arg
      else c.arg)

/-- The ramps that a write of parameters and targets makes with the tick running (R60, R61, R97, R99, R110): none of a
parameter that holds its target with no ramp in flight or waiting, nor, without a modifier, of one in flight to it. -/
def rampsNamed (c : Ctx) (l : List (RParam × Int)) (u : State) : List NewRamp :=
  let plain := c.q.ramp.isNone && c.q.shape.isNone
  (l.filter fun e => !(u.target e.1 == e.2 && (u.queued? e.1).isNone && (!u.inFlight e.1 || plain))).map fun e =>
    ⟨e.1, e.2, (rampOf c u).1, (rampOf c u).2, u.applied e.1 (u.firstOf e.1 - 1), u.order c⟩

/-- The slot that an occupant write binds and what it is to hold (R41, R42): an in-strip's source names the slot that is to
hold the strip, and 0xFFFF the slot that holds it, which is to hold nothing. -/
def bindingNamed (c : Ctx) (u : State) : Option (Nat × Nat) :=
  if c.code = Attr.slotOccupant then some (c.q.inst, c.arg.toNat)
  else if c.arg.toNat = 0xFFFF then (u.slotOf (2 ^ 28 + c.q.inst)).map fun k => (k, 0)
  else if u.S ≤ c.arg.toNat then none
  else some (c.arg.toNat, 2 ^ 28 + c.q.inst)

/-- A state in which a binding is made at once (R41): the slot holds its new occupant, and the slot that it leaves none. -/
def bindingMade (b : Nat × Nat) (u : State) : State :=
  (u.bindings b.1 b.2).foldl (fun t e => t.set Attr.slotOccupant e.1 0 (e.2 : Int)) u

/-- A Class Z write of parameter `p` to `v`: with the tick stopped the value applies at once (R114). -/
def zAtOnce (p : ZParam) (v : Int) (u : State) : State := (u.set (zKey p).1 (zKey p).2 0 v).setZ p none

/-- A Class Z write of parameter `p` to `v` with the tick running and no change pending: the attribute takes the value and
the search for a crossing starts at its first sample (R115 to R118); a write of the value that applies changes nothing. -/
def zArmed (p : ZParam) (v : Int) (u : State) : State :=
  let old := u.a (zKey p).1 (zKey p).2 0
  if v = old then u
  else (u.set (zKey p).1 (zKey p).2 0 v).setZ p (some ⟨p, old, v, u.reach (zKey p).1 (zKey p).2,
    samplesOf (u.n Attr.belZcTimeout 0 0) u.eng.cfg.fs, none, false, false⟩)

/-- The cut that a write names. -/
def cutParam (c : Ctx) : ZParam := if c.code / 256 = 0x30 then .inCut c.q.inst else .outCut c.q.inst

/-- The order in which the moves to placement `q` are made for the declarations of `t` in place of those of `s`, where every
state on the way passes its tests (R189). -/
def State.orderTo (s t : State) (q : Place) : Option (List PMove) :=
  let both := Topo.union s.runningTopo t.topo
  let here := t.futurePlace.join q
  let moves := t.futurePlace.movesTo q
  if both.standing t.retired here none then both.order t.retired (2 * moves.length + 1) here moves else none

/-- A row whose writes change the declared topology, where `may` allows them: one that admission takes without a move, or with
the tick stopped, binds it at once; one that needs moves, or comes behind a plan that changes the topology, runs under a plan
with a ticket; one with no order, no plan free or no admission is refused (R187 to R190). -/
def ChangesTopology (mk : Req → Instr) (row : Row) (may : Ctx → State → Prop) : Prop :=
  let placed (c : Ctx) (u : State) : Prop :=
    (u.store c).admitted.isSome = true ∧ (u.ticking = false ∨ (u.plc.plans.all fun x => decide (x.effect = [])) = true)
  let moved (c : Ctx) (u : State) (p : Place) (r : List PMove) (w : State) (l : List PMove) : Prop :=
    u.ticking = true ∧ (u.store c).admits = .plan p r w ∧ u.orderTo (u.store c) p = some l
  let behind (c : Ctx) (u : State) (p : Place) (w : State) : Prop :=
    u.ticking = true ∧ (u.store c).admits = .inc p w ∧ u.plc.plans.any (fun x => decide (x.effect ≠ [])) = true
  Performs mk row (fun c u => may c u ∧ placed c u) (fun c u => ((u.store c).admitted.getD u, {})) ∧
  (∀ p r w l k t, Performs mk row (fun c u => may c u ∧ moved c u p r w l ∧
      w.addPlan (address c.code c.q.inst) p (l ++ r) (u.undo c) = some (k, t)) (fun _ _ => ticketed k t)) ∧
  (∀ p w k t, Performs mk row (fun c u => may c u ∧ behind c u p w ∧
      w.addPlan (address c.code c.q.inst) p [] (u.undo c) = some (k, t)) (fun _ _ => ticketed k t)) ∧
  (∀ p r w l, Refuses mk row (fun c u => may c u ∧ moved c u p r w l ∧
      w.addPlan (address c.code c.q.inst) p (l ++ r) (u.undo c) = none) rBusy) ∧
  (∀ p w, Refuses mk row (fun c u => may c u ∧ behind c u p w ∧
      w.addPlan (address c.code c.q.inst) p [] (u.undo c) = none) rBusy) ∧
  (∀ p r w, Refuses mk row (fun c u => may c u ∧ u.ticking = true ∧ (u.store c).admits = .plan p r w ∧
      u.orderTo (u.store c) p = none) rAdmission) ∧
  (∀ e, Refuses mk row (fun c u => may c u ∧ (u.store c).admits = .no e) e)

/-- A state with the context of one loudness meter replaced. -/
def State.withLoud (u : State) (m : Nat) (x : LoudCtx) : State :=
  { u with mtr := { u.mtr with loud := Store.put u.mtr.loud m x } }

/-- A Class Z change leaves the parameters that wait, but a preamplifier's waits for its release (R117, R120). -/
def State.zDone (s : State) (p : ZParam) (z : ZPend) : State :=
  match p with
  | .preamp _ => s.setZ p (some { z with release := true })
  | _ => s.setZ p none

/-- A go may be considered: the chip is in NORMAL and no exit fade runs. -/
def goOpen (u : State) : Prop := u.pow.broken = false ∧ u.n Attr.powPowerState 0 0 = 0 ∧ u.eng.fade ≠ 2

/-- The state in which a load declares module `m` with image `g` on the event lines from `l`. -/
def declared (u : State) (m : Nat) (g : Image) (l : Nat) : State :=
  (u.setMod m (Mod.new g (if g.events = 0 then none else some l))).imageAttrs m g

/-- What is staged for module `m`. -/
def staged (u : State) (m : Nat) : List Byte := Store.get [] u.blobs (attrKey Attr.modImage m 0)

/-- A condemned core that may retire: it is one of the 48, is not retired, and with the tick running is stopped. -/
def retirable (s : State) (c : Nat) : Prop :=
  c < 48 ∧ (s.core c).condemned = true ∧ bit (s.n Attr.plcRetiredCores 0 0) c = false ∧
    (s.ticking = true → (s.core c).halted = true)

/-- The core is retired: its bit, the count and the log say so, nothing runs on it, and no plan moves a module onto it. -/
def retiredNow (s : State) (c : Nat) : State :=
  (((((s.set Attr.plcRetiredCores 0 0 ((s.n Attr.plcRetiredCores 0 0 + 2 ^ c : Nat) : Int)).bump Attr.plcRetirements 0
    0).logAt sevError Attr.plcRetirements 0 0).setCore c { s.core c with halted := true, run := none, todo := [] }).retarget c)

/-- The blocks of a period end: cores still running are stopped as overrun, every block that began counts, and the gateway
takes each module's outputs from its core. -/
def blocksEnded (s : State) : State :=
  let u := ((s.endShadow.anv.cores.map (·.1)).foldl State.stopCore s.endShadow).countBlocks.keepStates
  u.modules.foldl (fun t e => t.gatewayOut (t.n Attr.plcModuleCore 0 e.1) e.1 e.2) u

/-- The Tongs budgets of a period start afresh: no bytes are counted and no channel is paused. -/
def budgetsOpened (s : State) : State :=
  { s with tng := { s.tng with bytes := [], chans := s.tng.chans.map fun (e : Nat × TChan) => (e.1, { e.2 with paused := false }) } }

/-- A tick of count `count` comes: it is the next multiple of N, or the first after an entry into RUN; bring-up stands at no
entry of its own. -/
def tickComes (s : State) (count : Nat) : Prop :=
  s.ticking = true ∧ count % s.eng.cfg.n = 0 ∧ (s.eng.frames = 0 → s.eng.count < count) ∧
    (s.eng.frames ≠ 0 → count = s.eng.count + s.eng.cfg.n)

/-- The ten frames of the Tether, each with its type. -/
def tetherCommands : List (Nat × (Nat → Nat → List Byte → Instr)) :=
  [(tHello, .hello), (tRenew, .renew), (tAck, .ack), (tRelease, .tetherRelease), (tTake, .take), (tGrant, .grant),
   (tMirror, .mirror), (tDigest, .digest), (tAdopt, .adopt), (tEnrol, .enrol)]

end Sys2Proof.Machine
end

