-- ==== Sys2Proof/Certificates/Slice0/Obligations.lean ====
section
/-! DEFINITION. The statements for the provers, each a def Obligations.<Name>. They speak of the block's commands in the
terms of `Safety`: a request row that performs, is refused or opens a ticket, an event, an Anvil instruction that runs. -/

open Sys2Proof Sys2Proof.Machine

/-! ### The block as a whole -/

/-- A step takes the command at the front of the queue and runs it with the rest, and every command answers a next
state; on an empty queue the block idles (the model's choice, entry 1). -/
def Obligations.StepRunsTheFrontCommand : Prop :=
  (∀ (i : Instr) (s : State), ∃ t, exec i s = .next t) ∧
  (∀ (s : State) i rest, step { s with pending := i :: rest } = exec i { s with pending := rest }) ∧
  (∀ s : State, s.pending = [] → step s = .next s)

/-- R287, R295, R539, R564, R576: after reset no command waits, memory, cores and planes hold zero, the engine is in
CONFIG and does not run, the time bases stand at 0, no session, ticket or log entry exists, development access is
locked, and every attribute but bring_up_step reads its default. What of this the spec does not say is the model's
choice (entry 2). -/
def Obligations.ResetLeavesTheDefaults : Prop :=
  let s := State.reset
  s.pending = [] ∧ (∀ a, s.readByte a = 0) ∧ (∀ c, s.core c = CoreSt.reset) ∧ (∀ m, s.mod? m = none) ∧
  s.eng.running = false ∧ s.eng.count = 0 ∧ s.yug.sessions = [] ∧ s.yug.log = [] ∧
  s.bel.ramps = [] ∧ s.bel.timed = [] ∧ s.jrn.card = none ∧ s.n Attr.powBringUpStep 0 0 = 6 ∧
  s.n Attr.devUnlocked 0 0 = 0 ∧ s.n Attr.engState 0 0 = 0 ∧
  (∀ code inst elem, code ≠ Attr.powBringUpStep → code < 65536 → inst < 65536 → elem < 4294967296 →
    s.a code inst elem = dfltAt code inst elem)

/-- The state after reset meets the invariant of memory, its dictionary lists its keys rising and nothing at its
default, and its queue holds only commands that can be given. -/
def Obligations.ResetIsCanonical : Prop :=
  State.reset.memoryWf = true ∧ State.reset.queueWf = true ∧ Store.rising State.reset.attrs = true ∧
  State.reset.attrs.all (fun e => decide (e.2 ≠ dfltAt (keyCode e.1) (keyInst e.1) (keyElem e.1))) = true

/-- Whatever command a step takes, a memory in canonical form stays in canonical form: addresses rise strictly and no
entry holds what an unlisted address reads as (R287, R295). -/
def Obligations.StepKeepsMemoryCanonical : Prop :=
  ∀ s t : State, s.memoryWf = true → step s = .next t → t.memoryWf = true

/-! ### Memory -/

/-- R208: core c has a window of 0x10_0000 bytes. An X or Y word takes four bytes and reads with its sign above bit 23;
a program word takes eight and reads with zeros above bit 47; what is written there is ignored, and the reserved
area reads 0 and ignores writes. -/
def Obligations.WindowShowsCoreMemory : Prop :=
  ∀ (s : State) c, c < 48 →
  let w := 0x10000000 + c * 0x100000
  (∀ i, i < 0x8000 → s.word32 (w + 0x20000 + 4 * i) = ((Store.get 0 (s.core c).x i).signExtend 32).toNat) ∧
  (∀ i, i < 0x8000 → s.word32 (w + 0x40000 + 4 * i) = ((Store.get 0 (s.core c).y i).signExtend 32).toNat) ∧
  (∀ i, i < 0x4000 → leNat (s.readBytes (w + 8 * i) 8) = (Store.get 0 (s.core c).pm i).toNat) ∧
  (∀ o, 0x60000 ≤ o → o < 0x100000 → s.readByte (w + o) = 0 ∧ ∀ b d, (s.writeByte (w + o) b).core d = s.core d) ∧
  (∀ i (v : BitVec 32), i < 0x8000 →
    let t := s.writeBytes (w + 0x20000 + 4 * i) (leBytes 4 v.toNat)
    Store.get 0 (t.core c).x i = v.extractLsb' 0 24 ∧ (∀ j, j ≠ i → Store.get 0 (t.core c).x j = Store.get 0 (s.core c).x j) ∧
      (t.core c).y = (s.core c).y ∧ (t.core c).pm = (s.core c).pm ∧ ∀ d, d ≠ c → t.core d = s.core d) ∧
  (∀ i (v : BitVec 32), i < 0x8000 →
    let t := s.writeBytes (w + 0x40000 + 4 * i) (leBytes 4 v.toNat)
    Store.get 0 (t.core c).y i = v.extractLsb' 0 24 ∧ (∀ j, j ≠ i → Store.get 0 (t.core c).y j = Store.get 0 (s.core c).y j) ∧
      (t.core c).x = (s.core c).x ∧ (t.core c).pm = (s.core c).pm ∧ ∀ d, d ≠ c → t.core d = s.core d) ∧
  (∀ i (v : BitVec 64), i < 0x4000 →
    let t := s.writeBytes (w + 8 * i) (leBytes 8 v.toNat)
    Store.get 0 (t.core c).pm i = v.extractLsb' 0 48 ∧ (∀ j, j ≠ i → Store.get 0 (t.core c).pm j = Store.get 0 (s.core c).pm j) ∧
      (t.core c).x = (s.core c).x ∧ (t.core c).y = (s.core c).y ∧ ∀ d, d ≠ c → t.core d = s.core d)

/-- R276, R277: a byte written to a scratch bank, a Temper parameter or deep memory reads back, as does its second copy
while its place moves (R197), every other byte reads as before and memory keeps its canonical form; outside every
region a byte reads 0 and a write is discarded. -/
def Obligations.MemoryHoldsWhatIsWritten : Prop :=
  (∀ (s : State) a b, (areaOf a = .temper ∨ areaOf a = .deep ∨ ∃ k, areaOf a = .bank k) →
    (s.writeByte a b).readByte a = b ∧ (∀ x, x ≠ a → s.copyAt a ≠ some x → (s.writeByte a b).readByte x = s.readByte x) ∧
    (∀ d, s.copyAt a = some d → (areaOf d = .temper ∨ areaOf d = .deep ∨ ∃ k, areaOf d = .bank k) →
      (s.writeByte a b).readByte d = b) ∧
    (s.memoryWf = true → (s.writeByte a b).memoryWf = true)) ∧
  (∀ (s : State) a b, areaOf a = .hole ∨ areaOf a = .control → s.readByte a = 0 ∧ s.writeByte a b = s) ∧
  (∀ (s : State) a l, s.memoryWf = true → (s.writeBytes a l).memoryWf = true) ∧
  (∀ (s : State) m a l, s.memoryWf = true → (s.busStrobed m a l).memoryWf = true)

/-! ### Yugal -/

/-- R434, R438, R441, R445, R448, R449: a frame that is not well formed is a bad frame, and one that is joins the queue
of 32 or is dropped; a request that is not at the head of the queue changes nothing; a repeat is answered with the
kept reply and has no effect again; one that fails authentication is answered with AUTH; one that its checks refuse
is answered with their code. What of this the spec does not say is the model's choice (entries 10 and 51). -/
def Obligations.RequestsAreServedInOrder : Prop :=
  (∀ s via peer b, 1 ≤ via → via ≤ 4 → s.transportOn via = true → s.pow.pwrOff = false → parseFrame via peer b = none →
    exec (.yugalFrameArrival via peer b) s = .next ((s.bump Attr.yugRxFrames 0 via).bump Attr.yugBadFrames 0 via)) ∧
  (∀ s via peer b q t, 1 ≤ via → via ≤ 4 → s.transportOn via = true → s.pow.pwrOff = false →
    parseFrame via peer b = some q → s.arrive q = .got t → t.yug.queue.length < 32 →
    exec (.yugalFrameArrival via peer b) s = .next { t with yug := { t.yug with
      queue := t.yug.queue ++ [q], spiBusy := t.yug.spiBusy || q.via == 0 } }) ∧
  (∀ s via peer b q t, 1 ≤ via → via ≤ 4 → s.transportOn via = true → s.pow.pwrOff = false →
    parseFrame via peer b = some q → s.arrive q = .got t → 32 ≤ t.yug.queue.length →
    exec (.yugalFrameArrival via peer b) s = .next (t.bump Attr.yugQueueDrops 0 0)) ∧
  (∀ s via peer b, 1 ≤ via → via ≤ 4 → s.transportOn via = false → s.pow.pwrOff = false →
    exec (.yugalFrameArrival via peer b) s = .next (s.noTransport via)) ∧
  (∀ s via peer b, (4 < via ∨ 1 ≤ via ∧ s.pow.pwrOff = true) → exec (.yugalFrameArrival via peer b) s = .next s) ∧
  (∀ s peer b, exec (.yugalFrameArrival 0 peer b) s = .next (s.spiFrame b)) ∧
  (∀ row eff (s : State) q r rest, s.yug.queue = r :: rest → r ≠ q → serve row eff q s = s) ∧
  (∀ row eff (s : State) q, rowOf q ≠ row → serve row eff q s = s) ∧
  (∀ row eff (s : State) q v b, rowOf q = row → s.take q = .got v → v.auth q = .dup b →
    serve row eff q s = (v.bump Attr.yugDupRequests 0 0).deliver q b) ∧
  (∀ row eff (s : State) q v, rowOf q = row → s.take q = .got v → v.auth q = .fail →
    serve row eff q s =
      (let t := v.bump Attr.sesAuthFailures 0xFFFF 0
       let b := replyFrame t (t.n Attr.yugNodeId 0 0) q rAuth {} none
       (t.deliver q b).keep q b)) ∧
  (∀ row eff (s : State) q v k f, rowOf q = row → s.take q = .got v → v.auth q = .pass k → (v.opened k).checks q = .error f →
    serve row eff q s = v.repliedRefusal q k f) ∧
  (∀ row eff (s : State) q v k c e, rowOf q = row → s.take q = .got v → v.auth q = .pass k → (v.opened k).checks q = .ok c →
    (v.opened k).shared c = some e → serve row eff q s = v.repliedRefusal q k ((v.opened k).sharedFail eff c e)) ∧
  (∀ s, exec .keptReplyExpiry s = .next { s with yug := { s.yug with kept := s.yug.kept.dropLast } })

/-- R441, R446, R447, R450, R452: a read answers the committed value and changes nothing; an array read answers the
elements that fit and a token for the rest; a ticket read answers its progress and total, or STALE; a write stores
its values and what follows of it; clear_counts clears the counters it names. What of this the spec does not say is
the model's choice (entry 60). -/
def Obligations.ReadsAndWritesPerform : Prop :=
  Performs .readAttr .read (fun c u => c.row.ty ≠ 11 ∧
      (encodeVal c.row.ty (u.value c.code c.q.inst 0)).length ≤ roomFor c.q false)
    (fun c u => (u, { data := encodeVal c.row.ty (u.value c.code c.q.inst 0) })) ∧
  Performs .readArray .readArray (fun c _ => c.q.token = none ∧ c.q.count ≠ 0 ∧
      c.q.count * elemBytes c.code c.q.inst c.row.ty ≤ roomFor c.q false) (fun c u =>
    (u, { elem := c.q.elem, count := c.q.count, data := u.elemsRead c.row c.code c.q.inst c.q.elem c.q.count })) ∧
  (∀ e n, Performs .readArray .readArray (fun c _ => c.q.token.getD (c.q.elem, c.q.count) = (e, n) ∧
      roomFor c.q false < n * elemBytes c.code c.q.inst c.row.ty ∧
      0 < roomFor c.q true / elemBytes c.code c.q.inst c.row.ty ∧ roomFor c.q true / elemBytes c.code c.q.inst c.row.ty < n)
      (fun c u =>
        let k := roomFor c.q true / elemBytes c.code c.q.inst c.row.ty
        (u, { elem := e, count := k, token := some ((e + k) % 2 ^ 32, n - k), data := u.elemsRead c.row c.code c.q.inst e k }))) ∧
  Performs .ticketRead .ticketRead (fun c u => c.q.token = none ∧ c.q.count = 1 ∧ 8 ≤ roomFor c.q false ∧
      u.n Attr.tktState (c.q.elem % 16) 0 ≠ 0 ∧ u.n Attr.tktTicket (c.q.elem % 16) 0 = c.q.elem) (fun c u =>
    let x := Store.get TicketAux.none u.yug.aux (c.q.elem % 16)
    (u, { elem := c.q.elem, count := 1, result := u.n Attr.tktResult (c.q.elem % 16) 0
          data := leBytes 4 x.progress ++ leBytes 4 x.total })) ∧
  RefusesWith .ticketRead .ticketRead (fun c u => c.q.token = none ∧ c.q.count = 1 ∧ 8 ≤ roomFor c.q false ∧
      u.n Attr.tktTicket (c.q.elem % 16) 0 ≠ c.q.elem) (fun c _ => ⟨rStale, c.q.elem, []⟩) ∧
  Performs .writeAttr .write (fun c u => c.code ≠ Attr.plcSpareCores ∧ c.code ≠ Attr.insCompKeyCoef ∧
      c.code ≠ Attr.outsCompKeyCoef ∧ u.writeBad c = none) (fun c u => ((u.storeAny c).afterWrite c, {})) ∧
  (∀ f, RefusesWith .writeAttr .write (fun c u => c.code ≠ Attr.plcSpareCores ∧ c.code ≠ Attr.insCompKeyCoef ∧
      c.code ≠ Attr.outsCompKeyCoef ∧ u.writeBad c = some f) (fun _ _ => f)) ∧
  Performs .clearCounts .clearCounts (fun _ _ => True) (fun c u =>
    (let v := ((clearTargets c.code c.q.inst).getD []).foldl (fun t code => t.clearAttr code c.q.inst) u
     let v : State := if c.code = Attr.engClearCounts then { v with eng := { v.eng with peakUse := [] } } else v
     { v with hlt := { v.hlt with
        seen := if c.code = Attr.monClearMax ∨ c.code = Attr.vmClearMax then v.hlt.seen.filter (· != c.q.inst) else v.hlt.seen } }, {}))

/-- R456, R457, R461, R462, R466: a session opens with a key that is present, up to 16, and closes on request or after
its time; a key is written whole and erased with its sessions; the SPI port reads the state and the held reply,
counts what it cannot take, and ignores an undefined command. What of this the spec does not say is the model's
choice (entries 43 and 51). -/
def Obligations.SessionsAndHostPortAct : Prop :=
  (∀ key, Performs .openSession .openSession (fun c u => c.arg.toNat ≤ 7 ∧
      Store.find? u.yug.keys c.arg.toNat = some key ∧ u.yug.sessions.length < 16) (fun c u =>
    let dev := (List.range 16).map fun i => (Config.randomBytes u.free 16).getD i 0
    let w : State := { u with free := u.free + 1 }
    let id := w.freeSession 17 u.yug.nextSession
    ({ w with yug := { w.yug with
        sessions := w.yug.sessions ++ [Session.mk id c.arg.toNat (hmac key ([0x59, 0x47, 0x53, 0x31].map byteOf ++
          c.q.data.drop 1 ++ dev ++ leBytes 2 id)) none 0]
        nextSession := id + 1 } }, { data := leBytes 2 id ++ dev }))) ∧
  Refuses .openSession .openSession (fun c _ => 7 < c.arg.toNat) rRange ∧
  Refuses .openSession .openSession (fun c u => c.arg.toNat ≤ 7 ∧ Store.find? u.yug.keys c.arg.toNat = none) rState ∧
  Performs .closeSession .closeSession (fun c u => u.yug.sessions.any (·.id == c.arg.toNat) = true) (fun c u =>
    ({ u with yug := { u.yug with sessions := u.yug.sessions.filter fun k => !(k.id == c.arg.toNat) } }, {})) ∧
  (∀ s id, exec (.sessionTimeout id) s =
    .next { s with yug := { s.yug with sessions := s.yug.sessions.filter fun k => !(k.id == id) } }) ∧
  Performs .keyWrite .key (fun c _ => c.q.elem = 0 ∧ c.q.count = 32)
    (fun c u => ({ u with yug := { u.yug with keys := Store.put u.yug.keys c.q.inst c.q.data } }, {})) ∧
  Refuses .keyWrite .key (fun c _ => c.q.elem ≠ 0 ∨ c.q.count ≠ 32) rRange ∧
  Performs .keyErase .keyErase (fun _ _ => True) (fun c u => ({ u with yug := { u.yug with
    keys := Store.keep (fun i => i != c.q.inst) u.yug.keys
    sessions := u.yug.sessions.filter fun k => !(k.slot == c.q.inst) } }, {})) ∧
  Performs .nodeId .nodeId (fun _ _ => True) (fun c u => (u.store c, {})) ∧
  (∀ s, s.pow.pwrOff = false → exec .readState s = .next { s with yug := { s.yug with
    miso := [byteOf 0xFF, byteOf (b2n s.yug.spiReady + 2 * b2n s.yug.spiBusy), 0] ++ leBytes 2 s.yug.spiReply.length } }) ∧
  (∀ s n, s.pow.pwrOff = false → exec (.readReply n) s = .next { s with yug := { s.yug with
    miso := byteOf 0xFF :: (List.range n).map fun i => s.yug.spiReply.getD i 0 } }) ∧
  (∀ s b, s.pow.pwrOff = false → s.yug.spiBusy = true → exec (.writeFrame b) s =
    .next (({ s with yug := { s.yug with miso := [0] } } : State).bump Attr.yugSpiOverruns 0 0)) ∧
  (∀ s b, s.pow.pwrOff = false → s.yug.spiBusy = false → exec (.writeFrame b) s =
    .next (({ s with yug := { s.yug with miso := [0], spiReply := [], spiReady := false } } : State).frameArrives 0 0 b)) ∧
  (∀ s (k : Byte), s.pow.pwrOff = false → (k.toNat = 0 ∨ 3 < k.toNat) → exec (.spiBadCommand k) s =
    .next (({ s with yug := { s.yug with miso := [0] } } : State).bump Attr.yugBadFrames 0 0))

/-! ### Requests: the Crucible and Bellows -/

/-- R60, R61, R99, R104, R106, R109, R114: with the tick stopped a write of live nodes or of a fader gives each
parameter its target at once; with the tick running its ramps start together at the first sample of the write where
the queue is empty and slots are free, join the queue as one group where they are not, and are refused with
RAMP_FULL where the queue is full. A write of idle-plane nodes takes effect at once and starts no ramp (R64), and is
refused while the plane is busy. -/
def Obligations.GainAndFaderWritesPerform : Prop :=
  let ramps (mk : Req → Instr) (row : Row) (l : Ctx → State → List (RParam × Int)) : Prop :=
    let named (c : Ctx) (u : State) : List NewRamp := rampsNamed c (l c u) u
    let waits (c : Ctx) (u : State) : Prop := u.ticking = true ∧ (l c u).all (fun e => (u.queued? e.1).isNone) = true ∧
      u.newSlots (named c u) ≠ 0 ∧ (u.bel.queue ≠ [] ∨ 16384 < u.newSlots (named c u) + u.slotsUsed)
    Performs mk row (fun _ u => u.ticking = false)
      (fun c u => ((l c u).foldl (fun s e => s.commitParam e.1 e.2 false) u, {})) ∧
    Performs mk row (fun c u => u.ticking = true ∧ u.bel.queue = [] ∧ u.newSlots (named c u) + u.slotsUsed ≤ 16384)
      (fun c u => (u.startGroup (named c u) u.firstOf, {})) ∧
    Performs mk row (fun c u => waits c u ∧ (named c u).length + u.queueUsed ≤ 4096) (fun c u =>
      ((named c u).foldl State.showTarget { u with bel := { u.bel with queue := u.bel.queue ++ [⟨named c u, none⟩] } }, {})) ∧
    RefusesWith mk row (fun c u => waits c u ∧ 4096 < (named c u).length + u.queueUsed)
      (fun _ _ => ⟨rRampFull, 0, [Attr.belRampFullCount]⟩)
  ramps .gain .gain gainTargets ∧ ramps .fader .fader (fun c u => [faderTarget c u]) ∧
  Performs .idleGain .idleGain (fun _ u => u.idleLocked = false)
    (fun c u => ((c.vals.mapIdx fun i v => (c.q.elem + i, v)).foldl (fun t e => t.writeIdle c.q.inst e.1
      (if c.code = Attr.nodeIdleGainCdb then cdbWrite (gainOf (u.nodeWord (1 - u.live) c.q.inst e.1)) e.2 else e.2)) u,
      {})) ∧
  Refuses .idleGain .idleGain (fun _ u => u.idleLocked = true) rBusy

/-- R41, R42, R44, R84 to R86: a write of a slot's occupant, or of an in-strip's source, that names what the slot is to
hold already changes nothing; with the tick stopped an admitted one rebinds the slot and the slot the item leaves at
once; with the tick running and no plan of a change under way it is accepted as row swaps. One for an item that may
not be named, for a slot whose swap runs, or for a topology that admission does not take is refused. -/
def Obligations.OccupantWritePerforms : Prop :=
  (∀ b, Performs .occupant .occupant (fun c u => bindingNamed c u = some b ∧ u.occupantBad b.2 = none ∧
      u.target (.swap b.1) = (b.2 : Int)) (fun _ u => (u, {}))) ∧
  Performs .occupant .occupant (fun c u => c.code ≠ Attr.slotOccupant ∧ c.arg.toNat = 0xFFFF ∧
      u.slotOf (2 ^ 28 + c.q.inst) = none) (fun _ u => (u, {})) ∧
  (let ready (c : Ctx) (u : State) (b : Nat × Nat) : Prop := bindingNamed c u = some b ∧ u.occupantBad b.2 = none ∧
      u.target (.swap b.1) ≠ (b.2 : Int) ∧ (u.bindings b.1 b.2).all (fun e => !u.inFlight (.swap e.1)) = true
   let here (u : State) (b : Nat × Nat) : Prop := ∃ p w, (bindingMade b u).admits = .inc p w
   let news (c : Ctx) (u : State) (b : Nat × Nat) : List NewRamp := (u.bindings b.1 b.2).map (u.swapOf (u.order c))
   (∀ b, Performs .occupant .occupant (fun c u => ready c u b ∧ here u b ∧ u.ticking = false)
     (fun _ u => ((bindingMade b u).loadAttrs (bindingMade b u).topo (bindingMade b u).place, {}))) ∧
   (∀ b t, Performs .occupant .occupant (fun c u => ready c u b ∧ here u b ∧ u.ticking = true ∧ (u.plc.plans.all fun x => decide (x.effect = [])) = true ∧
       u.acceptSwaps (news c u b) none false = .ok t) (fun _ _ => (t.loadAttrs t.topo t.place, {}))) ∧
   (∀ b e, Refuses .occupant .occupant (fun c u => ready c u b ∧ (bindingMade b u).admits = .no e) e) ∧
   (∀ b, Refuses .occupant .occupant (fun c u => bindingNamed c u = some b ∧ u.occupantBad b.2 = none ∧
      u.target (.swap b.1) ≠ (b.2 : Int) ∧ (u.bindings b.1 b.2).any (fun e => u.inFlight (.swap e.1)) = true) rBusy)) ∧
  (∀ b e, Refuses .occupant .occupant (fun c u => bindingNamed c u = some b ∧ u.occupantBad b.2 = some e) e) ∧
  Refuses .occupant .occupant (fun c u => c.code ≠ Attr.slotOccupant ∧ c.arg.toNat ≠ 0xFFFF ∧ u.S ≤ c.arg.toNat) rRange

/-- R68, R69, R114: a strike with the tick running starts its crossfade in this period under a ticket; with the tick
stopped it makes the idle plane live and ends at once. One while a strike stands or the idle plane is busy is
refused. R75, R607: a strike ends in the period that holds the sample after its last: state and position return to
0, the count rises, and the planes and ramps that its last samples are evaluated on are kept until they are; one
that is pending, or has samples left, goes on. A load of the idle plane ends once its rows are written, or at once
with the tick stopped, but not in LOW; its bytes go through TC15. What of this the spec does not say is the model's
choice (entry 11). -/
def Obligations.StrikeRequestsAndEndsAct : Prop :=
  (
  (let free (_ : Ctx) (u : State) : Prop := u.n Attr.cruStrikeState 0 0 = 0 ∧ u.n Attr.cruIdleBusy 0 0 ≠ 1
   PerformsTicket .strike .strike (fun c u => free c u ∧ u.ticking = true) (fun _ u => u)
     (fun _ => address Attr.cruStrike 0) (fun _ _ => 0) (fun _ _ k t => t.startStrike t.eng.count k) ∧
   PerformsTicket .strike .strike (fun c u => free c u ∧ u.ticking = false) (fun _ u => u)
     (fun _ => address Attr.cruStrike 0) (fun _ _ => 0)
     (fun _ _ k t => (t.set Attr.cruLivePlane 0 0 (1 - t.live : Nat)).endStrike k)) ∧
  Refuses .strike .strike (fun _ u => u.n Attr.cruStrikeState 0 0 ≠ 0 ∨ u.n Attr.cruIdleBusy 0 0 = 1) rBusy ∧
  Performs .cancelStrike .cancelStrike (fun _ u => u.n Attr.cruStrikeState 0 0 ≠ 2) (fun _ u => (u.withdrawStrike, {})) ∧
  Refuses .cancelStrike .cancelStrike (fun _ u => u.n Attr.cruStrikeState 0 0 = 2) rState) ∧
  (
  (∀ s k, s.cru.strike = some k → s.n Attr.cruStrikeState 0 0 = 2 → exec .strikeEnd s =
    .next (if k.first + k.len < s.eng.count + s.eng.cfg.n then
      let src := 1 - s.live
      let past := s.cru.past ++ [⟨k, src, s.plane src, s.rampsOn src⟩]
      (((({ s with cru := { s.cru with past := past, strike := none } } : State).set Attr.cruStrikeState 0 0 0).set
        Attr.cruStrikePosition 0 0 0).bump Attr.cruStrikeCount 0 0).commit [actionRec Attr.cruStrike 0 [byteOf 0]] else s)) ∧
  (∀ s, s.cru.strike = none ∨ s.n Attr.cruStrikeState 0 0 ≠ 2 → exec .strikeEnd s = .next s) ∧
  (∀ s l, s.cru.load = some l → s.low = false → (s.ticking = true → s.eng.cfg.S ≤ l.rowsDone) → exec .idleLoadComplete s =
    .next ((({ s.loadRows l 4096 with cru := { (s.loadRows l 4096).cru with load := none } } : State).set
      Attr.cruIdleBusy 0 0 0).completeTicket l.ticket rOk)) ∧
  (∀ s l, s.cru.load = some l → (s.low = true ∨ s.ticking = true ∧ l.rowsDone < s.eng.cfg.S) →
    exec .idleLoadComplete s = .next s) ∧
  (∀ s, s.cru.load = none → exec .idleLoadComplete s = .next s) ∧
  (∀ (s : State) l upto, (s.loadRows l upto).n Attr.tngBytes 15 0 =
    (s.add Attr.tngBytes 15 0 (s.loadBytes l upto)).n Attr.tngBytes 15 0))

/-- R64 to R66: a copy of the live plane, and a clear of the idle plane, hold idle_busy and run under a ticket whose
total is the number of source rows; one while a strike stands or the idle plane is busy is refused. -/
def Obligations.IdlePlaneLoadsPerform : Prop :=
  PerformsTicket .copyLiveToIdle .copyLiveToIdle (fun _ u => u.loadBusy = false) (fun _ u => u)
    (fun _ => address Attr.cruCopyLiveToIdle 0) (fun _ u => u.S)
    (fun _ u k t => ({ t with cru := { t.cru with load := some ⟨0, 0, u.liveTargets, k, 0, 0⟩ } } : State).set
      Attr.cruIdleBusy 0 0 1) ∧
  PerformsTicket .clearIdle .clearIdle (fun _ u => u.loadBusy = false) (fun _ u => u)
    (fun _ => address Attr.cruClearIdle 0) (fun _ u => u.S)
    (fun _ _ k t => ({ t with cru := { t.cru with load := some ⟨1, 0, [], k, 0, 0⟩ } } : State).set
      Attr.cruIdleBusy 0 0 1) ∧
  Refuses .copyLiveToIdle .copyLiveToIdle (fun _ u => u.loadBusy = true) rBusy ∧
  Refuses .clearIdle .clearIdle (fun _ u => u.loadBusy = true) rBusy

/-- R114, R117, R118, R140: trim, polarity, cut and preamplifier gain are Class Z. With the tick stopped a write applies
at once, and a preamplifier's gain is released; with it running the search for a crossing starts, a write while a
change of the same parameter still searches replaces the new value and keeps the search, one that names the value
that applies cancels the change, and one after the crossing was found finishes that change and starts anew. -/
def Obligations.ClassZWritesPerform : Prop :=
  let running (mk : Req → Instr) (row : Row) (p : Ctx → ZParam) : Prop :=
    Performs mk row (fun c u => u.ticking = true ∧ u.z? (p c) = none) (fun c u => (zArmed (p c) c.arg u, {})) ∧
    (∀ z, Performs mk row (fun c u => u.ticking = true ∧ u.z? (p c) = some z ∧ z.stepAt = none) (fun c u =>
      ((u.set (zKey (p c)).1 (zKey (p c)).2 0 c.arg).setZ (p c)
        (if c.arg = z.old then none else some { z with new := c.arg }), {}))) ∧
    (∀ z f, Performs mk row (fun c u => u.ticking = true ∧ u.z? (p c) = some z ∧ z.stepAt = some f)
      (fun c u => (zArmed (p c) c.arg (u.settleZ (p c)), {})))
  Performs .trim .trim (fun _ u => u.ticking = false) (fun c u => (zAtOnce (.trim c.q.inst) c.arg u, {})) ∧
  running .trim .trim (fun c => .trim c.q.inst) ∧
  Performs .polarity .polarity (fun _ u => u.ticking = false) (fun c u => (zAtOnce (.polarity c.q.inst) c.arg u, {})) ∧
  running .polarity .polarity (fun c => .polarity c.q.inst) ∧
  Performs .cut .cut (fun _ u => u.ticking = false) (fun c u => (zAtOnce (cutParam c) c.arg u, {})) ∧
  running .cut .cut cutParam ∧
  Performs .preampGain .preampGain (fun c u => u.ticking = false ∧ u.a Attr.insPreampGain c.q.inst 0 ≠ c.arg)
    (fun c u => ((u.set Attr.insPreampGain c.q.inst 0 c.arg).releasePreamp c.q.inst c.arg, {})) ∧
  Performs .preampGain .preampGain (fun c u => u.ticking = false ∧ u.a Attr.insPreampGain c.q.inst 0 = c.arg)
    (fun c u => (zAtOnce (.preamp c.q.inst) c.arg u, {})) ∧
  running .preampGain .preampGain (fun c => .preamp c.q.inst)

/-! ### Events: Bellows and the Crucible -/

/-- R116, R117, R120, R140: a change found at a crossing is committed and done; one whose search ran out is done too and
raises zc_timeouts; a preamplifier's gain goes out at the end of its period. Each does nothing where no step has
been found, nor for a change of the other kind. What of this the spec does not say is the model's choice (entry 11). -/
def Obligations.ClassZStepsAct : Prop :=
  (∀ s p z f, s.z? p = some z → z.stepAt = some f → z.timedOut = false → z.release = false →
    exec (.zeroCrossing p) s = .next ((s.note 5 (address (zKey p).1 (zKey p).2) 0 f).zDone p z)) ∧
  (∀ s p z f, s.z? p = some z → z.stepAt = some f → z.timedOut = true → z.release = false →
    exec (.zcTimeout p) s =
      .next (((s.bump Attr.belZcTimeouts 0 0).note 5 (address (zKey p).1 (zKey p).2) 0 f).zDone p z)) ∧
  (∀ s n z f, s.z? (.preamp n) = some z → z.stepAt = some f → s.ticking = false ∨ s.evaluated 0 (f + 1) = true →
    exec (.preampRelease n) s = .next ((s.setZ (.preamp n) none).releasePreamp n z.new)) ∧
  (∀ s n z f, s.z? (.preamp n) = some z → z.stepAt = some f → s.ticking = true → s.evaluated 0 (f + 1) = false →
    exec (.preampRelease n) s = .next s) ∧
  (∀ s p z, s.z? p = some z → z.stepAt = none → exec (.zeroCrossing p) s = .next s ∧ exec (.zcTimeout p) s = .next s) ∧
  (∀ s p z, s.z? p = some z → z.timedOut = true → exec (.zeroCrossing p) s = .next s) ∧
  (∀ s p z, s.z? p = some z → z.timedOut = false → exec (.zcTimeout p) s = .next s) ∧
  (∀ s n z, s.z? (.preamp n) = some z → z.stepAt = none → exec (.preampRelease n) s = .next s) ∧
  (∀ s p, s.z? p = none → exec (.zeroCrossing p) s = .next s ∧ exec (.zcTimeout p) s = .next s) ∧
  (∀ s n, s.z? (.preamp n) = none → exec (.preampRelease n) s = .next s)

/-- R60, R104, R112, R84: a ramp, or a row swap, whose final sample lies in a frame that has been evaluated gives its
slot back, and its parameter holds its target with RAMP clear; a ramp that waits on the parameter goes from that
ramp's last value. Before that, and with none in flight, its end does nothing. R80, R106, R107, R127: with the tick
running the head group of the queue starts once the whole of it, each node on the plane live at its first sample,
fits into the 16,384 slots, and is counted late where a first sample lies after its due sample; until it fits,
nothing starts. What of this the spec does not say is the model's choice (entry 11). -/
def Obligations.RampsAndQueuedGroupsAct : Prop :=
  (
  let rampOver (s : State) (p : RParam) (last : Int) : State :=
    let from_ (r : NewRamp) : NewRamp := if r.param = p then { r with g0 := last } else r
    { s with bel := { s.bel with
        ramps := s.bel.ramps.filter (·.param != p)
        queue := s.bel.queue.map fun g => { g with ramps := g.ramps.map from_ } } }
  (∀ s p r g rest, (∀ k, p ≠ .swap k) → s.ramp? p = some r → r.segs = g :: rest →
    exec (.rampEnd p) s = .next (if g.first + g.len + (1 + s.lagOf p) * s.eng.cfg.n ≤ s.eng.count then
      (rampOver s p g.g1).commitParam p (s.held p) false else s)) ∧
  (∀ s p, s.ramp? p = none → exec (.rampEnd p) s = .next s) ∧
  (∀ s k, exec (.rampEnd (.swap k)) s = .next s) ∧
  (∀ s k r g rest, s.ramp? (.swap k) = some r → r.segs = g :: rest →
    exec (.rowSwapEnd k) s = .next (if g.first + g.len + s.eng.cfg.n ≤ s.eng.count then
      (rampOver s (.swap k) g.g1).commitParam (.swap k) (s.held (.swap k)) false else s)) ∧
  (∀ s k, s.ramp? (.swap k) = none → exec (.rowSwapEnd k) s = .next s)) ∧
  (
  let now (s : State) (g : Group) : List NewRamp :=
    g.ramps.map fun r => { r with param := s.resolve r.param (s.queueStart r.param) }
  (∀ s g rest, s.bel.queue = g :: rest → s.ticking = true → s.newSlots (now s g) + s.slotsUsed ≤ 16384 →
    let v : State := { s with bel := { s.bel with queue := rest } }
    let late := (now s g).any fun r => g.due.any (· < s.queueStart r.param)
    exec .queuedGroupStart s = .next ((now s g).foldl (fun t r =>
      (t.startRamp r (s.queueStart r.param)).note 3 (rAddr r.param).1 (rAddr r.param).2 (s.queueStart r.param))
      (if late then v.bump Attr.belLateCount 0 0 else v))) ∧
  (∀ s g rest, s.bel.queue = g :: rest → (s.ticking = false ∨ 16384 < s.newSlots (now s g) + s.slotsUsed) →
    exec .queuedGroupStart s = .next s) ∧
  (∀ s, s.bel.queue = [] → exec .queuedGroupStart s = .next s))

/-- R131, R132: an output that has held its value for its hold time starts its hold fade; at the end of the fade it
delivers zero; 32 samples after audio resumed it is live. Each phase ends at its own length and not before. What of
this the spec does not say is the model's choice (entry 11). -/
def Obligations.HeldOutputPhasesAct : Prop :=
  (∀ s o h, s.holdOf o = some h → h.phase = 1 → exec (.holdTimeExpiry o) s =
    .next (if h.holdFor ≤ h.pos then s.setHold o (some { h with phase := 2, pos := h.pos - h.holdFor }) else s)) ∧
  (∀ s o h, s.holdOf o = some h → h.phase = 2 → exec (.holdFadeEnd o) s =
    .next (if s.holdFade (s.outRate o) ≤ h.pos then s.setHold o (some { h with phase := 3, value := 0 }) else s)) ∧
  (∀ s o h, s.holdOf o = some h → h.phase = 4 → exec (.resumeFadeEnd o) s =
    .next (if 32 ≤ h.pos then s.setHold o none else s)) ∧
  (∀ s o h, s.holdOf o = some h → h.phase ≠ 1 → exec (.holdTimeExpiry o) s = .next s) ∧
  (∀ s o h, s.holdOf o = some h → h.phase ≠ 2 → exec (.holdFadeEnd o) s = .next s) ∧
  (∀ s o h, s.holdOf o = some h → h.phase ≠ 4 → exec (.resumeFadeEnd o) s = .next s) ∧
  (∀ s o, s.holdOf o = none → exec (.holdTimeExpiry o) s = .next s ∧ exec (.holdFadeEnd o) s = .next s ∧
    exec (.resumeFadeEnd o) s = .next s)

/-- R121, R126, R127, R129, R137: a timed change in the hardware applies from its due sample and is journalled, but for
the elements that a change accepted later has written for the same frame; one whose sample this period does not
reach stays, as does one that the supervisor holds while its sample is in reach; one that the supervisor holds past
that is counted late, warned of, and applies as an untimed write; one that its checks refuse by then is withdrawn.
At a tick the supervisor hands over its changes in reach and due within 2 s in order of due sample, as many as there
are places among 2,048. R77, R128: cancel_timed withdraws every pending change due at or after the argument, and a
pending strike among them; what is due before stays. R121 to R127: a request with a take-effect time that is served
and may be scheduled is filed with the sample that its time names and answered OK; one more than 24 h ahead is
refused with RANGE, one on a time base that is OFF with STATE, and one beside 8,192 others with BUSY, each after
what its own checks refuse earlier; one in the past takes effect at once, counted late with the tick running. What
of this the spec does not say is the model's choice (entries 11 and 57). -/
def Obligations.TimedChangesAct : Prop :=
  (
  let reached (s : State) (t : Timed) : Prop :=
    if s.ticking = true then t.due < s.reach (reqCode t.req) t.req.inst + (if t.inHardware then s.eng.cfg.n else 0)
    else t.due ≤ s.countNow
  let lateNow (s : State) (t : Timed) : Prop :=
    s.ticking = true ∧ t.inHardware = false ∧ t.due < s.reach (reqCode t.req) t.req.inst
  let counted (s v : State) (t : Timed) : State :=
    ((v.bump Attr.belLateCount 0 0).logAt sevWarning Attr.belLateCount 0 0).note 9 (address (reqCode t.req) t.req.inst)
      t.req.elem s.eng.count
  let restored (v : State) (lost : List Nat) (u : State) : State := lost.foldl (fun (u : State) k =>
    u.set (keyCode k) (keyInst k) (keyElem k) (v.a (keyCode k) (keyInst k) (keyElem k))) u
  let applies (s : State) (t : Timed) (c : Ctx) (v : State) : Prop :=
    let lost := c.keys.filter (v.overtaken c)
    (lost ≠ [] → lost = c.keys → exec (.timedChangeDue t.id) s = .next v) ∧
    ((lost ≠ [] → lost ≠ c.keys) → ∀ u o, effectOf (rowOf t.req) c v = .ok (u, o) → exec (.timedChangeDue t.id) s =
      .next (if t.req.op = 5 then u else ((restored v lost u).noteStored c).journal c)) ∧
    ((lost ≠ [] → lost ≠ c.keys) → ∀ f, effectOf (rowOf t.req) c v = .error f →
      exec (.timedChangeDue t.id) s = .next (v.bumps f.counts))
  (∀ s t c, s.bel.timed.find? (·.id == t.id) = some t → reached s t → ¬ lateNow s t → s.checks t.req = .ok c →
    applies s t { c with due := some t.due, accepted := true, id := some t.id, mirrored := true } (s.without t.id)) ∧
  (∀ s t c, s.bel.timed.find? (·.id == t.id) = some t → lateNow s t → s.checks t.req = .ok c →
    applies s t { c with due := if t.req.op = 5 then some s.eng.count else none, accepted := true, id := some t.id, mirrored := true }
      (counted s (s.without t.id) t)) ∧
  (∀ s t e, s.bel.timed.find? (·.id == t.id) = some t → reached s t → s.checks t.req = .error e →
    exec (.timedChangeDue t.id) s = .next (s.without t.id)) ∧
  (∀ s t, s.bel.timed.find? (·.id == t.id) = some t → ¬ reached s t → exec (.timedChangeDue t.id) s = .next s) ∧
  (∀ s id, s.bel.timed.find? (·.id == id) = none → exec (.timedChangeDue id) s = .next s) ∧
  (∀ s, s.ticking = true → exec .timedHandover s =
    .next (let near := (s.bel.timed.filter fun t => !t.inHardware &&
        decide (s.reach (reqCode t.req) t.req.inst ≤ t.due) && decide (t.due * 1000000000 < (s.mdTime + 2000000000) * s.eng.cfg.fs)).foldl (fun l t => insertTimed t l) []
      let ids := (near.take (2048 - (s.bel.timed.filter (·.inHardware)).length)).map (·.id)
      { s with bel := { s.bel with timed := s.bel.timed.map (handOver ids) } })) ∧
  (∀ s, s.ticking = false → exec .timedHandover s = .next s)) ∧
  (
  Performs .cancelTimed .cancelTimed (fun _ _ => True) fun c u =>
    let d := firstAt u.eng.cfg.fs c.arg.toNat
    let w := if u.bel.timed.any (fun t => reqCode t.req == Attr.cruStrike && decide (d ≤ t.due)) then u.withdrawStrike else u
    let w : State := { w with bel := { w.bel with timed := w.bel.timed.filter fun t => decide (t.due < d) } }
    (w.set Attr.belTimedPending 0 0 w.bel.timed.length, {})) ∧
  (
  let timed (c : Ctx) (due : Nat) : Ctx := { c with due := some due, accepted := true }
  let open_ (u : State) (w : WhenAt) : Prop := ¬ u.tbNow w.tb + 86400000000000 < w.t ∧ u.n Attr.tbState w.tb 0 ≠ 0
  (∀ eff c u w, c.q.when_ = some w → u.tbNow w.tb + 86400000000000 < w.t → perform eff c u = .error ⟨rRange, 0, []⟩) ∧
  (∀ eff c u w, c.q.when_ = some w → ¬ u.tbNow w.tb + 86400000000000 < w.t → u.n Attr.tbState w.tb 0 = 0 →
    perform eff c u = .error (sooner ⟨rState, 0, []⟩ (eff (timed c 0) u))) ∧
  (∀ eff c u w, c.q.when_ = some w → open_ u w → u.ticking = false → u.dueOf w ≤ u.countNow →
    perform eff c u = performNow eff c u) ∧
  (∀ eff c u w, c.q.when_ = some w → open_ u w → u.ticking = true → u.dueOf w < u.reach c.code c.q.inst →
    u.n Attr.belLatePolicy 0 0 = 1 →
    perform eff c u = .error (sooner ⟨rState, 0, [Attr.belLateCount]⟩ (eff (timed c (u.dueOf w)) u))) ∧
  (∀ eff c u w t o, c.q.when_ = some w → open_ u w → u.ticking = true → u.dueOf w < u.reach c.code c.q.inst →
    u.n Attr.belLatePolicy 0 0 ≠ 1 → performNow eff c (u.bump Attr.belLateCount 0 0) = .ok (t, o) →
    perform eff c u = .ok (t.note 9 (address c.code c.q.inst) c.q.elem u.eng.count, o)) ∧
  (∀ eff c u w, c.q.when_ = some w → open_ u w →
    (if u.ticking = true then u.reach c.code c.q.inst ≤ u.dueOf w else u.countNow < u.dueOf w) →
    (8192 ≤ u.bel.timed.length → perform eff c u = .error (sooner ⟨rBusy, 0, []⟩ (eff (timed c (u.dueOf w)) u))) ∧
    (u.bel.timed.length < 8192 → c.q.op ≠ 5 → ∀ x, eff (timed c (u.dueOf w)) u = .ok x →
      perform eff c u = .ok ((u.file c.q (u.dueOf w)).mirrorWrite c, {})) ∧
    (u.bel.timed.length < 8192 → c.q.op ≠ 5 → ∀ f, eff (timed c (u.dueOf w)) u = .error f → f.code ≠ rRampFull →
      perform eff c u = .error f) ∧
    (u.bel.timed.length < 8192 → c.q.op = 5 → ∀ t o, eff { c with sched := some (u.dueOf w) } u = .ok (t, o) →
      perform eff c u = .ok ((t.file c.q (u.dueOf w)).mirrorWrite c, o))))

/-! ### Requests: strips and measurement -/

/-- R147, R148, R149, R156: a write of coefficients whose sections are all stable as they result is stored, one that
leaves a section unstable is refused with RANGE at the first element it wrote of it; section bypasses and insert
bypasses are stored. R142, R150: a delay of up to 2 s at the engine rate and a key that names a strip and a section
are stored; a longer delay and any other key are refused with RANGE. -/
def Obligations.StripSettingsPerform : Prop :=
  (
  let touched (c : Ctx) : List Nat := (List.range ((c.q.elem + c.vals.length - 1) / 5 + 1)).drop (c.q.elem / 5)
  Performs .coef .coef (fun c u => (touched c).all (fun j => (u.store c).sectionOk c.code c.q.inst j) = true)
    (fun c u => (u.store c, {})) ∧
  RefusesWith .coef .coef (fun c u => ¬ (touched c).all (fun j => (u.store c).sectionOk c.code c.q.inst j) = true)
    (fun c u => ⟨rRange, Nat.max c.q.elem
      (5 * ((touched c).find? fun j => !(u.store c).sectionOk c.code c.q.inst j).getD 0), []⟩) ∧
  Performs .sectionBypass .sectionBypass (fun _ _ => True) (fun c u => (u.store c, {})) ∧
  Performs .insertBypass .insertBypass (fun _ _ => True) (fun c u => (u.store c, {}))) ∧
  (
  Performs .delay .delay (fun c u => c.arg ≤ ((2 * u.fs : Nat) : Int)) (fun c u => (u.store c, {})) ∧
  Refuses .delay .delay (fun c u => ((2 * u.fs : Nat) : Int) < c.arg) rRange ∧
  Performs .compKey .compKey (fun c u => u.keyOk c.arg.toNat = true) (fun c u => (u.store c, {})) ∧
  Refuses .compKey .compKey (fun c u => u.keyOk c.arg.toNat = false) rRange)

/-- R30, R141, R155, R157, R180, R187 to R190: a write of a delay enable, of a strip map or of an insert changes the
declared topology. One that admission takes without a move, or with the tick stopped, binds it at once; one that
needs moves, or comes behind a plan that changes the topology, runs under a plan with a ticket, whose order passes
at every step, and is refused with ADMISSION where there is none and with BUSY where no plan or ticket is free; one
that admission does not take is refused with its code; a strip that the shape lacks or an insert on a port that may
not be named is refused before admission. -/
def Obligations.TopologyWritesPerform : Prop :=
  let bad (c : Ctx) (u : State) : Option Nat :=
    mapBad (if c.code = Attr.plcInStripMap then u.ins else u.D) c.q.elem c.vals
  ChangesTopology .delayEnable .delayEnable (fun _ _ => True) ∧
  ChangesTopology .stripMap .stripMap (fun c u => bad c u = none) ∧
  RefusesWith .stripMap .stripMap (fun c u => (bad c u).isSome = true) (fun c u => ⟨rRange, (bad c u).getD 0, []⟩) ∧
  ChangesTopology .insertWrite .insert (fun c u => u.insertBad c.q.inst c.arg.toNat = none) ∧
  RefusesWith .insertWrite .insert (fun c u => (u.insertBad c.q.inst c.arg.toNat).isSome = true)
    (fun c u => ⟨(u.insertBad c.q.inst c.arg.toNat).getD 0, 0, []⟩)

/-- R166 to R169: a loudness meter starts with a fresh stretch of blocks and its totals kept, stops, and is reset with
its running state kept; a silence detector's setting restarts its run and returns it to signal present. R164 to
R171: at each 100 ms of audio the loudness meters take their readings; a peak hold that has run out lets its reading
fall, sample peak and true peak apart; a detector whose run has reached its hold turns SILENT and drives its pin.
Each event has no effect where its condition does not hold. What of this the spec does not say is the model's choice
(entries 8 and 11). -/
def Obligations.MetersAndDetectorsAct : Prop :=
  (
  Performs .loudnessStart .loudnessStart (fun c u => u.n Attr.loudRunning c.q.inst 0 ≠ 1)
    (fun c u => ((u.withLoud c.q.inst { u.loudCtx c.q.inst with since := 0 }).set Attr.loudRunning c.q.inst 0 1, {})) ∧
  Performs .loudnessStart .loudnessStart (fun c u => u.n Attr.loudRunning c.q.inst 0 = 1) (fun _ u => (u, {})) ∧
  Performs .loudnessStop .loudnessStop (fun _ _ => True) (fun c u => (u.set Attr.loudRunning c.q.inst 0 0, {})) ∧
  Performs .loudnessReset .loudnessReset (fun _ _ => True) (fun c u =>
    (((((u.withLoud c.q.inst { u.loudCtx c.q.inst with blocks := [], since := 0 }).set
      Attr.loudIntegrated c.q.inst 0 (-32768)).set Attr.loudMaxMomentary c.q.inst 0 (-32768)).set
      Attr.loudMaxShortTerm c.q.inst 0 (-32768)).set Attr.loudIntegratedTime c.q.inst 0 0, {})) ∧
  Performs .silenceDetectorSetting .silence (fun c u => c.code = Attr.silTap → u.tapOk c.arg.toNat = true) (fun c u =>
    (({ u.store c with
      mtr := { (u.store c).mtr with
        sil := Store.del (u.store c).mtr.sil c.q.inst
        silFound := (u.store c).mtr.silFound.filter (· != c.q.inst) } } : State).setSilent c.q.inst false, {})) ∧
  Refuses .silenceDetectorSetting .silence (fun c u => c.code = Attr.silTap ∧ u.tapOk c.arg.toNat = false) rRange) ∧
  (
  (∀ s, exec .loudnessUpdate s = .next (if s.mtr.loudDue then
    (List.range 64).foldl (fun t m => loudnessReadings m t) { s with mtr := { s.mtr with loudDue := false } } else s)) ∧
  (∀ s m x, Store.find? s.mtr.meters m = some x →
    let runOut := (if x.holdLeft = 0 ∧ 0 < x.held then [m] else []) ++ (if x.tpLeft = 0 ∧ 0 < x.tpHeld then [m + 65536] else [])
    exec (.peakHoldExpiry m) s = .next { s with
      mtr := { s.mtr with peaksDone := s.mtr.peaksDone ++ runOut.filter fun k => !s.mtr.peaksDone.contains k } }) ∧
  (∀ s m, Store.find? s.mtr.meters m = none → exec (.peakHoldExpiry m) s = .next s) ∧
  (∀ s k, s.mtr.silFound.contains k = true → exec (.silent k) s =
    .next (({ s with
      mtr := { s.mtr with silFound := s.mtr.silFound.filter (· != k) } } : State).setSilent k true).silPins) ∧
  (∀ s k, s.mtr.silFound.contains k = false → exec (.silent k) s = .next s))

/-! ### Requests and events: the engine states -/

/-- R33, R35, R37, R114: go. Into the present state it completes at once; from CONFIG to RUN it admits and places the
whole topology and starts the tick, or completes with the code that admission answers and stays in CONFIG; from HALT
to RUN it starts the tick; with the time base of MD0 OFF it completes with STATE; from RUN it starts the exit fade
and completes later; from HALT to CONFIG it completes at once. What of this the spec does not say is the model's
choice (entry 48). -/
def Obligations.GoPerforms : Prop :=
  let org (_ : Ctx) : Nat := address Attr.engGo 0
  PerformsTicket .goAction .go (fun c u => goOpen u ∧ c.arg.toNat ≤ 2 ∧ c.arg.toNat = u.engState)
    (fun c u => u.commit [goRec c.arg.toNat]) org (fun _ _ => 0) (fun _ _ k t => t.completeTicket k rOk) ∧
  PerformsTicket .goAction .go (fun c u => goOpen u ∧ c.arg = 1 ∧ u.engState = 0 ∧ u.n Attr.tbState u.md0Tb 0 ≠ 0 ∧
      u.enterFresh.toOption.isSome = true)
    (fun _ u => (u.enterFresh.toOption.getD u).startTick.commit [goRec 1]) org (fun _ _ => 0)
    (fun _ _ k t => t.completeTicket k rOk) ∧
  (∀ e, PerformsTicket .goAction .go (fun c u => goOpen u ∧ c.arg = 1 ∧ u.engState = 0 ∧ u.n Attr.tbState u.md0Tb 0 ≠ 0 ∧
      u.enterFresh = .error e)
    (fun _ u => u) org (fun _ _ => 0) (fun _ _ k t => t.completeTicket k e)) ∧
  PerformsTicket .goAction .go (fun c u => goOpen u ∧ c.arg = 1 ∧ u.engState = 2 ∧ u.n Attr.tbState u.md0Tb 0 ≠ 0)
    (fun _ u => u.startTick.commit [goRec 1]) org (fun _ _ => 0) (fun _ _ k t => t.completeTicket k rOk) ∧
  PerformsTicket .goAction .go (fun c u => goOpen u ∧ c.arg = 1 ∧ u.engState ≠ 1 ∧ u.n Attr.tbState u.md0Tb 0 = 0)
    (fun _ u => u) org (fun _ _ => 0) (fun _ _ k t => t.completeTicket k rState) ∧
  PerformsTicket .goAction .go (fun c u => goOpen u ∧ (c.arg = 0 ∨ c.arg = 2) ∧ u.engState = 1)
    (fun _ u => u) org (fun _ _ => 0) (fun c _ k t => t.startExit c.arg.toNat (some k)) ∧
  PerformsTicket .goAction .go (fun c u => goOpen u ∧ c.arg = 0 ∧ u.engState = 2)
    (fun _ u => (u.set Attr.engState 0 0 0).commit [goRec 0]) org (fun _ _ => 0) (fun _ _ k t => t.completeTicket k rOk) ∧
  Refuses .goAction .go (fun c _ => 2 < c.arg) rRange ∧
  Refuses .goAction .go (fun c u => goOpen u ∧ c.arg = 2 ∧ u.engState = 0) rState ∧
  Refuses .goAction .go (fun c u => c.arg.toNat ≤ 2 ∧ u.pow.broken = false ∧ u.n Attr.powPowerState 0 0 = 0 ∧ u.eng.fade = 2)
    rBusy

/-- R31, R33, R133, R545: when the exit fade has delivered its last sample the tick stops, the target state is entered
and the ticket completes; when the entry fade has, it ends, and the first one after a start gives startup_time. Each
missed deadline holds the outputs named, with those that the period has missed already, is counted and logged, and
raises the deadline condition. R33, R331, R529, R553: a watchdog expiry raises its condition and makes an ACTIVE
give up; a SOLO engine in RUN halts with its outputs silent at once; Tongs is reset and the matrix closes what the
supervisor had issued. What of this the spec does not say is the model's choice (entry 11). -/
def Obligations.EngineEventsAct : Prop :=
  (
  let ended (s : State) : Prop :=
    s.ticking = true ∧ s.eng.frames ≠ 0 ∧ s.eng.fadeAt + s.engineFade ≤ s.eng.count + s.eng.cfg.n
  (∀ s, ended s → s.eng.fade = 2 → exec .fadeComplete s = .next
      (let u : State := (({ s with pow := { s.pow with entryDue := false } } : State).stopTick s.eng.target).commit
        [goRec s.eng.target]
       ({ u with eng := { u.eng with goTicket := none } } : State).completeTicket? s.eng.goTicket rOk)) ∧
  (∀ s, ended s → s.eng.fade = 1 → s.pow.entryDue = false →
    exec .fadeComplete s = .next { s with eng := { s.eng with fade := 0 } }) ∧
  (∀ s, ended s → s.eng.fade = 1 → s.pow.entryDue = true →
    exec .fadeComplete s = .next (({ s with
      eng := { s.eng with fade := 0 }
      pow := { s.pow with entryDue := false } } : State).set Attr.powStartupTime 0 0 s.hea.now)) ∧
  (∀ s, ended s → s.eng.fade ≠ 1 → s.eng.fade ≠ 2 → exec .fadeComplete s = .next s) ∧
  (∀ s, (s.ticking = false ∨ s.eng.frames = 0 ∨ s.eng.count + s.eng.cfg.n < s.eng.fadeAt + s.engineFade) →
    exec .fadeComplete s = .next s) ∧
  (∀ s outs, s.ticking = true → exec (.deadlineMiss outs) s = .next
    (let new := (outs.filter (· < s.eng.cfg.D)).filter (!s.eng.missed.contains ·)
     ((({ s with eng := { s.eng with missed := s.eng.missed ++ new } } : State).bump Attr.engDeadlineMisses 0 0).logAt
      sevError Attr.engDeadlineMisses 0 0).raise 0)) ∧
  (∀ s outs, s.ticking = false → exec (.deadlineMiss outs) s = .next s)) ∧
  (
  (∀ s, (giveUp (s.raise 5)).role = 0 → (giveUp (s.raise 5)).engState = 1 →
    exec .watchdogExpiry s = .next ((((giveUp (s.raise 5)).stopTick 2).tongsReset).closeMaster 0)) ∧
  (∀ s, ((giveUp (s.raise 5)).role ≠ 0 ∨ (giveUp (s.raise 5)).engState ≠ 1) →
    exec .watchdogExpiry s = .next (((giveUp (s.raise 5)).tongsReset).closeMaster 0)))

/-! ### Requests: modules and placement -/

/-- R187 to R190, R248, R250, R306, R307: a load of a staged image that its checks and admission take declares the
module with the lowest run of event lines and completes its ticket; one whose admission needs moves, or that comes
behind a plan, is declared under a plan with its own ticket; one that its checks refuse completes with TYPE or
RANGE, one with no lines free with BUSY, and one that admission does not take with its code, and all leave the slot
undeclared; a declared slot is refused. R250: an unload of a module that nothing names takes it away at once with
the tick stopped, and files the change, behind the changes that are pending, for a tick with it running; one that an
occupant or an insert names is refused, and one of an empty slot does nothing. What of this the spec does not say is
the model's choice (entry 18). -/
def Obligations.LoadAndUnloadPerform : Prop :=
  (
  let org (c : Ctx) : Nat := address c.code c.q.inst
  let ready (c : Ctx) (u : State) (g : Image) (l : Nat) : Prop := (u.mod? c.q.inst).isNone = true ∧
    checkImage (staged u c.q.inst) = .ok g ∧ u.freeLines g.events = some l ∧ (u.openTicket (org c) 1).isSome = true
  let waits (c : Ctx) : List (Nat × Int) := [(attrKey Attr.modState c.q.inst 0, 0)]
  let done (c : Ctx) (u : State) (k : Nat) (t : State) : State × Out :=
    ((ticketed k t).1.assignChannels.commit (imageRecs c.q.inst (staged u c.q.inst)), (ticketed k t).2)
  (∀ g l, PerformsTicket .loadModule .load (fun c u => ready c u g l ∧
      (declared u c.q.inst g l).admitted.isSome = true ∧
      (u.ticking = false ∨ (u.plc.plans.all fun x => decide (x.effect = [])) = true))
    (fun c u => ((declared u c.q.inst g l).admitted.getD u).assignChannels.commit
      (imageRecs c.q.inst (staged u c.q.inst)))
    org (fun _ _ => 1) (fun _ _ k t => t.completeTicket k rOk)) ∧
  (∀ g l p r w m k t, Performs .loadModule .load (fun c u => ready c u g l ∧ u.ticking = true ∧
      (declared u c.q.inst g l).admits = .plan p r w ∧ u.orderTo (declared u c.q.inst g l) p = some m ∧
      w.addPlan (org c) p (m ++ r) (waits c) = some (k, t)) (fun c u => done c u k t)) ∧
  (∀ g l p w k t, Performs .loadModule .load (fun c u => ready c u g l ∧ u.ticking = true ∧
      (u.plc.plans.any fun x => decide (x.effect ≠ [])) = true ∧
      (declared u c.q.inst g l).admits = .inc p w ∧ w.addPlan (org c) p [] (waits c) = some (k, t))
    (fun c u => done c u k t)) ∧
  (∀ g l e, PerformsTicket .loadModule .load (fun c u => ready c u g l ∧ (declared u c.q.inst g l).admits = .no e)
    (fun _ u => u) org (fun _ _ => 1) (fun _ _ k t => t.completeTicket k e)) ∧
  (∀ g, PerformsTicket .loadModule .load (fun c u => (u.mod? c.q.inst).isNone = true ∧
      checkImage (staged u c.q.inst) = .ok g ∧ u.freeLines g.events = none)
    (fun _ u => u) org (fun _ _ => 1) (fun _ _ k t => t.completeTicket k rBusy)) ∧
  (∀ e, PerformsTicket .loadModule .load (fun c u => (u.mod? c.q.inst).isNone = true ∧
      checkImage (staged u c.q.inst) = .error e)
    (fun _ u => u) org (fun _ _ => 1) (fun _ _ k t => t.completeTicket k e)) ∧
  Refuses .loadModule .load (fun c u => (u.mod? c.q.inst).isSome = true) rState) ∧
  (
  let free (c : Ctx) (u : State) : Prop := (u.mod? c.q.inst).isSome = true ∧ u.moduleNamed c.q.inst = false
  PerformsTicket .unloadModule .unload (fun c u => free c u ∧ u.ticking = false) (fun _ u => u)
    (fun c => address c.code c.q.inst) (fun _ _ => 1) (fun c _ k t =>
      let w := ((t.commit [actionRec c.code c.q.inst c.q.data]).removeModule c.q.inst).freeRegions
      (w.loadAttrs w.topo w.place).completeTicket k rOk) ∧
  PerformsTicket .unloadModule .unload (fun c u => free c u ∧ u.ticking = true) (fun _ u => u)
    (fun c => address c.code c.q.inst) (fun _ _ => 1) (fun c _ k t =>
      let w := t.commit [actionRec c.code c.q.inst c.q.data]
      { w with plc := { w.plc with
          plans := w.plc.plans ++ [Plan.mk [] 0 (some k) [(attrKey Attr.modState c.q.inst 0, 2)]] } }) ∧
  Refuses .unloadModule .unload (fun c u => (u.mod? c.q.inst).isSome = true ∧ u.moduleNamed c.q.inst = true) rState ∧
  Performs .unloadModule .unload (fun c u => (u.mod? c.q.inst).isNone = true) (fun _ u => (u, {})))

/-- R241, R243: a binding of input ports that names sums of the shape, on ports no insert feeds, is stored; parameters
of a module on no core are stored, and with the tick running they wait in the queue of its core, of 256 words, for
the block of the next period, and are refused with BUSY where it has no room; elements past the module's are refused
with NO_OBJECT. What of this the spec does not say is the model's choice (entry 18). -/
def Obligations.ModulePortAndConstWritesPerform : Prop :=
  let e (c : Ctx) : Nat := if c.q.op = 4 then c.q.elem else 0
  Performs .inSrc .inSrc (fun c u => u.inSrcBad c.q.inst (e c) c.vals = none ∧
      ((List.range c.vals.length).map (e c + ·)).all (fun p => (insertNaming u.attrs c.q.inst p).isNone) = true)
    (fun c u => (u.store c, {})) ∧
  (∀ r p, RefusesWith .inSrc .inSrc (fun c u => u.inSrcBad c.q.inst (e c) c.vals = some (r, p)) (fun _ _ => ⟨r, p, []⟩)) ∧
  (∀ p, RefusesWith .inSrc .inSrc (fun c u => u.inSrcBad c.q.inst (e c) c.vals = none ∧
      ((List.range c.vals.length).map (e c + ·)).find? (fun p => (insertNaming u.attrs c.q.inst p).isSome) = some p)
    (fun _ _ => ⟨rState, p, []⟩)) ∧
  RefusesWith .constWrite .const (fun c u => u.mod? c.q.inst = none) (fun c _ => ⟨rNoObject, c.q.elem, []⟩) ∧
  (∀ md, RefusesWith .constWrite .const (fun c u => u.mod? c.q.inst = some md ∧
      md.image.constPlaces.length < c.q.elem + c.vals.length) (fun _ _ => ⟨rNoObject, md.image.constPlaces.length, []⟩)) ∧
  (∀ md, Performs .constWrite .const (fun c u => u.mod? c.q.inst = some md ∧
      c.q.elem + c.vals.length ≤ md.image.constPlaces.length ∧ u.n Attr.plcModuleCore 0 c.q.inst = 255)
    (fun c u => (u.store c, {}))) ∧
  (∀ md, Performs .constWrite .const (fun c u => u.mod? c.q.inst = some md ∧
      c.q.elem + c.vals.length ≤ md.image.constPlaces.length ∧ u.n Attr.plcModuleCore 0 c.q.inst ≠ 255 ∧ u.ticking = true ∧
      (u.core (u.n Attr.plcModuleCore 0 c.q.inst)).constQ.length +
        ((md.image.constPlaces.drop c.q.elem).zip c.vals).length ≤ 256)
    (fun c u => let k := u.n Attr.plcModuleCore 0 c.q.inst
      ((u.store c).setCore k { u.core k with constQ := ((u.core k).constQ ++
        ((md.image.constPlaces.drop c.q.elem).zip c.vals).map fun w =>
          ConstWord.mk c.q.inst w.1.1 w.1.2 (BitVec.ofInt 24 w.2) (u.eng.count + u.eng.cfg.n)) }, {}))) ∧
  (∀ md, Refuses .constWrite .const (fun c u => u.mod? c.q.inst = some md ∧
      c.q.elem + c.vals.length ≤ md.image.constPlaces.length ∧ u.n Attr.plcModuleCore 0 c.q.inst ≠ 255 ∧ u.ticking = true ∧
      256 < (u.core (u.n Attr.plcModuleCore 0 c.q.inst)).constQ.length +
        ((md.image.constPlaces.drop c.q.elem).zip c.vals).length) rBusy) ∧
  (∀ md, Performs .constWrite .const (fun c u => u.mod? c.q.inst = some md ∧
      c.q.elem + c.vals.length ≤ md.image.constPlaces.length ∧ u.n Attr.plcModuleCore 0 c.q.inst ≠ 255 ∧ u.ticking = false)
    (fun c u => let k := u.n Attr.plcModuleCore 0 c.q.inst
      ((u.store c).setCore k (((md.image.constPlaces.drop c.q.elem).zip c.vals).foldl
        (fun t w => (u.aenv k c.q.inst md).storeWord t w.1.1 w.1.2 (BitVec.ofInt 24 w.2)) ((u.store c).core k)), {})))

/-- R204, R205: reinstate_core starts a destructive march of a retired core's group under a ticket, completes at once
for a core that is not retired, and is refused for a number that is no core's or while a march runs; defragment is
refused unless the policy is 0, and completes with ADMISSION where the topology packs nowhere or no order of moves
passes; else the topology and its regions move at once with the tick stopped, and under a plan with it running. R200
to R203: a condemned core is retired, counted and logged. With no module on it that is all; its modules' outputs are
held, and go to the lowest empty usable core, at the end of the copies that follow or at once with the tick stopped;
where there is none they stay, which is a deadline miss, and the condition of a core march rises where one condemned
the core. The spare cores are restored or their lack is warned of. A core that may not retire is left as it is.
R185, R188, R192, R193, R196, R197, R201, R206, R308: the events of the placement manager. A plan whose moves are
done takes effect; the strip in flight switches lanes, up to 32 at a tick; the pre-copy, the region copy and the
retirement copy become complete; a freed region is cleared. Each counts its bytes on the Tongs channel that carries
them, and does nothing where no such move is in flight. What of this the spec does not say is the model's choice
(entries 11, 15, 29 and 30). -/
def Obligations.PlacementRequestsAndEventsAct : Prop :=
  (
  let order (u : State) (q : Place) : Option (List PMove) :=
    (Topo.union u.runningTopo u.topo).order u.retired (2 * (u.futurePlace.movesTo q).length + 1) u.futurePlace
      (u.futurePlace.movesTo q)
  let ready (u : State) (q : Place) (w : State) (r l : List PMove) : Prop :=
    u.topo.policy = 0 ∧ u.topo.fresh u.retired = some q ∧ u.freshRegions = .ok (w, r) ∧ order u q = some l
  PerformsTicket .reinstateCore .reinstateCore (fun c u => c.arg ≤ 47 ∧
      bit (u.n Attr.plcRetiredCores 0 0) c.arg.toNat = true ∧ u.fab.march.isSome = false)
    (fun _ u => u) (fun c => address c.code c.q.inst) (fun _ _ => 6) (fun c _ k t =>
      { t with
        plc := { t.plc with reinstating := some (c.arg.toNat, k) }
        fab := { t.fab with march := some (March.mk (16 + c.arg.toNat) false k 0) } }) ∧
  PerformsTicket .reinstateCore .reinstateCore (fun c u => c.arg ≤ 47 ∧
      bit (u.n Attr.plcRetiredCores 0 0) c.arg.toNat = false)
    (fun _ u => u) (fun c => address c.code c.q.inst) (fun _ _ => 1) (fun _ _ k t => t.completeTicket k rOk) ∧
  Refuses .reinstateCore .reinstateCore (fun c _ => 47 < c.arg) rRange ∧
  Refuses .reinstateCore .reinstateCore (fun c u => c.arg ≤ 47 ∧
      bit (u.n Attr.plcRetiredCores 0 0) c.arg.toNat = true ∧ u.fab.march.isSome = true) rBusy ∧
  Refuses .defragment .defragment (fun _ u => u.topo.policy ≠ 0) rState ∧
  PerformsTicket .defragment .defragment (fun _ u => u.topo.policy = 0 ∧
      (u.topo.fresh u.retired = none ∨ u.freshRegions.toOption = none ∨
        ∃ q, u.topo.fresh u.retired = some q ∧ order u q = none)) (fun _ u => u)
    (fun c => address c.code c.q.inst) (fun _ _ => 1) (fun _ _ k t => t.completeTicket k rAdmission) ∧
  (∀ q w r l, PerformsTicket .defragment .defragment (fun c u => ready u q w r l ∧ u.ticking = false ∧
      (u.openTicket (address c.code c.q.inst) 1).isSome = true)
    (fun _ _ => w.moveAll q r)
    (fun c => address c.code c.q.inst) (fun _ _ => 1) (fun _ _ k t => t.completeTicket k rOk)) ∧
  (∀ q w r l, PerformsTicket .defragment .defragment (fun _ u => ready u q w r l ∧ u.ticking = true ∧ l ++ r = [])
    (fun _ u => u) (fun c => address c.code c.q.inst) (fun _ _ => 1) (fun _ _ k t => t.completeTicket k rOk)) ∧
  (∀ q w r l k t, Performs .defragment .defragment (fun c u => ready u q w r l ∧ u.ticking = true ∧ l ++ r ≠ [] ∧
      w.addPlan (address c.code c.q.inst) u.futurePlace (l ++ r) [] = some (k, t)) (fun _ _ => ticketed k t))) ∧
  (
  let held (s : State) (c : Nat) : State := ((s.modsOn c).map (·.1)).foldl State.holdModule (retiredNow s c)
  let march (s : State) (c : Nat) : Bool := bit (s.n Attr.memFailMap 0x100 ((16 + c) / 32)) ((16 + c) % 32)
  (∀ s c, retirable s c → s.modsOn c = [] → exec (.coreRetirement c) s =
    .next ((retiredNow s c).loadAttrs (retiredNow s c).topo (retiredNow s c).place).restoreSpares) ∧
  (∀ s c, retirable s c → s.modsOn c ≠ [] → (held s c).emptyCore = none → exec (.coreRetirement c) s =
    .next (let v := (held s c).bump Attr.engDeadlineMisses 0 0
      let v := if march s c then v.raise 6 else v
      (((v.logAt sevError Attr.engDeadlineMisses 0 0).raise 0).loadAttrs v.topo v.place).restoreSpares)) ∧
  (∀ s c sp, retirable s c → s.modsOn c ≠ [] → (held s c).emptyCore = some sp → exec (.coreRetirement c) s =
    .next (let v := held s c
      let r : Retire := ⟨c, some sp, !v.ticking, march s c, (s.modsOn c).map (·.1)⟩
      let w : State := { v with plc := { v.plc with retiring := v.plc.retiring ++ [r] } }
      (if v.ticking then w.loadAttrs w.topo w.place else w.endRetirements).restoreSpares)) ∧
  (∀ s c, ¬ retirable s c → exec (.coreRetirement c) s = .next s)) ∧
  (
  let counted (s : State) (ch n : Nat) : State := s.add Attr.tngBytes ch 0 n
  (∀ s p, s.plc.plans = [p] → p.moves = [] →
    let v : State := ({ s with plc := { s.plc with plans := [] } } : State).leaveModules p.effect
    exec .movePlanTakesEffect s = .next (((v.startSwaps p.effect).1.finishPlan p (v.startSwaps p.effect).2).assignChannels).planAttr) ∧
  (∀ s p rest, s.plc.plans = p :: rest → p.moves ≠ [] → exec .movePlanTakesEffect s = .next s.planAttr) ∧
  (∀ s, s.plc.plans = [] → exec .movePlanTakesEffect s = .next s.planAttr) ∧
  (∀ s n mv, s.headMove = some mv → mv.strip? = some n → s.plc.switched < 32 → exec (.stripMoveSwitch n) s =
    .next (counted { s with plc := { s.plc with switched := s.plc.switched + 1 } } 14 512).switchHead) ∧
  (∀ s n, (s.headMove.bind PMove.strip? ≠ some n ∨ 32 ≤ s.plc.switched) → exec (.stripMoveSwitch n) s = .next s) ∧
  (∀ s m c md, s.headMove = some (.module m c) → s.plc.preCopied = false → s.mod? m = some md →
    exec (.preCopyComplete m) s = .next (counted { s with plc := { s.plc with preCopied := true } } 15
      (8 * md.image.prog.length + 4 * ((md.image.data.filter (·.kind == 0)).map (·.size)).sum))) ∧
  (∀ s m, ((∀ c, s.headMove ≠ some (.module m c)) ∨ s.plc.preCopied = true) → exec (.preCopyComplete m) s = .next s) ∧
  (∀ s o b r, s.headMove = some (.region o b) → s.plc.regions.find? (fun x => x.owner == o) = some r → s.plc.copied = false →
    exec .regionCopyComplete s = .next (let v := counted (s.copyRun r.base r.size b) 15 r.size
      { v with plc := { v.plc with copied := true } })) ∧
  (∀ s, ((∀ o b, s.headMove ≠ some (.region o b)) ∨ s.plc.copied = true) → exec .regionCopyComplete s = .next s) ∧
  (∀ s b n rest, s.plc.zeroing = (b, n) :: rest → s.low = false → exec .zeroFillComplete s =
    .next (counted (({ s with plc := { s.plc with zeroing := rest } } : State).zeroRun b n) 15 n).spaceAttrs) ∧
  (∀ s, (s.plc.zeroing = [] ∨ s.low = true) → exec .zeroFillComplete s = .next s) ∧
  (∀ s c, (∀ r ∈ s.plc.retiring, r.core ≠ c) → exec (.retirementCopyComplete c) s = .next (counted s 14 0)) ∧
  (∀ s r, s.plc.retiring = [r] → r.spare.isSome = true → r.copied = false → exec (.retirementCopyComplete r.core) s =
    .next (counted { s with plc := { s.plc with retiring := [{ r with copied := true }] } } 14
      ((r.modules.map fun m => ((s.mod? m).map fun (md : Mod) => md.image.preBytes + 4 * md.image.stateWords).getD 0).sum))))

/-- R17, R233 to R240, R249, R330: the offset tick acts once in a period. The blocks of the period end; retirements,
module moves and region moves switch; the Tongs budgets start afresh; every core with a module starts its block, and
overruns more than the window past are forgotten. A second one in the period, and one with the tick stopped, does
nothing. What of this the spec does not say is the model's choice (entry 11). -/
def Obligations.OffsetTickActsOncePerPeriod : Prop :=
  let switched (s : State) : State := budgetsOpened (((blocksEnded s).endRetirements.moduleSwitch).regionSwitch false)
  let started (s : State) : State :=
    (((switched s).coresToStart (s.endShadow.anv.cores.map (·.1))).filter (· < 48)).foldl State.startCore
      { switched s with eng := { (switched s).eng with offset := true } }
  (∀ s, s.ticking = true → s.eng.offset = false → exec .offsetTick s =
    .next (((started s).listed Attr.coreOverrunsRecent).foldl (fun t e => t.set Attr.coreOverrunsRecent e.1 0
      (recentOverruns ((started s).eng.count / (started s).eng.cfg.n) (t.core e.1).overAt)) (started s))) ∧
  (∀ s, s.ticking = true → s.eng.offset = false → ∃ t, exec .offsetTick s = .next t ∧ t.eng.offset = true ∧
    exec .offsetTick t = .next t) ∧
  (∀ s, (s.ticking = false ∨ s.eng.offset = true) → exec .offsetTick s = .next s)

/-! ### Reset, power and firmware -/

/-- R7, R12 to R22, R536, R539: with the tick running a tick comes at the next multiple of N and at no other count, and
at none with it stopped, unless bring-up enters RUN, which it does at the first multiple of N at which it need not
wait. At a tick the period before ends, the new one opens with its offset tick still to come, the captured frame is
evaluated and the frame before it emitted, what is due is sent, and the tick is counted; a STANDBY that tracks
applies what was mirrored for it. What of this the spec does not say is the model's choice (entries 11 and 52). -/
def Obligations.TicksComeAtMultiplesOfN : Prop :=
  let ticks (s : State) (count : Nat) (latch : List Nat) : State :=
    let t := ((((s.endPeriod count latch).openPeriod count).evalPeriod count).sendPeriod count s.eng.count).countTick
    if t.role = 2 ∧ t.n Attr.pairStandbyState 0 0 ≠ 1 then t.applyMirrors count else t
  (∀ s count latch, tickComes s count → exec (.blockTick count latch) s = .next (ticks s count latch)) ∧
  (∀ s count latch, s.ticking = true → ¬ tickComes s count → exec (.blockTick count latch) s = .next s) ∧
  (∀ s count latch, s.ticking = false → s.atEntry = false → exec (.blockTick count latch) s = .next s) ∧
  (∀ s count latch, s.atEntry = true → s.bringUpFault = true → exec (.blockTick count latch) s = .next s.stopBringUp) ∧
  (∀ s count latch, s.atEntry = true → s.bringUpFault = false → s.entryWaits = false → s.blk ≤ count → count % s.blk = 0 →
    exec (.blockTick count latch) s = .next (ticks (s.enterRun count) count latch)) ∧
  (∀ s count latch, s.atEntry = true → s.bringUpFault = false → (s.entryWaits = true ∨ count < s.blk ∨ count % s.blk ≠ 0) →
    exec (.blockTick count latch) s = .next s) ∧
  (∀ (s : State) (count : Nat), s.openPeriod count = { s with
    eng := { s.eng with count := count, offset := false }
    bel := { s.bel with stored := [] }
    tmp := { s.tmp with inEnd := if s.paired then s.tmp.inCtx else [] } }) ∧
  (∀ s : State, s.takeSnapshot =
    ({ s with snapPrev := s.snap, snap := s.inForce, plc := { s.plc with switched := 0 } } : State).dropContexts.freeRegions) ∧
  (∀ s : State, s.countTick.eng.frames = ((s.event 0x0F0).noteUses.laneEvents).eng.frames + 1 ∧
    s.countTick.n Attr.engBlockCount 0 0 = ((s.event 0x0F0).noteUses.laneEvents).n Attr.engBlockCount 0 0 + 1)

/-! ### The journal and the scenes -/

/-- R514, R515, R518, R519, R525: compact, format and adopt_card, each under a ticket on a card in the state it asks
for, and refused with NO_BILLET without a card, with STATE in another card state and with BUSY while another runs.
R65, R520 to R526: save writes the scene's sectors and commits its directory entry with the action, and one whose
bytes do not fit leaves the card alone; stage clears the idle plane and starts a load of the scene's rows under a
ticket; delete takes the entry out. Each is refused on the grounds its rule gives. What of this the spec does not
say is the model's choice (entries 46 and 47). -/
def Obligations.CardAndSceneRequestsPerform : Prop :=
  (
  let idle (u : State) : Prop := u.jrn.compaction = none ∧ u.jrn.saving = none ∧ u.jrn.format = none
  (∀ card, PerformsTicket .compact .compact (fun _ u => u.jrn.card = some card ∧ u.n Attr.jrnCardState 0 0 = 2 ∧ idle u)
    (fun _ u => u) (fun _ => address Attr.jrnCompact 0) (fun _ _ => 1)
    (fun _ _ k t => t.startCompaction card (some k) false)) ∧
  Refuses .compact .compact (fun _ u => u.jrn.card = none) rNoBillet ∧
  Refuses .compact .compact (fun _ u => u.jrn.card.isSome = true ∧ u.n Attr.jrnCardState 0 0 ≠ 2) rState ∧
  Refuses .compact .compact (fun _ u => u.jrn.card.isSome = true ∧ u.n Attr.jrnCardState 0 0 = 2 ∧ ¬ idle u) rBusy ∧
  PerformsTicket .format .format (fun c u => c.arg = 0xA5 ∧ u.jrn.card.isSome = true ∧ u.n Attr.jrnCardState 0 0 ≠ 5 ∧
      u.n Attr.jrnCardState 0 0 ≠ 3 ∧ idle u ∧ u.cru.load.any (·.kind == 2) = false)
    (fun _ u => u) (fun _ => address Attr.jrnFormat 0) (fun _ _ => 1)
    (fun _ _ k t => { t with jrn := { t.jrn with format := some k } }) ∧
  Refuses .format .format (fun c _ => c.arg ≠ 0xA5) rRange ∧
  Refuses .format .format (fun c u => c.arg = 0xA5 ∧ u.jrn.card = none) rNoBillet ∧
  Refuses .format .format (fun c u => c.arg = 0xA5 ∧ u.jrn.card.isSome = true ∧ (u.n Attr.jrnCardState 0 0 = 5 ∨
    u.n Attr.jrnCardState 0 0 = 3)) rState ∧
  Refuses .format .format (fun c u => c.arg = 0xA5 ∧ u.jrn.card.isSome = true ∧ u.n Attr.jrnCardState 0 0 ≠ 5 ∧
    u.n Attr.jrnCardState 0 0 ≠ 3 ∧ (¬ idle u ∨ u.cru.load.any (·.kind == 2) = true)) rBusy ∧
  (∀ card copy x, PerformsTicket .adoptCard .adoptCard (fun _ u => u.jrn.card = some card ∧ card.current = some (copy, x) ∧
      u.n Attr.jrnCardState 0 0 = 4 ∧ u.jrn.compaction = none ∧ u.jrn.format = none)
    (fun _ u => u) (fun _ => address Attr.jrnAdoptCard 0) (fun _ _ => 1)
    (fun _ _ k t =>
      let w := (t.jrn.dir.foldl (fun s e => s.dropScene e.1) t).mount card.mend
      let w : State := { w with jrn := { w.jrn with spare := [], dir := [], card := some card.mend } }
      (w.scenesOf ((card.mend.read x).1 ++ (card.mend.read x).2.groups.flatten)).startCompaction card.mend (some k) true)) ∧
  Refuses .adoptCard .adoptCard (fun _ u => u.jrn.card = none) rNoBillet ∧
  (∀ card, Refuses .adoptCard .adoptCard (fun _ u => u.jrn.card = some card ∧
    (card.current = none ∨ u.n Attr.jrnCardState 0 0 ≠ 4)) rState) ∧
  (∀ card, Refuses .adoptCard .adoptCard (fun _ u => u.jrn.card = some card ∧ card.current.isSome = true ∧
    u.n Attr.jrnCardState 0 0 = 4 ∧ (u.jrn.compaction.isSome = true ∨ u.jrn.format.isSome = true)) rBusy)) ∧
  (
  let ready (u : State) : Prop := u.n Attr.jrnCardState 0 0 = 2 ∧ u.n Attr.cruStrikeState 0 0 ≠ 2 ∧
    u.n Attr.cruIdleBusy 0 0 ≠ 1 ∧ u.jrn.saving = none ∧ u.jrn.compaction = none ∧ u.jrn.format = none
  let nodes (c : Ctx) (t : State) : Store Nat :=
    planeTargets (if (t.live = 0) = (c.arg = 0) then t.cru.planeA else t.cru.planeB) t.S t.D
  let name (c : Ctx) (t : State) : List Byte := Store.get [] t.blobs (attrKey Attr.scnName c.q.inst 0)
  let bytes (c : Ctx) (t : State) : List Byte := sceneBytes t.S t.D (name c t) t.mdTime (nodes c t)
  let put (card : CardSt) (c : Ctx) (t : State) : Option (List Nat × CardSt) :=
    card.putScene (c.q.inst + 65536 * (t.jrn.serial + 1)) 16384 (bytes c t)
  (∀ card, PerformsTicket .save .save (fun c u => (c.arg = 0 ∨ c.arg = 1) ∧ ready u ∧ u.jrn.card = some card)
    (fun _ u => u) (fun c => address c.code c.q.inst) (fun _ _ => 1)
    (fun c _ k t => match put card c t with
      | none => { t with jrn := { t.jrn with saving := some (Saving.mk c.q.inst k []) } }
      | some (ks, card2) =>
        let e := sceneEntry c.q.inst (t.jrn.serial + 1) (bytes c t).length (nodes c t).length (t.S * 65536 + t.D)
          (leNat (((bytes c t).drop 40).take 4)) (name c t) ks
        let w : State := { t with jrn := { t.jrn with serial := t.jrn.serial + 1 } }
        let w := (w.commit [actionRec c.code c.q.inst c.q.data, ⟨4, e⟩]).cardStats card2
        { w with jrn := { w.jrn with saving := some (Saving.mk c.q.inst k e) } })) ∧
  Refuses .save .save (fun c _ => c.arg ≠ 0 ∧ c.arg ≠ 1) rRange ∧
  Refuses .save .save (fun c u => (c.arg = 0 ∨ c.arg = 1) ∧ u.jrn.card.isSome = true ∧ u.n Attr.jrnCardState 0 0 ≠ 2) rState ∧
  Refuses .save .save (fun c u => (c.arg = 0 ∨ c.arg = 1) ∧ (u.jrn.card.isSome = true → u.n Attr.jrnCardState 0 0 = 2) ∧
    (u.n Attr.cruStrikeState 0 0 = 2 ∨ u.n Attr.cruIdleBusy 0 0 = 1)) rBusy ∧
  Refuses .save .save (fun c u => (c.arg = 0 ∨ c.arg = 1) ∧ u.n Attr.cruStrikeState 0 0 ≠ 2 ∧
    u.n Attr.cruIdleBusy 0 0 ≠ 1 ∧ u.jrn.card = none) rNoBillet ∧
  Refuses .save .save (fun c u => (c.arg = 0 ∨ c.arg = 1) ∧ u.jrn.card.isSome = true ∧ u.n Attr.jrnCardState 0 0 = 2 ∧
    (u.jrn.saving.isSome = true ∨ u.jrn.compaction.isSome = true ∨ u.jrn.format.isSome = true)) rBusy ∧
  (∀ card e m, PerformsTicket .stage .stage (fun c u => u.jrn.card = some card ∧
      (u.n Attr.jrnCardState 0 0 = 2 ∨ u.n Attr.jrnCardState 0 0 = 3) ∧ Store.find? u.jrn.dir c.q.inst = some e ∧ u.loadBusy = false ∧
      sceneNodes (card.getScene (u.n Attr.scnSize c.q.inst 0) e.sectors) = some m)
    (fun _ u => u) (fun c => address c.code c.q.inst)
    (fun c u => leNat (((card.getScene (u.n Attr.scnSize c.q.inst 0) e.sectors).drop 8).take 4))
    (fun c u k t =>
      (({ t with
        cru := { t.cru with load := some ⟨2, 0, insideShape m u.S u.D, k, 0, c.q.inst⟩ } } : State).set Attr.cruIdleBusy 0 0
          1).clearIdlePlane)) ∧
  (∀ card e, PerformsTicket .stage .stage (fun c u => u.jrn.card = some card ∧
      (u.n Attr.jrnCardState 0 0 = 2 ∨ u.n Attr.jrnCardState 0 0 = 3) ∧ Store.find? u.jrn.dir c.q.inst = some e ∧ u.loadBusy = false ∧
      sceneNodes (card.getScene (u.n Attr.scnSize c.q.inst 0) e.sectors) = none)
    (fun _ u => u) (fun c => address c.code c.q.inst) (fun _ _ => 1)
    (fun c _ k t => (t.clearIdlePlane.completeTicket k rType).logAt sevWarning Attr.scnCrc c.q.inst 0)) ∧
  (∀ card e, Refuses .stage .stage (fun c u => u.jrn.card = some card ∧
      (u.n Attr.jrnCardState 0 0 = 2 ∨ u.n Attr.jrnCardState 0 0 = 3) ∧ Store.find? u.jrn.dir c.q.inst = some e ∧
      u.loadBusy = true) rBusy) ∧
  Refuses .stage .stage (fun c u => u.jrn.card = none ∧ (Store.find? u.jrn.dir c.q.inst).isSome = true) rNoBillet ∧
  Refuses .stage .stage (fun c u => u.jrn.card = none ∧ Store.find? u.jrn.dir c.q.inst = none) rState ∧
  Refuses .stage .stage (fun c u => u.jrn.card.isSome = true ∧ Store.find? u.jrn.dir c.q.inst = none) rState ∧
  Refuses .stage .stage (fun _ u => u.jrn.card.isSome = true ∧ u.n Attr.jrnCardState 0 0 ≠ 2 ∧
    u.n Attr.jrnCardState 0 0 ≠ 3) rState ∧
  Performs .deleteScene .delete (fun _ _ => True) (fun c u => (u.dropScene c.q.inst, {})))

/-- R516, R518, R519, R521, R524: the card's events. A card taken out leaves none; a card put in is unusable,
unformatted or foreign as it is found, and the card journalled before is mended, taken up and given a fresh
snapshot; an error is counted and passes the journal to RAM; a scene is complete once its directory entry is
durable, and ends with RANGE where its sectors did not fit; the least-erased scene sector moves where erase counts
lie more than 1,000 apart. R22, R508, R511, R514, R518: from the period after its own the oldest group is programmed
into the ring and leaves the groups that wait, the first after a snapshot in a sector of its own; a ring that it
fills to three quarters is compacted; one that has no room for it passes the journal to RAM. A group of the period
that runs, and one while the card takes none, waits. An OFF that waits for durability follows at once. R514, R515,
R519, R525: a compaction whose snapshot the card holds ends with the next generation, its snapshot, the ring from
its start, the sectors that nothing names freed, and the groups that it covers durable; the card is ready and the
journal on it. One that finds no room ends with BUSY. A format ends at generation 1 with an empty ring and no scene.
Where none runs each does nothing but let a waiting OFF follow. What of this the spec does not say is the model's
choice (entries 11, 45, 46 and 47). -/
def Obligations.CardAndJournalEventsAct : Prop :=
  (
  let put (s : State) (x : Card) : State :=
    ((({ s with jrn := { s.jrn with card := some (cardOf x) } } : State).set Attr.jrnCardId 0 0 (cardOf x).id).set
      Attr.jrnSectors 0 0 (cardOf x).sectors).set Attr.jrnRatedCycles 0 0 (cardOf x).rated
  let spread (card : CardSt) : Nat :=
    let counts := (card.data.filter card.headed).map card.erases
    counts.foldl Nat.max 0 - counts.foldl Nat.min (counts.headD 0)
  (∀ s card, s.jrn.card = some card →
    let v := s.cardFails
    let v : State := { v.completeTicket? v.jrn.format rNoBillet with jrn := { v.jrn with card := none, format := none } }
    exec (.cardDetect none) s = .next
      (((((((v.set Attr.jrnCardState 0 0 0).set Attr.jrnCardId 0 0 0).set Attr.jrnSectors 0 0 0).set Attr.jrnRatedCycles 0 0 0).set
        Attr.jrnRingFill 0 0 0).set Attr.jrnLifeUsed 0 0 0).set Attr.scnFreeSectors 0xFFFF 0 0).toRam) ∧
  (∀ s x, s.jrn.card = none → (cardOf x).usable = false → exec (.cardDetect (some x)) s = .next
    (({ s with jrn := { s.jrn with card := some (cardOf x) } } : State).set Attr.jrnCardState 0 0 5)) ∧
  (∀ s x, s.jrn.card = none → (cardOf x).usable = true → (cardOf x).current = none →
    exec (.cardDetect (some x)) s = .next (((put s x).set Attr.jrnCardState 0 0 1).cardStats (cardOf x))) ∧
  (∀ s x e, s.jrn.card = none → (cardOf x).usable = true → (cardOf x).current = some e →
    s.jrn.lastCard ≠ some (cardOf x).id →
    exec (.cardDetect (some x)) s = .next (((put s x).set Attr.jrnCardState 0 0 4).cardStats (cardOf x))) ∧
  (∀ s x e, s.jrn.card = none → (cardOf x).usable = true → (cardOf x).current = some e →
    s.jrn.lastCard = some (cardOf x).id →
    let c := (cardOf x).mend
    let v := (((put s x).mount c).set Attr.jrnCardState 0 0 2).cardStats c
    exec (.cardDetect (some x)) s = .next (if v.n Attr.jrnCardState 0 0 = 2 then v.startCompaction c none false else v)) ∧
  (∀ s x, s.jrn.card.isSome = true → exec (.cardDetect (some x)) s = .next s) ∧
  (∀ s, s.jrn.card = none → exec (.cardDetect none) s = .next s) ∧
  (∀ s, s.jrn.card.isSome = true → exec .cardIoError s = .next ((s.bump Attr.jrnIoErrors 0 0).cardFails).toRam) ∧
  (∀ s, s.jrn.card = none → exec .cardIoError s = .next s ∧ exec .wearLevellingMove s = .next s) ∧
  (∀ s v, s.jrn.saving = some v → v.entry = [] → exec .sceneComplete s =
    .next (({ s with jrn := { s.jrn with saving := none } } : State).sceneEnds v.scene v.ticket rRange)) ∧
  (∀ s v, s.jrn.saving = some v → v.entry ≠ [] → exec .sceneComplete s = .next
    (if s.jrn.pend.any (fun g => g.recs.any fun r => r.typ == 4 && r.payload == v.entry) then s
     else (({ s with jrn := { s.jrn with saving := none } } : State).enterScene v.entry).sceneEnds v.scene v.ticket rOk)) ∧
  (∀ s card n k j c2, s.jrn.card = some card → s.n Attr.jrnCardState 0 0 = 2 → s.jrn.saving = none →
    1000 < spread card →
    leastErased card s.jrn.dir = some (n, k) → card.allocate 4 (card.secId k) = some (j, c2) →
    exec .wearLevellingMove s = .next
      (let e := Store.get (SceneEnt.mk [] 0) s.jrn.dir n
       let e := { e with sectors := e.sectors.map fun x => if x = k then j else x }
       let w : State := { s with jrn := { s.jrn with dir := Store.put s.jrn.dir n e } }
       (w.commit [w.sceneRec n e]).cardStats ((c2.wr (secBase j + 32) (card.rd (secBase k + 32) 65504)).release k))) ∧
  (∀ s, s.jrn.saving = none → exec .sceneComplete s = .next s) ∧
  (∀ s card, s.jrn.card = some card → (s.n Attr.jrnCardState 0 0 ≠ 2 ∨ spread card ≤ 1000 ∨ s.jrn.saving.isSome = true) →
    exec .wearLevellingMove s = .next s) ∧
  (∀ s card, s.jrn.card = some card → leastErased card s.jrn.dir = none → exec .wearLevellingMove s = .next s) ∧
  (∀ s card n k, s.jrn.card = some card → leastErased card s.jrn.dir = some (n, k) → card.allocate 4 (card.secId k) = none →
    exec .wearLevellingMove s = .next s)) ∧
  (
  let opens (s : State) (g : JGroup) : Bool := s.jrn.compaction.any fun k => k.start.isNone && seqPlus k.at_ 1 == g.first
  let written (s : State) (card : CardSt) (g : JGroup) : Option Tape :=
    (Tape.mk card s.jrn.ring (if opens s g then 65536 else s.jrn.ringOff)).group s.jrn.nextSerial card.ringLimit g.first g.recs
  let open_ (s : State) (g : JGroup) : Prop := s.onCard = true ∧ s.jrn.format = none ∧ s.tooEarly g = false
  (∀ s card g rest w, s.jrn.card = some card → s.jrn.pend = g :: rest → open_ s g → written s card g = some w →
    let t := (s.programmed g rest w (opens s g)).compactIfFull w.card (s.n Attr.jrnRingFill 0 0)
    exec .groupDurable s = .next t.offIfDurable ∧ t.jrn.pend = rest ∧ t.jrn.ring = w.sectors ∧ t.jrn.ringOff = w.off ∧
      t.jrn.card = some w.card) ∧
  (∀ s card g rest, s.jrn.card = some card → s.jrn.pend = g :: rest → open_ s g → written s card g = none →
    exec .groupDurable s = .next (({ s with jrn := { s.jrn with full := true } } : State).toRam).offIfDurable) ∧
  (∀ s g rest, s.jrn.pend = g :: rest → ¬ open_ s g → exec .groupDurable s = .next s.offIfDurable) ∧
  (∀ s, s.jrn.card = none → exec .groupDurable s = .next s.offIfDurable) ∧
  (∀ s, s.jrn.pend = [] → exec .groupDurable s = .next s.offIfDurable)) ∧
  (
  let onCard (s : State) (card : CardSt) : State :=
    (((s.set Attr.jrnCardState 0 0 2).set Attr.jrnJournalState 0 0 0).set Attr.jrnRamFill 0 0 0).cardStats card
  (∀ s card k w, s.jrn.card = some card → s.jrn.compaction = some k →
    (Tape.mk card [] 65536).snapshot k.snapshot 0 k.recs = some w →
    let start := k.start.getD s.jrn.nextSerial
    let kept := s.jrn.ring.filter fun e => decide (start ≤ e.1)
    let named := kept.map (·.2) ++ w.sectors.map (·.2)
    let copy := match w.card.current with
      | some (1, _) => 2
      | _ => 1
    let new := w.card.putSuper copy ⟨s.jrn.gen + 1, start, seqPlus k.at_ 1, k.snapshot⟩
    let free := new.data.filter fun x => new.headed x && ((new.use x == 2 || new.use x == 3) && !named.contains x || s.jrn.spare.contains x)
    let covered : List JGroup := s.jrn.pend.takeWhile fun (g : JGroup) => !(k.start.isSome || seqPlus k.at_ 1 == g.first)
    let u : State := { s with jrn := { s.jrn with
        gen := s.jrn.gen + 1, snapshot := k.snapshot, ring := kept, spare := [], compaction := none, full := false
        pend := s.jrn.pend.drop covered.length
        lastCard := some (free.foldl CardSt.release new).id } }
    let u := if covered = [] then u else u.set Attr.jrnDurableSeq 0 0 k.at_
    exec .compactionComplete s = .next
      (((onCard u (free.foldl CardSt.release new)).bump Attr.jrnCompactions 0 0).completeTicket? k.ticket rOk).offIfDurable) ∧
  (∀ s card k, s.jrn.card = some card → s.jrn.compaction = some k →
    (Tape.mk card [] 65536).snapshot k.snapshot 0 k.recs = none →
    exec .compactionComplete s = .next (((({ s with jrn := { s.jrn with compaction := none } } : State).completeTicket? k.ticket
      rBusy).logAt sevWarning Attr.jrnRingFill 0 0).offIfDurable)) ∧
  (∀ s, (s.jrn.card = none ∨ s.jrn.compaction = none) → exec .compactionComplete s = .next s.offIfDurable) ∧
  (∀ s card k, s.jrn.card = some card → s.jrn.format = some k →
    let first := match s.jrn.pend with
      | g :: _ => g.first
      | [] => s.jrn.nextSeq
    let new := (card.data.foldl CardSt.release (card.wipe 2)).putSuper 1 ⟨1, 0, first, 0⟩
    let u : State := s.jrn.dir.foldl (fun s e => s.dropScene e.1) s
    let u : State := { u with jrn := { u.jrn with
        gen := 1, snapshot := 0, ring := [], ringOff := 65536, nextSerial := 0, spare := [], full := false, format := none
        lastCard := some new.id } }
    exec .formatComplete s = .next ((onCard u new).completeTicket k rOk)) ∧
  (∀ s, (s.jrn.card = none ∨ s.jrn.format = none) → exec .formatComplete s = .next s))

/-! ### Reset, power and firmware -/

/-- R529, R540 to R542: restart waits for its reset and makes an ACTIVE whose renewals carry armed 1 give up; LOW is
entered in CONFIG or HALT by an engine that is SOLO, ORPHAN or FAULTED, and left; OFF waits for durability under a
ticket, and follows at once where the journal is durable. What of this the spec does not say is the model's choice
(entry 59). -/
def Obligations.PowerRequestsPerform : Prop :=
  Performs .restart .restart (fun c u => c.arg = 0xA5 ∧ u.armed = false)
    (fun _ u => ({ u with pow := { u.pow with restartDue := true } }, {})) ∧
  Performs .restart .restart (fun c u => c.arg = 0xA5 ∧ u.armed = true)
    (fun _ u => (giveUp { u with
      pow := { u.pow with restartDue := true }
      pair := { u.pair with giveUpDue := 1 } }, {})) ∧
  Refuses .restart .restart (fun c _ => c.arg ≠ 0xA5) rRange ∧
  Performs .enterLow .enterLow (fun c u => c.arg = 2 ∧ u.mayRest = true)
    (fun _ u => (u.set Attr.powPowerState 0 0 2, {})) ∧
  Refuses .enterLow .enterLow (fun c u => c.arg = 2 ∧ u.mayRest = false) rState ∧
  Refuses .enterLow .enterLow (fun c _ => c.arg ≠ 2) rRange ∧
  Performs .wakeFromLow .wakeFromLow (fun _ _ => True) (fun _ u => (u.set Attr.powPowerState 0 0 0, {})) ∧
  (∀ s q sess v c, serving .enterOff q s = some (sess, v, c) → q.when_ = none → (v.opened sess).mayRest = false →
    exec (.enterOff q) s = .next (v.repliedRefusal q sess ⟨rState, 0, []⟩).offIfDurable) ∧
  (∀ s q sess v c, serving .enterOff q s = some (sess, v, c) → q.when_ = none → (v.opened sess).mayRest = true →
    v.pow.offDue.isSome = true → exec (.enterOff q) s = .next (v.repliedRefusal q sess ⟨rBusy, 0, []⟩).offIfDurable) ∧
  (∀ s q sess v c k t, serving .enterOff q s = some (sess, v, c) → q.when_ = none → (v.opened sess).mayRest = true →
    v.pow.offDue = none → (v.opened sess).openTicket (address Attr.powEnter 0) 0 = some (k, t) →
    exec (.enterOff q) s = .next (v.replied q sess c (ticketed k { t with pow := { t.pow with offDue := some k } }).1
      (ticketed k { t with pow := { t.pow with offDue := some k } }).2).offIfDurable) ∧
  (∀ (s : State) k, s.pow.offDue = some k → s.n Attr.jrnDurableSeq 0 0 = s.n Attr.jrnCommittedSeq 0 0 →
    s.offIfDurable = (let t := (s.completeTicket k rOk).set Attr.powPowerState 0 0 3
      { t with pow := { t.pow with offDue := none, pwrOff := true } })) ∧
  (∀ (s : State) k, s.pow.offDue = some k → s.n Attr.jrnDurableSeq 0 0 ≠ s.n Attr.jrnCommittedSeq 0 0 → s.offIfDurable = s)

/-- R528, R529, R542, R553: a reset comes of power on, of a PORn pulse of 10 µs or longer, of a restart whose journal is
durable or whose wait runs out, of the watchdog's condition, and of a wake from OFF; none comes otherwise. R287,
R295, R451, R453, R456, R505, R537: a reset clears every memory but boot flash, fuses, keys and the card in its
slot, empties every table, and starts a new run of ticket numbers. What of this the spec does not say is the model's
choice (entries 2, 11, 58 and 59). -/
def Obligations.ResetsComeOfTheirCauses : Prop :=
  (
  (∀ s b, exec (.powerOnReset b) s = .next (if s.resetDue b.cause then s.boot b.cause b else s)) ∧
  (∀ s b ns, 10000 ≤ ns → exec (.pornPulse ns b) s = .next (s.boot 1 b)) ∧
  (∀ s b ns, ns < 10000 → exec (.pornPulse ns b) s = .next s) ∧
  (∀ s b, s.pow.restartDue = true → exec (.restartDurableWaitExpiry b) s = .next (s.boot 2 b)) ∧
  (∀ s b, s.pow.restartDue = false → exec (.restartDurableWaitExpiry b) s = .next s ∧ s.resetDue 2 = false) ∧
  (∀ s b, s.pow.pwrOff = true → exec (.wake b) s = .next (s.boot 4 b)) ∧
  (∀ s b, s.pow.pwrOff = false → exec (.wake b) s = .next s) ∧
  (∀ s : State, s.resetDue 3 = s.condition 5)) ∧
  (
  ∀ s : State, s.cold.fab.mem = [] ∧ s.cold.anv.cores = [] ∧ s.cold.cru.planeA = [] ∧ s.cold.cru.planeB = [] ∧
    s.cold.bel.ramps = [] ∧ s.cold.bel.queue = [] ∧ s.cold.bel.timed = [] ∧ s.cold.yug.log = [] ∧ s.cold.yug.sessions = [] ∧
    s.cold.blobs = [] ∧ s.cold.yug.keys = s.yug.keys ∧ s.cold.yug.runs = s.yug.runs + 1 ∧
    s.cold.jrn.card = s.jrn.card ∧ s.cold.jrn.dir = [] ∧ s.cold.pow.slots = s.pow.slots ∧
    s.cold.pow.params = s.pow.params ∧ s.cold.pow.fuse = s.pow.fuse ∧ s.cold.pending = s.pending ∧
    s.cold.eng.running = false ∧ s.cold.fab.deepReady = false)

/-- R532, R533, R535, R543, R544, R546: an install of a staged image that the ROM accepts waits under a ticket and then
holds the slot that does not run; activate takes the other slot for a trial; confirm makes a trial permanent and
raises the fuse to its level; in recovery the staged image runs if the ROM accepts it. What is refused is refused
with the rule's code. R295, R536, R539: once deep memory is filled bring-up goes on with the card, the parameters
and the last state, or stops where a fault is present; an entry into RUN that waits for its time base waits no
longer than sync_wait. What of this the spec does not say is the model's choice (entries 11, 50 and 58). -/
def Obligations.FirmwareAndBringUpAct : Prop :=
  (
  Answers .install .install (fun _ u => u.pow.installing = none ∧ (u.openTicket (address Attr.fwInstall 0) 0).isSome = true)
    (fun _ u => if imageOk u.fuseLevel u.staged then
        (match u.openTicket (address Attr.fwInstall 0) 0 with
         | some (k, t) => .ok (ticketed k { t with pow := { t.pow with installing := some (k, u.staged) } })
         | none => refuse rBusy)
      else refuse rType) ∧
  Answers .install .install (fun _ u => u.pow.installing.isSome = true)
    (fun _ u => if imageOk u.fuseLevel u.staged then refuse rBusy else refuse rType) ∧
  (∀ s k b, s.pow.installing = some (k, b) →
    let slot := 1 - s.runningSlot
    let w : State := { s with pow := { s.pow with
      installing := none
      slots := s.pow.slots.set slot b
      trial := if s.pow.trial = some slot then none else s.pow.trial
      boot := if s.pow.trial = some slot then s.runningSlot else s.pow.boot
      tried := s.pow.tried && s.pow.trial != some slot } }
    exec .installComplete s = .next
      (((w.set Attr.fwSlotState 0 slot 1).set Attr.fwSlotVersion 0 slot (imageVersion b)).completeTicket k rOk)) ∧
  (∀ s, s.pow.installing = none → exec .installComplete s = .next s) ∧
  Performs .activate .activate (fun _ u => u.slotState (1 - u.runningSlot) = 1)
    (fun _ u => ({ u with pow := { u.pow with
      trial := some (1 - u.runningSlot), tried := false, boot := 1 - u.runningSlot } }, {})) ∧
  Refuses .activate .activate (fun _ u => u.slotState (1 - u.runningSlot) ≠ 1) rState ∧
  Performs .confirm .confirm (fun _ u => u.pow.trial = some u.runningSlot) (fun _ u =>
    ({ u with pow := { u.pow with
      trial := none, tried := false, boot := u.runningSlot
      fuse := if u.fuseLevel < Nat.max u.fuseLevel (fieldAt (u.slotImage u.runningSlot) 12 4) then
          some (Nat.max u.fuseLevel (fieldAt (u.slotImage u.runningSlot) 12 4)) else u.pow.fuse } }, {})) ∧
  Performs .confirm .confirm (fun _ u => u.pow.trial ≠ some u.runningSlot) (fun _ u => (u, {})) ∧
  (∀ b, Answers .runImage .runImage (fun _ u => u.pow.waitingIn = some b ∧ u.pow.recovery = true)
    (fun _ u => if imageOk u.fuseLevel u.staged then
        .ok ((({ u with pow := { u.pow with recovery := false, waitingIn := none } } : State).set Attr.idFwVersion 0 0
          (imageVersion u.staged)).startFirmware b, {})
      else refuse rType)) ∧
  Refuses .runImage .runImage (fun _ u => u.pow.recovery = false) rState) ∧
  (
  (∀ s, s.fab.deepReady = false → s.pow.recovery = false → s.n Attr.powBringUpStep 0 0 = 2 → s.bringUpFault = false →
    exec .deepMemoryFillComplete s =
      .next (({ s with fab := { s.fab with deepReady := true } } : State).findCard.agreeParams.lastState)) ∧
  (∀ s, s.fab.deepReady = false → s.pow.recovery = false → s.n Attr.powBringUpStep 0 0 = 2 → s.bringUpFault = true →
    exec .deepMemoryFillComplete s = .next ({ s with fab := { s.fab with deepReady := true } } : State).stopBringUp) ∧
  (∀ s, s.fab.deepReady = false → s.pow.recovery = false → s.n Attr.powBringUpStep 0 0 ≠ 2 →
    exec .deepMemoryFillComplete s = .next { s with fab := { s.fab with deepReady := true } }) ∧
  (∀ s, (s.fab.deepReady = true ∨ s.pow.recovery = true) → exec .deepMemoryFillComplete s = .next s) ∧
  (∀ s, s.atEntry = true → s.bringUpFault = true → exec .syncWaitExpiry s = .next s.stopBringUp) ∧
  (∀ s, s.atEntry = true → s.bringUpFault = false → s.entryWaits = true → exec .syncWaitExpiry s =
      .next ((s.logAt sevWarning Attr.powSyncWait 0 0).startTick.set Attr.powBringUpStep 0 0 6)) ∧
  (∀ s, s.bringUpFault = false → s.entryWaits = false → exec .syncWaitExpiry s = .next s) ∧
  (∀ s, s.atEntry = false → exec .syncWaitExpiry s = .next s))

/-! ### Health and development access -/

/-- R555, R556, R563, R569: a control word that names a listed event, chains an odd counter at most and has no reserved
bit is stored, any other is refused with RANGE; clear_mask clears every counter whose bit is 1 and no other;
tag_clear empties the tag buffer. R554: clear_conditions clears the latches of bits 0, 1 and 6, in the latched word
and in the present one, and is refused after a march failure that stopped bring-up. -/
def Obligations.CountersAndConditionsPerform : Prop :=
  (
  Performs .control .control (fun c _ => controlOk c.q.inst c.arg.toNat = true) (fun c u => (u.store c, {})) ∧
  Refuses .control .control (fun c _ => controlOk c.q.inst c.arg.toNat = false) rRange ∧
  Performs .clearMask .clearMask (fun _ _ => True) (fun c u =>
    ((List.range 64).foldl (fun t k => if bit c.arg.toNat k then t.set Attr.cntValue k 0 0 else t) u, {})) ∧
  Performs .tagClear .tagClear (fun _ _ => True)
    (fun _ u => (({ u with hlt := { u.hlt with tags := [] } } : State).set Attr.cntTagsSkipped 0x100 0 0, {}))) ∧
  (
  Performs .clearConditions .clearConditions (fun _ u => u.hlt.fatalMarch = false) (fun _ u =>
    ((u.set Attr.diaLatched 0 0 ((u.n Attr.diaLatched 0 0 &&& 0xFFBC : Nat) : Int)).set Attr.diaPresent 0 0
      ((u.n Attr.diaPresent 0 0 &&& 0xFFBC : Nat) : Int), {})) ∧
  Refuses .clearConditions .clearConditions (fun _ u => u.hlt.fatalMarch = true) rState)

/-- R564 to R566, R570: a challenge of 32 fresh bytes stands until it is used or expires, and none is issued in a
lockout; an unlock consumes it, and unlocks only with a signature over it by the key of the fuse hash; the fourth
failure in a row starts a lockout; lock locks; TMUX is chosen only while unlocked. What of this the spec does not
say is the model's choice (entries 4 and 44). -/
def Obligations.DevelopmentAccessPerforms : Prop :=
  let fresh (u : State) : List Byte := (List.range 32).map fun i => (Config.randomBytes u.free 32).getD i 0
  let fails (u : State) : State :=
    ({ u with hlt := { u.hlt with
        challenge := none, fails := u.hlt.fails + 1
        lockout := u.hlt.lockout || decide (4 ≤ u.hlt.fails + 1) } } : State).bump Attr.devDevFailures 0 0
  let signed (c : Ctx) (ch : List Byte) : Bool := sha256 (c.q.data.take 64) == Config.devKeyHash &&
    ecdsaVerify (c.q.data.take 64) (sha256 ([0x5A, 0x42, 0x44, 0x41].map byteOf ++ ch ++ leBytes 8 Config.uid)) (c.q.data.drop 64)
  Performs .issueChallenge .issueChallenge (fun _ u => u.hlt.lockout = false) (fun _ u =>
    ({ u with free := u.free + 1, hlt := { u.hlt with challenge := some (fresh u) } }, { data := fresh u })) ∧
  Refuses .issueChallenge .issueChallenge (fun _ u => u.hlt.lockout = true) rBusy ∧
  (∀ ch, Answers .unlock .unlock (fun _ u => u.hlt.challenge = some ch) (fun c u =>
    if Config.devKeyHash.all (· == 0) = false ∧ signed c ch = true then
      .ok ((({ u with hlt := { u.hlt with challenge := none, fails := 0 } } : State).set Attr.devUnlocked 0 0 1).logAt sevNotice
        Attr.devUnlocked 0 0, {})
    else .ok (fails u, { result := rAuth }))) ∧
  Answers .unlock .unlock (fun _ u => u.hlt.challenge = none) (fun _ u =>
    if Config.devKeyHash.all (· == 0) then .ok (fails u, { result := rAuth }) else refuse rState) ∧
  Performs .lock .lock (fun _ _ => True) (fun _ u => (u.set Attr.devUnlocked 0 0 0, {})) ∧
  Performs .tmuxSelect .tmuxSelect (fun _ u => u.n Attr.devUnlocked 0 0 ≠ 0) (fun c u => (u.store c, {})) ∧
  Refuses .tmuxSelect .tmuxSelect (fun _ u => u.n Attr.devUnlocked 0 0 = 0) rState ∧
  (∀ s, exec .challengeExpiry s = .next { s with hlt := { s.hlt with challenge := none } }) ∧
  (∀ s, s.hlt.lockout = true → exec .unlockLockoutExpiry s = .next { s with hlt := { s.hlt with lockout := false, fails := 0 } }) ∧
  (∀ s, s.hlt.lockout = false → exec .unlockLockoutExpiry s = .next s)

/-- R548 to R552: a sample of the temperature, voltage and process monitors. A sensor at or above 105 °C in four samples
running raises the critical condition, which falls once every sensor has been below 102 °C in four; a supply beyond
5 % in four samples raises its condition, which falls once all have been inside in four; ALERT follows the two. -/
def Obligations.MonitorSamplesAct : Prop :=
  (∀ s rs, exec (.voltageSample rs) s = .next
    (let u := ((List.range 10).zip rs).foldl (fun t e => t.voltOne e.1 (Nat.min e.2 65535)) s
     (if someFour u.hlt.out 10 then u.raise 4 else if allFour u.hlt.in_ 10 then u.fall 4 else u).setAlert)) ∧
  (∀ s rs, exec (.temperatureSample rs) s = .next
    (let u := ((List.range 8).zip rs).foldl (fun t e => t.tempOne e.1 (clampInt (-32768) 32767 e.2)) s
     let w := (if someFour u.hlt.hot 8 then u.raise 3 else if allFour u.hlt.cool 8 then u.fall 3 else u).setAlert
     if w.hea.ticks < 99 then { w with hea := { w.hea with ticks := w.hea.ticks + 1 } }
     else ({ w with hea := { w.hea with ticks := 0 } } : State).hearthSecond w.modelTemp)) ∧
  (∀ s : State, s.setAlert.hlt.alert = (s.condition 3 || s.condition 4)) ∧
  (∀ s rs ds, exec (.processSample rs ds) s = .next (((List.range 4).zip (rs.zip ds)).foldl (fun t e =>
    t.processOne e.1 (Nat.min e.2.1 4294967295) (clampInt (-32768) 32767 e.2.2)) s)) ∧
  (∀ (s : State) x r d, 500 < d.natAbs → s.hlt.px.contains x = false → s.processOne x r d =
    ({ (s.set Attr.pxReading (0x20 + x) 0 r).set Attr.pxDeviation (0x20 + x) 0 d with
        hlt := { s.hlt with px := x :: s.hlt.px } } : State).logAt sevWarning Attr.pxDeviation (0x20 + x) 0) ∧
  (∀ (s : State) t v, 10500 ≤ v → Store.get 0 (s.tempOne t v).hlt.hot t = Nat.min 4 (Store.get 0 s.hlt.hot t + 1)) ∧
  (∀ (s : State) t v, v < 10500 → Store.get 0 (s.tempOne t v).hlt.hot t = 0)

/-! ### Hearth -/

/-- R338, R339, R342, R343, R345: a valid reference is qualified, and one that returns waits for its restore time, which
ends by itself or by clear_wtr; one whose edges stop is disqualified; two qualified references of equal rank
disagree, and agree again, as they are found to; a phase sample counts at the edge the attribute names; the selector
runs at its time; a switch ends with its 16 samples and absorbs their mean. An event whose condition does not stand
changes nothing. R346, R354, R355, R357 to R360, R362: in HOLDOVER, and while a switch is bridged by a valid model,
the steer follows the model each second; beyond the limit of time or of temperature Hearth is LOST, which is logged
and raises its condition; a training sample needs 16 seconds and 76 clean ones; the model is journalled after an
hour of training and cleared by model_reset; a stale host temperature is noted; a restored model is withheld for 300
s of lock. What of this the spec does not say is the model's choice (entries 11, 32, 33, 34 and 35). -/
def Obligations.HearthEventsAct : Prop :=
  (
  (∀ s r, exec (.referenceQualified r) s = .next
    (if r < 8 ∧ (s.ref r).qualified = false ∧ s.refValid r = true ∧ s.n Attr.refEnable r 0 = 1 ∧
        (r < 4 ∨ 4 ≤ (Store.get PtpSt.reset s.tbs.ptp (r - 4)).announces) then
      (s.setRef r { s.ref r with
        qualified := true, ever := true
        waitEnd := if (s.ref r).ever = true ∧ s.n Attr.refWtrTime r 0 ≠ 0 then
            some (s.hea.now + 1000 * s.n Attr.refWtrTime r 0) else none }).chooseRef
     else s)) ∧
  (∀ s r, exec (.referenceDisqualified r) s = .next
    (if r < 8 ∧ (s.ref r).present = true then
      (s.setRef r { s.ref r with present := false, window := [] }).disqualify r true else s)) ∧
  (∀ s r, exec (.wtrExpiry r) s = .next
    (if (s.ref r).waitEnd = none then s else (s.setRef r { s.ref r with waitEnd := none }).chooseRef)) ∧
  Performs .clearWtr .clearWtr (fun _ _ => True) (fun c u =>
    (if (u.ref c.q.inst).waitEnd = none then u
     else (u.setRef c.q.inst { u.ref c.q.inst with waitEnd := none }).chooseRef, {})) ∧
  (∀ s a b set, a < b → b < 8 → exec (.disagree a b set) s = .next
    (if (s.ref a).qualified = true ∧ (s.ref b).qualified = true ∧ s.rank a = s.rank b ∧ s.disagrees a b ≠ set ∧
        s.agree a b ≠ set then
      if set then ({ s with hea := { s.hea with
        disagree := s.hea.disagree ++ [(a, b)]
        clean := if s.current = some a ∨ s.current = some b then 0 else s.hea.clean } } : State).logAt sevWarning
          Attr.refStatus a 0
      else { s with hea := { s.hea with disagree := s.hea.disagree.erase (a, b) } }
     else s)) ∧
  (∀ s a b set, a = b ∨ 8 ≤ a ∨ 8 ≤ b → exec (.disagree a b set) s = .next s) ∧
  (∀ s r rise fall t, exec (.phaseSample r ⟨rise, fall⟩ t) s = .next
    (if r < 4 then s.phaseIn r (s.n Attr.refNominalHz r 0) (pinRate (s.n Attr.refNominalHz r 0))
      (if s.n Attr.refEdge r 0 = 0 then rise else fall) t else s)) ∧
  (∀ s now, now < s.hea.now → exec (.selectorRun now) s = .next s) ∧
  (∀ s now, s.hea.now ≤ now → exec (.selectorRun now) s = .next
    (let w : State := { s.walkOffset (now - s.hea.now) with hea := { (s.walkOffset (now - s.hea.now)).hea with now := now } }
     if s.heaSt = 3 then
       match w.hea.holdSince with
       | some t => (w.set Attr.heaHoldoverElapsed 0 0 (((now - t) / 1000 : Nat) : Int)).chooseRef
       | none => w.chooseRef
     else w.chooseRef)) ∧
  (∀ s k, s.hea.switch = some k → 16 ≤ k.samples.length → exec .switchComplete s = .next
    ((((({ ((s.set Attr.heaAbsorbedOffset 0 0 (clampS32 (divNear k.samples.sum 320))).set Attr.heaCurrent 0 0 k.to_).set
        Attr.heaSwitching 0 0 0 with
      hea := { s.hea with switch := none, lostAt := none, inLock := 0, outLock := 0, clean := 0, walk := 0 } } : State).bump
      Attr.heaSwitches 0 0).logAt sevNotice Attr.heaSwitches 0 0).chooseRef))) ∧
  (∀ s, (∀ k, s.hea.switch = some k → k.samples.length < 16) → exec .switchComplete s = .next s)) ∧
  (
  (∀ s, exec .holdoverSteerUpdate s = .next
    (if s.heaSt = 3 ∨ (∃ k, s.hea.switch = some k ∧ k.bridge = true) ∧ s.modelValid = true
     then s.setSteer (-(s.yHat + s.hea.bias)) else s)) ∧
  (∀ s, exec .holdoverLimit s = .next
    (if s.chooseRef.heaSt = 3 ∧ (s.chooseRef.n Attr.heaHoldoverLimit 0 0 ≤ s.chooseRef.n Attr.heaHoldoverElapsed 0 0 ∨
        s.chooseRef.outOfRange = true) then
      (((({ s.chooseRef with hea := { s.chooseRef.hea with holdSince := none } } : State).setHea 4).logAt sevError
        Attr.heaState 0 0).raise 2)
     else s.chooseRef)) ∧
  (∀ s, exec .trainingSample s = .next
    (if s.hea.acc.length < 16 then s
     else if s.hea.clean < 76 then { s with hea := { s.hea with acc := [] } }
     else ({ s with hea := { s.hea with acc := [] } } : State).useSample
      ⟨(s.hea.acc.map (·.y)).sum, (s.hea.acc.map (·.t)).sum, (s.hea.acc.map (·.age)).sum⟩)) ∧
  (∀ s, exec .modelJournal s = .next
    (if s.hea.written + 3600 ≤ s.n Attr.heaModelHistory 0 0 then
      { s.commit [s.modelRec] with hea := { s.hea with written := s.n Attr.heaModelHistory 0 0 } } else s)) ∧
  Performs .modelReset .modelReset (fun _ _ => True) (fun _ u =>
    (let w := [Attr.heaModelCoef, Attr.heaModelT0, Attr.heaModelRange, Attr.heaModelHistory, Attr.heaModelAge,
       Attr.heaModelRms].foldl (fun t code => t.clearAttr code 0) u
     { w with hea := { w.hea with train := [], acc := [], restored := false, resumed := false, written := 0 } }, {})) ∧
  (∀ s, exec .hostTemperatureTimeout s = .next
    (if s.n Attr.heaModelSensor 0 0 = 8 then { s with hea := { s.hea with stale := true } } else s)) ∧
  (∀ s t, s.hea.lockedSince = some t → exec .restoredModelWithholdEnd s = .next
    (if s.heaSt = 2 ∧ t + 300000 ≤ s.hea.now then { s with hea := { s.hea with restored := false } } else s)) ∧
  (∀ s, s.hea.lockedSince = none → exec .restoredModelWithholdEnd s = .next s))

/-! ### Time bases, PTP and links -/

/-- R363, R365, R366, R369, R376, R377: a time base is enabled free with a zero rate and disabled only where no domain
names it; a write of its source drops the source it had; a restep to the source waits for its next event, one to a
time is taken at once and recorded; a rate within max_rate is set where no source drives it; a domain other than MD0
jumps with its time base or rate, and MD0's is written in CONFIG only. R364, R366, R367, R372, R377, R401: a counter
read extends the running time across a wrap of its 32 bits; an instance that runs counts a message of a bad
interval, follows the best master it hears, forgets its masters when Announces stop, asks for a delay, and takes a
Sync as a sample of its reference and an event of every time base it drives; a source is ready after 2 s in SLAVE
with one grandmaster and 4 Announces; the first event of a ready free time base that does not feed MD0 steps it; a
link that falls ends its instance. An instance that does not run, or a condition that does not stand, changes
nothing. What of this the spec does not say is the model's choice (entries 11, 39 and 40). -/
def Obligations.TimeBasesAct : Prop :=
  (
  let named (c : Ctx) (u : State) : Bool :=
    (List.range 16).any fun m => u.n Attr.mdEnable m 0 == 1 && u.n Attr.mdTimeBase m 0 == c.q.inst
  Performs .timeBaseEnable .tbEnable (fun c u => u.a Attr.tbEnable c.q.inst 0 = c.arg ∧ (c.arg = 0 → named c u = false))
    (fun _ u => (u, {})) ∧
  Performs .timeBaseEnable .tbEnable (fun c u => c.arg = 1 ∧ u.a Attr.tbEnable c.q.inst 0 ≠ 1)
    (fun c u => ((((u.store c).setTb c.q.inst TbSt.reset).set Attr.tbState c.q.inst 0 1).setTbRate c.q.inst 0, {})) ∧
  Performs .timeBaseEnable .tbEnable (fun c u => c.arg = 0 ∧ named c u = false ∧ u.a Attr.tbEnable c.q.inst 0 ≠ 0)
    (fun c u => (((((u.store c).setTb c.q.inst TbSt.reset).set Attr.tbState c.q.inst 0 0).set Attr.tbOffset c.q.inst 0
      0).set Attr.tbStatus c.q.inst 0 0, {})) ∧
  Refuses .timeBaseEnable .tbEnable (fun c u => c.arg = 0 ∧ named c u = true) rState ∧
  Performs .sourceWrite .tbSource (fun _ _ => True) (fun c u =>
    let w := u.sourceLost c.q.inst
    ((w.setTb c.q.inst { w.tbSt c.q.inst with lastEvent := none, restep := false }).store c, {})) ∧
  Performs .restep .restep (fun c u => u.tbFeeds c.q.inst = false ∧ u.tbState c.q.inst ≠ 0 ∧ u.tbState c.q.inst ≠ 2 ∧
      c.arg.toNat = 0 ∧ u.n Attr.tbSource c.q.inst 0 ≠ 0 ∧ u.inSlave (u.n Attr.tbSource c.q.inst 0 - 1) = true)
    (fun c u => (u.setTb c.q.inst { u.tbSt c.q.inst with restep := true }, {})) ∧
  Performs .restep .restep (fun c u => u.tbFeeds c.q.inst = false ∧ u.tbState c.q.inst ≠ 0 ∧ u.tbState c.q.inst ≠ 2 ∧
      c.arg.toNat ≠ 0 ∧ u.n Attr.tbSource c.q.inst 0 = 0)
    (fun c u => (((u.setTime c.q.inst c.arg.toNat).set Attr.tbState c.q.inst 0 1).recordStep c.q.inst (u.tbNow c.q.inst)
      Attr.tbRestep, {})) ∧
  Refuses .restep .restep (fun c u => u.tbFeeds c.q.inst = false ∧ u.tbState c.q.inst ≠ 0 ∧ u.tbState c.q.inst ≠ 2 ∧
      ((c.arg.toNat = 0 ∧ (u.n Attr.tbSource c.q.inst 0 = 0 ∨ u.inSlave (u.n Attr.tbSource c.q.inst 0 - 1) = false)) ∨
       (c.arg.toNat ≠ 0 ∧ u.n Attr.tbSource c.q.inst 0 ≠ 0))) rState ∧
  Refuses .restep .restep (fun c u => u.tbFeeds c.q.inst = true ∨ u.tbState c.q.inst = 0 ∨ u.tbState c.q.inst = 2) rState ∧
  Performs .rateWrite .rate (fun c u => (c.arg.natAbs : Int) ≤ u.rateLimit c.q.inst ∧ u.n Attr.tbSource c.q.inst 0 = 0)
    (fun c u => (u.setTbRate c.q.inst c.arg, {})) ∧
  Refuses .rateWrite .rate (fun c u => u.rateLimit c.q.inst < (c.arg.natAbs : Int)) rRange ∧
  Refuses .rateWrite .rate (fun c u => (c.arg.natAbs : Int) ≤ u.rateLimit c.q.inst ∧ u.n Attr.tbSource c.q.inst 0 ≠ 0) rState ∧
  Performs .timeBase .timeBase (fun c u => (c.q.inst ≠ 0 ∨ c.code = Attr.mdTimeBase ∧ u.engState = 0) ∧
      u.a c.code c.q.inst 0 = c.arg) (fun c u => (u.store c, {})) ∧
  Performs .timeBase .timeBase (fun c u => c.q.inst ≠ 0 ∧ u.a c.code c.q.inst 0 ≠ c.arg)
    (fun c u => ((u.store c).domainStep c.q.inst, {})) ∧
  Performs .timeBase .timeBase (fun c u => c.q.inst = 0 ∧ c.code = Attr.mdTimeBase ∧ u.engState = 0 ∧
      u.a c.code c.q.inst 0 ≠ c.arg)
    (fun c u => ((u.store c).evalUsers, {})) ∧
  (∀ s q v k c, rowOf q = .timeBase → s.take q = .got v → v.auth q = .pass k → (v.opened k).checks q = .ok c →
    q.inst = 0 → (v.opened k).engState ≠ 0 →
    exec (.timeBase q) s = .next (v.repliedRefusal q k ((v.opened k).sharedFail writeTimeBase c rState)) ∧
    (q.when_ = none → (v.opened k).sharedFail writeTimeBase c rState = ⟨rState, 0, []⟩)) ∧
  (∀ s q v k, rowOf q = .timeBase → s.take q = .got v → v.auth q = .pass k → q.formed = true → q.op = 2 → q.inst = 0 →
    reqCode q = Attr.mdRate → exec (.timeBase q) s = .next (v.repliedRefusal q k ⟨rAccess, 0, []⟩))) ∧
  (
  (∀ s vs, exec (.counterPoll vs) s = .next (((List.range 8).zip vs).foldl (fun t e => t.pollOne e.1 e.2) s)) ∧
  (∀ (s : State) t lo, s.tbState t ≠ 0 → lo < 2 ^ 32 → s.pollOne t lo = s.setTb t { s.tbSt t with
    hi := ((s.tbSt t).hi + b2n (decide (lo < (s.tbSt t).lastLo))) % 2 ^ 32, lastLo := lo }) ∧
  (∀ (s : State) t lo, s.tbState t = 0 → s.pollOne t lo = s) ∧
  (∀ s pp a, s.ptpOn pp = false → exec (.announceReceived pp a) s = .next s) ∧
  (∀ s pp a, s.ptpOn pp = true → (a.logInterval < -3 ∨ 3 < a.logInterval) →
    exec (.announceReceived pp a) s = .next (s.bump Attr.ptpBadMessages (0x100 + pp) 0)) ∧
  (∀ s pp a, s.ptpOn pp = true → -3 ≤ a.logInterval → a.logInterval ≤ 3 → 255 ≤ a.steps →
    exec (.announceReceived pp a) s = .next s) ∧
  (∀ s pp a m, s.ptpOn pp = true → -3 ≤ a.logInterval → a.logInterval ≤ 3 → a.steps < 255 →
    bestMaster (s.heardMasters pp a) = some m → exec (.announceReceived pp a) s = .next
      (let w := (((s.setPtp pp { s.ptp pp with
          masters := s.heardMasters pp a, follows := some m.sender
          announces := if (s.ptp pp).follows = some m.sender ∧ s.n Attr.ptpGrandmaster (0x100 + pp) 0 = m.grandmaster then
            (s.ptp pp).announces + b2n (m.sender == a.sender) else b2n (m.sender == a.sender) }).set Attr.ptpGrandmaster
        (0x100 + pp) 0 m.grandmaster).set Attr.refPtpClass (4 + pp) 0 m.clockClass).set Attr.refPtpAccuracy (4 + pp) 0 m.accuracy
       ((if (s.ptp pp).follows ≠ some m.sender then w.leaveSlave pp 8
         else if s.n Attr.ptpGrandmaster (0x100 + pp) 0 = m.grandmaster then w
         else w.newGrandmaster pp).recheck (4 + pp)).chooseRef)) ∧
  (∀ s pp, exec (.announceReceiptTimeout pp) s = .next
    (if s.ptpOn pp = true ∧ (s.ptp pp).follows ≠ none then s.dropMasters pp 4 else s)) ∧
  (∀ s pp, exec (.delayReq pp) s = .next
    (if s.ptpOn pp = true ∧ (s.ptp pp).follows ≠ none then
      (s.setPtp pp { s.ptp pp with reqSeq := ((s.ptp pp).reqSeq + 1) % 65536, reqOpen := true }).bump Attr.portTxFrames pp 0
     else s)) ∧
  (∀ s t, t < 8 → s.tbState t ≠ 0 → s.sourceIsReady t = true → exec (.sourceReady t) s = .next
    (if s.tbState t = 1 ∧ s.tbFeeds t = true then
      ((s.tbBit t 0 true).set Attr.tbState t 0 2).logAt sevNotice Attr.tbState t 0 else s.tbBit t 0 true)) ∧
  (∀ s t, 8 ≤ t ∨ s.tbState t = 0 ∨ s.sourceIsReady t = false → exec (.sourceReady t) s = .next s) ∧
  (∀ s pp t1 ht l d li, s.ptpOn pp = false → exec (.syncReceived pp t1 ht l d li) s = .next s) ∧
  (∀ s pp t1 ht l d li, s.ptpOn pp = true → (li < -7 ∨ 1 < li) →
    exec (.syncReceived pp t1 ht l d li) s = .next (s.bump Attr.ptpBadMessages (0x100 + pp) 0)) ∧
  (∀ s pp t1 ht l d li, s.ptpOn pp = true → -7 ≤ li → li ≤ 1 → (s.ptp pp).follows = none →
    exec (.syncReceived pp t1 ht l d li) s = .next s) ∧
  (∀ s pp t1 ht l d li, s.ptpOn pp = true → -7 ≤ li → li ≤ 1 → (s.ptp pp).follows ≠ none →
    exec (.syncReceived pp t1 ht l d li) s = .next
      (let u := ((s.set Attr.ptpSyncInterval (0x100 + pp) 0 li).delayMeasured pp d).slaveFrom pp
       let master := (t1 : Int) + ((u.ptp pp).delay.getD 0) + u.a Attr.ptpAsymmetry (0x100 + pp) 0
       let w := u.phaseIn (4 + pp) 0 (syncRate li) (((ht : Int) - master) * 20) ht
       if (u.ptp pp).delay = none then w
       else (w.followers pp).foldl (fun x t => x.sourceEvent t master (l.getD t 0) ht) w)) ∧
  (∀ (s : State) t m lo time, s.tbState t = 0 → s.sourceEvent t m lo time = s) ∧
  (∀ (s : State) t m lo time, s.tbState t ≠ 0 → (s.tbSt t).restep = true → s.sourceEvent t m lo time =
    (s.eventIn t m lo time).stepTb t (s.extend t lo - m) Attr.tbRestep) ∧
  (∀ (s : State) t m lo time, s.tbState t = 1 → (s.tbSt t).restep = false → s.sourceEvent t m lo time =
    (if bit (s.n Attr.tbStatus t 0) 0 = false then s.eventIn t m lo time
     else if s.tbFeeds t = false then (s.eventIn t m lo time).stepTb t (s.extend t lo - m) Attr.tbState
     else ((s.eventIn t m lo time).set Attr.tbState t 0 2).logAt sevNotice Attr.tbState t 0)) ∧
  (∀ (s : State) t m lo time u, s.tbState t = 3 → (s.tbSt t).restep = false → (s.tbSt t).lastEvent = some u →
    s.sourceEvent t m lo time = (s.eventIn t m lo time).servo t (s.extend t lo - m) ((time : Int) - u)) ∧
  (∀ (s : State) t m lo time, s.tbState t = 4 → (s.tbSt t).restep = false → bit (s.n Attr.tbStatus t 0) 0 = true →
    s.n Attr.tbCaptureLimit t 0 < (s.extend t lo - m).natAbs →
    s.sourceEvent t m lo time = (s.eventIn t m lo time).tbBit t 1 true) ∧
  (∀ s p up, exec (.linkChange p up) s = .next
    (if p < 4 then (s.set Attr.portLink p 0 (b2i up)).ptpEval p else s)))

/-! ### Serial audio ports -/

/-- R382: a slot of 24 bits carries S24 as it is, both ways; one of 16 bits takes the upper 16, and one of 32 the upper
24. R382, R386 to R391: a frame at a port that is off does nothing; one at any other counts towards its recovery or
its rate fault and sends its sample, a glitched one of a slave repeating the last received; at a running port
without a slip buffer it passes; a buffered port whose distance falls below 0.5 slips slow, and one whose distance
leaves the buffer faults; a slave whose clock stops or is 2 % off in eight frames faults; a port recovers after its
good frames, beside its group where the group runs, and one that has centred runs. What of this the spec does not
say is the model's choice (entries 11 and 37). -/
def Obligations.PortFramesAct : Prop :=
  (
  (∀ x : Int, -8388608 ≤ x → x ≤ 8388607 → slotIn 24 (slotOut 24 x) = x) ∧
  (∀ x : Int, -32768 ≤ x → x ≤ 32767 → slotIn 16 x = x * 256) ∧
  (∀ x : Int, -2147483648 ≤ x → x ≤ 2147483647 → slotIn 32 x = x / 256) ∧
  (∀ x : Int, slotOut 16 x % 256 = 0 ∧ slotOut 16 x ≤ x ∧ x < slotOut 16 x + 256)) ∧
  (
  let recovered (s : State) (n : Nat) : Prop :=
    if (s.port n).fault = 4 then 64 ≤ (s.port n).near else 16 ≤ (s.port n).good
  let got (s : State) (n : Nat) (a b : Int) (g : Bool) : Int × Int :=
    if s.sapSlave n = true ∧ g = true then (s.port n).last else (slotIn (s.n Attr.sapSlot n 0) a, slotIn (s.n Attr.sapSlot n 0) b)
  (∀ s n a b d o g, (32 ≤ n ∨ s.sapSt n = 0) → exec (.sapFrame n a b d o g) s = .next s) ∧
  (∀ s n a b d o g, n < 32 → s.sapSt n = 1 → exec (.sapFrame n a b d o g) s = .next
    (let u := s.frameMet n o g
     u.setPort n { u.port n with rx := ((u.port n).rx ++ [got s n a b g]).drop ((u.port n).rx.length + 1 - 2), last := got s n a b g })) ∧
  (∀ s n a b d o g, n < 32 → s.sapSt n = 2 → exec (.sapFrame n a b d o g) s = .next ((s.frameMet n o g).bufferFrame n (got s n a b g) d)) ∧
  (∀ s n a b d o g, n < 32 → s.sapSt n = 3 ∨ s.sapSt n = 4 → exec (.sapFrame n a b d o g) s = .next (s.frameMet n o g)) ∧
  (∀ (s : State) n o g, s.sapSlave n = false → s.frameMet n o g = ((s.set Attr.sapRateOffset n 0 0).setPort n { s.port n with
    good := (s.port n).good + 1, near := (s.port n).near + 1, far := 0 }).sendFrame n) ∧
  (∀ (s : State) n o, s.sapSlave n = true → s.frameMet n o false = ((s.set Attr.sapRateOffset n 0 (clampInt (-2147483648) 2147483647
      o)).setPort n { s.port n with
    good := (s.port n).good + 1
    near := if 100000000 + o < 50 * o.natAbs then 0 else (s.port n).near + 1
    far := if 100000000 + o < 50 * o.natAbs then (s.port n).far + 1 else 0 }).sendFrame n) ∧
  (∀ (s : State) n o, s.sapSlave n = true → s.frameMet n o true = (((s.set Attr.sapRateOffset n 0 (clampInt (-2147483648) 2147483647
      o)).bump Attr.sapWsGlitches n 0).setPort n { s.port n with good := 0, near := 0, far := (s.port n).far + 1 }).sendFrame n) ∧
  (∀ (s : State) n p d, (s.sapBuffered n = false ∨ s.ticking = false) → s.bufferFrame n p d = s.passFrame n p) ∧
  (∀ (s : State) n p d, n < 32 → s.sapBuffered n = true → s.ticking = true → s.sapGroupOf n = 0xFF →
    128 ≤ s.a Attr.sapDistance n 0 + d → s.a Attr.sapDistance n 0 + d ≤ 896 →
    s.bufferFrame n p d = (s.set Attr.sapDistance n 0 (s.a Attr.sapDistance n 0 + d)).passFrame n p) ∧
  (∀ (s : State) n p d x, n < 32 → s.sapBuffered n = true → s.ticking = true → s.sapGroupOf n = 0xFF → s.paired = false →
    x = s.a Attr.sapDistance n 0 + d → x < 128 → s.bufferFrame n p d =
      (let w := ((s.set Attr.sapDistance n 0 x).slipPort n true).passFrame n p
       if x < -256 then w.sapFault n 1 else w)) ∧
  (∀ (s : State) n p d x, n < 32 → s.sapBuffered n = true → s.ticking = true → s.sapGroupOf n = 0xFF → s.paired = false →
    x = s.a Attr.sapDistance n 0 + d → 896 < x → s.bufferFrame n p d =
      (let w := ((s.set Attr.sapDistance n 0 x).passFrame n p).slipPort n false
       if 1280 < x then w.sapFault n 3 else w)) ∧
  (∀ (s : State) n, s.slipPort n true = ((s.setPort n { s.port n with
      rx := (s.port n).rx ++ [(s.port n).last], tx := (s.port n).tx.drop 1 }).set Attr.sapDistance n 0
        (s.a Attr.sapDistance n 0 + 256)).bump Attr.sapSlipsSlow n 0) ∧
  (∀ (s : State) n, s.slipPort n false = ((s.setPort n { s.port n with
      rx := (s.port n).rx.dropLast, tx := (s.port n).sent :: (s.port n).tx }).set Attr.sapDistance n 0
        (s.a Attr.sapDistance n 0 - 256)).bump Attr.sapSlipsFast n 0) ∧
  (∀ x : Int, slipOf x = some true ↔ x < 128) ∧ (∀ x : Int, slipOf x = some false ↔ 896 < x) ∧
  (∀ (s : State) n why, s.sapSt n ≠ 1 → s.sapSt n ≠ 2 → s.sapFault n why = s) ∧
  (∀ s n, s.sapSlave n = true → (s.sapFault n 2).sapSt n ≠ 0 → exec (.clockStopped n) s =
    .next ((s.sapFault n 2).setPort n { (s.sapFault n 2).port n with good := 0, near := 0, far := 0 })) ∧
  (∀ s n, s.sapSlave n = false ∨ s.sapSt n = 0 → exec (.clockStopped n) s = .next s) ∧
  (∀ s n, 8 ≤ (s.port n).far → exec (.rateFault n) s = .next (s.sapFault n 4)) ∧
  (∀ s n, (s.port n).far < 8 → exec (.rateFault n) s = .next s) ∧
  (∀ s n k, s.sapSt n = 3 → recovered s n → (s.sapGroupOf n = 0xFF ∨ s.groupRef (s.sapGroupOf n) = none) →
    exec (.portRecovery n k) s = .next (s.centrePort n)) ∧
  (∀ s n k r d, s.sapSt n = 3 → recovered s n → s.sapGroupOf n ≠ 0xFF → s.groupRef (s.sapGroupOf n) = some r →
    d = (if r < 0x1000 then s.a Attr.sapDistance r 0 else s.a Attr.rxDistance (r - 0x1000) 0) + k →
    exec (.portRecovery n k) s = .next
      (if d < 128 ∨ 896 < d then
         if (s.port n).warned = true then s
         else (s.setPort n { s.port n with warned := true }).logAt sevWarning Attr.sapState n 0
       else ((((s.setPort n { s.port n with
           rx := []
           tx := List.replicate (if s.sapBuffered n then ((1024 - d) / 256).toNat else 0) (0, 0)
           fault := 0, warned := false, fresh := true }).set Attr.sapDistance n 0 d).set Attr.sapState n 0 2).resumePort n))) ∧
  (∀ s n k, s.sapSt n ≠ 3 ∨ ¬ recovered s n → exec (.portRecovery n k) s = .next s) ∧
  (∀ s n, s.sapSt n = 1 → exec (.centred n) s = .next
    ((((s.set Attr.sapState n 0 2).set Attr.sapDistance n 0 512).setPort n { s.port n with fresh := true }).resumePort n)) ∧
  (∀ s n, s.sapSt n ≠ 1 → exec (.centred n) s = .next s))

/-! ### Streams, frames and Weld -/

/-- R384, R392, R417, R419, R428: a port or stream is enabled only in a domain that is enabled, takes a group only of
its own domain, and a change that the ports' rates or the receivers' entries do not admit is refused; a stream's
settings stand still while it is enabled; a running port whose domain changes centres again. -/
def Obligations.MediaRequestsPerform : Prop :=
  Performs .sapSetting .sapSetting (fun c u => u.sapBad c.code c.q.inst c.arg.toNat = false ∧
      (c.code ≠ Attr.sapDomain ∨ u.n c.code c.q.inst 0 = c.arg.toNat))
    (fun c u => ((u.store c).sapEval c.q.inst, {})) ∧
  Performs .sapSetting .sapSetting (fun c u => u.sapBad c.code c.q.inst c.arg.toNat = false ∧
      c.code = Attr.sapDomain ∧ u.n c.code c.q.inst 0 ≠ c.arg.toNat)
    (fun c u => (if ((u.store c).sapEval c.q.inst).sapSt c.q.inst = 2 ∨ ((u.store c).sapEval c.q.inst).sapSt c.q.inst = 3
      then ((u.store c).sapEval c.q.inst).centrePort c.q.inst else (u.store c).sapEval c.q.inst, {})) ∧
  Refuses .sapSetting .sapSetting (fun c u => u.sapBad c.code c.q.inst c.arg.toNat = true) rState ∧
  Performs .streamEnable .streamEnable (fun c u => c.code / 256 = 0x61 ∧
      (c.code = rxAttrs.enable ∨ u.n rxAttrs.enable c.q.inst 0 ≠ 1) ∧
      (c.code = rxAttrs.domain → u.rxGroupOf c.q.inst = 0xFF ∨
        ((u.groupDomains (u.rxGroupOf c.q.inst) none (some c.q.inst)).any (· != c.arg.toNat)) = false) ∧
      (c.code = rxAttrs.enable → c.arg.toNat = 1 → u.n Attr.mdEnable (u.n rxAttrs.domain c.q.inst 0) 0 = 1) ∧
      (u.store c).payload rxAttrs c.q.inst ≤ 1460 ∧ (c.code = rxAttrs.enable → (u.store c).netAdmits = true))
    (fun c u => ((u.store c).rxEval c.q.inst, {})) ∧
  Performs .streamEnable .streamEnable (fun c u => c.code / 256 ≠ 0x61 ∧
      (c.code = txAttrs.enable ∨ u.n txAttrs.enable c.q.inst 0 ≠ 1) ∧
      (c.code = txAttrs.enable → c.arg.toNat = 1 → u.n Attr.mdEnable (u.n txAttrs.domain c.q.inst 0) 0 = 1) ∧
      (u.store c).payload txAttrs c.q.inst ≤ 1460 ∧ (c.code = txAttrs.enable → (u.store c).netAdmits = true))
    (fun c u => ((u.store c).txEval c.q.inst, {})) ∧
  Refuses .streamEnable .streamEnable (fun c u => c.code = Attr.rxChannels ∧ u.n Attr.rxEnable c.q.inst 0 = 1) rState ∧
  Refuses .streamEnable .streamEnable (fun c u => c.code = Attr.rxEnable ∧ c.arg.toNat = 1 ∧
      u.n Attr.mdEnable (u.n Attr.rxDomain c.q.inst 0) 0 = 1 ∧ (u.store c).payload rxAttrs c.q.inst ≤ 1460 ∧
      (u.store c).netAdmits = false) rAdmission ∧
  Performs .binding .binding (fun c u => c.code ≠ Attr.weldBinding ∧ (u.store c).netAdmits = true)
    (fun c u => (u.store c, {})) ∧
  Performs .binding .binding (fun c u => c.code = Attr.weldBinding ∧ c.arg.toNat / 4096 % 2 ^ 18 = 0 ∧
      (∀ b, b = 31 ∨ b = 30 → bit c.arg.toNat b = true →
        ((u.welds b).any fun e => e.1 != c.q.inst && e.2 == c.arg.toNat % 4096) = false) ∧
      (weldRole c.arg = true → u.slotOf (2 * 2 ^ 28 + c.q.inst) = none) ∧ (u.store c).netAdmits = true)
    (fun c u => (u.store c, {})) ∧
  Refuses .binding .binding (fun c _ => c.code = Attr.weldBinding ∧ c.arg.toNat / 4096 % 2 ^ 18 ≠ 0) rRange ∧
  Refuses .binding .binding (fun c u => c.code = Attr.weldContributors ∧ (u.store c).netAdmits = false) rAdmission

/-- R400, R404, R408 to R413: a packet of the wrong shape, or outside the window, is counted and dropped; one inside it
puts its samples into the buffer at their counts; a stream without packets for 100 ms is lost, and a leg without
them ends; the oldest full packet of a stream leaves on its legs that are up; a frame with a bad check sequence is
an error, ARP and ICMP for the port are answered, and a frame that nothing matches is discarded. R420, R424 to R426:
a Weld fragment of another system, format or rate is a mismatch, a second copy of one does nothing, and one after
its deadline is late; at the deadline each summing destination has its total and the frame's parts are dropped; a
destination with no other contributor has its own partial as the total, saturated to W32; a member silent for 64
frames is absent, once. What of this the spec does not say is the model's choice (entries 11, 38, 42 and 62). -/
def Obligations.PacketsAndWeldAct : Prop :=
  (
  let up (s : State) (k leg : Nat) : Prop := ((legPorts (s.n Attr.rxPort k 0))[leg]?).any s.portUp = true
  let shaped (s : State) (k : Nat) (p : RtpPacket) : Prop := p.wellFormed = true ∧
    p.samples.length = s.packetLen rxAttrs k ∧ p.samples.any (·.length != s.rxCh k) = false
  let rel (s : State) (k : Nat) (p : RtpPacket) : Nat := countAt (s.domRate (s.n Attr.rxDomain k 0)) p.arrival
  let diff (s : State) (k : Nat) (p : RtpPacket) : Int := signed 32 (toBits 32 ((p.ts : Int) + s.linkOffset k - rel s k p))
  (∀ s k p, (512 ≤ k ∨ s.n Attr.rxState k 0 = 0 ∨ ¬ up s k p.leg) → exec (.rtpPacketReceived k p) s = .next s) ∧
  (∀ s k p, k < 512 → s.n Attr.rxState k 0 ≠ 0 → up s k p.leg → ¬ shaped s k p →
    exec (.rtpPacketReceived k p) s = .next (s.bump Attr.rxBadPackets k 0)) ∧
  (∀ s k p, k < 512 → s.n Attr.rxState k 0 ≠ 0 → s.n Attr.rxState k 0 ≠ 5 → up s k p.leg → shaped s k p →
    8192 - (s.packetLen rxAttrs k : Int) ≤ diff s k p →
    exec (.rtpPacketReceived k p) s = .next ((s.bump Attr.rxWindowErrors k 0).rxBit k 5 true)) ∧
  (∀ s k p, k < 512 → s.n Attr.rxState k 0 = 5 → up s k p.leg → shaped s k p → exec (.rtpPacketReceived k p) s = .next s) ∧
  (∀ s k p, k < 512 → s.n Attr.rxState k 0 ≠ 0 → s.n Attr.rxState k 0 ≠ 5 → up s k p.leg → shaped s k p →
    diff s k p < 8192 - (s.packetLen rxAttrs k : Int) →
    ∃ t, exec (.rtpPacketReceived k p) s = .next t ∧
      (t.rxs k).ring = (storeSamples (rel s k p) (rel s k p + diff s k p) (p.samples.map fun f => f.map (s.rxCode k))
        (Store.keep (fun n => decide ((if s.ticking then (s.rxs k).next else ((rel s k p : Int) + 1).toNat) ≤ n)) (s.rxs k).ring)).1 ∧
      (t.rxs k).live = (s.rxs k).live ∧ (t.rxs k).next = (s.rxs k).next) ∧
  (∀ s k, (s.n Attr.rxState k 0 = 1 ∨ s.n Attr.rxState k 0 = 2 ∨ s.n Attr.rxState k 0 = 3) → exec (.streamLost k) s =
    .next (((s.set Attr.rxState k 0 4).bump Attr.rxLosses k 0).logAt sevWarning Attr.rxLosses k 0)) ∧
  (∀ s k, (s.n Attr.rxState k 0 = 0 ∨ 4 ≤ s.n Attr.rxState k 0) → exec (.streamLost k) s = .next s) ∧
  (∀ s k leg, leg < 2 → bit (s.n Attr.rxStatus k 0) leg = true → s.n Attr.rxPort k 0 = 4 → exec (.legTimeout k leg) s =
    .next ((s.rxBit k leg false).logAt sevNotice Attr.rxStatus k 0)) ∧
  (∀ s k leg, (2 ≤ leg ∨ bit (s.n Attr.rxStatus k 0) leg = false ∨ s.n Attr.rxPort k 0 ≠ 4) →
    exec (.legTimeout k leg) s = .next s) ∧
  (∀ s k, (s.n Attr.txState k 0 ≠ 1 ∧ s.n Attr.txState k 0 ≠ 4 ∨ (s.txs k).buf.length < s.packetLen txAttrs k ∨ s.sends = false) →
    exec (.rtpPacketSend k) s = .next s) ∧
  (∀ s k, (s.n Attr.txState k 0 = 1 ∨ s.n Attr.txState k 0 = 4) → s.packetLen txAttrs k ≤ (s.txs k).buf.length → s.sends = true →
    exec (.rtpPacketSend k) s = .next
      (let x := s.txs k
       let len := s.packetLen txAttrs k
       let legs := ((legPorts (s.n Attr.txPort k 0)).mapIdx fun i p => (i, p)).filter fun e => s.portUp e.2
       let u := s.setTx k { x with buf := x.buf.drop len, first := x.first + len }
       legs.foldl (fun w e => (w.bump Attr.txPackets k e.1).bump Attr.portTxFrames e.2 0)
         { u with net := { u.net with sentRtp := legs.map fun e => (e.2, s.rtpBytes k x.first (x.buf.take len)) } })) ∧
  (∀ s p f, (4 ≤ p ∨ s.portUp p = false) → exec (.ethernetFrameReceived p f) s = .next s) ∧
  (∀ s p f, p < 4 → s.portUp p = true → f.fcs = false →
    exec (.ethernetFrameReceived p f) s = .next (s.bump Attr.portRxErrors p 0)) ∧
  (∀ s p f, p < 4 → s.portUp p = true → f.fcs = true → (f.tagged = true ∨ 1518 < f.len ∨ f.fragment = true) →
    exec (.ethernetFrameReceived p f) s = .next ((s.bump Attr.portRxFrames p 0).bump Attr.portRxDiscards p 0)) ∧
  (∀ s p f, p < 4 → s.portUp p = true → f.fcs = true → f.tagged = false → f.len ≤ 1518 → f.fragment = false →
    exec (.ethernetFrameReceived p f) s = .next
      (let u := s.bump Attr.portRxFrames p 0
       let mine := f.dstAddr == u.n Attr.portIpAddr p 0
       if f.etherType = 0x0806 then (if mine then u.bump Attr.portTxFrames p 0 else u)
       else if f.etherType = 0x0800 ∧ f.proto = 1 ∧ mine then u.bump Attr.portTxFrames p 0
       else if f.etherType = 0x0800 ∧ (f.proto = 2 ∨ f.proto = 17 ∧ u.udpMatches p f = true) then u
       else u.bump Attr.portRxDiscards p 0))) ∧
  (
  let open_ (s : State) (p : Nat) (f : WeldFrag) : Prop := (p = 2 ∨ p = 3) ∧ s.portUp p = true ∧ s.weldId ≠ 255 ∧
    s.ticking = true ∧ ((s.welds 30).any fun e => e.2 / 64 == f.lane) = true
  let ours (s : State) (f : WeldFrag) : Prop := f.system = s.n Attr.weldSystemId 0xFFFF 0 ∧ f.version = 1 ∧
    f.n = s.eng.cfg.n ∧ f.rate = s.md0Code ∧ f.sender < 32 ∧ f.frame ≤ s.weldNext + s.eng.cfg.n ∧
    f.frame % s.eng.cfg.n = 0
  let id (f : WeldFrag) := (f.sender, f.frame, f.lane, f.fragment)
  (∀ s p f, ¬ open_ s p f → exec (.weldFragmentReceived p f) s = .next s) ∧
  (∀ s p f, open_ s p f → ¬ ours s f → exec (.weldFragmentReceived p f) s = .next (s.bump Attr.weldMismatches 0xFFFF 0)) ∧
  (∀ s p f, open_ s p f → ours s f → s.net.seen.contains (id f) = true → exec (.weldFragmentReceived p f) s = .next s) ∧
  (∀ s p f, open_ s p f → ours s f → s.net.seen.contains (id f) = false → f.frame < s.weldNext →
    exec (.weldFragmentReceived p f) s = .next ((({ s with net := { s.net with seen := id f :: s.net.seen } } :
      State).hearMember f.sender).bump Attr.weldLate 0xFFFF f.sender)) ∧
  (∀ s p f, open_ s p f → ours s f → s.net.seen.contains (id f) = false → s.weldNext ≤ f.frame →
    exec (.weldFragmentReceived p f) s = .next
      (let u := ({ s with net := { s.net with seen := id f :: s.net.seen } } : State).hearMember f.sender
       (u.countEntries f).keepParts f ((u.countEntries f).weldParts f u.weldRoom))) ∧
  (∀ (s : State) f l, l ≠ [] → s.keepParts f l =
    (let m := recentMargins f.arrival (s.weldDue f.frame - f.arrival) s.net.margins
     ({ s with net := { s.net with parts := s.net.parts ++ l, margins := m } } : State).weldMargins m)) ∧
  (∀ (s : State) f, s.keepParts f [] = s) ∧
  (∀ s, s.net.due = none → exec .weldDeadline s = .next s) ∧
  (∀ s frame, s.net.due = some frame → exec .weldDeadline s = .next
    (let r := ({ s with net := { s.net with due := none, welded := [] } } : State).sumWelds frame
     (r.1.eraseDups.foldl (fun w m => w.bump Attr.weldMissing 0xFFFF m) r.2).dropParts frame)) ∧
  (∀ (s : State) frame, s.sumWelds frame = (s.welds 30).foldl (fun (a : List Nat × State) e =>
    (a.1 ++ (a.2.weldTotal e.1 e.2 frame).1, (a.2.weldTotal e.1 e.2 frame).2)) ([], s)) ∧
  (∀ (s : State) frame, s.dropParts frame = { s with net := { s.net with
    parts := s.net.parts.filter fun x => decide (frame < x.frame)
    seen := s.net.seen.filter fun x => decide (frame < x.2.1 + 64 * s.eng.cfg.n) } }) ∧
  (∀ (s : State) d i frame, s.weldPeers d = [] →
    let total := (frameOf s.net.own d s.eng.cfg.n).map clampW32
    (s.weldTotal d i frame).1 = [] ∧ (s.weldTotal d i frame).2.net.welded =
      if total.all (· == 0) then s.net.welded else Store.put s.net.welded d total) ∧
  (∀ s m, m < 32 → 64 ≤ Store.get 0 s.net.gone m → bit (s.n Attr.weldMembersAbsent 0xFFFF 0) m = false →
    exec (.memberAbsent m) s = .next ((s.set Attr.weldMembersAbsent 0xFFFF 0
      ((s.n Attr.weldMembersAbsent 0xFFFF 0 + 2 ^ m : Nat) : Int)).logAt sevWarning Attr.weldMembersAbsent 0xFFFF 0)) ∧
  (∀ s m, (32 ≤ m ∨ Store.get 0 s.net.gone m < 64 ∨ bit (s.n Attr.weldMembersAbsent 0xFFFF 0) m = true) →
    exec (.memberAbsent m) s = .next s))

/-! ### The pair, the Tether and lockstep -/

/-- R471 to R473: a Tether frame of every type does nothing with the pair disabled or on a lane that is down; one that
fails its checks is a frame error of its lane; one whose sequence number is among the last 64 is a second copy and
does nothing but tell the time. What of this the spec does not say is the model's choice (entry 52). -/
def Obligations.TetherFramesAreChecked : Prop :=
  (∀ e ∈ tetherCommands, ∀ (s : State) now lane b, (s.n Attr.pairPairEnable 0 0 ≠ 1 ∨ 2 ≤ lane ∨
      bit (s.n Attr.pairLanes 0 0) lane = false) → exec (e.2 now lane b) s = .next s) ∧
  (∀ e ∈ tetherCommands, ∀ (s : State) now lane b, s.n Attr.pairPairEnable 0 0 = 1 → lane < 2 →
    bit (s.n Attr.pairLanes 0 0) lane = true → tetherParse b = none →
    exec (e.2 now lane b) s = .next (({ s with pair := { s.pair with now := now } } : State).bump Attr.pairFrameErrors 0 lane)) ∧
  (∀ e ∈ tetherCommands, ∀ (s : State) now lane b f, s.n Attr.pairPairEnable 0 0 = 1 → lane < 2 →
    bit (s.n Attr.pairLanes 0 0) lane = true → tetherParse b = some f → (f.typ ≠ e.1 ∨ s.tetherSeen e.1 f.seq = true) →
    exec (e.2 now lane b) s = .next { s with pair := { s.pair with now := now } })

/-- R470, R476, R477, R486, R487, R499: an ACTIVE sends RENEW at each interval and any other member HELLO; a STANDBY
that takes a RENEW restarts its lease and answers ACK; an ACTIVE that takes the ACK of a RENEW dates its lease from
when it was sent; an engine in RUN grants a TAKE; a GRANT that answers the own TAKE makes an ORPHAN ACTIVE; a
RELEASE makes a STANDBY that is entitled ACTIVE and another ORPHAN; a STANDBY keeps the fragments of digests and of
items to adopt. `w` is the state after the frame is taken; `hd` has heard its token and settled the roles by it.
What of this the spec does not say is the model's choice (entry 52). -/
def Obligations.TetherFramesAct : Prop :=
  let tok (f : TFrame) : Token := tokenOf f.payload
  let hd (w : State) (f : TFrame) (b : Bool) : State := (w.hear (tok f) b).settle (tok f)
  let at_ (s : State) (now : Nat) : State := { s with pair := { s.pair with now := now } }
  (∀ s now, s.n Attr.pairPairEnable 0 0 ≠ 1 → exec (.renewInterval now) s = .next s) ∧
  (∀ s now, s.n Attr.pairPairEnable 0 0 = 1 → s.role = 1 → exec (.renewInterval now) s = .next ((at_ s now).sendRenewal now)) ∧
  (∀ (s : State) now, s.sendRenewal now =
    (let u := s.send tRenew (s.token (b2n s.pair.armedNext) 0 (s.n Attr.pairLeaseTime 0 0) 0)
     let r : Renewal := ⟨Store.get 0 u.pair.seqOut tRenew, now, s.pair.armedNext⟩
     { u with pair := { u.pair with renewals := List.drop (u.pair.renewals.length - 63) (u.pair.renewals ++ [r]) } })) ∧
  (∀ s now, s.n Attr.pairPairEnable 0 0 = 1 → s.role ≠ 1 → exec (.renewInterval now) s = .next
    (let u := (at_ s now).send tHello ((at_ s now).token (at_ s now).entitledFlag 0 0 0)
     if u.role = 2 ∧ u.n Attr.pairStandbyState 0 0 = 1 then u.askEnrol u.pair.acked else u)) ∧
  (∀ s now lane b f w, s.tetherIn tRenew now lane b = (some f, w) → exec (.renew now lane b) s = .next
    (let u := hd w f false
     if u.role = 2 then
       let v : State := { u with pair := { u.pair with tRen := some now, arm := (tok f).flag, lease := (tok f).lease } }
       v.send tAck (v.token v.entitledFlag f.seq 0 0)
     else u)) ∧
  (∀ s now lane b f w r, s.tetherIn tAck now lane b = (some f, w) → (hd w f true).role = 1 →
    (∀ l, (hd w f true).pair.lastAcked = some l → seqLater (tok f).ackSeq l = true) →
    (hd w f true).pair.renewals.find? (·.seq == (tok f).ackSeq) = some r →
    exec (.ack now lane b) s = .next
      (let u := (hd w f true).set Attr.pairTetherRtt 0 0 (Nat.min (now - r.sent) 4294967295 : Nat)
       { u with pair := { u.pair with
           lastAcked := some r.seq, tAck := r.sent, armedNext := (tok f).flag
           renewals := u.pair.renewals.filter fun x => x.seq == r.seq || seqLater x.seq r.seq } })) ∧
  (∀ s now lane b f w, s.tetherIn tAck now lane b = (some f, w) →
    ((hd w f true).role ≠ 1 ∨ (hd w f true).pair.renewals.find? (·.seq == (tok f).ackSeq) = none ∨
      ∃ l, (hd w f true).pair.lastAcked = some l ∧ seqLater (tok f).ackSeq l = false) →
    exec (.ack now lane b) s = .next (hd w f true)) ∧
  (∀ s now lane b f w, s.tetherIn tTake now lane b = (some f, w) → exec (.take now lane b) s = .next
    (let u := hd w f false
     if u.role = 1 ∨ u.engState ≠ 1 then u
     else let v := if u.role = 3 then u.beginEnrol else u
          v.send tGrant (v.token 0 f.seq 0 0))) ∧
  (∀ s now lane b f w, s.tetherIn tGrant now lane b = (some f, w) → exec (.grant now lane b) s = .next
    (let u := w.hear (tok f) false
     if u.role = 3 ∧ u.engState = 1 ∧ u.pair.taking = some (tok f).ackSeq then u.becomeActive (Nat.max u.epoch (tok f).epoch + 1)
     else u.settle (tok f))) ∧
  (∀ s now lane b f w, s.tetherIn tRelease now lane b = (some f, w) → exec (.tetherRelease now lane b) s = .next
    (let u := w.hear (tok f) false
     if u.role ≠ 2 then u
     else if u.entitled = true then u.takeOver (some (tok f).hold)
     else (u.dropRole 3).logAt sevError Attr.pairRole 0 0)) ∧
  (∀ s now lane b f w, s.tetherIn tHello now lane b = (some f, w) → exec (.hello now lane b) s = .next
    (let u := hd w f true
     if u.takes (tok f) = true then
       let v := u.send tTake (u.token 0 0 0 0)
       { v with pair := { v.pair with taking := some (Store.get 0 v.pair.seqOut tTake) } }
     else u)) ∧
  (∀ s now lane b f w, s.tetherIn tDigest now lane b = (some f, w) → exec (.digest now lane b) s = .next
    (if w.role = 2 then { w with lck := { w.lck with
      digIn := fragmentIn w.lck.digIn w.lck.digFor f.count f.payload, digFor := f.count } } else w)) ∧
  (∀ s now lane b f w, s.tetherIn tAdopt now lane b = (some f, w) → exec (.adopt now lane b) s = .next
    (if w.role = 2 ∧ w.n Attr.pairStandbyState 0 0 = 2 then w.adoptPart f else w)) ∧
  (∀ (s : State) f, s.adoptPart f =
    (let buf := fragmentIn s.lck.adIn s.lck.adFor f.count f.payload
     let u : State := { s with lck := { s.lck with adIn := buf, adFor := f.count } }
     let d := buf.map (·.2)
     if 20 ≤ d.length ∧ fieldAt d 16 4 + 20 = d.length ∧ (buf.getLast?.map (·.1)).getD 0 + 1 = d.length then
       ({ u with lck := { u.lck with adIn := [] } } : State).adoptItem d else u))

/-- R469, R477, R479, R492, R495 to R498, R501: an armed lease that lapses turns an ACTIVE into an ORPHAN; the lease of
a STANDBY expires into a takeover where the last renewal was armed and it is entitled, else into an ORPHAN; GIVE_UP
sends RELEASE, holds the outputs and makes the ACTIVE FAULTED or a warming STANDBY; a lane that falls under an
ACTIVE is logged. R483, R485, R492: a STANDBY that takes a MIRROR record keeps it while it enrols, and enrols again
where one is missing; an ACTIVE serves the state from the offset asked for; enrolment that has not ended does
nothing; an enrolled state that is admitted is applied with its queued records, and the STANDBY is warming. What of
this the spec does not say is the model's choice (entries 11, 36, 52 and 53). -/
def Obligations.RolesAndEnrolmentAct : Prop :=
  (
  let lease (s : State) : Nat := 1000 * s.n Attr.pairLeaseTime 0 0
  let at_ (s : State) (now : Nat) : State := { s with pair := { s.pair with now := now } }
  (∀ s : State, s.armed = (s.role == 1 && s.pair.renewals.getLast?.any (·.armed))) ∧
  (∀ s now, s.role = 1 → s.pair.renewals.any (·.armed) = true → s.pair.tAck + lease s ≤ now + guardNs →
    exec (.leaseLapse now) s = .next (((at_ s now).bump Attr.pairLeaseLapses 0 0).yieldTo 3)) ∧
  (∀ s now, (s.role ≠ 1 ∨ s.pair.renewals.any (·.armed) = false ∨ now + guardNs < s.pair.tAck + lease s) →
    exec (.leaseLapse now) s = .next s) ∧
  (∀ s now t, s.pair.tRen = some t → s.role = 2 → t + 1000 * s.pair.lease + guardNs ≤ now → s.pair.arm = true →
    (at_ s now).entitled = true → exec (.leaseExpiry now) s = .next ((at_ s now).takeOver none)) ∧
  (∀ s now t, s.pair.tRen = some t → s.role = 2 → t + 1000 * s.pair.lease + guardNs ≤ now →
    (s.pair.arm = false ∨ (at_ s now).entitled = false) →
    exec (.leaseExpiry now) s = .next (((at_ s now).dropRole 3).logAt sevWarning Attr.pairRole 0 0)) ∧
  (∀ s now, (s.role ≠ 2 ∨ ∀ t, s.pair.tRen = some t → now < t + 1000 * s.pair.lease + guardNs) →
    exec (.leaseExpiry now) s = .next s) ∧
  (∀ s, (s.pair.giveUpDue = 0 ∨ s.armed = false) → exec .giveUp s = .next s) ∧
  (∀ s, s.pair.giveUpDue ≠ 0 → s.armed = true → exec .giveUp s = .next
    (if s.pair.giveUpDue = 1 then (s.givenUp.setRole 4 0).set Attr.silPinState 0xFFFF 0 0 else s.givenUp.warmAgain)) ∧
  (∀ s : State, s.givenUp =
    (let u := ((s.release s.lastLive).bump Attr.pairGiveUps 0 0).holdFrom s.lastLive
     { u with pair := { u.pair with renewals := [], giveUpDue := 0, armedNext := false } })) ∧
  (∀ s : State, s.warmAgain.pair.convergeEnd = 0 ∧ s.warmAgain.pair.mirror = [] ∧ s.warmAgain.lck.digIn = [] ∧
    s.warmAgain.n Attr.silPinState 0xFFFF 0 = 0) ∧
  (∀ s lane up, (2 ≤ lane ∨ bit (s.n Attr.pairLanes 0 0) lane = up) → exec (.laneChange lane up) s = .next s) ∧
  (∀ s lane, lane < 2 → bit (s.n Attr.pairLanes 0 0) lane = true → s.n Attr.pairLanes 0 0 ≠ 2 ^ lane → s.role = 1 →
    exec (.laneChange lane false) s =
      .next ((s.set Attr.pairLanes 0 0 (s.n Attr.pairLanes 0 0 - 2 ^ lane : Nat)).logAt sevWarning Attr.pairLanes 0 0)) ∧
  (∀ s lane, lane < 2 → bit (s.n Attr.pairLanes 0 0) lane = true → (s.n Attr.pairLanes 0 0 = 2 ^ lane ∨ s.role ≠ 1) →
    exec (.laneChange lane false) s = .next (s.set Attr.pairLanes 0 0 (s.n Attr.pairLanes 0 0 - 2 ^ lane : Nat))) ∧
  (∀ s lane, lane < 2 → bit (s.n Attr.pairLanes 0 0) lane = false → exec (.laneChange lane true) s = .next
    (let u := s.set Attr.pairLanes 0 0 (s.n Attr.pairLanes 0 0 + 2 ^ lane : Nat)
     if u.n Attr.pairPairEnable 0 0 = 1 then u.send tHello (u.token u.entitledFlag 0 0 0) else u)) ∧
  (∀ s, (s.role ≠ 2 ∨ s.pair.convergeEnd = 0) → exec .convergenceExpiry s = .next s) ∧
  (∀ s, s.role = 2 → s.pair.convergeEnd ≠ 0 → exec .convergenceExpiry s = .next
    ({ s with pair := { s.pair with now := Nat.max s.pair.now s.pair.convergeEnd, convergeEnd := 0 } } : State).judgeState)) ∧
  (
  (∀ s now lane b f w, s.tetherIn tMirror now lane b = (some f, w) → w.role ≠ 2 → exec (.mirror now lane b) s = .next w) ∧
  (∀ s now lane b f w l, s.tetherIn tMirror now lane b = (some f, w) → w.role = 2 →
    Store.find? s.pair.seqIn tMirror = some l → (l + 1) % 2 ^ 32 ≠ f.seq →
    exec (.mirror now lane b) s = .next w.beginEnrol) ∧
  (∀ s now lane b f w, s.tetherIn tMirror now lane b = (some f, w) → w.role = 2 →
    (∀ l, Store.find? s.pair.seqIn tMirror = some l → (l + 1) % 2 ^ 32 = f.seq) →
    exec (.mirror now lane b) s = .next (w.takeMirror ⟨f.seq, fieldAt f.payload 0 8, f.payload.drop 8⟩)) ∧
  (∀ (s : State) r, (s.n Attr.pairStandbyState 0 0 = 1 ∨ s.eng.count < r.period ∨ s.pair.mirror ≠ []) →
    s.takeMirror r = { s with pair := { s.pair with mirror := s.pair.mirror ++ [r] } }) ∧
  (∀ (s : State) r, s.n Attr.pairStandbyState 0 0 ≠ 1 → r.period ≤ s.eng.count → s.pair.mirror = [] →
    s.takeMirror r = (if r.period < s.eng.count then s.bump Attr.pairMirrorLate 0 0 else s).applyMirror r) ∧
  (∀ s now lane b f w, s.tetherIn tEnrol now lane b = (some f, w) → f.payload.length = 4 → exec (.enrol now lane b) s = .next
    (if w.role = 1 ∧ (fieldAt f.payload 0 4 = 0 ∨ w.pair.enrolLen ≠ 0) then
       (w.set Attr.pairPeerRole 0 0 2).serveEnrol (fieldAt f.payload 0 4) else w)) ∧
  (∀ s now lane b f w, s.tetherIn tEnrol now lane b = (some f, w) → f.payload.length ≠ 4 → exec (.enrol now lane b) s = .next
    (if w.role = 2 ∧ w.n Attr.pairStandbyState 0 0 = 1 ∧ fieldAt f.payload 0 4 = w.pair.acked then
       w.enrolData (fieldAt f.payload 0 4) (f.payload.drop 4) else w)) ∧
  (∀ (s : State) off d, s.enrolData off d =
    (let buf := putBytes s.pair.enrol off d
     let len := if off = 0 then fieldAt d 4 4 else s.pair.enrolLen
     let u : State := { s with pair := { s.pair with
        enrol := buf, enrolLen := len, acked := off + d.length, sE := some (leNat (Store.getMany 0 buf 0 4)) } }
     (u.set Attr.pairEnrolProgress 0 0 ((10000 * Nat.min (off + d.length) len / Nat.max 1 len : Nat) : Int)).askEnrol
       (off + d.length))) ∧
  (∀ s, (s.pair.sE = none ∨ s.role ≠ 2 ∨ s.n Attr.pairStandbyState 0 0 ≠ 1 ∨ s.pair.enrolLen < 8 ∨
      s.pair.enrol.length ≠ s.pair.enrolLen) →
    exec .enrolmentComplete s = .next s) ∧
  (∀ s sE, s.pair.sE = some sE → s.role = 2 → s.n Attr.pairStandbyState 0 0 = 1 → 8 ≤ s.pair.enrolLen →
    s.pair.enrol.length = s.pair.enrolLen →
    (∀ r, (s.pair.mirror.filter fun r => seqLater r.seq sE).head? = some r → r.seq = (sE + 1) % 2 ^ 32) →
    exec .enrolmentComplete s = .next
      (s.enrolled (recsAt s.pair.enrol.length ((s.pair.enrol.map (·.2)).drop 8))
        (s.pair.mirror.filter fun r => seqLater r.seq sE) sE)) ∧
  (∀ (s t : State) recs l sE, (applyRecs none (recs.filter (·.typ < 16)) s.clearReplicated).enterFresh = .ok t →
    s.enrolled recs l sE = (l.foldl State.applyQueued (t.startWarm recs sE)).freshImage) ∧
  (∀ (s : State) recs l sE e, (applyRecs none (recs.filter (·.typ < 16)) s.clearReplicated).enterFresh = .error e →
    s.enrolled recs l sE = s.logAt sevError Attr.pairStandbyState 0 0) ∧
  (∀ s sE r, s.pair.sE = some sE → s.role = 2 → s.n Attr.pairStandbyState 0 0 = 1 → 8 ≤ s.pair.enrolLen →
    s.pair.enrol.length = s.pair.enrolLen →
    (s.pair.mirror.filter fun r => seqLater r.seq sE).head? = some r → r.seq ≠ (sE + 1) % 2 ^ 32 →
    exec .enrolmentComplete s = .next s.beginEnrol) ∧
  (∀ (t : State) recs sE, t.startWarm recs sE =
    (let v := (recs.filter (16 ≤ ·.typ)).foldl State.takeRunning t.clearAudio.startTick
     let w := (v.set Attr.belTimedPending 0 0 v.bel.timed.length).setRole 2 2
     { w with pair := { w.pair with
        mirror := [], lastApplied := sE, enrol := [], enrolLen := 0, acked := 0, sE := none
        convergeEnd := w.pair.now + 1000000 * w.convergePeriod } })))

/-- R468, R479, R495 to R497: switchover is accepted by an ACTIVE with armed 1 only, rejoin by a FAULTED engine with no
condition present, force_active by an ORPHAN or a STANDBY with both lanes down; pair_enable 1 makes a SOLO engine an
ORPHAN, where the digest's charge is admitted (R30), and 0 makes the engine SOLO. What of this the spec does not say
is the model's choice (entry 55). -/
def Obligations.PairRequestsPerform : Prop :=
  Performs .switchover .switchover (fun _ u => u.armed = true) (fun _ u =>
    ({ u with pair := { u.pair with giveUpDue := if u.pair.giveUpDue = 1 then 1 else 2 } }, {})) ∧
  Refuses .switchover .switchover (fun _ u => u.armed = false) rState ∧
  Performs .rejoin .rejoin (fun _ u => u.role = 4 ∧ u.n Attr.diaPresent 0 0 = 0) (fun _ u => (u.setRole 3 0, {})) ∧
  Refuses .rejoin .rejoin (fun _ u => u.role ≠ 4 ∨ u.n Attr.diaPresent 0 0 ≠ 0) rState ∧
  Performs .forceActive .forceActive (fun _ u => (u.role = 3 ∨ u.role = 2) ∧ u.n Attr.pairLanes 0 0 % 4 = 0)
    (fun _ u => (u.holdSaps.becomeActive (Nat.max u.epoch u.pair.peerEpoch + 1), {})) ∧
  Refuses .forceActive .forceActive (fun _ u => (u.role ≠ 3 ∧ u.role ≠ 2) ∨ u.n Attr.pairLanes 0 0 % 4 ≠ 0) rState ∧
  Performs .pairEnable .pairEnable (fun c u => (u.store c).pairEnabled.role = 0 ↔ u.role = 0)
    (fun c u => ((u.store c).pairEnabled, {})) ∧
  Performs .pairEnable .pairEnable (fun c u => ¬ ((u.store c).pairEnabled.role = 0 ↔ u.role = 0) ∧
      ∀ e, (u.store c).pairEnabled.admits ≠ .no e)
    (fun c u => ((u.store c).pairEnabled.loadAttrs (u.store c).pairEnabled.topo (u.store c).pairEnabled.place, {})) ∧
  (∀ e, Refuses .pairEnable .pairEnable (fun c u => ¬ ((u.store c).pairEnabled.role = 0 ↔ u.role = 0) ∧
      (u.store c).pairEnabled.admits = .no e) e) ∧
  (∀ s : State, s.n Attr.pairPairEnable 0 0 = 0 → s.role ≠ 1 → s.pairEnabled =
    (let u := (s.setRole 0 0).silPins
     { u with
       pair := { u.pair with
         renewals := [], tRen := none, taking := none, giveUpDue := 0, armedNext := false, mirror := [], slips := []
         convergeEnd := 0, resumeFrom := some 0 }
       lck := Lock.reset })) ∧
  (∀ s : State, s.n Attr.pairPairEnable 0 0 = 1 → s.role = 0 →
    s.pairEnabled = s.dropRole (if s.pow.broken then 4 else 3))

/-! ### The memory matrix and Tongs -/

/-- R276, R278, R285, R289, R291, R292, R299: a burst with no target is answered at once with zeros and an error, and
counted; a target with no burst grants none; the highest effective level wins, whatever arrives, strikes or waits; a
granted write stores the bytes whose strobe is on, a granted read brings its bytes, an atomic operation changes its
word whole; a corrected word is written back; a march runs on a group that may be marched, one at a time, under a
ticket, and its end clears or fails its group, the first differing read deciding. What of this the spec does not say
is the model's choice (entries 11, 26 and 29). -/
def Obligations.FabricActs : Prop :=
  (∀ (s : State) b, b.master ≠ 1 → b.master ≤ 4 → targetOf b.addr = none → s.arriveBurst b =
    (let u := s.bump Attr.memDecodeErrors 0x300 b.master
     { u with fab := { u.fab with readData := if b.kind = .write then [] else List.replicate b.len 0, error := true } })) ∧
  (∀ s t cycles arrivals upsets beats,
    winner (Store.get 0 (s.beforeGrant t cycles arrivals upsets).fab.rr t) ((s.beforeGrant t cycles arrivals upsets).candidates t) =
      none → exec (.matrixBurstGrant t cycles arrivals upsets beats) s = .next (s.beforeGrant t cycles arrivals upsets)) ∧
  (∀ s t cycles arrivals upsets beats c,
    winner (Store.get 0 (s.beforeGrant t cycles arrivals upsets).fab.rr t) ((s.beforeGrant t cycles arrivals upsets).candidates t) =
      some c → exec (.matrixBurstGrant t cycles arrivals upsets beats) s =
        .next ((s.beforeGrant t cycles arrivals upsets).grantTo t beats c)) ∧
  (∀ (s : State) t cycles arrivals upsets, s.beforeGrant t cycles arrivals upsets = (arrivals.foldl State.arriveBurst
    (((upsets.foldl State.upsetWord s).passTime (2 * cycles)).runOpen (·.target == t) 9)).issueTongs) ∧
  (∀ (s : State) t beats c, s.grantTo t beats c = ((({ s with fab := { s.fab with
    rr := Store.set 0 s.fab.rr t ((c.master + 1) % 5) } } : State).event (0x010 + t)).touchBuffers).runWinner t beats c) ∧
  (∀ (s : State) t beats c b, c.burst = some b → (b.kind = .write ∨ b.kind = .read) → s.runWinner t beats c =
    ({ s with fab := { s.fab with waiting := s.fab.waiting.erase b, readData := [], error := false } } : State).runBeats
      (openedBurst b t) (Nat.max 1 beats)) ∧
  (∀ (s : State) t beats c b, c.burst = some b → b.kind ≠ .write → b.kind ≠ .read → s.runWinner t beats c =
    ({ s with fab := { s.fab with waiting := s.fab.waiting.erase b, readData := [], error := false } } : State).atomicAt
      b.addr b.kind (leNat b.data)) ∧
  (∀ (s : State) o beats, o.write = true → o.master ≠ 1 → o.data ≠ [] → o.addr % 32 + o.data.length ≤ 32 * beats →
    s.runBeats o beats = s.writePart o o.data) ∧
  (∀ (s : State) o beats, o.write = false → o.master ≠ 1 → o.len ≠ 0 → o.addr % 32 + o.len ≤ 32 * beats →
    s.runBeats o beats =
      (let r := s.readPart o o.len; { r.2 with fab := { r.2.fab with readData := o.got ++ r.1 } })) ∧
  (∀ (s : State) o d, o.master ≠ 1 → (∀ p off, areaOf o.addr ≠ .plane p off) →
    s.writePart o d = s.accessWrite (masterOf o.master) o.addr d) ∧
  (∀ p l c, winner p l = some c → c ∈ l ∧ ∀ d ∈ l, d.qos ≤ c.qos) ∧
  (∀ s addr, exec (.eccWriteback addr) s = .next
    (if s.fab.wback.contains addr = true ∧ bitsSet (Store.get 0 s.fab.upset addr) = 1 then s.eccClear addr else s)) ∧
  PerformsTicket .marchRun .marchRun (fun c u => c.arg.toNat % 256 ≤ 91 ∧ c.arg.toNat < 512 ∧ u.fab.march = none ∧
      u.marchRefusal (c.arg.toNat % 256) (bit c.arg.toNat 8) = none)
    (fun _ u => u) (fun _ => address Attr.memRun 0x100) (fun _ _ => 6)
    (fun c _ k t => t.startMarch (c.arg.toNat % 256) (bit c.arg.toNat 8) k) ∧
  Refuses .marchRun .marchRun (fun c _ => 91 < c.arg.toNat % 256 ∨ 512 ≤ c.arg.toNat) rRange ∧
  Refuses .marchRun .marchRun (fun c u => c.arg.toNat % 256 ≤ 91 ∧ c.arg.toNat < 512 ∧ u.fab.march.isSome = true) rBusy ∧
  (∀ e, Refuses .marchRun .marchRun (fun c u => c.arg.toNat % 256 ≤ 91 ∧ c.arg.toNat < 512 ∧ u.fab.march = none ∧
    u.marchRefusal (c.arg.toNat % 256) (bit c.arg.toNat 8) = some e) e) ∧
  (∀ s l, s.fab.march = none → exec (.marchComplete l) s = .next s) ∧
  (∀ s l m, s.fab.march = some m → exec (.marchComplete l) s =
    .next (((s.marchOver m).marchJudged m.group (firstFailure m.group l)).marchAnswered m.ticket (firstFailure m.group l).isNone)) ∧
  (∀ (s : State) m, s.marchOver m =
    (let u := if m.preserving then s.ticketProgress m.ticket 6 else (s.ticketProgress m.ticket 6).zeroGroup m.group
     let v := if u.idleGroup m.group then u.set Attr.cruIdleBusy 0 0 0 else u
     { v with fab := { v.fab with march := none } })) ∧
  (∀ (s : State) g, s.marchJudged g none = s.marchPassed g) ∧
  (∀ (s : State) g f, s.marchJudged g (some f) =
    s.marchFailed f (decide (16 ≤ g ∧ g < 64) && bit (s.n Attr.plcRetiredCores 0 0) (g - 16))) ∧
  (∀ (s : State) k p, s.plc.reinstating = none → s.marchAnswered k p = s.completeTicket k rOk) ∧
  (∀ (s : State) k p core n, s.plc.reinstating = some (core, n) →
    s.marchAnswered k p = (s.endReinstate core p).completeTicket k (if p then rOk else rState)) ∧
  (∀ g l, firstFailure g l = none ↔ ∀ r ∈ l, r.diff = 0)

/-- R308, R309, R311, R321, R322, R324 to R326, R329, R331: a pulse on a trigger line queues its slot, and is dropped
where 16 wait; a channel takes its oldest slot, or the descriptor its owner names: one whose owned bit is 0 is an
idle trigger, one in a hole or not aligned ends in error; a descriptor whose elements are moved is complete, with
its marker, pulse and chain, in this order; a peripheral's request stands until it is withdrawn, and the paths
issue; a reset closes every open burst, aborts every channel and empties every queue. What of this the spec does not
say is the model's choice (entries 11, 26 and 31). -/
def Obligations.TongsActs : Prop :=
  (∀ s line, s.tng.pulses.contains line = false → exec (.doorbellTrigger line) s = .next s) ∧
  (∀ s line, s.tng.pulses.contains line = true → exec (.doorbellTrigger line) s = .next
    (let u : State := { s with tng := { s.tng with pulses := s.tng.pulses.erase line } }
     match s.triggerOf line with
     | none => u
     | some x =>
       let ch := u.n Attr.tngModuleChannel 0xFFFF x.1
       if 16 ≤ (u.chan ch).queue.length then u.bump Attr.tngQueueDrops ch 0
       else u.setChan ch { u.chan ch with queue := (u.chan ch).queue ++ [(x.2, x.1)] })) ∧
  (∀ s ch addr, ((s.chan ch).run.isSome = true ∨ s.low = true ∨ 16 ≤ ch ∨ (ch < 12 ∧ (s.chan ch).queue = [])) →
    exec (.descriptorTake ch addr) s = .next s) ∧
  (∀ s ch addr a m, s.slotTaken ch addr = some (a, m) → (s.chan ch).run = none → s.low = false → s.usable a = false →
    exec (.descriptorTake ch addr) s = .next s) ∧
  (∀ s ch addr a m, s.slotTaken ch addr = some (a, m) → (s.chan ch).run = none → s.low = false → s.usable a = true →
    exec (.descriptorTake ch addr) s = .next
      (let u := s.setChan ch { s.chan ch with queue := (s.chan ch).queue.drop 1 }
       if areaOf a = .hole then (u.bump Attr.memDecodeErrors 0x300 1).descError ch 8
       else if a % 64 ≠ 0 then u.descError ch 3
       else
         let r := (u.grantTongs a).accessRead a 64
         let d : Desc := ⟨r.1, m⟩
         if (bit d.ctrl 31) = false then r.2.bump Attr.tngIdleTriggers ch 0
         else (r.2.accessWrite (tongsMaster ch) a ((leBytes 4 (d.ctrl - 2 ^ 31)).map some)).startDesc ch d)) ∧
  (∀ (s : State) ch addr, (12 ≤ ch → ch < 16 → s.slotTaken ch addr = some (addr, none)) ∧
    (∀ a m rest, ch < 12 → (s.chan ch).queue = (a, m) :: rest → s.slotTaken ch addr = some (a, some m))) ∧
  (∀ (s : State) ch d e, s.checkDesc d ch = .error e → s.startDesc ch d = s.descError ch e) ∧
  (∀ (s : State) ch d a b k x, s.checkDesc d ch = .ok (a, b, k, x) → ((s.startDesc ch d).chan ch).run =
    some ⟨d, a, b, k, x, d.traversal a b, 0, 0, [], none, none, none⟩) ∧
  (∀ s ch, (s.chan ch).run = none → exec (.descriptorComplete ch) s = .next s) ∧
  (∀ s ch r, (s.chan ch).run = some r → (r.k < r.desc.count ∨ s.writeOut ch = true ∨
    ([r.marker, r.next].filterMap id).all s.usable = false) → exec (.descriptorComplete ch) s = .next s) ∧
  (∀ s ch r, (s.chan ch).run = some r → r.desc.count ≤ r.k → s.writeOut ch = false →
    ([r.marker, r.next].filterMap id).all s.usable = true → exec (.descriptorComplete ch) s = .next
      (let u := match r.marker with
         | some a => (s.grantTongs a).accessWrite (tongsMaster ch) a ((leBytes 4 (r.desc.f 48 4)).map some)
         | none => s
       let u := if r.desc.doneEn then u.pulse (r.desc.f 37 1) else u
       let u := (u.bump Attr.tngDescriptors ch 0).setChan ch { u.chan ch with run := none, preempted := false }
       match r.next with
       | some a => (((u.grantTongs a).accessRead a 64).2).startDesc ch ⟨((u.grantTongs a).accessRead a 64).1, r.desc.module⟩
       | none => u.resumePlans)) ∧
  (∀ s line room, exec (.paceRequest ⟨line, room⟩) s = .next
    (let others := s.tng.pace.filter fun (e : Nat × Option Nat) => e.1 != line
     let pace := if room = some 0 then others else others ++ [(line, room)]
     if 1 ≤ line ∧ line ≤ 5 then ({ s with tng := { s.tng with pace := pace } } : State).issueTongs else s)) ∧
  (∀ (s : State) beats, exec (.tongsReset beats) s = .next
    (let u := (s.runOpen (·.master == 1) beats).closeMaster 1
     let u := ((List.range 16).foldl (fun t ch => t.setChan ch TChan.reset) u).bump Attr.tngTongsResets 0xFFFF 0
     (({ u with tng := { u.tng with pulses := [], lastR := none, lastW := none } } : State).restartLoad).resumePlans)) ∧
  (∀ (s : State) m, (s.closeMaster m).fab.opened = s.fab.opened.filter (·.master != m) ∧
    (s.closeMaster m).fab.waiting = s.fab.waiting.filter (·.master != m) ∧
    (m = 1 → (s.closeMaster m).tng.issued = []))

/-! ### Anvil -/

/-- R254 to R258, R211 to R220: every instruction of format P that is fetched, whose parallel moves stay within their
bounds and that ends within the meter of its module, runs: its arithmetic is formed on the old registers, limited
once, with the flags of its group, and its moves are done. What of this the spec does not say is the model's choice
(entry 64). -/
def Obligations.AnvilArithmeticRuns : Prop :=
  ∀ c mv (da db s1 s2 s3 s4 : Fin 4) (n1 n2 : Bool) (n : BitVec 8),
  let acc (k : CoreSt) (r : Fin 4) : Int := accInt (k.accReg r.val)
  let one (k : CoreSt) (x : Int) (carry : Bool) : Arith := Arith.one k da (arFlags x carry)
  let two (k : CoreSt) (x y : Int) (carry : Bool) : Arith := Arith.two k da db (ar2Flags x y carry)
  let copy (k : CoreSt) (a : Word56) : Arith := Arith.one k da (a, mvFlags a)
  let logic (k : CoreSt) (f : Word24 → Word24 → Word24) : Arith := copy k ((k.accReg da.val).extractLsb' 48 8 ++
    (f ((k.accReg da.val).extractLsb' 24 24) (k.vReg s1.val) ++ (k.accReg da.val).extractLsb' 0 24))
  RunsP c (.nop c mv) mv (fun k => { sr := k.sr, bx := k.bx, flags := false }) ∧
  RunsP c (.mul c da s1 s2 n1 mv) mv (fun k => one k (k.prod n1 s1 s2) false) ∧
  RunsP c (.mac c da s1 s2 n1 mv) mv (fun k =>
    one k (acc k da + k.prod n1 s1 s2) (macCarry (k.accReg da.val) n1 (k.prod n1 s1 s2))) ∧
  RunsP c (.mul2 c da s1 s2 s3 s4 n1 n2 mv) mv (fun k => one k (k.prod n1 s1 s2 + k.prod n2 s3 s4) false) ∧
  RunsP c (.mac2 c da s1 s2 s3 s4 n1 n2 mv) mv (fun k =>
    one k (acc k da + (k.prod n1 s1 s2 + k.prod n2 s3 s4))
      (macCarry (k.accReg da.val) (n1 && n2) (k.prod n1 s1 s2 + k.prod n2 s3 s4))) ∧
  RunsP c (.dmul c da db s1 s2 s3 s4 n1 n2 mv) mv (fun k => two k (k.prod n1 s1 s2) (k.prod n2 s3 s4) false) ∧
  RunsP c (.dmac c da db s1 s2 s3 s4 n1 n2 mv) mv (fun k =>
    two k (acc k da + k.prod n1 s1 s2) (acc k db + k.prod n2 s3 s4) (macCarry (k.accReg da.val) n1 (k.prod n1 s1 s2))) ∧
  RunsP c (.macrn c da s1 s2 n1 mv) mv (fun k =>
    let x := arFlags (acc k da + k.prod n1 s1 s2) (macCarry (k.accReg da.val) n1 (k.prod n1 s1 s2))
    let y := arFlags (rndExact k.rm (accInt x.1)) x.2.c
    Arith.one k da (y.1, { y.2 with l := x.2.l || y.2.l, aov := x.2.aov || y.2.aov })) ∧
  RunsP c (.add c da db mv) mv (fun k => one k (acc k da + acc k db) (carryOf (k.accReg da.val) (acc k db))) ∧
  RunsP c (.sub c da db mv) mv (fun k => one k (acc k da - acc k db) (borrowOf (k.accReg da.val) (acc k db))) ∧
  RunsP c (.addsub c da db mv) mv (fun k =>
    two k (acc k da + acc k db) (acc k da - acc k db) (carryOf (k.accReg da.val) (acc k db))) ∧
  RunsP c (.addx c da s1 mv) mv (fun k =>
    one k (acc k da + wordInt (k.vReg s1.val)) (carryOf (k.accReg da.val) (wordInt (k.vReg s1.val)))) ∧
  RunsP c (.subx c da s1 mv) mv (fun k =>
    one k (acc k da - wordInt (k.vReg s1.val)) (borrowOf (k.accReg da.val) (wordInt (k.vReg s1.val)))) ∧
  RunsP c (.mova c da db mv) mv (fun k => copy k (k.accReg db.val)) ∧
  RunsP c (.clr c da mv) mv (fun k => copy k 0) ∧
  RunsP c (.neg c da mv) mv (fun k => one k (-acc k da) (borrowOf 0 (acc k da))) ∧
  RunsP c (.abs c da mv) mv (fun k => if acc k da < 0 then one k (-acc k da) (borrowOf 0 (acc k da)) else one k (acc k da) false) ∧
  RunsP c (.max c da db mv) mv (fun k => copy k (if acc k da < acc k db then k.accReg db.val else k.accReg da.val)) ∧
  RunsP c (.min c da db mv) mv (fun k => copy k (if acc k db < acc k da then k.accReg db.val else k.accReg da.val)) ∧
  RunsP c (.cmp c da db mv) mv (fun k => Arith.none k (cmpFlags (k.accReg da.val) (k.accReg db.val))) ∧
  RunsP c (.cmpx c da s1 mv) mv (fun k => Arith.none k (cmpFlags (k.accReg da.val) (alignWord (k.vReg s1.val)))) ∧
  RunsP c (.tst c da mv) mv (fun k => Arith.none k (mvFlags (k.accReg da.val))) ∧
  RunsP c (.rnd c da mv) mv (fun k => one k (rndExact k.rm (acc k da)) false) ∧
  RunsP c (.scalei c da n mv) mv (fun k => one k (scaleExact k.rm (acc k da) n.toInt) false) ∧
  RunsP c (.scaler c da s1 mv) mv (fun k => one k (scaleExact k.rm (acc k da) (k.vReg s1.val).toInt) false) ∧
  RunsP c (.norm c da s2 mv) mv (fun k =>
    { copy k (normalise k.rm (k.accReg da.val)).1 with
      data := [(s2.val, BitVec.ofInt 24 (normalise k.rm (k.accReg da.val)).2)] }) ∧
  RunsP c (.divs c da s1 mv) mv (fun k =>
    { accs := [(da.val, (divStep (k.accReg da.val) (k.vReg s1.val)).1)]
      sr := srDiv k.sr (divStep (k.accReg da.val) (k.vReg s1.val)).1 (divStep (k.accReg da.val) (k.vReg s1.val)).2
      bx := k.bx }) ∧
  RunsP c (.bexp c s2 mv) mv (fun k => { data := [(s2.val, BitVec.ofNat 24 k.bx)], sr := k.sr, bx := 23, flags := false }) ∧
  RunsP c (.andx c da s1 mv) mv (fun k => logic k (· &&& ·)) ∧
  RunsP c (.orx c da s1 mv) mv (fun k => logic k (· ||| ·)) ∧
  RunsP c (.xorx c da s1 mv) mv (fun k => logic k (· ^^^ ·))

/-- R259 to R270, R228, R229, R232, R234: every instruction of formats I and B that is fetched and ends within the meter
runs: moves between registers and absolute addresses, pointer steps, immediates, branches, calls and returns, loops,
event waits and pulses, and the release of the output. What of this the spec does not say is the model's choice
(entries 20, 22 and 64). -/
def Obligations.AnvilControlRuns : Prop :=
  ∀ c (dst src reg : BitVec 6) (imm : Word24) (cr j : BitVec 8) (addr : BitVec 15) (p : Fin 8) (off : BitVec 16)
    (da : Fin 4) (cond : Fin 15) (target : BitVec 14) (count : BitVec 16),
  let whole (r : BitVec 6) : Prop := 4 ≤ r.toNat ∧ r.toNat < 8
  let moved (k : CoreSt) (w : Word24 × Bool) : Ran :=
    { k := { k.take dst.toNat w.1 with sr := srSetSov (k.take dst.toNat w.1).sr w.2 }, wrote := wroteReg dst.toNat }
  let load (y : Bool) (e : AEnv) (k : CoreSt) : Option Ran := if addr.toNat < e.bound y then
    some { moved k (e.load k y addr.toNat, false) with reads := [e.window y addr.toNat] } else none
  let body (k : CoreSt) (n : Nat) : Option Ran :=
    if n = 0 then some { k := k, next := some (pcAfter target.toNat), cost := 2 }
    else if k.stack.length < 4 then
      some { k := { k with stack := .loop (pcAfter k.pc) target.toNat n :: k.stack }, cost := 2 }
    else none
  let jump (k : CoreSt) (a : Nat) : Ran := { k := k, next := some a, cost := 2 }
  Runs c (.ldi c dst imm) noNeeds (fun _ _ k => some (moved k (imm, false))) ∧
  (whole src → whole dst → Runs c (.move c dst src) (sourceNeeds src.toNat) (fun _ _ k =>
    some { k := k.setAcc (dst.toNat - 4) (k.accReg (src.toNat - 4)), wrote := wroteReg dst.toNat })) ∧
  (¬ (whole src ∧ whole dst) → Runs c (.move c dst src) (sourceNeeds src.toNat) (fun _ _ k => some (moved k (k.source src.toNat)))) ∧
  (cr ≠ 0x30 → Runs c (.movc c dst cr) noNeeds (fun _ e k => (e.control k cr.toNat).map fun v =>
    { k := k.take dst.toNat (BitVec.ofNat 24 v), wrote := wroteReg dst.toNat })) ∧
  Runs c (.ldx c dst addr) noNeeds (fun _ e k => load false e k) ∧
  Runs c (.ldy c dst addr) noNeeds (fun _ e k => load true e k) ∧
  Runs c (.stx c src addr) (sourceNeeds src.toNat) (fun _ e k => (storeAbs false src addr e k).toOption) ∧
  Runs c (.sty c src addr) (sourceNeeds src.toNat) (fun _ e k => (storeAbs true src addr e k).toOption) ∧
  Runs c (.lea c p off) { regs := [20 + p.val, 36 + p.val], accs := [], flags := false } (fun _ _ k =>
    some { k := k.setP p.val (movePointer (k.kReg p.val) (k.pReg p.val) off.toInt), wrote := wroteReg (20 + p.val) }) ∧
  Runs c (.addi c da imm) noNeeds (fun _ _ k =>
    let r := arFlags (accInt (k.accReg da.val) + wordInt imm) (carryOf (k.accReg da.val) (wordInt imm))
    some { k := { k.setAcc da.val r.1 with sr := srFlags k.sr r.2 }, wrote := { regs := [], accs := [da.val], flags := true } }) ∧
  Runs c (.cmpi c da imm) noNeeds (fun _ _ k => some
    { k := { k with sr := srFlags k.sr (cmpFlags (k.accReg da.val) (alignWord imm)) }
      wrote := { regs := [], accs := [], flags := true } }) ∧
  Runs c (.bra c cond target) (condNeeds cond) (fun _ _ k =>
    some (if condHolds k.sr cond then jump k target.toNat else { k := k })) ∧
  Runs c (.call c cond target) (condNeeds cond) (fun _ _ k =>
    if condHolds k.sr cond then
      (if k.stack.length < 4 then some (jump { k with stack := .ret (pcAfter k.pc) :: k.stack } target.toNat) else none)
    else some { k := k }) ∧
  Runs c (.ret c cond) (condNeeds cond) (fun _ _ k =>
    if condHolds k.sr cond then (match k.stack with
      | .ret a :: rest => some (jump { k with stack := rest } a)
      | _ => none)
    else some { k := k }) ∧
  Runs c (.loop c target count) noNeeds (fun _ _ k => body k count.toNat) ∧
  Runs c (.loopr c target reg) noNeeds (fun _ _ k => body k (k.low16 reg.toNat)) ∧
  Runs c (.loopn c target) noNeeds (fun _ e k => body k e.n) ∧
  Runs c (.breakOp c) noNeeds (fun _ _ k => match k.stack with
    | .loop _ _ _ :: rest => some { k := { k with stack := rest }, next := some (pcAfter k.pc) }
    | _ => none) ∧
  Runs c (.evwait c j) noNeeds (fun _ e k => (e.line j.toNat).map fun l =>
    if Store.get false k.latch l then { k := { k with latch := Store.set false k.latch l false } }
    else { k := { k with stall := some l }, cost := 0 }) ∧
  (∀ s m md l, s.fetches c (.evpulse c j) m md → (s.aenv c m md).line j.toNat = some l → c < 48 →
    s.fitsMeter c md noNeeds { k := s.regsAt c } → ∃ t, exec (.evpulse c j) s = .next t ∧
      Store.get false (t.core c).latch l = true ∧ (∀ a, t.readByte a = s.readByte a) ∧ (∀ n, t.mod? n = s.mod? n) ∧
      ∀ d x, x ≠ l → Store.get false (t.core d).latch x = Store.get false (s.core d).latch x) ∧
  (∀ s m md, s.fetches c (.release c) m md → s.fitsMeter c md noNeeds { k := s.regsAt c } → (s.core c).wbuf = [] →
    (s.core c).todo = [] → s.onTrial c = false →
    ∃ t, exec (.release c) s = .next t ∧ (t.core c).run = none ∧
      t.mod? m = some { md with released := true } ∧ (∀ a, t.readByte a = s.readByte a) ∧
      (∀ d, d ≠ c → t.core d = s.core d) ∧ ∀ n, n ≠ m → t.mod? n = s.mod? n) ∧
  Runs c (.release c) noNeeds (fun _ _ k =>
    if k.wbuf = [] then none else some { k := { k with stack := [], draining := true } })

/-- R230, R231, R271, R272, R280 to R283: a remote access first gives its posted writes to their banks, and waits as the
banks serve it; a read returns the word of the bank with AL clear; an atomic operation returns the old word and
stores the new one: the sum, the limited sum, or the operand. A remote write joins the buffer of four; a full one
gives up its oldest write, which is stored, one cycle and its wait later. What of this the spec does not say is the
model's choice (entries 21 and 64). -/
def Obligations.RemoteAccessesRun : Prop :=
  ∀ c others clashes (rb : Fin 8) (acc : Fin 4) (ix : Bool) (xr : Fin 4) (off : BitVec 18),
  let own : Hazard := { regs := [], accs := [acc.val], flags := false }
  let at_ : AEnv → CoreSt → Except Nat Nat := fun e k => e.remote k rb ix xr off
  let took (s : State) (a : Nat) (atomic : Bool) : Ran :=
    tookWord acc (16 + s.waitAt c a atomic (gatesOf others clashes)) ((s.drain c).word32 a) atomic (s.regsAt c)
  let atomic (i j : Instr) (f : BitVec 32 → BitVec 32 → BitVec 32) : Prop :=
    ∀ s m md a, s.remoteReady c m md i a own (took s a true) at_ → ∃ t, exec j s = .next t ∧
      t.core c = { s.coreAfter c own (took s a true) with wbuf := [] } ∧
      s.elsewhere c (fun b => s.posted c b ∨ s.wordStored a b) t ∧
      (∀ b, b < 0x400000 → ¬ s.wordStored a b → t.readByte b = (s.drain c).readByte b) ∧
      t.word32 a = (f (BitVec.ofNat 32 ((s.drain c).word32 a)) (remoteWord (s.core c).rm ((s.core c).accReg acc.val)).1).toNat
  let operand (s : State) : BitVec 32 × Bool := remoteWord (s.core c).rm ((s.core c).accReg acc.val)
  let wrote (s : State) (stall : Nat) : Ran :=
    { k := { s.regsAt c with sr := srSetSov (s.core c).sr (operand s).2 }, cost := 1 + stall }
  (∀ s m md a, s.remoteReady c m md (.remoteRead c [] [] rb acc ix xr off) a noNeeds (took s a false) at_ →
    ∃ t, exec (.remoteRead c others clashes rb acc ix xr off) s = .next t ∧
      t.core c = { s.coreAfter c noNeeds (took s a false) with wbuf := [] } ∧ s.elsewhere c (s.posted c) t ∧
      ∀ b, b < 0x400000 → t.readByte b = (s.drain c).readByte b) ∧
  (∀ s m md a, s.fetches c (.remoteWrite c [] [] rb acc ix xr off) m md → at_ (s.aenv c m md) (s.regsAt c) = .ok a →
    (s.core c).wbuf.length < 4 → s.fitsMeter c md own (wrote s 0) →
    ∃ t, exec (.remoteWrite c others clashes rb acc ix xr off) s = .next t ∧
      t.core c = { s.coreAfter c own (wrote s 0) with wbuf := (s.core c).wbuf ++ [(a, (operand s).1)] } ∧
      s.elsewhere c (fun _ => False) t) ∧
  (∀ s m md a b w rest, s.fetches c (.remoteWrite c [] [] rb acc ix xr off) m md → at_ (s.aenv c m md) (s.regsAt c) = .ok a →
    (s.core c).wbuf = (b, w) :: rest → rest.length = 3 → s.bankWord b →
    s.fitsMeter c md own (wrote s (1 + (s.gateServe c [(b, false)] (gatesOf others clashes)).1)) →
    ∃ t, exec (.remoteWrite c others clashes rb acc ix xr off) s = .next t ∧
      t.core c = { s.coreAfter c own (wrote s (1 + (s.gateServe c [(b, false)] (gatesOf others clashes)).1)) with
        wbuf := rest ++ [(a, (operand s).1)] } ∧
      s.elsewhere c (s.wordStored b) t ∧ t.word32 b = w.toNat) ∧
  atomic (.atomicAddWrapping c [] [] rb acc ix xr off) (.atomicAddWrapping c others clashes rb acc ix xr off) (fun old v => old + v) ∧
  atomic (.atomicAddSaturating c [] [] rb acc ix xr off) (.atomicAddSaturating c others clashes rb acc ix xr off)
    (fun old v => (satAdd old v).1) ∧
  atomic (.atomicSwap c [] [] rb acc ix xr off) (.atomicSwap c others clashes rb acc ix xr off) (fun _ v => v)

/-- R222, R234 to R236, R244, R267, R274: an instruction that meets a bound of its module, an undefined word and the
meter's limit stop the module, which is recorded; a wake clears its line; posted writes that have drained end the
block; an overrun is counted once, and the third within 64 blocks condemns the core. What of this the spec does not
say is the model's choice (entries 11, 21, 22 and 64). -/
def Obligations.SequencerEventsAct : Prop :=
  (∀ c (addr : BitVec 15) dst, Faults c (.ldx c dst addr) (fun _ e _ => if e.bound false ≤ addr.toNat then some fX else none)) ∧
  (∀ c (addr : BitVec 15) src, Faults c (.sty c src addr) (fun _ e _ => if e.bound true ≤ addr.toNat then some fY else none)) ∧
  (∀ c target cond, Faults c (.call c cond target) (fun _ _ k =>
    if condHolds k.sr cond ∧ 4 ≤ k.stack.length then some fStack else none)) ∧
  (∀ c dst cr, Faults c (.movc c dst cr) (fun _ e k => if e.control k cr.toNat = none then some fControl else none)) ∧
  (∀ s c m md, s.runs c = some (m, md) → decodeAnvil c (s.core c).pc (s.fetchWord c md).1 = none →
    ∃ u : State, u.anv = s.anv ∧ exec (.undefinedInstruction c) s = .next (u.moduleFault c m fUndefined)) ∧
  (∀ s c, s.runs c = none → exec (.undefinedInstruction c) s = .next s) ∧
  (∀ s c m md, (s.core c).run = some m → s.mod? m = some md →
    s.limitOf md.image ≤ (s.core c).meter ∨ (s.core c).stall.isSome = true → exec (.meterLimit c) s = .next (((s.setCore c { s.core c with meter := Nat.max (s.limitOf md.image) (s.core c).meter }).overran
      c m 1).endModule c false)) ∧
  (∀ s c, (s.core c).run = none → exec (.meterLimit c) s = .next s) ∧
  (∀ s c, (s.core c).blockOver = true → exec (.moduleOverrun c) s = .next
    (let n := recentOverruns ((s.core c).overAt.headD 0) (s.core c).overAt
     ((s.bump Attr.coreOverruns c 0).set Attr.coreOverrunsRecent c 0 n).setCore c
       { s.core c with blockOver := false, condemned := (s.core c).condemned || decide (3 ≤ n) })) ∧
  (∀ s c, (s.core c).blockOver = false → exec (.moduleOverrun c) s = .next s) ∧
  (∀ s c w m md l, (s.core c).run = some m → s.mod? m = some md → (s.core c).stall = some l →
    Store.get false (s.core c).latch l = true → (s.core c).meter + Nat.max 1 w ≤ s.limitOf md.image →
    (s.core c).pc < md.image.sp → ∃ t, exec (.evwaitWake c w) s = .next t ∧
      t.core c = { s.core c with
        stall := none, latch := Store.set false (s.core c).latch l false, meter := (s.core c).meter + Nat.max 1 w } ∧
      s.elsewhere c (fun _ => False) t) ∧
  (∀ s c w m md l, (s.core c).run = some m → s.mod? m = some md → (s.core c).stall = some l →
    Store.get false (s.core c).latch l = true → (s.core c).meter < s.limitOf md.image →
    s.limitOf md.image < (s.core c).meter + Nat.max 1 w →
    exec (.evwaitWake c w) s = .next (s.setCore c { s.core c with meter := s.limitOf md.image })) ∧
  (∀ s c w l, (s.core c).stall = some l → Store.get false (s.core c).latch l = false → exec (.evwaitWake c w) s = .next s) ∧
  (∀ s c w, (s.core c).stall = none → exec (.evwaitWake c w) s = .next s) ∧
  (∀ (s : State) c m md gates, (s.core c).run = some m → s.mod? m = some md → (s.core c).draining = true →
    (s.core c).meter < s.limitOf md.image →
    (let u := (s.gateServe c (s.core c).postedAccesses gates).2
     let d := (s.core c).wbuf.length + (s.gateServe c (s.core c).postedAccesses gates).1
     ((s.core c).meter + d ≤ s.limitOf md.image → exec (.outputReleased ⟨c, gates⟩) s = .next
       (((((u.setCore c { s.core c with meter := (s.core c).meter + d, draining := false }).event (0x090 + c)).events
         (0x060 + c) d).endModule c true))) ∧
     (s.limitOf md.image < (s.core c).meter + d → exec (.outputReleased ⟨c, gates⟩) s = .next
       (u.setCore c { s.core c with meter := s.limitOf md.image })))) ∧
  (∀ s c gates, (s.core c).draining = false → exec (.outputReleased ⟨c, gates⟩) s = .next s)

/-! ### Memory -/

/-- Every Anvil instruction and every event of the sequencer keeps memory in its canonical form. -/
def Obligations.AnvilKeepsMemoryCanonical : Prop :=
  ∀ (i : Instr) (s t : State), ((encodeAnvil i).isSome = true ∨ ∃ c n, i = .evwaitWake c n ∨ i = .undefinedInstruction c ∨
      i = .meterLimit c ∨ i = .moduleOverrun c ∨ ∃ d, i = .outputReleased d) →
    s.memoryWf = true → exec i s = .next t → t.memoryWf = true

/-! ### Anvil words and arithmetic -/

/-- R251, R252, R259, R264, R271, R253 to R258, R260 to R272: decoding the word of an instruction gives the instruction
back, with every operand at every value its fields admit. -/
def Obligations.DecodeInvertsEncode : Prop :=
  ∀ (i : Instr) c pc w, i.wf = true → i.spelledAt c pc = true → encodeAnvil i = some w → decodeAnvil c pc w = some i

/-- R252, R259, R264, R265, R271, R274: a word that decodes is the one word of its instruction, so a field that must be
0 is 0 in every word that decodes. -/
def Obligations.EncodeInvertsDecode : Prop :=
  ∀ c pc w (i : Instr), decodeAnvil c pc w = some i → encodeAnvil i = some w ∧ i.spelledAt c pc = true

/-- Words of the spec's encodings, written out by their fields, decode to their instructions on core 5 at address 9. -/
def Obligations.AnvilWordsDecode : Prop :=
  decodeAnvil 5 9 0x11210000030A#48 = some (.mac 5 1 0 2 false ⟨none, some ⟨false, 4, 1, 2⟩⟩) ∧
  decodeAnvil 5 9 0x302001230000#48 = some (.bra 5 4 0x123) ∧
  decodeAnvil 5 9 0x200C00400000#48 = some (.ldi 5 3 0x400000) ∧
  decodeAnvil 5 9 0x331000200010#48 = none ∧
  decodeAnvil 5 9 0x330000200010#48 = some (.loop 5 0x20 16) ∧
  decodeAnvil 5 9 0x422800000040#48 = some (.atomicAddWrapping 5 [] [] 1 1 false 0 0x40) ∧
  decodeAnvil 5 9 0x390000000000#48 = some (.release 5) ∧
  decodeAnvil 5 9 0#48 = none

/-- R274: a word is undefined where its class, operation or condition is, where a field that must be 0 is not, where a
move has dir 3 or mode 6 or 7, or where a register code is undefined or a loop's target is not past it. -/
def Obligations.UndefinedWordsDecodeToNothing : Prop :=
  ∀ c pc (w : Word48),
  let cls := wordField w 44 4
  let op := wordField w 40 4
  (cls = 0 ∨ 5 ≤ cls → decodeAnvil c pc w = none) ∧
  (cls = 1 → wordField w 39 5 = 0x1F ∨ wordField w 22 3 ≠ 0 ∨ wordField w 20 2 = 3 ∨ wordField w 9 2 = 3 ∨
    (wordField w 20 2 ≠ 0 ∧ 6 ≤ wordField w 14 3) ∨ (wordField w 9 2 ≠ 0 ∧ 6 ≤ wordField w 3 3) → decodeAnvil c pc w = none) ∧
  (cls = 1 → (wordField w 39 5 = 5 ∨ wordField w 39 5 = 6 ∨ wordField w 39 5 = 0x0A) → wordField w 37 2 = wordField w 35 2 →
    decodeAnvil c pc w = none) ∧
  (cls = 2 → 0xA ≤ op ∨ wordField w 24 4 ≠ 0 ∨ (op ≤ 4 ∧ 45 ≤ wordField w 34 6) ∨
    ((op = 1 ∨ op = 5 ∨ op = 6) ∧ 47 ≤ wordField w 28 6) → decodeAnvil c pc w = none) ∧
  (cls = 3 → 0xA ≤ op ∨ wordField w 30 5 ≠ 0 ∨ 15 ≤ wordField w 35 5 ∨ (3 ≤ op ∧ wordField w 35 5 ≠ 0) ∨
    ((op = 3 ∨ op = 4 ∨ op = 5) ∧ wordField w 16 14 ≤ pc) → decodeAnvil c pc w = none) ∧
  (cls = 4 → 5 ≤ op ∨ wordField w 18 14 ≠ 0 → decodeAnvil c pc w = none)

/-- R212: the product of two data words is exact, shifted left by one place; it fits an accumulator, and −1 times −1 is
exactly +1.0. -/
def Obligations.ProductsAreExact : Prop :=
  (∀ a b : Word24, product a b = 2 * (a.toInt * b.toInt) ∧ accInt (accOf (product a b)) = product a b) ∧
  product (BitVec.ofInt 24 (-8388608)) (BitVec.ofInt 24 (-8388608)) = 2 ^ 47 ∧
  ∀ (k : CoreSt) n (s1 s2 : Fin 4), k.prod n s1 s2 =
    if n then -product (k.vReg s1.val) (k.vReg s2.val) else product (k.vReg s1.val) (k.vReg s2.val)

/-- R215: a data word moved into a whole accumulator enters AH, AE takes its sign and AL is cleared; a move into one
field writes it unchanged and leaves the other two alone. -/
def Obligations.WordsEnterAccumulators : Prop :=
  ∀ (k : CoreSt) (r : Fin 4) (w : Word24),
  let ae (a : Word56) := a.extractLsb' 48 8
  let ah (a : Word56) := a.extractLsb' 24 24
  let al (a : Word56) := a.extractLsb' 0 24
  let old := k.accReg r.val
  (let a := (k.take (4 + r.val) w).accReg r.val
   ah a = w ∧ al a = 0 ∧ ae a = if w.msb then 0xFF else 0) ∧
  (let a := (k.take (8 + r.val) w).accReg r.val
   ae a = w.extractLsb' 0 8 ∧ ah a = ah old ∧ al a = al old) ∧
  (let a := (k.take (12 + r.val) w).accReg r.val
   ah a = w ∧ ae a = ae old ∧ al a = al old) ∧
  (let a := (k.take (16 + r.val) w).accReg r.val
   al a = w ∧ ae a = ae old ∧ ah a = ah old)

/-- R213: a sum within the range of an accumulator is held exactly and sets neither L nor AOV; one outside it takes the
nearer limit and sets both; two accumulators updated in one cycle are limited independently. -/
def Obligations.AccumulatorsTakeTheNearerLimit : Prop :=
  (∀ x c, -36028797018963968 ≤ x → x ≤ 36028797018963967 →
    accInt (arFlags x c).1 = x ∧ (arFlags x c).2.l = false ∧ (arFlags x c).2.aov = false) ∧
  (∀ x c, 36028797018963967 < x →
    accInt (arFlags x c).1 = 36028797018963967 ∧ (arFlags x c).2.l = true ∧ (arFlags x c).2.aov = true) ∧
  (∀ x c, x < -36028797018963968 →
    accInt (arFlags x c).1 = -36028797018963968 ∧ (arFlags x c).2.l = true ∧ (arFlags x c).2.aov = true) ∧
  (∀ x y c, (ar2Flags x y c).1 = (arFlags x c).1 ∧ (ar2Flags x y c).2.1 = (arFlags y c).1 ∧
    (ar2Flags x y c).2.2.aov = ((arFlags x c).2.aov || (arFlags y c).2.aov))

/-- R54, R57, R58, R71, R74: each sample of a destination is the exact sum of the gains times the source samples, on the
plane live at the sample, divided by 2^19 with convergent rounding and limited to W32, and the samples limited are
counted; within a strike the sums of both planes are weighted first, by weights of 23 bits. -/
def Obligations.MixSamplesAreRounded : Prop :=
  (∀ acc : Int, let q := roundEven acc 19
    (2 * (acc - q * 524288)).natAbs ≤ 524288 ∧ ((2 * (acc - q * 524288)).natAbs = 524288 → q % 2 = 0)) ∧
  (∀ (s : State) rows d b n,
    let rounded (i : Nat) : Int := roundEven (s.mixAt rows d b i).1 (s.mixAt rows d b i).2
    (s.destFrame rows d b n).1.length = n ∧ (∀ i, i < n → (s.destFrame rows d b n).1.getD i 0 = clampW32 (rounded i)) ∧
    (s.destFrame rows d b n).2 = ((List.range n).filter fun i => clampW32 (rounded i) != rounded i).length) ∧
  (∀ (s : State) rows d b i, (∀ k ∈ s.strikes, ¬ (k.first ≤ b + i ∧ b + i < k.first + k.len)) →
    s.mixAt rows d b i = (s.sumAt rows (s.planeAt (b + i)) d b i, 19)) ∧
  (∀ (s : State) rows d b i k, s.strikes = [k] → k.first ≤ b + i → b + i < k.first + k.len →
    s.mixAt rows d b i = (let w := weights k.law (b + i - k.first) k.len
      (w.1 * s.sumAt rows (1 - s.planeAt (b + i)) d b i + w.2 * s.sumAt rows (s.planeAt (b + i)) d b i, 42)))
end

