-- ==== Sys2Proof/Laws/State.lean ====
section
/-! SUPPORT. What the updates that every unit uses leave of the state: one lemma for each field an update does not write. -/

namespace Sys2Proof.Machine

variable (s : State) (code inst elem : Nat)

/-! ### `State.set` -/

@[simp] theorem State.set_pending (v : Int) : (s.set code inst elem v).pending = s.pending := rfl
@[simp] theorem State.set_blobs (v : Int) : (s.set code inst elem v).blobs = s.blobs := rfl
@[simp] theorem State.set_snap (v : Int) : (s.set code inst elem v).snap = s.snap := rfl
@[simp] theorem State.set_snapPrev (v : Int) : (s.set code inst elem v).snapPrev = s.snapPrev := rfl
@[simp] theorem State.set_free (v : Int) : (s.set code inst elem v).free = s.free := rfl
@[simp] theorem State.set_yug (v : Int) : (s.set code inst elem v).yug = s.yug := rfl
@[simp] theorem State.set_eng (v : Int) : (s.set code inst elem v).eng = s.eng := rfl
@[simp] theorem State.set_cru (v : Int) : (s.set code inst elem v).cru = s.cru := rfl
@[simp] theorem State.set_bel (v : Int) : (s.set code inst elem v).bel = s.bel := rfl
@[simp] theorem State.set_tmp (v : Int) : (s.set code inst elem v).tmp = s.tmp := rfl
@[simp] theorem State.set_mtr (v : Int) : (s.set code inst elem v).mtr = s.mtr := rfl
@[simp] theorem State.set_plc (v : Int) : (s.set code inst elem v).plc = s.plc := rfl
@[simp] theorem State.set_anv (v : Int) : (s.set code inst elem v).anv = s.anv := rfl
@[simp] theorem State.set_fab (v : Int) : (s.set code inst elem v).fab = s.fab := rfl
@[simp] theorem State.set_tng (v : Int) : (s.set code inst elem v).tng = s.tng := rfl
@[simp] theorem State.set_hea (v : Int) : (s.set code inst elem v).hea = s.hea := rfl
@[simp] theorem State.set_tbs (v : Int) : (s.set code inst elem v).tbs = s.tbs := rfl
@[simp] theorem State.set_sap (v : Int) : (s.set code inst elem v).sap = s.sap := rfl
@[simp] theorem State.set_net (v : Int) : (s.set code inst elem v).net = s.net := rfl
@[simp] theorem State.set_pair (v : Int) : (s.set code inst elem v).pair = s.pair := rfl
@[simp] theorem State.set_lck (v : Int) : (s.set code inst elem v).lck = s.lck := rfl
@[simp] theorem State.set_jrn (v : Int) : (s.set code inst elem v).jrn = s.jrn := rfl
@[simp] theorem State.set_pow (v : Int) : (s.set code inst elem v).pow = s.pow := rfl
@[simp] theorem State.set_hlt (v : Int) : (s.set code inst elem v).hlt = s.hlt := rfl

/-! ### `State.clearAttr` -/

@[simp] theorem State.clearAttr_pending : (s.clearAttr code inst).pending = s.pending := rfl
@[simp] theorem State.clearAttr_blobs : (s.clearAttr code inst).blobs = s.blobs := rfl
@[simp] theorem State.clearAttr_snap : (s.clearAttr code inst).snap = s.snap := rfl
@[simp] theorem State.clearAttr_snapPrev : (s.clearAttr code inst).snapPrev = s.snapPrev := rfl
@[simp] theorem State.clearAttr_free : (s.clearAttr code inst).free = s.free := rfl
@[simp] theorem State.clearAttr_yug : (s.clearAttr code inst).yug = s.yug := rfl
@[simp] theorem State.clearAttr_eng : (s.clearAttr code inst).eng = s.eng := rfl
@[simp] theorem State.clearAttr_cru : (s.clearAttr code inst).cru = s.cru := rfl
@[simp] theorem State.clearAttr_bel : (s.clearAttr code inst).bel = s.bel := rfl
@[simp] theorem State.clearAttr_tmp : (s.clearAttr code inst).tmp = s.tmp := rfl
@[simp] theorem State.clearAttr_mtr : (s.clearAttr code inst).mtr = s.mtr := rfl
@[simp] theorem State.clearAttr_plc : (s.clearAttr code inst).plc = s.plc := rfl
@[simp] theorem State.clearAttr_anv : (s.clearAttr code inst).anv = s.anv := rfl
@[simp] theorem State.clearAttr_fab : (s.clearAttr code inst).fab = s.fab := rfl
@[simp] theorem State.clearAttr_tng : (s.clearAttr code inst).tng = s.tng := rfl
@[simp] theorem State.clearAttr_hea : (s.clearAttr code inst).hea = s.hea := rfl
@[simp] theorem State.clearAttr_tbs : (s.clearAttr code inst).tbs = s.tbs := rfl
@[simp] theorem State.clearAttr_sap : (s.clearAttr code inst).sap = s.sap := rfl
@[simp] theorem State.clearAttr_net : (s.clearAttr code inst).net = s.net := rfl
@[simp] theorem State.clearAttr_pair : (s.clearAttr code inst).pair = s.pair := rfl
@[simp] theorem State.clearAttr_lck : (s.clearAttr code inst).lck = s.lck := rfl
@[simp] theorem State.clearAttr_jrn : (s.clearAttr code inst).jrn = s.jrn := rfl
@[simp] theorem State.clearAttr_pow : (s.clearAttr code inst).pow = s.pow := rfl
@[simp] theorem State.clearAttr_hlt : (s.clearAttr code inst).hlt = s.hlt := rfl

/-! ### `State.setList` -/

@[simp] theorem State.setList_pending (vs : List Int) : (s.setList code inst elem vs).pending = s.pending := by
  induction vs generalizing s elem with
  | nil => rfl
  | cons v vs ih => simp [State.setList, ih]
@[simp] theorem State.setList_blobs (vs : List Int) : (s.setList code inst elem vs).blobs = s.blobs := by
  induction vs generalizing s elem with
  | nil => rfl
  | cons v vs ih => simp [State.setList, ih]
@[simp] theorem State.setList_snap (vs : List Int) : (s.setList code inst elem vs).snap = s.snap := by
  induction vs generalizing s elem with
  | nil => rfl
  | cons v vs ih => simp [State.setList, ih]
@[simp] theorem State.setList_snapPrev (vs : List Int) : (s.setList code inst elem vs).snapPrev = s.snapPrev := by
  induction vs generalizing s elem with
  | nil => rfl
  | cons v vs ih => simp [State.setList, ih]
@[simp] theorem State.setList_free (vs : List Int) : (s.setList code inst elem vs).free = s.free := by
  induction vs generalizing s elem with
  | nil => rfl
  | cons v vs ih => simp [State.setList, ih]
@[simp] theorem State.setList_yug (vs : List Int) : (s.setList code inst elem vs).yug = s.yug := by
  induction vs generalizing s elem with
  | nil => rfl
  | cons v vs ih => simp [State.setList, ih]
@[simp] theorem State.setList_eng (vs : List Int) : (s.setList code inst elem vs).eng = s.eng := by
  induction vs generalizing s elem with
  | nil => rfl
  | cons v vs ih => simp [State.setList, ih]
@[simp] theorem State.setList_cru (vs : List Int) : (s.setList code inst elem vs).cru = s.cru := by
  induction vs generalizing s elem with
  | nil => rfl
  | cons v vs ih => simp [State.setList, ih]
@[simp] theorem State.setList_bel (vs : List Int) : (s.setList code inst elem vs).bel = s.bel := by
  induction vs generalizing s elem with
  | nil => rfl
  | cons v vs ih => simp [State.setList, ih]
@[simp] theorem State.setList_tmp (vs : List Int) : (s.setList code inst elem vs).tmp = s.tmp := by
  induction vs generalizing s elem with
  | nil => rfl
  | cons v vs ih => simp [State.setList, ih]
@[simp] theorem State.setList_mtr (vs : List Int) : (s.setList code inst elem vs).mtr = s.mtr := by
  induction vs generalizing s elem with
  | nil => rfl
  | cons v vs ih => simp [State.setList, ih]
@[simp] theorem State.setList_plc (vs : List Int) : (s.setList code inst elem vs).plc = s.plc := by
  induction vs generalizing s elem with
  | nil => rfl
  | cons v vs ih => simp [State.setList, ih]
@[simp] theorem State.setList_anv (vs : List Int) : (s.setList code inst elem vs).anv = s.anv := by
  induction vs generalizing s elem with
  | nil => rfl
  | cons v vs ih => simp [State.setList, ih]
@[simp] theorem State.setList_fab (vs : List Int) : (s.setList code inst elem vs).fab = s.fab := by
  induction vs generalizing s elem with
  | nil => rfl
  | cons v vs ih => simp [State.setList, ih]
@[simp] theorem State.setList_tng (vs : List Int) : (s.setList code inst elem vs).tng = s.tng := by
  induction vs generalizing s elem with
  | nil => rfl
  | cons v vs ih => simp [State.setList, ih]
@[simp] theorem State.setList_hea (vs : List Int) : (s.setList code inst elem vs).hea = s.hea := by
  induction vs generalizing s elem with
  | nil => rfl
  | cons v vs ih => simp [State.setList, ih]
@[simp] theorem State.setList_tbs (vs : List Int) : (s.setList code inst elem vs).tbs = s.tbs := by
  induction vs generalizing s elem with
  | nil => rfl
  | cons v vs ih => simp [State.setList, ih]
@[simp] theorem State.setList_sap (vs : List Int) : (s.setList code inst elem vs).sap = s.sap := by
  induction vs generalizing s elem with
  | nil => rfl
  | cons v vs ih => simp [State.setList, ih]
@[simp] theorem State.setList_net (vs : List Int) : (s.setList code inst elem vs).net = s.net := by
  induction vs generalizing s elem with
  | nil => rfl
  | cons v vs ih => simp [State.setList, ih]
@[simp] theorem State.setList_pair (vs : List Int) : (s.setList code inst elem vs).pair = s.pair := by
  induction vs generalizing s elem with
  | nil => rfl
  | cons v vs ih => simp [State.setList, ih]
@[simp] theorem State.setList_lck (vs : List Int) : (s.setList code inst elem vs).lck = s.lck := by
  induction vs generalizing s elem with
  | nil => rfl
  | cons v vs ih => simp [State.setList, ih]
@[simp] theorem State.setList_jrn (vs : List Int) : (s.setList code inst elem vs).jrn = s.jrn := by
  induction vs generalizing s elem with
  | nil => rfl
  | cons v vs ih => simp [State.setList, ih]
@[simp] theorem State.setList_pow (vs : List Int) : (s.setList code inst elem vs).pow = s.pow := by
  induction vs generalizing s elem with
  | nil => rfl
  | cons v vs ih => simp [State.setList, ih]
@[simp] theorem State.setList_hlt (vs : List Int) : (s.setList code inst elem vs).hlt = s.hlt := by
  induction vs generalizing s elem with
  | nil => rfl
  | cons v vs ih => simp [State.setList, ih]

/-! ### `State.store` -/

@[simp] theorem State.store_pending (c : Ctx) : (s.store c).pending = s.pending := by
  simp [State.store]
@[simp] theorem State.store_blobs (c : Ctx) : (s.store c).blobs = s.blobs := by
  simp [State.store]
@[simp] theorem State.store_snap (c : Ctx) : (s.store c).snap = s.snap := by
  simp [State.store]
@[simp] theorem State.store_snapPrev (c : Ctx) : (s.store c).snapPrev = s.snapPrev := by
  simp [State.store]
@[simp] theorem State.store_free (c : Ctx) : (s.store c).free = s.free := by
  simp [State.store]
@[simp] theorem State.store_yug (c : Ctx) : (s.store c).yug = s.yug := by
  simp [State.store]
@[simp] theorem State.store_eng (c : Ctx) : (s.store c).eng = s.eng := by
  simp [State.store]
@[simp] theorem State.store_cru (c : Ctx) : (s.store c).cru = s.cru := by
  simp [State.store]
@[simp] theorem State.store_bel (c : Ctx) : (s.store c).bel = s.bel := by
  simp [State.store]
@[simp] theorem State.store_tmp (c : Ctx) : (s.store c).tmp = s.tmp := by
  simp [State.store]
@[simp] theorem State.store_mtr (c : Ctx) : (s.store c).mtr = s.mtr := by
  simp [State.store]
@[simp] theorem State.store_plc (c : Ctx) : (s.store c).plc = s.plc := by
  simp [State.store]
@[simp] theorem State.store_anv (c : Ctx) : (s.store c).anv = s.anv := by
  simp [State.store]
@[simp] theorem State.store_fab (c : Ctx) : (s.store c).fab = s.fab := by
  simp [State.store]
@[simp] theorem State.store_tng (c : Ctx) : (s.store c).tng = s.tng := by
  simp [State.store]
@[simp] theorem State.store_hea (c : Ctx) : (s.store c).hea = s.hea := by
  simp [State.store]
@[simp] theorem State.store_tbs (c : Ctx) : (s.store c).tbs = s.tbs := by
  simp [State.store]
@[simp] theorem State.store_sap (c : Ctx) : (s.store c).sap = s.sap := by
  simp [State.store]
@[simp] theorem State.store_net (c : Ctx) : (s.store c).net = s.net := by
  simp [State.store]
@[simp] theorem State.store_pair (c : Ctx) : (s.store c).pair = s.pair := by
  simp [State.store]
@[simp] theorem State.store_lck (c : Ctx) : (s.store c).lck = s.lck := by
  simp [State.store]
@[simp] theorem State.store_jrn (c : Ctx) : (s.store c).jrn = s.jrn := by
  simp [State.store]
@[simp] theorem State.store_pow (c : Ctx) : (s.store c).pow = s.pow := by
  simp [State.store]
@[simp] theorem State.store_hlt (c : Ctx) : (s.store c).hlt = s.hlt := by
  simp [State.store]

/-! ### `State.noteCounter` -/

@[simp] theorem State.noteCounter_pending : (s.noteCounter code inst elem).pending = s.pending := by
  unfold State.noteCounter; split <;> rfl
@[simp] theorem State.noteCounter_attrs : (s.noteCounter code inst elem).attrs = s.attrs := by
  unfold State.noteCounter; split <;> rfl
@[simp] theorem State.noteCounter_blobs : (s.noteCounter code inst elem).blobs = s.blobs := by
  unfold State.noteCounter; split <;> rfl
@[simp] theorem State.noteCounter_snap : (s.noteCounter code inst elem).snap = s.snap := by
  unfold State.noteCounter; split <;> rfl
@[simp] theorem State.noteCounter_snapPrev : (s.noteCounter code inst elem).snapPrev = s.snapPrev := by
  unfold State.noteCounter; split <;> rfl
@[simp] theorem State.noteCounter_free : (s.noteCounter code inst elem).free = s.free := by
  unfold State.noteCounter; split <;> rfl
@[simp] theorem State.noteCounter_yug : (s.noteCounter code inst elem).yug = s.yug := by
  unfold State.noteCounter; split <;> rfl
@[simp] theorem State.noteCounter_eng : (s.noteCounter code inst elem).eng = s.eng := by
  unfold State.noteCounter; split <;> rfl
@[simp] theorem State.noteCounter_cru : (s.noteCounter code inst elem).cru = s.cru := by
  unfold State.noteCounter; split <;> rfl
@[simp] theorem State.noteCounter_bel : (s.noteCounter code inst elem).bel = s.bel := by
  unfold State.noteCounter; split <;> rfl
@[simp] theorem State.noteCounter_tmp : (s.noteCounter code inst elem).tmp = s.tmp := by
  unfold State.noteCounter; split <;> rfl
@[simp] theorem State.noteCounter_mtr : (s.noteCounter code inst elem).mtr = s.mtr := by
  unfold State.noteCounter; split <;> rfl
@[simp] theorem State.noteCounter_plc : (s.noteCounter code inst elem).plc = s.plc := by
  unfold State.noteCounter; split <;> rfl
@[simp] theorem State.noteCounter_anv : (s.noteCounter code inst elem).anv = s.anv := by
  unfold State.noteCounter; split <;> rfl
@[simp] theorem State.noteCounter_fab : (s.noteCounter code inst elem).fab = s.fab := by
  unfold State.noteCounter; split <;> rfl
@[simp] theorem State.noteCounter_tng : (s.noteCounter code inst elem).tng = s.tng := by
  unfold State.noteCounter; split <;> rfl
@[simp] theorem State.noteCounter_hea : (s.noteCounter code inst elem).hea = s.hea := by
  unfold State.noteCounter; split <;> rfl
@[simp] theorem State.noteCounter_tbs : (s.noteCounter code inst elem).tbs = s.tbs := by
  unfold State.noteCounter; split <;> rfl
@[simp] theorem State.noteCounter_sap : (s.noteCounter code inst elem).sap = s.sap := by
  unfold State.noteCounter; split <;> rfl
@[simp] theorem State.noteCounter_net : (s.noteCounter code inst elem).net = s.net := by
  unfold State.noteCounter; split <;> rfl
@[simp] theorem State.noteCounter_pair : (s.noteCounter code inst elem).pair = s.pair := by
  unfold State.noteCounter; split <;> rfl
@[simp] theorem State.noteCounter_jrn : (s.noteCounter code inst elem).jrn = s.jrn := by
  unfold State.noteCounter; split <;> rfl
@[simp] theorem State.noteCounter_pow : (s.noteCounter code inst elem).pow = s.pow := by
  unfold State.noteCounter; split <;> rfl
@[simp] theorem State.noteCounter_hlt : (s.noteCounter code inst elem).hlt = s.hlt := by
  unfold State.noteCounter; split <;> rfl

/-! ### `State.add` -/

@[simp] theorem State.add_pending (d : Nat) : (s.add code inst elem d).pending = s.pending := by
  simp [State.add]
@[simp] theorem State.add_blobs (d : Nat) : (s.add code inst elem d).blobs = s.blobs := by
  simp [State.add]
@[simp] theorem State.add_snap (d : Nat) : (s.add code inst elem d).snap = s.snap := by
  simp [State.add]
@[simp] theorem State.add_snapPrev (d : Nat) : (s.add code inst elem d).snapPrev = s.snapPrev := by
  simp [State.add]
@[simp] theorem State.add_free (d : Nat) : (s.add code inst elem d).free = s.free := by
  simp [State.add]
@[simp] theorem State.add_yug (d : Nat) : (s.add code inst elem d).yug = s.yug := by
  simp [State.add]
@[simp] theorem State.add_eng (d : Nat) : (s.add code inst elem d).eng = s.eng := by
  simp [State.add]
@[simp] theorem State.add_cru (d : Nat) : (s.add code inst elem d).cru = s.cru := by
  simp [State.add]
@[simp] theorem State.add_bel (d : Nat) : (s.add code inst elem d).bel = s.bel := by
  simp [State.add]
@[simp] theorem State.add_tmp (d : Nat) : (s.add code inst elem d).tmp = s.tmp := by
  simp [State.add]
@[simp] theorem State.add_mtr (d : Nat) : (s.add code inst elem d).mtr = s.mtr := by
  simp [State.add]
@[simp] theorem State.add_plc (d : Nat) : (s.add code inst elem d).plc = s.plc := by
  simp [State.add]
@[simp] theorem State.add_anv (d : Nat) : (s.add code inst elem d).anv = s.anv := by
  simp [State.add]
@[simp] theorem State.add_fab (d : Nat) : (s.add code inst elem d).fab = s.fab := by
  simp [State.add]
@[simp] theorem State.add_tng (d : Nat) : (s.add code inst elem d).tng = s.tng := by
  simp [State.add]
@[simp] theorem State.add_hea (d : Nat) : (s.add code inst elem d).hea = s.hea := by
  simp [State.add]
@[simp] theorem State.add_tbs (d : Nat) : (s.add code inst elem d).tbs = s.tbs := by
  simp [State.add]
@[simp] theorem State.add_sap (d : Nat) : (s.add code inst elem d).sap = s.sap := by
  simp [State.add]
@[simp] theorem State.add_net (d : Nat) : (s.add code inst elem d).net = s.net := by
  simp [State.add]
@[simp] theorem State.add_pair (d : Nat) : (s.add code inst elem d).pair = s.pair := by
  simp [State.add]
@[simp] theorem State.add_jrn (d : Nat) : (s.add code inst elem d).jrn = s.jrn := by
  simp [State.add]
@[simp] theorem State.add_pow (d : Nat) : (s.add code inst elem d).pow = s.pow := by
  simp [State.add]
@[simp] theorem State.add_hlt (d : Nat) : (s.add code inst elem d).hlt = s.hlt := by
  simp [State.add]

/-! ### `State.bump` -/

@[simp] theorem State.bump_pending : (s.bump code inst elem).pending = s.pending := by
  simp [State.bump]
@[simp] theorem State.bump_blobs : (s.bump code inst elem).blobs = s.blobs := by
  simp [State.bump]
@[simp] theorem State.bump_snap : (s.bump code inst elem).snap = s.snap := by
  simp [State.bump]
@[simp] theorem State.bump_snapPrev : (s.bump code inst elem).snapPrev = s.snapPrev := by
  simp [State.bump]
@[simp] theorem State.bump_free : (s.bump code inst elem).free = s.free := by
  simp [State.bump]
@[simp] theorem State.bump_yug : (s.bump code inst elem).yug = s.yug := by
  simp [State.bump]
@[simp] theorem State.bump_eng : (s.bump code inst elem).eng = s.eng := by
  simp [State.bump]
@[simp] theorem State.bump_cru : (s.bump code inst elem).cru = s.cru := by
  simp [State.bump]
@[simp] theorem State.bump_bel : (s.bump code inst elem).bel = s.bel := by
  simp [State.bump]
@[simp] theorem State.bump_tmp : (s.bump code inst elem).tmp = s.tmp := by
  simp [State.bump]
@[simp] theorem State.bump_mtr : (s.bump code inst elem).mtr = s.mtr := by
  simp [State.bump]
@[simp] theorem State.bump_plc : (s.bump code inst elem).plc = s.plc := by
  simp [State.bump]
@[simp] theorem State.bump_anv : (s.bump code inst elem).anv = s.anv := by
  simp [State.bump]
@[simp] theorem State.bump_fab : (s.bump code inst elem).fab = s.fab := by
  simp [State.bump]
@[simp] theorem State.bump_tng : (s.bump code inst elem).tng = s.tng := by
  simp [State.bump]
@[simp] theorem State.bump_hea : (s.bump code inst elem).hea = s.hea := by
  simp [State.bump]
@[simp] theorem State.bump_tbs : (s.bump code inst elem).tbs = s.tbs := by
  simp [State.bump]
@[simp] theorem State.bump_sap : (s.bump code inst elem).sap = s.sap := by
  simp [State.bump]
@[simp] theorem State.bump_net : (s.bump code inst elem).net = s.net := by
  simp [State.bump]
@[simp] theorem State.bump_pair : (s.bump code inst elem).pair = s.pair := by
  simp [State.bump]
@[simp] theorem State.bump_jrn : (s.bump code inst elem).jrn = s.jrn := by
  simp [State.bump]
@[simp] theorem State.bump_pow : (s.bump code inst elem).pow = s.pow := by
  simp [State.bump]
@[simp] theorem State.bump_hlt : (s.bump code inst elem).hlt = s.hlt := by
  simp [State.bump]

/-! ### `State.peak` -/

@[simp] theorem State.peak_pending (v : Int) : (s.peak code inst elem v).pending = s.pending := by
  unfold State.peak; split <;> simp
@[simp] theorem State.peak_blobs (v : Int) : (s.peak code inst elem v).blobs = s.blobs := by
  unfold State.peak; split <;> simp
@[simp] theorem State.peak_snap (v : Int) : (s.peak code inst elem v).snap = s.snap := by
  unfold State.peak; split <;> simp
@[simp] theorem State.peak_snapPrev (v : Int) : (s.peak code inst elem v).snapPrev = s.snapPrev := by
  unfold State.peak; split <;> simp
@[simp] theorem State.peak_free (v : Int) : (s.peak code inst elem v).free = s.free := by
  unfold State.peak; split <;> simp
@[simp] theorem State.peak_yug (v : Int) : (s.peak code inst elem v).yug = s.yug := by
  unfold State.peak; split <;> simp
@[simp] theorem State.peak_eng (v : Int) : (s.peak code inst elem v).eng = s.eng := by
  unfold State.peak; split <;> simp
@[simp] theorem State.peak_cru (v : Int) : (s.peak code inst elem v).cru = s.cru := by
  unfold State.peak; split <;> simp
@[simp] theorem State.peak_bel (v : Int) : (s.peak code inst elem v).bel = s.bel := by
  unfold State.peak; split <;> simp
@[simp] theorem State.peak_tmp (v : Int) : (s.peak code inst elem v).tmp = s.tmp := by
  unfold State.peak; split <;> simp
@[simp] theorem State.peak_mtr (v : Int) : (s.peak code inst elem v).mtr = s.mtr := by
  unfold State.peak; split <;> simp
@[simp] theorem State.peak_plc (v : Int) : (s.peak code inst elem v).plc = s.plc := by
  unfold State.peak; split <;> simp
@[simp] theorem State.peak_anv (v : Int) : (s.peak code inst elem v).anv = s.anv := by
  unfold State.peak; split <;> simp
@[simp] theorem State.peak_fab (v : Int) : (s.peak code inst elem v).fab = s.fab := by
  unfold State.peak; split <;> simp
@[simp] theorem State.peak_tng (v : Int) : (s.peak code inst elem v).tng = s.tng := by
  unfold State.peak; split <;> simp
@[simp] theorem State.peak_hea (v : Int) : (s.peak code inst elem v).hea = s.hea := by
  unfold State.peak; split <;> simp
@[simp] theorem State.peak_tbs (v : Int) : (s.peak code inst elem v).tbs = s.tbs := by
  unfold State.peak; split <;> simp
@[simp] theorem State.peak_sap (v : Int) : (s.peak code inst elem v).sap = s.sap := by
  unfold State.peak; split <;> simp
@[simp] theorem State.peak_net (v : Int) : (s.peak code inst elem v).net = s.net := by
  unfold State.peak; split <;> simp
@[simp] theorem State.peak_pair (v : Int) : (s.peak code inst elem v).pair = s.pair := by
  unfold State.peak; split <;> simp
@[simp] theorem State.peak_lck (v : Int) : (s.peak code inst elem v).lck = s.lck := by
  unfold State.peak; split <;> simp
@[simp] theorem State.peak_jrn (v : Int) : (s.peak code inst elem v).jrn = s.jrn := by
  unfold State.peak; split <;> simp
@[simp] theorem State.peak_pow (v : Int) : (s.peak code inst elem v).pow = s.pow := by
  unfold State.peak; split <;> simp
@[simp] theorem State.peak_hlt (v : Int) : (s.peak code inst elem v).hlt = s.hlt := by
  unfold State.peak; split <;> simp

/-! ### `State.log` -/

@[simp] theorem State.log_pending (sev : Nat) (v : Int) : (s.log sev code inst elem v).pending = s.pending := rfl
@[simp] theorem State.log_attrs (sev : Nat) (v : Int) : (s.log sev code inst elem v).attrs = s.attrs := rfl
@[simp] theorem State.log_blobs (sev : Nat) (v : Int) : (s.log sev code inst elem v).blobs = s.blobs := rfl
@[simp] theorem State.log_snap (sev : Nat) (v : Int) : (s.log sev code inst elem v).snap = s.snap := rfl
@[simp] theorem State.log_snapPrev (sev : Nat) (v : Int) : (s.log sev code inst elem v).snapPrev = s.snapPrev := rfl
@[simp] theorem State.log_free (sev : Nat) (v : Int) : (s.log sev code inst elem v).free = s.free := rfl
@[simp] theorem State.log_eng (sev : Nat) (v : Int) : (s.log sev code inst elem v).eng = s.eng := rfl
@[simp] theorem State.log_cru (sev : Nat) (v : Int) : (s.log sev code inst elem v).cru = s.cru := rfl
@[simp] theorem State.log_bel (sev : Nat) (v : Int) : (s.log sev code inst elem v).bel = s.bel := rfl
@[simp] theorem State.log_tmp (sev : Nat) (v : Int) : (s.log sev code inst elem v).tmp = s.tmp := rfl
@[simp] theorem State.log_mtr (sev : Nat) (v : Int) : (s.log sev code inst elem v).mtr = s.mtr := rfl
@[simp] theorem State.log_plc (sev : Nat) (v : Int) : (s.log sev code inst elem v).plc = s.plc := rfl
@[simp] theorem State.log_anv (sev : Nat) (v : Int) : (s.log sev code inst elem v).anv = s.anv := rfl
@[simp] theorem State.log_fab (sev : Nat) (v : Int) : (s.log sev code inst elem v).fab = s.fab := rfl
@[simp] theorem State.log_tng (sev : Nat) (v : Int) : (s.log sev code inst elem v).tng = s.tng := rfl
@[simp] theorem State.log_hea (sev : Nat) (v : Int) : (s.log sev code inst elem v).hea = s.hea := rfl
@[simp] theorem State.log_tbs (sev : Nat) (v : Int) : (s.log sev code inst elem v).tbs = s.tbs := rfl
@[simp] theorem State.log_sap (sev : Nat) (v : Int) : (s.log sev code inst elem v).sap = s.sap := rfl
@[simp] theorem State.log_net (sev : Nat) (v : Int) : (s.log sev code inst elem v).net = s.net := rfl
@[simp] theorem State.log_pair (sev : Nat) (v : Int) : (s.log sev code inst elem v).pair = s.pair := rfl
@[simp] theorem State.log_lck (sev : Nat) (v : Int) : (s.log sev code inst elem v).lck = s.lck := rfl
@[simp] theorem State.log_jrn (sev : Nat) (v : Int) : (s.log sev code inst elem v).jrn = s.jrn := rfl
@[simp] theorem State.log_pow (sev : Nat) (v : Int) : (s.log sev code inst elem v).pow = s.pow := rfl
@[simp] theorem State.log_hlt (sev : Nat) (v : Int) : (s.log sev code inst elem v).hlt = s.hlt := rfl

/-! ### `State.logAt` -/

@[simp] theorem State.logAt_pending (sev : Nat) : (s.logAt sev code inst elem).pending = s.pending := rfl
@[simp] theorem State.logAt_attrs (sev : Nat) : (s.logAt sev code inst elem).attrs = s.attrs := rfl
@[simp] theorem State.logAt_blobs (sev : Nat) : (s.logAt sev code inst elem).blobs = s.blobs := rfl
@[simp] theorem State.logAt_snap (sev : Nat) : (s.logAt sev code inst elem).snap = s.snap := rfl
@[simp] theorem State.logAt_snapPrev (sev : Nat) : (s.logAt sev code inst elem).snapPrev = s.snapPrev := rfl
@[simp] theorem State.logAt_free (sev : Nat) : (s.logAt sev code inst elem).free = s.free := rfl
@[simp] theorem State.logAt_eng (sev : Nat) : (s.logAt sev code inst elem).eng = s.eng := rfl
@[simp] theorem State.logAt_cru (sev : Nat) : (s.logAt sev code inst elem).cru = s.cru := rfl
@[simp] theorem State.logAt_bel (sev : Nat) : (s.logAt sev code inst elem).bel = s.bel := rfl
@[simp] theorem State.logAt_tmp (sev : Nat) : (s.logAt sev code inst elem).tmp = s.tmp := rfl
@[simp] theorem State.logAt_mtr (sev : Nat) : (s.logAt sev code inst elem).mtr = s.mtr := rfl
@[simp] theorem State.logAt_plc (sev : Nat) : (s.logAt sev code inst elem).plc = s.plc := rfl
@[simp] theorem State.logAt_anv (sev : Nat) : (s.logAt sev code inst elem).anv = s.anv := rfl
@[simp] theorem State.logAt_fab (sev : Nat) : (s.logAt sev code inst elem).fab = s.fab := rfl
@[simp] theorem State.logAt_tng (sev : Nat) : (s.logAt sev code inst elem).tng = s.tng := rfl
@[simp] theorem State.logAt_hea (sev : Nat) : (s.logAt sev code inst elem).hea = s.hea := rfl
@[simp] theorem State.logAt_tbs (sev : Nat) : (s.logAt sev code inst elem).tbs = s.tbs := rfl
@[simp] theorem State.logAt_sap (sev : Nat) : (s.logAt sev code inst elem).sap = s.sap := rfl
@[simp] theorem State.logAt_net (sev : Nat) : (s.logAt sev code inst elem).net = s.net := rfl
@[simp] theorem State.logAt_pair (sev : Nat) : (s.logAt sev code inst elem).pair = s.pair := rfl
@[simp] theorem State.logAt_lck (sev : Nat) : (s.logAt sev code inst elem).lck = s.lck := rfl
@[simp] theorem State.logAt_jrn (sev : Nat) : (s.logAt sev code inst elem).jrn = s.jrn := rfl
@[simp] theorem State.logAt_pow (sev : Nat) : (s.logAt sev code inst elem).pow = s.pow := rfl
@[simp] theorem State.logAt_hlt (sev : Nat) : (s.logAt sev code inst elem).hlt = s.hlt := rfl

/-! ### `State.ticketProgress` -/

@[simp] theorem State.ticketProgress_pending (k p : Nat) : (s.ticketProgress k p).pending = s.pending := rfl
@[simp] theorem State.ticketProgress_attrs (k p : Nat) : (s.ticketProgress k p).attrs = s.attrs := rfl
@[simp] theorem State.ticketProgress_blobs (k p : Nat) : (s.ticketProgress k p).blobs = s.blobs := rfl
@[simp] theorem State.ticketProgress_snap (k p : Nat) : (s.ticketProgress k p).snap = s.snap := rfl
@[simp] theorem State.ticketProgress_snapPrev (k p : Nat) : (s.ticketProgress k p).snapPrev = s.snapPrev := rfl
@[simp] theorem State.ticketProgress_free (k p : Nat) : (s.ticketProgress k p).free = s.free := rfl
@[simp] theorem State.ticketProgress_eng (k p : Nat) : (s.ticketProgress k p).eng = s.eng := rfl
@[simp] theorem State.ticketProgress_cru (k p : Nat) : (s.ticketProgress k p).cru = s.cru := rfl
@[simp] theorem State.ticketProgress_bel (k p : Nat) : (s.ticketProgress k p).bel = s.bel := rfl
@[simp] theorem State.ticketProgress_tmp (k p : Nat) : (s.ticketProgress k p).tmp = s.tmp := rfl
@[simp] theorem State.ticketProgress_mtr (k p : Nat) : (s.ticketProgress k p).mtr = s.mtr := rfl
@[simp] theorem State.ticketProgress_plc (k p : Nat) : (s.ticketProgress k p).plc = s.plc := rfl
@[simp] theorem State.ticketProgress_anv (k p : Nat) : (s.ticketProgress k p).anv = s.anv := rfl
@[simp] theorem State.ticketProgress_fab (k p : Nat) : (s.ticketProgress k p).fab = s.fab := rfl
@[simp] theorem State.ticketProgress_tng (k p : Nat) : (s.ticketProgress k p).tng = s.tng := rfl
@[simp] theorem State.ticketProgress_hea (k p : Nat) : (s.ticketProgress k p).hea = s.hea := rfl
@[simp] theorem State.ticketProgress_tbs (k p : Nat) : (s.ticketProgress k p).tbs = s.tbs := rfl
@[simp] theorem State.ticketProgress_sap (k p : Nat) : (s.ticketProgress k p).sap = s.sap := rfl
@[simp] theorem State.ticketProgress_net (k p : Nat) : (s.ticketProgress k p).net = s.net := rfl
@[simp] theorem State.ticketProgress_pair (k p : Nat) : (s.ticketProgress k p).pair = s.pair := rfl
@[simp] theorem State.ticketProgress_lck (k p : Nat) : (s.ticketProgress k p).lck = s.lck := rfl
@[simp] theorem State.ticketProgress_jrn (k p : Nat) : (s.ticketProgress k p).jrn = s.jrn := rfl
@[simp] theorem State.ticketProgress_pow (k p : Nat) : (s.ticketProgress k p).pow = s.pow := rfl
@[simp] theorem State.ticketProgress_hlt (k p : Nat) : (s.ticketProgress k p).hlt = s.hlt := rfl

/-! ### `State.completeTicket` -/

@[simp] theorem State.completeTicket_pending (k r : Nat) : (s.completeTicket k r).pending = s.pending := by
  unfold State.completeTicket; split <;> simp
@[simp] theorem State.completeTicket_blobs (k r : Nat) : (s.completeTicket k r).blobs = s.blobs := by
  unfold State.completeTicket; split <;> simp
@[simp] theorem State.completeTicket_snap (k r : Nat) : (s.completeTicket k r).snap = s.snap := by
  unfold State.completeTicket; split <;> simp
@[simp] theorem State.completeTicket_snapPrev (k r : Nat) : (s.completeTicket k r).snapPrev = s.snapPrev := by
  unfold State.completeTicket; split <;> simp
@[simp] theorem State.completeTicket_free (k r : Nat) : (s.completeTicket k r).free = s.free := by
  unfold State.completeTicket; split <;> simp
@[simp] theorem State.completeTicket_eng (k r : Nat) : (s.completeTicket k r).eng = s.eng := by
  unfold State.completeTicket; split <;> simp
@[simp] theorem State.completeTicket_cru (k r : Nat) : (s.completeTicket k r).cru = s.cru := by
  unfold State.completeTicket; split <;> simp
@[simp] theorem State.completeTicket_bel (k r : Nat) : (s.completeTicket k r).bel = s.bel := by
  unfold State.completeTicket; split <;> simp
@[simp] theorem State.completeTicket_tmp (k r : Nat) : (s.completeTicket k r).tmp = s.tmp := by
  unfold State.completeTicket; split <;> simp
@[simp] theorem State.completeTicket_mtr (k r : Nat) : (s.completeTicket k r).mtr = s.mtr := by
  unfold State.completeTicket; split <;> simp
@[simp] theorem State.completeTicket_plc (k r : Nat) : (s.completeTicket k r).plc = s.plc := by
  unfold State.completeTicket; split <;> simp
@[simp] theorem State.completeTicket_anv (k r : Nat) : (s.completeTicket k r).anv = s.anv := by
  unfold State.completeTicket; split <;> simp
@[simp] theorem State.completeTicket_fab (k r : Nat) : (s.completeTicket k r).fab = s.fab := by
  unfold State.completeTicket; split <;> simp
@[simp] theorem State.completeTicket_tng (k r : Nat) : (s.completeTicket k r).tng = s.tng := by
  unfold State.completeTicket; split <;> simp
@[simp] theorem State.completeTicket_hea (k r : Nat) : (s.completeTicket k r).hea = s.hea := by
  unfold State.completeTicket; split <;> simp
@[simp] theorem State.completeTicket_tbs (k r : Nat) : (s.completeTicket k r).tbs = s.tbs := by
  unfold State.completeTicket; split <;> simp
@[simp] theorem State.completeTicket_sap (k r : Nat) : (s.completeTicket k r).sap = s.sap := by
  unfold State.completeTicket; split <;> simp
@[simp] theorem State.completeTicket_net (k r : Nat) : (s.completeTicket k r).net = s.net := by
  unfold State.completeTicket; split <;> simp
@[simp] theorem State.completeTicket_pair (k r : Nat) : (s.completeTicket k r).pair = s.pair := by
  unfold State.completeTicket; split <;> simp
@[simp] theorem State.completeTicket_lck (k r : Nat) : (s.completeTicket k r).lck = s.lck := by
  unfold State.completeTicket; split <;> simp
@[simp] theorem State.completeTicket_jrn (k r : Nat) : (s.completeTicket k r).jrn = s.jrn := by
  unfold State.completeTicket; split <;> simp
@[simp] theorem State.completeTicket_pow (k r : Nat) : (s.completeTicket k r).pow = s.pow := by
  unfold State.completeTicket; split <;> simp
@[simp] theorem State.completeTicket_hlt (k r : Nat) : (s.completeTicket k r).hlt = s.hlt := by
  unfold State.completeTicket; split <;> simp

/-! ### `State.completeTicket?` -/

@[simp] theorem State.completeTicket?_pending (k : Option Nat) (r : Nat) : (s.completeTicket? k r).pending = s.pending := by
  unfold State.completeTicket?; split <;> simp
@[simp] theorem State.completeTicket?_blobs (k : Option Nat) (r : Nat) : (s.completeTicket? k r).blobs = s.blobs := by
  unfold State.completeTicket?; split <;> simp
@[simp] theorem State.completeTicket?_snap (k : Option Nat) (r : Nat) : (s.completeTicket? k r).snap = s.snap := by
  unfold State.completeTicket?; split <;> simp
@[simp] theorem State.completeTicket?_snapPrev (k : Option Nat) (r : Nat) : (s.completeTicket? k r).snapPrev = s.snapPrev := by
  unfold State.completeTicket?; split <;> simp
@[simp] theorem State.completeTicket?_free (k : Option Nat) (r : Nat) : (s.completeTicket? k r).free = s.free := by
  unfold State.completeTicket?; split <;> simp
@[simp] theorem State.completeTicket?_eng (k : Option Nat) (r : Nat) : (s.completeTicket? k r).eng = s.eng := by
  unfold State.completeTicket?; split <;> simp
@[simp] theorem State.completeTicket?_cru (k : Option Nat) (r : Nat) : (s.completeTicket? k r).cru = s.cru := by
  unfold State.completeTicket?; split <;> simp
@[simp] theorem State.completeTicket?_bel (k : Option Nat) (r : Nat) : (s.completeTicket? k r).bel = s.bel := by
  unfold State.completeTicket?; split <;> simp
@[simp] theorem State.completeTicket?_tmp (k : Option Nat) (r : Nat) : (s.completeTicket? k r).tmp = s.tmp := by
  unfold State.completeTicket?; split <;> simp
@[simp] theorem State.completeTicket?_mtr (k : Option Nat) (r : Nat) : (s.completeTicket? k r).mtr = s.mtr := by
  unfold State.completeTicket?; split <;> simp
@[simp] theorem State.completeTicket?_plc (k : Option Nat) (r : Nat) : (s.completeTicket? k r).plc = s.plc := by
  unfold State.completeTicket?; split <;> simp
@[simp] theorem State.completeTicket?_anv (k : Option Nat) (r : Nat) : (s.completeTicket? k r).anv = s.anv := by
  unfold State.completeTicket?; split <;> simp
@[simp] theorem State.completeTicket?_fab (k : Option Nat) (r : Nat) : (s.completeTicket? k r).fab = s.fab := by
  unfold State.completeTicket?; split <;> simp
@[simp] theorem State.completeTicket?_tng (k : Option Nat) (r : Nat) : (s.completeTicket? k r).tng = s.tng := by
  unfold State.completeTicket?; split <;> simp
@[simp] theorem State.completeTicket?_hea (k : Option Nat) (r : Nat) : (s.completeTicket? k r).hea = s.hea := by
  unfold State.completeTicket?; split <;> simp
@[simp] theorem State.completeTicket?_tbs (k : Option Nat) (r : Nat) : (s.completeTicket? k r).tbs = s.tbs := by
  unfold State.completeTicket?; split <;> simp
@[simp] theorem State.completeTicket?_sap (k : Option Nat) (r : Nat) : (s.completeTicket? k r).sap = s.sap := by
  unfold State.completeTicket?; split <;> simp
@[simp] theorem State.completeTicket?_net (k : Option Nat) (r : Nat) : (s.completeTicket? k r).net = s.net := by
  unfold State.completeTicket?; split <;> simp
@[simp] theorem State.completeTicket?_pair (k : Option Nat) (r : Nat) : (s.completeTicket? k r).pair = s.pair := by
  unfold State.completeTicket?; split <;> simp
@[simp] theorem State.completeTicket?_lck (k : Option Nat) (r : Nat) : (s.completeTicket? k r).lck = s.lck := by
  unfold State.completeTicket?; split <;> simp
@[simp] theorem State.completeTicket?_jrn (k : Option Nat) (r : Nat) : (s.completeTicket? k r).jrn = s.jrn := by
  unfold State.completeTicket?; split <;> simp
@[simp] theorem State.completeTicket?_pow (k : Option Nat) (r : Nat) : (s.completeTicket? k r).pow = s.pow := by
  unfold State.completeTicket?; split <;> simp
@[simp] theorem State.completeTicket?_hlt (k : Option Nat) (r : Nat) : (s.completeTicket? k r).hlt = s.hlt := by
  unfold State.completeTicket?; split <;> simp

/-! ### `State.setHold` -/

@[simp] theorem State.setHold_pending (o : OutRef) (h : Option Hold) : (s.setHold o h).pending = s.pending := rfl
@[simp] theorem State.setHold_attrs (o : OutRef) (h : Option Hold) : (s.setHold o h).attrs = s.attrs := rfl
@[simp] theorem State.setHold_blobs (o : OutRef) (h : Option Hold) : (s.setHold o h).blobs = s.blobs := rfl
@[simp] theorem State.setHold_snap (o : OutRef) (h : Option Hold) : (s.setHold o h).snap = s.snap := rfl
@[simp] theorem State.setHold_snapPrev (o : OutRef) (h : Option Hold) : (s.setHold o h).snapPrev = s.snapPrev := rfl
@[simp] theorem State.setHold_free (o : OutRef) (h : Option Hold) : (s.setHold o h).free = s.free := rfl
@[simp] theorem State.setHold_yug (o : OutRef) (h : Option Hold) : (s.setHold o h).yug = s.yug := rfl
@[simp] theorem State.setHold_eng (o : OutRef) (h : Option Hold) : (s.setHold o h).eng = s.eng := rfl
@[simp] theorem State.setHold_cru (o : OutRef) (h : Option Hold) : (s.setHold o h).cru = s.cru := rfl
@[simp] theorem State.setHold_tmp (o : OutRef) (h : Option Hold) : (s.setHold o h).tmp = s.tmp := rfl
@[simp] theorem State.setHold_mtr (o : OutRef) (h : Option Hold) : (s.setHold o h).mtr = s.mtr := rfl
@[simp] theorem State.setHold_plc (o : OutRef) (h : Option Hold) : (s.setHold o h).plc = s.plc := rfl
@[simp] theorem State.setHold_anv (o : OutRef) (h : Option Hold) : (s.setHold o h).anv = s.anv := rfl
@[simp] theorem State.setHold_fab (o : OutRef) (h : Option Hold) : (s.setHold o h).fab = s.fab := rfl
@[simp] theorem State.setHold_tng (o : OutRef) (h : Option Hold) : (s.setHold o h).tng = s.tng := rfl
@[simp] theorem State.setHold_hea (o : OutRef) (h : Option Hold) : (s.setHold o h).hea = s.hea := rfl
@[simp] theorem State.setHold_tbs (o : OutRef) (h : Option Hold) : (s.setHold o h).tbs = s.tbs := rfl
@[simp] theorem State.setHold_sap (o : OutRef) (h : Option Hold) : (s.setHold o h).sap = s.sap := rfl
@[simp] theorem State.setHold_net (o : OutRef) (h : Option Hold) : (s.setHold o h).net = s.net := rfl
@[simp] theorem State.setHold_pair (o : OutRef) (h : Option Hold) : (s.setHold o h).pair = s.pair := rfl
@[simp] theorem State.setHold_lck (o : OutRef) (h : Option Hold) : (s.setHold o h).lck = s.lck := rfl
@[simp] theorem State.setHold_jrn (o : OutRef) (h : Option Hold) : (s.setHold o h).jrn = s.jrn := rfl
@[simp] theorem State.setHold_pow (o : OutRef) (h : Option Hold) : (s.setHold o h).pow = s.pow := rfl
@[simp] theorem State.setHold_hlt (o : OutRef) (h : Option Hold) : (s.setHold o h).hlt = s.hlt := rfl

/-! ### `State.setCore` -/

@[simp] theorem State.setCore_pending (c : Nat) (k : CoreSt) : (s.setCore c k).pending = s.pending := rfl
@[simp] theorem State.setCore_attrs (c : Nat) (k : CoreSt) : (s.setCore c k).attrs = s.attrs := rfl
@[simp] theorem State.setCore_blobs (c : Nat) (k : CoreSt) : (s.setCore c k).blobs = s.blobs := rfl
@[simp] theorem State.setCore_snap (c : Nat) (k : CoreSt) : (s.setCore c k).snap = s.snap := rfl
@[simp] theorem State.setCore_snapPrev (c : Nat) (k : CoreSt) : (s.setCore c k).snapPrev = s.snapPrev := rfl
@[simp] theorem State.setCore_free (c : Nat) (k : CoreSt) : (s.setCore c k).free = s.free := rfl
@[simp] theorem State.setCore_yug (c : Nat) (k : CoreSt) : (s.setCore c k).yug = s.yug := rfl
@[simp] theorem State.setCore_eng (c : Nat) (k : CoreSt) : (s.setCore c k).eng = s.eng := rfl
@[simp] theorem State.setCore_cru (c : Nat) (k : CoreSt) : (s.setCore c k).cru = s.cru := rfl
@[simp] theorem State.setCore_bel (c : Nat) (k : CoreSt) : (s.setCore c k).bel = s.bel := rfl
@[simp] theorem State.setCore_tmp (c : Nat) (k : CoreSt) : (s.setCore c k).tmp = s.tmp := rfl
@[simp] theorem State.setCore_mtr (c : Nat) (k : CoreSt) : (s.setCore c k).mtr = s.mtr := rfl
@[simp] theorem State.setCore_plc (c : Nat) (k : CoreSt) : (s.setCore c k).plc = s.plc := rfl
@[simp] theorem State.setCore_fab (c : Nat) (k : CoreSt) : (s.setCore c k).fab = s.fab := rfl
@[simp] theorem State.setCore_tng (c : Nat) (k : CoreSt) : (s.setCore c k).tng = s.tng := rfl
@[simp] theorem State.setCore_hea (c : Nat) (k : CoreSt) : (s.setCore c k).hea = s.hea := rfl
@[simp] theorem State.setCore_tbs (c : Nat) (k : CoreSt) : (s.setCore c k).tbs = s.tbs := rfl
@[simp] theorem State.setCore_sap (c : Nat) (k : CoreSt) : (s.setCore c k).sap = s.sap := rfl
@[simp] theorem State.setCore_net (c : Nat) (k : CoreSt) : (s.setCore c k).net = s.net := rfl
@[simp] theorem State.setCore_pair (c : Nat) (k : CoreSt) : (s.setCore c k).pair = s.pair := rfl
@[simp] theorem State.setCore_lck (c : Nat) (k : CoreSt) : (s.setCore c k).lck = s.lck := rfl
@[simp] theorem State.setCore_jrn (c : Nat) (k : CoreSt) : (s.setCore c k).jrn = s.jrn := rfl
@[simp] theorem State.setCore_pow (c : Nat) (k : CoreSt) : (s.setCore c k).pow = s.pow := rfl
@[simp] theorem State.setCore_hlt (c : Nat) (k : CoreSt) : (s.setCore c k).hlt = s.hlt := rfl

/-! ### `State.events` -/

theorem countEvent_frame (e d k : Nat) (t : State) (P : State → Prop) (hp : ∀ u c i x n, P u → P (u.add c i x n)) (h : P t) :
    P (countEvent e d k t) := by
  induction k with
  | zero => exact h
  | succ k ih =>
    unfold countEvent
    simp only [State.bump]
    repeat' split
    all_goals first | exact hp _ _ _ _ _ (hp _ _ _ _ _ ih) | exact hp _ _ _ _ _ ih | exact ih

@[simp] theorem State.events_pending (e d : Nat) : (s.events e d).pending = s.pending := by
  unfold State.events; split
  · rfl
  · exact countEvent_frame e d 64 s (fun t => t.pending = s.pending) (fun u c i x n h => by simpa using h) rfl
@[simp] theorem State.events_blobs (e d : Nat) : (s.events e d).blobs = s.blobs := by
  unfold State.events; split
  · rfl
  · exact countEvent_frame e d 64 s (fun t => t.blobs = s.blobs) (fun u c i x n h => by simpa using h) rfl
@[simp] theorem State.events_snap (e d : Nat) : (s.events e d).snap = s.snap := by
  unfold State.events; split
  · rfl
  · exact countEvent_frame e d 64 s (fun t => t.snap = s.snap) (fun u c i x n h => by simpa using h) rfl
@[simp] theorem State.events_snapPrev (e d : Nat) : (s.events e d).snapPrev = s.snapPrev := by
  unfold State.events; split
  · rfl
  · exact countEvent_frame e d 64 s (fun t => t.snapPrev = s.snapPrev) (fun u c i x n h => by simpa using h) rfl
@[simp] theorem State.events_free (e d : Nat) : (s.events e d).free = s.free := by
  unfold State.events; split
  · rfl
  · exact countEvent_frame e d 64 s (fun t => t.free = s.free) (fun u c i x n h => by simpa using h) rfl
@[simp] theorem State.events_yug (e d : Nat) : (s.events e d).yug = s.yug := by
  unfold State.events; split
  · rfl
  · exact countEvent_frame e d 64 s (fun t => t.yug = s.yug) (fun u c i x n h => by simpa using h) rfl
@[simp] theorem State.events_eng (e d : Nat) : (s.events e d).eng = s.eng := by
  unfold State.events; split
  · rfl
  · exact countEvent_frame e d 64 s (fun t => t.eng = s.eng) (fun u c i x n h => by simpa using h) rfl
@[simp] theorem State.events_cru (e d : Nat) : (s.events e d).cru = s.cru := by
  unfold State.events; split
  · rfl
  · exact countEvent_frame e d 64 s (fun t => t.cru = s.cru) (fun u c i x n h => by simpa using h) rfl
@[simp] theorem State.events_bel (e d : Nat) : (s.events e d).bel = s.bel := by
  unfold State.events; split
  · rfl
  · exact countEvent_frame e d 64 s (fun t => t.bel = s.bel) (fun u c i x n h => by simpa using h) rfl
@[simp] theorem State.events_tmp (e d : Nat) : (s.events e d).tmp = s.tmp := by
  unfold State.events; split
  · rfl
  · exact countEvent_frame e d 64 s (fun t => t.tmp = s.tmp) (fun u c i x n h => by simpa using h) rfl
@[simp] theorem State.events_mtr (e d : Nat) : (s.events e d).mtr = s.mtr := by
  unfold State.events; split
  · rfl
  · exact countEvent_frame e d 64 s (fun t => t.mtr = s.mtr) (fun u c i x n h => by simpa using h) rfl
@[simp] theorem State.events_plc (e d : Nat) : (s.events e d).plc = s.plc := by
  unfold State.events; split
  · rfl
  · exact countEvent_frame e d 64 s (fun t => t.plc = s.plc) (fun u c i x n h => by simpa using h) rfl
@[simp] theorem State.events_anv (e d : Nat) : (s.events e d).anv = s.anv := by
  unfold State.events; split
  · rfl
  · exact countEvent_frame e d 64 s (fun t => t.anv = s.anv) (fun u c i x n h => by simpa using h) rfl
@[simp] theorem State.events_fab (e d : Nat) : (s.events e d).fab = s.fab := by
  unfold State.events; split
  · rfl
  · exact countEvent_frame e d 64 s (fun t => t.fab = s.fab) (fun u c i x n h => by simpa using h) rfl
@[simp] theorem State.events_tng (e d : Nat) : (s.events e d).tng = s.tng := by
  unfold State.events; split
  · rfl
  · exact countEvent_frame e d 64 s (fun t => t.tng = s.tng) (fun u c i x n h => by simpa using h) rfl
@[simp] theorem State.events_hea (e d : Nat) : (s.events e d).hea = s.hea := by
  unfold State.events; split
  · rfl
  · exact countEvent_frame e d 64 s (fun t => t.hea = s.hea) (fun u c i x n h => by simpa using h) rfl
@[simp] theorem State.events_tbs (e d : Nat) : (s.events e d).tbs = s.tbs := by
  unfold State.events; split
  · rfl
  · exact countEvent_frame e d 64 s (fun t => t.tbs = s.tbs) (fun u c i x n h => by simpa using h) rfl
@[simp] theorem State.events_sap (e d : Nat) : (s.events e d).sap = s.sap := by
  unfold State.events; split
  · rfl
  · exact countEvent_frame e d 64 s (fun t => t.sap = s.sap) (fun u c i x n h => by simpa using h) rfl
@[simp] theorem State.events_net (e d : Nat) : (s.events e d).net = s.net := by
  unfold State.events; split
  · rfl
  · exact countEvent_frame e d 64 s (fun t => t.net = s.net) (fun u c i x n h => by simpa using h) rfl
@[simp] theorem State.events_pair (e d : Nat) : (s.events e d).pair = s.pair := by
  unfold State.events; split
  · rfl
  · exact countEvent_frame e d 64 s (fun t => t.pair = s.pair) (fun u c i x n h => by simpa using h) rfl
@[simp] theorem State.events_jrn (e d : Nat) : (s.events e d).jrn = s.jrn := by
  unfold State.events; split
  · rfl
  · exact countEvent_frame e d 64 s (fun t => t.jrn = s.jrn) (fun u c i x n h => by simpa using h) rfl
@[simp] theorem State.events_pow (e d : Nat) : (s.events e d).pow = s.pow := by
  unfold State.events; split
  · rfl
  · exact countEvent_frame e d 64 s (fun t => t.pow = s.pow) (fun u c i x n h => by simpa using h) rfl
@[simp] theorem State.events_hlt (e d : Nat) : (s.events e d).hlt = s.hlt := by
  unfold State.events; split
  · rfl
  · exact countEvent_frame e d 64 s (fun t => t.hlt = s.hlt) (fun u c i x n h => by simpa using h) rfl

/-! ### `State.event` -/

@[simp] theorem State.event_pending (e : Nat) : (s.event e).pending = s.pending := by
  simp [State.event]
@[simp] theorem State.event_blobs (e : Nat) : (s.event e).blobs = s.blobs := by
  simp [State.event]
@[simp] theorem State.event_snap (e : Nat) : (s.event e).snap = s.snap := by
  simp [State.event]
@[simp] theorem State.event_snapPrev (e : Nat) : (s.event e).snapPrev = s.snapPrev := by
  simp [State.event]
@[simp] theorem State.event_free (e : Nat) : (s.event e).free = s.free := by
  simp [State.event]
@[simp] theorem State.event_yug (e : Nat) : (s.event e).yug = s.yug := by
  simp [State.event]
@[simp] theorem State.event_eng (e : Nat) : (s.event e).eng = s.eng := by
  simp [State.event]
@[simp] theorem State.event_cru (e : Nat) : (s.event e).cru = s.cru := by
  simp [State.event]
@[simp] theorem State.event_bel (e : Nat) : (s.event e).bel = s.bel := by
  simp [State.event]
@[simp] theorem State.event_tmp (e : Nat) : (s.event e).tmp = s.tmp := by
  simp [State.event]
@[simp] theorem State.event_mtr (e : Nat) : (s.event e).mtr = s.mtr := by
  simp [State.event]
@[simp] theorem State.event_plc (e : Nat) : (s.event e).plc = s.plc := by
  simp [State.event]
@[simp] theorem State.event_anv (e : Nat) : (s.event e).anv = s.anv := by
  simp [State.event]
@[simp] theorem State.event_fab (e : Nat) : (s.event e).fab = s.fab := by
  simp [State.event]
@[simp] theorem State.event_tng (e : Nat) : (s.event e).tng = s.tng := by
  simp [State.event]
@[simp] theorem State.event_hea (e : Nat) : (s.event e).hea = s.hea := by
  simp [State.event]
@[simp] theorem State.event_tbs (e : Nat) : (s.event e).tbs = s.tbs := by
  simp [State.event]
@[simp] theorem State.event_sap (e : Nat) : (s.event e).sap = s.sap := by
  simp [State.event]
@[simp] theorem State.event_net (e : Nat) : (s.event e).net = s.net := by
  simp [State.event]
@[simp] theorem State.event_pair (e : Nat) : (s.event e).pair = s.pair := by
  simp [State.event]
@[simp] theorem State.event_jrn (e : Nat) : (s.event e).jrn = s.jrn := by
  simp [State.event]
@[simp] theorem State.event_pow (e : Nat) : (s.event e).pow = s.pow := by
  simp [State.event]
@[simp] theorem State.event_hlt (e : Nat) : (s.event e).hlt = s.hlt := by
  simp [State.event]

/-! ### The cores on trial -/

@[simp] theorem State.noteCounter_shadow : (s.noteCounter code inst elem).lck.shadow = s.lck.shadow := by
  unfold State.noteCounter; split <;> rfl
@[simp] theorem State.add_shadow (d : Nat) : (s.add code inst elem d).lck.shadow = s.lck.shadow := by
  simp [State.add]
@[simp] theorem State.bump_shadow : (s.bump code inst elem).lck.shadow = s.lck.shadow := by
  simp [State.bump]
@[simp] theorem State.events_shadow (e d : Nat) : (s.events e d).lck.shadow = s.lck.shadow := by
  unfold State.events; split
  · rfl
  · exact countEvent_frame e d 64 s (fun t => t.lck.shadow = s.lck.shadow) (fun u c i x n h => by simpa using h) rfl
@[simp] theorem State.event_shadow (e : Nat) : (s.event e).lck.shadow = s.lck.shadow := by
  simp [State.event]

/-- The tick runs after a write of the dictionary as before. -/
@[simp] theorem State.set_ticking (v : Int) : (s.set code inst elem v).ticking = s.ticking := rfl
/-- The tick runs after a request's values are stored as before. -/
@[simp] theorem State.store_ticking (c : Ctx) : (s.store c).ticking = s.ticking := by simp [State.ticking]

end Sys2Proof.Machine
end

