-- ==== Sys2Proof/Laws/Store.lean ====
section
/-! SUPPORT. The laws of stores and of the dictionary: what is read after a write, and that every write keeps the canonical
form. -/

namespace Sys2Proof.Machine

/-! ### Reading after writing -/

@[simp] theorem Store.find?_nil {α : Type} (k : Nat) : Store.find? ([] : Store α) k = none := rfl

theorem Store.find?_put_self {α : Type} (m : Store α) (k : Nat) (v : α) : (Store.put m k v).find? k = some v := by
  induction m with
  | nil => simp [Store.put, Store.find?]
  | cons a m ih =>
    obtain ⟨j, w⟩ := a
    unfold Store.put
    split
    · simp [Store.find?]
    · split
      · simp [Store.find?]
      · simp only [Store.find?]; rw [if_neg (by omega)]; exact ih

theorem Store.find?_put_ne {α : Type} (m : Store α) {k j : Nat} (v : α) (h : k ≠ j) :
    (Store.put m k v).find? j = m.find? j := by
  induction m with
  | nil => simp [Store.put, Store.find?, h]
  | cons a m ih =>
    obtain ⟨i, w⟩ := a
    unfold Store.put
    split
    · simp [Store.find?, h]
    · split
      · rename_i hk; subst hk; simp [Store.find?, h]
      · simp only [Store.find?, ih]

theorem Store.find?_above {α : Type} {m : Store α} {k j : Nat} (h : m.above k = true) (hj : j ≤ k) : m.find? j = none := by
  induction m with
  | nil => rfl
  | cons a m ih =>
    obtain ⟨i, w⟩ := a
    simp only [Store.above, List.all_cons, Bool.and_eq_true, decide_eq_true_eq] at h
    simp only [Store.find?]; rw [if_neg (by omega)]; exact ih h.2

theorem Store.find?_del_self {α : Type} (m : Store α) (k : Nat) : (m.del k).find? k = none := by
  induction m with
  | nil => rfl
  | cons a m ih =>
    obtain ⟨j, w⟩ := a
    unfold Store.del
    split
    · exact ih
    · simp only [Store.find?]; rw [if_neg (by omega)]; exact ih

theorem Store.find?_del_ne {α : Type} (m : Store α) {k j : Nat} (h : k ≠ j) : (m.del k).find? j = m.find? j := by
  induction m with
  | nil => rfl
  | cons a m ih =>
    obtain ⟨i, w⟩ := a
    unfold Store.del
    split
    · rename_i hk; subst hk; simp only [Store.find?, if_neg h, ih]
    · simp only [Store.find?, ih]

@[simp] theorem Store.get_set_self {α : Type} [DecidableEq α] (d : α) (m : Store α) (k : Nat) (v : α) :
    Store.get d (Store.set d m k v) k = v := by
  unfold Store.get Store.set
  split
  · rw [Store.find?_del_self m k]; simp_all
  · rw [Store.find?_put_self]; rfl

theorem Store.get_set_ne {α : Type} [DecidableEq α] (d : α) (m : Store α) {k j : Nat} (v : α) (h : k ≠ j) :
    Store.get d (Store.set d m k v) j = Store.get d m j := by
  unfold Store.get Store.set
  split
  · rw [Store.find?_del_ne m h]
  · rw [Store.find?_put_ne m v h]

theorem Store.get_put_self {α : Type} (d : α) (m : Store α) (k : Nat) (v : α) : Store.get d (Store.put m k v) k = v := by
  unfold Store.get; rw [Store.find?_put_self]; rfl

theorem Store.get_put_ne {α : Type} (d : α) (m : Store α) {k j : Nat} (v : α) (h : k ≠ j) :
    Store.get d (Store.put m k v) j = Store.get d m j := by
  unfold Store.get; rw [Store.find?_put_ne m v h]

/-! ### The canonical form -/

theorem Store.above_put {α : Type} {m : Store α} {j k : Nat} (v : α) (h : m.above j = true) (hk : j < k) :
    (Store.put m k v).above j = true := by
  induction m with
  | nil => simp [Store.put, Store.above, hk]
  | cons a m ih =>
    obtain ⟨i, w⟩ := a
    simp only [Store.above, List.all_cons, Bool.and_eq_true, decide_eq_true_eq] at h
    unfold Store.put
    split
    · simp only [Store.above, List.all_cons, Bool.and_eq_true, decide_eq_true_eq]; exact ⟨hk, h.1, h.2⟩
    · split
      · simp only [Store.above, List.all_cons, Bool.and_eq_true, decide_eq_true_eq]; exact ⟨hk, h.2⟩
      · have := ih h.2
        simp only [Store.above, List.all_cons, Bool.and_eq_true, decide_eq_true_eq]; exact ⟨h.1, this⟩

theorem Store.above_mono {α : Type} {m : Store α} {j k : Nat} (h : m.above k = true) (hj : j ≤ k) : m.above j = true := by
  simp only [Store.above, List.all_eq_true, decide_eq_true_eq] at h ⊢
  intro e he; have := h e he; omega

theorem Store.above_del {α : Type} {m : Store α} {j k : Nat} (h : m.above j = true) : (m.del k).above j = true := by
  induction m with
  | nil => exact h
  | cons a m ih =>
    obtain ⟨i, w⟩ := a
    simp only [Store.above, List.all_cons, Bool.and_eq_true, decide_eq_true_eq] at h
    unfold Store.del
    split
    · exact ih h.2
    · have := ih h.2
      simp only [Store.above, List.all_cons, Bool.and_eq_true, decide_eq_true_eq]; exact ⟨h.1, this⟩

theorem Store.rising_put {α : Type} {m : Store α} (k : Nat) (v : α) (h : m.rising = true) : (Store.put m k v).rising = true := by
  induction m with
  | nil => rfl
  | cons a m ih =>
    obtain ⟨i, w⟩ := a
    simp only [Store.rising, Bool.and_eq_true] at h
    unfold Store.put
    split
    · rename_i hk
      simp only [Store.rising, Bool.and_eq_true]
      refine ⟨?_, h.1, h.2⟩
      simp only [Store.above, List.all_cons, Bool.and_eq_true, decide_eq_true_eq]
      exact ⟨hk, Store.above_mono h.1 (by omega)⟩
    · split
      · rename_i hk; subst hk; simp only [Store.rising, Bool.and_eq_true]; exact h
      · simp only [Store.rising, Bool.and_eq_true]
        exact ⟨Store.above_put v h.1 (by omega), ih h.2⟩

theorem Store.rising_del {α : Type} {m : Store α} (k : Nat) (h : m.rising = true) : (m.del k).rising = true := by
  induction m with
  | nil => rfl
  | cons a m ih =>
    obtain ⟨i, w⟩ := a
    simp only [Store.rising, Bool.and_eq_true] at h
    unfold Store.del
    split
    · exact ih h.2
    · simp only [Store.rising, Bool.and_eq_true]; exact ⟨Store.above_del h.1, ih h.2⟩

theorem Store.mem_put {α : Type} {m : Store α} {k : Nat} {v : α} {e : Nat × α} (h : e ∈ Store.put m k v) :
    e = (k, v) ∨ e ∈ m := by
  induction m with
  | nil => simpa [Store.put] using h
  | cons a m ih =>
    obtain ⟨i, w⟩ := a
    unfold Store.put at h
    split at h
    · simp only [List.mem_cons] at h ⊢; exact h
    · split at h
      · simp only [List.mem_cons] at h ⊢
        rcases h with h | h
        · exact .inl h
        · exact .inr (.inr h)
      · simp only [List.mem_cons] at h ⊢
        rcases h with h | h
        · exact .inr (.inl h)
        · rcases ih h with h | h
          · exact .inl h
          · exact .inr (.inr h)

theorem Store.mem_del {α : Type} {m : Store α} {k : Nat} {e : Nat × α} (h : e ∈ m.del k) : e ∈ m := by
  induction m with
  | nil => exact h
  | cons a m ih =>
    obtain ⟨i, w⟩ := a
    unfold Store.del at h
    split at h
    · exact List.mem_cons_of_mem _ (ih h)
    · simp only [List.mem_cons] at h ⊢
      rcases h with h | h
      · exact .inl h
      · exact .inr (ih h)

/-- A write keeps the canonical form. -/
theorem Store.wf_set {α : Type} [DecidableEq α] {d : Nat → α} {m : Store α} (k : Nat) (v : α)
    (h : Store.wf d m = true) : Store.wf d (Store.set (d k) m k v) = true := by
  simp only [Store.wf, Bool.and_eq_true, List.all_eq_true, decide_eq_true_eq] at h ⊢
  unfold Store.set
  split
  · exact ⟨Store.rising_del k h.1, fun e he => h.2 e (Store.mem_del he)⟩
  · refine ⟨Store.rising_put k v h.1, fun e he => ?_⟩
    rcases Store.mem_put he with rfl | he
    · assumption
    · exact h.2 e he

/-- A run of writes keeps the canonical form. -/
theorem Store.wf_setMany {α : Type} [DecidableEq α] {d : α} {m : Store α} (k : Nat) (vs : List α)
    (h : Store.wf (fun _ => d) m = true) : Store.wf (fun _ => d) (Store.setMany d m k vs) = true := by
  induction vs generalizing m k with
  | nil => exact h
  | cons v vs ih => exact ih (k + 1) (Store.wf_set (d := fun _ => d) k v h)

theorem Store.rising_filter {α : Type} (p : Nat × α → Bool) {m : Store α} (h : m.rising = true) :
    Store.rising (List.filter p m) = true := by
  induction m with
  | nil => rfl
  | cons a m ih =>
    obtain ⟨i, w⟩ := a
    simp only [Store.rising, Bool.and_eq_true] at h
    simp only [List.filter_cons]
    split
    · simp only [Store.rising, Bool.and_eq_true]
      refine ⟨?_, ih h.2⟩
      simp only [Store.above, List.all_eq_true, List.mem_filter] at h ⊢
      exact fun e he => h.1 e he.1
    · exact ih h.2

/-- A choice among the entries keeps the canonical form. -/
theorem Store.wf_filter {α : Type} [DecidableEq α] {d : Nat → α} (p : Nat × α → Bool) {m : Store α}
    (h : Store.wf d m = true) : Store.wf d (List.filter p m) = true := by
  simp only [Store.wf, Bool.and_eq_true, List.all_eq_true, decide_eq_true_eq] at h ⊢
  exact ⟨Store.rising_filter p h.1, fun e he => h.2 e (List.mem_filter.mp he).1⟩

theorem Store.wf_keep {α : Type} [DecidableEq α] {d : Nat → α} (p : Nat → Bool) {m : Store α}
    (h : Store.wf d m = true) : Store.wf d (Store.keep p m) = true := Store.wf_filter _ h

/-! ### The dictionary -/

/-- What an attribute reads after it is written. -/
@[simp] theorem State.a_set_self (s : State) (code inst elem : Nat) (v : Int) :
    (s.set code inst elem v).a code inst elem = v := by
  have := Store.get_set_self (dfltAt code inst elem) s.attrs (attrKey code inst elem) v
  simpa [State.a, attrIn, State.set, Store.get] using this

/-- The same, as a natural number. -/
@[simp] theorem State.n_set_self (s : State) (code inst elem v : Nat) : (s.set code inst elem (v : Int)).n code inst elem = v := by
  simp [State.n]

/-- A write leaves every attribute of another key alone. -/
theorem State.a_set_ne (s : State) {code inst elem c i e : Nat} (v : Int) (h : attrKey code inst elem ≠ attrKey c i e) :
    (s.set code inst elem v).a c i e = s.a c i e := by
  unfold State.a attrIn State.set
  simp only
  unfold Store.set
  split
  · rw [Store.find?_del_ne _ h]
  · rw [Store.find?_put_ne _ _ h]

/-- The same, as a natural number. -/
theorem State.n_set_ne (s : State) {code inst elem c i e : Nat} (v : Int) (h : attrKey code inst elem ≠ attrKey c i e) :
    (s.set code inst elem v).n c i e = s.n c i e := by
  simp only [State.n, State.a_set_ne s v h]

end Sys2Proof.Machine
end

