-- ==== Sys2Proof/Laws/Anvil.lean ====
section
/-! SUPPORT. What the frame that every Anvil instruction runs in leaves: error correction and tagging touch no core, and an
instruction that completes leaves its core as its body says. -/

namespace Sys2Proof.Machine

/-- Two states agree on the cores and modules, the placement, the engine's configuration, the free values, the trials, memory, the planes and
the queue. -/
def SameCores (s t : State) : Prop := t.anv = s.anv ∧ t.plc = s.plc ∧ t.eng = s.eng ∧ t.free = s.free ∧ t.lck.shadow = s.lck.shadow ∧
    t.fab.mem = s.fab.mem ∧ t.cru = s.cru ∧ t.pending = s.pending

/-- The same, but for the free values. -/
def SameRest (s t : State) : Prop := t.anv = s.anv ∧ t.plc = s.plc ∧ t.eng = s.eng ∧ t.lck.shadow = s.lck.shadow ∧
    t.fab.mem = s.fab.mem ∧ t.cru = s.cru ∧ t.pending = s.pending

theorem SameCores.rest {s t : State} (h : SameCores s t) : SameRest s t := by
  obtain ⟨h1, h2, h3, h4, h5, h6, h7, h8⟩ := h
  exact ⟨h1, h2, h3, h5, h6, h7, h8⟩

theorem SameRest.trans {s t u : State} (h : SameRest s t) (g : SameRest t u) : SameRest s u := by
  obtain ⟨h1, h2, h3, h5, h6, h7, h8⟩ := h
  obtain ⟨g1, g2, g3, g5, g6, g7, g8⟩ := g
  exact ⟨g1.trans h1, g2.trans h2, g3.trans h3, g5.trans h5, g6.trans h6, g7.trans h7, g8.trans h8⟩

theorem SameRest.setCore {s t : State} (h : SameRest s t) (c : Nat) (k : CoreSt) : SameRest (s.setCore c k) (t.setCore c k) := by
  obtain ⟨h1, h2, h3, h5, h6, h7, h8⟩ := h
  refine ⟨?_, h2, h3, h5, h6, h7, h8⟩
  simp only [State.setCore, h1]

theorem SameCores.rfl' (s : State) : SameCores s s := ⟨rfl, rfl, rfl, rfl, rfl, rfl, rfl, rfl⟩

theorem SameCores.trans {s t u : State} (h : SameCores s t) (g : SameCores t u) : SameCores s u :=
  by
  obtain ⟨h1, h2, h3, h4, h5, h6, h7, h8⟩ := h
  obtain ⟨g1, g2, g3, g4, g5, g6, g7, g8⟩ := g
  exact ⟨g1.trans h1, g2.trans h2, g3.trans h3, g4.trans h4, g5.trans h5, g6.trans h6, g7.trans h7, g8.trans h8⟩

theorem SameCores.foldl {α : Type} (f : State → α → State) (h : ∀ s x, SameCores s (f s x)) (l : List α) (s : State) :
    SameCores s (l.foldl f s) := by
  induction l generalizing s with
  | nil => exact SameCores.rfl' s
  | cons x xs ih => exact (h s x).trans (ih _)

theorem set_same (s : State) (code inst elem : Nat) (v : Int) : SameCores s (s.set code inst elem v) :=
  ⟨rfl, rfl, rfl, rfl, rfl, rfl, rfl, rfl⟩

theorem bump_same (s : State) (code inst elem : Nat) : SameCores s (s.bump code inst elem) := by
  refine ⟨?_, ?_, ?_, ?_, ?_, ?_, ?_, ?_⟩ <;> simp

theorem log_same (s : State) (sev code inst elem : Nat) (v : Int) : SameCores s (s.log sev code inst elem v) :=
  ⟨rfl, rfl, rfl, rfl, rfl, rfl, rfl, rfl⟩

theorem SameCores.ite {c : Prop} [Decidable c] {s t u : State} (h : SameCores s t) (g : SameCores s u) :
    SameCores s (if c then t else u) := by split <;> assumption

theorem holdSap_same (s : State) (n : Nat) : SameCores s (s.holdSap n) := by
  refine ⟨?_, ?_, ?_, ?_, ?_, ?_, ?_, ?_⟩ <;>
  · unfold State.holdSap
    simp only
    repeat' split
    all_goals rfl

theorem dropRole_same (s : State) (r : Nat) : SameCores s (s.dropRole r) := by
  unfold State.dropRole State.holdSaps
  exact SameCores.trans (SameCores.trans (set_same _ _ _ _ _) (SameCores.trans (set_same _ _ _ _ _) (set_same _ _ _ _ _)))
    (SameCores.foldl _ holdSap_same _ _)

theorem raise_same (s : State) (b : Nat) : SameCores s (s.raise b) := by
  unfold State.raise
  simp only
  refine SameCores.ite (SameCores.rfl' s) ?_
  have h1 (t : State) (h : SameCores s t) : SameCores s (if b = 0 ∨ b = 1 ∨ b = 5 ∨ b = 6 then
      t.set Attr.diaLatched 0 0 ((t.n Attr.diaLatched 0 0 ||| 2 ^ b : Nat) : Int) else t) :=
    SameCores.ite (h.trans (set_same _ _ _ _ _)) h
  have h2 (t : State) (h : SameCores s t) : SameCores s (if t.role = 2 then t.dropRole 4
      else if t.armed then { t with pair := { t.pair with giveUpDue := 1 } } else t) :=
    SameCores.ite (h.trans (dropRole_same _ _)) (SameCores.ite (h.trans ⟨rfl, rfl, rfl, rfl, rfl, rfl, rfl, rfl⟩) h)
  exact h2 _ (((h1 _ (set_same _ _ _ _ _)).trans ((bump_same _ _ _ _).trans (set_same _ _ _ _ _))).trans (log_same _ _ _ _ _ _))

theorem eccTouch_same (s : State) (w : Nat) : SameCores s (s.eccTouch w) := by
  unfold State.eccTouch
  split
  · exact SameCores.rfl' s
  · simp only
    repeat' split
    all_goals refine ⟨?_, ?_, ?_, ?_, ?_, ?_, ?_, ?_⟩ <;> simp
  · simp only
    split <;> refine SameCores.trans ?_ (raise_same _ _) <;> refine ⟨?_, ?_, ?_, ?_, ?_, ?_, ?_, ?_⟩ <;> simp

theorem eccTouches_same (s : State) (l : List Nat) : SameCores s (s.eccTouches l) := by
  unfold State.eccTouches
  split
  · exact SameCores.rfl' s
  · exact SameCores.foldl _ eccTouch_same l s

theorem eccClear_same (s : State) (w : Nat) : SameCores s (s.eccClear w) := by
  unfold State.eccClear
  split <;> exact ⟨rfl, rfl, rfl, rfl, rfl, rfl, rfl, rfl⟩

theorem tagFetch_same (s : State) (c : Nat) : SameCores s (s.tagFetch c).2 := by
  unfold State.tagFetch
  simp only
  repeat' split
  all_goals refine ⟨?_, ?_, ?_, ?_, ?_, ?_, ?_, ?_⟩ <;> simp

theorem tagRecord_anv (s : State) (c m pc : Nat) (w : Word48) (b t u : Nat) (g : Bool) :
    (s.tagRecord c m pc w b t u g).anv = s.anv := rfl

@[simp] theorem core_setCore (s : State) (c : Nat) (k : CoreSt) : (s.setCore c k).core c = k := by
  simp [State.core, State.setCore]

theorem core_setCore_ne (s : State) {d c : Nat} {k : CoreSt} (h : d ≠ c) : (s.setCore d k).core c = s.core c := by
  simp [State.core, State.setCore, Store.get_set_ne _ _ _ h]

theorem core_of_anv {s t : State} (h : t.anv = s.anv) (c : Nat) : t.core c = s.core c := by
  simp [State.core, h]

theorem mod?_of_anv {s t : State} (h : t.anv = s.anv) (m : Nat) : t.mod? m = s.mod? m := by
  simp [State.mod?, h]

theorem aenv_same {s t : State} (h : SameCores s t) (c m : Nat) (md : Mod) : t.aenv c m md = s.aenv c m md := by
  simp [State.aenv, State.regionBases, State.limitOf, h.2.1, h.2.2.1, h.2.2.2.1]

theorem limitOf_same {s t : State} (h : t.eng = s.eng) (g : Image) : t.limitOf g = s.limitOf g := by
  simp [State.limitOf, h]

/-- A state with no upset word has nothing to correct. -/
theorem eccTouches_quiet {s : State} (h : s.fab.upset = []) (l : List Nat) : s.eccTouches l = s := by
  unfold State.eccTouches; rw [if_pos h]

theorem eccClears_quiet {s : State} (h : s.fab.upset = []) (l : List Nat) : l.foldl State.eccClear s = s := by
  induction l with
  | nil => rfl
  | cons w ws ih =>
    have e : s.eccClear w = s := by unfold State.eccClear; simp [h]
    simp only [List.foldl_cons, e, ih]

theorem events_quiet {s : State} (h : s.listed Attr.cntControl = []) (e d : Nat) : s.events e d = s := by
  unfold State.events; rw [if_pos (.inl h)]

theorem tagFetch_quiet {s : State} {c : Nat} (h : bit (s.n Attr.cntTagCores 0x100 0) c = false) : s.tagFetch c =
    (false, { s with hlt := { s.hlt with lfsr := Store.put s.hlt.lfsr c (ditherStep (Store.get 1 s.hlt.lfsr c)) } }) := by
  have e : ∀ t : State, t.attrs = s.attrs → bit (t.n Attr.cntTagCores 0x100 0) c = false := by
    intro t ht; simpa [State.n, State.a, ht] using h
  unfold State.tagFetch
  have e' : bit (({ s with hlt := { s.hlt with lfsr := Store.put s.hlt.lfsr c (ditherStep (Store.get 1 s.hlt.lfsr c)) } } :
    State).n Attr.cntTagCores 0x100 0) c = false := e _ rfl
  simp only [e', Bool.false_and, Bool.false_eq_true, if_false]

/-- What an instruction that a core fetches, whose body meets no bound and that ends within its meter leaves, before what it
does beyond its core: the core is as its body says, and nothing but counts, tags and corrections differs. -/
theorem runInstr_done {c m : Nat} {i : Instr} {md : Mod} {needs : Hazard} {body : AEnv → CoreSt → Except Nat Ran} {r : Ran}
    {s : State} (hf : s.fetches c i m md) (hb : body (s.aenv c m md) (s.regsAt c) = .ok r)
    (hm : (s.core c).meter + s.cyclesOf c needs r ≤ s.limitOf md.image) :
    ∃ u : State, SameRest (s.setCore c (s.coreAfter c needs r)) u ∧ (s.quiet c → u = s.tagStepped c (s.coreAfter c needs r)) ∧
      runInstr c i needs body s = (r.after (r.bank u)).fetchBound c m md := by
  obtain ⟨h1, h2⟩ := hf
  have hs := (eccTouches_same s [(s.fetchWord c md).2]).trans (tagFetch_same (s.eccTouches [(s.fetchWord c md).2]) c)
  have hq : s.quiet c → (s.eccTouches [(s.fetchWord c md).2]).tagFetch c =
      (false, { s with hlt := { s.hlt with lfsr := Store.put s.hlt.lfsr c (ditherStep (Store.get 1 s.hlt.lfsr c)) } }) := by
    intro q; rw [eccTouches_quiet q.1, tagFetch_quiet q.2.2]
  unfold runInstr
  simp only [h1, h2, ne_eq, not_true, if_false]
  simp only [aenv_same hs]
  have hb' : body (s.aenv c m md) { s.core c with stack := (loopEnd (s.core c).pc (s.core c).stack).1 } = .ok r := hb
  simp only [hb']
  have hl : ((s.eccTouches [(s.fetchWord c md).2]).tagFetch c).2.limitOf md.image = s.limitOf md.image := limitOf_same hs.2.2.1 _
  rw [if_neg (by rw [hl]; exact Nat.not_lt.mpr hm)]
  generalize hT : (s.eccTouches [(s.fetchWord c md).2]).tagFetch c = T at hs hq ⊢
  generalize hP : (if T.1 = true then T.2.tagRecord c m (s.core c).pc (s.fetchWord c md).1 md.blocks
    (r.cost + b2n (hazardOf (s.core c).haz needs != 0)) (if r.cause ≠ 0 then r.cause else hazardOf (s.core c).haz needs) false
    else T.2) = P
  have hp : SameRest s P := by
    subst hP
    split
    · exact hs.rest
    · exact hs.rest
  generalize hE : r.writes.foldl State.eccClear (P.eccTouches r.reads) = E
  have he : SameCores P E := by
    subst hE; exact (eccTouches_same P r.reads).trans (SameCores.foldl State.eccClear eccClear_same r.writes _)
  have hv : ∀ (t : State) (a b d : Nat) (g : Bool), SameRest t ((if g = true then t.event a else t).events b d) := by
    intro t a b d g
    cases g <;> refine ⟨?_, ?_, ?_, ?_, ?_, ?_, ?_⟩ <;> simp
  refine ⟨_, ?_, ?_, rfl⟩
  · exact ((hp.trans he.rest).setCore c _).trans (hv _ _ _ _ _)
  · intro q
    have hT' := hq q
    subst hT'
    have hP' : P = { s with hlt := { s.hlt with lfsr := Store.put s.hlt.lfsr c (ditherStep (Store.get 1 s.hlt.lfsr c)) } } := by
      subst hP; rfl
    have hE' : E = { s with hlt := { s.hlt with lfsr := Store.put s.hlt.lfsr c (ditherStep (Store.get 1 s.hlt.lfsr c)) } } := by
      subst hE; rw [hP', eccTouches_quiet, eccClears_quiet]
      · exact q.1
      · exact q.1
    have hl2 : ∀ t : State, t.attrs = s.attrs → t.listed Attr.cntControl = [] := by
      intro t ht; have := q.2.1; simpa [State.listed, ht] using this
    subst hE'
    have hz : ∀ (t : State) (a b d : Nat) (g : Bool), t.attrs = s.attrs → (if g = true then t.event a else t).events b d = t := by
      intro t a b d g ht
      have h3 : (if g = true then t.event a else t) = t := by
        unfold State.event
        rw [events_quiet (hl2 t ht)]
        exact ite_self _
      rw [h3, events_quiet (hl2 t ht)]
    exact hz _ _ _ _ _ rfl

/-- A fetched instruction that meets a bound stops its module with that fault. -/
theorem runInstr_fault {c m : Nat} {i : Instr} {md : Mod} {needs : Hazard} {body : AEnv → CoreSt → Except Nat Ran} {x : Nat}
    {s : State} (hf : s.fetches c i m md) (hb : body (s.aenv c m md) (s.regsAt c) = .error x) :
    ∃ u : State, u.anv = s.anv ∧ runInstr c i needs body s = u.moduleFault c m x := by
  obtain ⟨h1, h2⟩ := hf
  have hs := (eccTouches_same s [(s.fetchWord c md).2]).trans (tagFetch_same (s.eccTouches [(s.fetchWord c md).2]) c)
  unfold runInstr
  simp only [h1, h2, ne_eq, not_true, if_false, aenv_same hs]
  have hb' : body (s.aenv c m md) { s.core c with stack := (loopEnd (s.core c).pc (s.core c).stack).1 } = .error x := hb
  simp only [hb']
  refine ⟨_, ?_, rfl⟩
  split
  · exact hs.1
  · exact hs.1

/-- A fetched word that decodes to nothing stops its module. -/
theorem undefined_fault {c m : Nat} {md : Mod} {s : State} (h1 : s.runs c = some (m, md))
    (h2 : decodeAnvil c (s.core c).pc (s.fetchWord c md).1 = none) :
    ∃ u : State, u.anv = s.anv ∧ undefinedInstruction c s = u.moduleFault c m fUndefined := by
  have hs := (eccTouches_same s [(s.fetchWord c md).2]).trans (tagFetch_same (s.eccTouches [(s.fetchWord c md).2]) c)
  unfold undefinedInstruction
  simp only [h1, h2, Option.isSome_none, if_false, Bool.false_eq_true]
  refine ⟨_, ?_, rfl⟩
  split
  · exact hs.1
  · exact hs.1

/-! ### Event lines, posted writes and banks -/

/-- A pulse leaves every core but for the latch of its line, and what memory, planes and modules hold. -/
theorem latchOn_core (s : State) (l d c : Nat) : ∃ h, (s.latchOn l d).core c = { s.core c with latch := h } ∧
    (∀ x, x ≠ l → Store.get false h x = Store.get false (s.core c).latch x) ∧
    (Store.get false (s.core c).latch l = true ∨ d = c → Store.get false h l = true) := by
  unfold State.latchOn
  simp only
  split
  · rename_i h
    have e : (s.bump Attr.coreEvCoalesced d 0).core c = s.core c := core_of_anv (bump_same _ _ _ _).1 c
    rw [e]
    refine ⟨(s.core c).latch, rfl, fun _ _ => rfl, fun hh => ?_⟩
    rcases hh with hh | rfl
    · exact hh
    · exact h
  · by_cases hd : d = c
    · subst hd
      rw [core_setCore]
      exact ⟨_, rfl, fun x hx => Store.get_set_ne false _ true (Ne.symm hx), fun _ => Store.get_set_self false _ l true⟩
    · rw [core_setCore_ne s hd]
      exact ⟨(s.core c).latch, rfl, fun _ _ => rfl, fun hh => hh.elim id fun h => absurd h hd⟩

theorem latchOn_rest (s : State) (l d : Nat) : (s.latchOn l d).eng = s.eng ∧ (s.latchOn l d).fab = s.fab ∧ (s.latchOn l d).cru = s.cru ∧
    (s.latchOn l d).anv.mods = s.anv.mods := by
  unfold State.latchOn
  simp only
  split
  · refine ⟨?_, ?_, ?_, ?_⟩ <;> simp
  · exact ⟨rfl, rfl, rfl, rfl⟩

theorem pulse_core (s : State) (l c : Nat) (h : c < 48) : ((s.pulse l).core c).pc = (s.core c).pc ∧
    Store.get false ((s.pulse l).core c).latch l = true ∧ (∀ n, (s.pulse l).mod? n = s.mod? n) ∧
    (∀ a, (s.pulse l).readByte a = s.readByte a) ∧
    ∀ d x, x ≠ l → Store.get false ((s.pulse l).core d).latch x = Store.get false (s.core d).latch x := by
  have key : ∀ (ds : List Nat) (t : State) (c : Nat), ∃ h, (ds.foldl (fun s d => s.latchOn l d) t).core c = { t.core c with latch := h } ∧
      (∀ x, x ≠ l → Store.get false h x = Store.get false (t.core c).latch x) ∧
      (Store.get false (t.core c).latch l = true ∨ c ∈ ds → Store.get false h l = true) := by
    intro ds
    induction ds with
    | nil => intro t c; exact ⟨(t.core c).latch, rfl, fun _ _ => rfl, fun h => h.elim id fun h => absurd h (List.not_mem_nil)⟩
    | cons d ds ih =>
      intro t c
      obtain ⟨h1, e1, f1, g1⟩ := latchOn_core t l d c
      obtain ⟨h2, e2, f2, g2⟩ := ih (t.latchOn l d) c
      refine ⟨h2, by rw [List.foldl_cons, e2, e1], fun x hx => ?_, fun hh => g2 ?_⟩
      · rw [f2 x hx, e1]; exact f1 x hx
      · rw [e1]
        rcases hh with hh | hh
        · exact .inl (g1 (.inl hh))
        · rcases List.mem_cons.mp hh with rfl | hh
          · exact .inl (g1 (.inr rfl))
          · exact .inr hh
  have rest : ∀ (ds : List Nat) (t : State), (ds.foldl (fun s d => s.latchOn l d) t).eng = t.eng ∧
      (ds.foldl (fun s d => s.latchOn l d) t).fab = t.fab ∧ (ds.foldl (fun s d => s.latchOn l d) t).cru = t.cru ∧
      (ds.foldl (fun s d => s.latchOn l d) t).anv.mods = t.anv.mods := by
    intro ds
    induction ds with
    | nil => intro t; exact ⟨rfl, rfl, rfl, rfl⟩
    | cons d ds ih =>
      intro t
      obtain ⟨a1, a2, a3, a4⟩ := latchOn_rest t l d
      obtain ⟨b1, b2, b3, b4⟩ := ih (t.latchOn l d)
      exact ⟨b1.trans a1, b2.trans a2, b3.trans a3, b4.trans a4⟩
  obtain ⟨r1, r2, r3, r4⟩ := rest (List.range 48) s
  have e : ∀ t : State, ((if (t.triggerOf l).isSome then { t with tng := { t.tng with pulses := t.tng.pulses ++ [l] } } else t).event
      (0x100 + l)).anv = t.anv ∧ ((if (t.triggerOf l).isSome then { t with tng := { t.tng with pulses := t.tng.pulses ++ [l] } } else
      t).event (0x100 + l)).eng = t.eng ∧ ((if (t.triggerOf l).isSome then { t with tng := { t.tng with pulses := t.tng.pulses ++ [l] } }
      else t).event (0x100 + l)).fab = t.fab ∧ ((if (t.triggerOf l).isSome then { t with tng := { t.tng with pulses := t.tng.pulses ++
      [l] } } else t).event (0x100 + l)).cru = t.cru := by
    intro t
    simp only [State.event_anv, State.event_eng, State.event_fab, State.event_cru]
    split <;> exact ⟨rfl, rfl, rfl, rfl⟩
  obtain ⟨e1, e2, e3, e4⟩ := e ((List.range 48).foldl (fun s d => s.latchOn l d) s)
  have hp : s.pulse l = ((if (((List.range 48).foldl (fun s d => s.latchOn l d) s).triggerOf l).isSome then
      { (List.range 48).foldl (fun s d => s.latchOn l d) s with
        tng := { ((List.range 48).foldl (fun s d => s.latchOn l d) s).tng with
          pulses := ((List.range 48).foldl (fun s d => s.latchOn l d) s).tng.pulses ++ [l] } }
      else (List.range 48).foldl (fun s d => s.latchOn l d) s).event (0x100 + l)) := by unfold State.pulse; rfl
  rw [← hp] at e1 e2 e3 e4
  have hc : ∀ d, (s.pulse l).core d = ((List.range 48).foldl (fun s d => s.latchOn l d) s).core d := fun d => core_of_anv e1 d
  obtain ⟨h1, k1, k2, k3⟩ := key (List.range 48) s c
  refine ⟨by rw [hc, k1], by rw [hc, k1]; exact k3 (.inr (List.mem_range.mpr h)), fun n => ?_, fun a => ?_, fun d x hx => ?_⟩
  · simp only [State.mod?, e1, r4]
  · have hm : (s.pulse l).fab = s.fab := e3.trans r2
    unfold State.readByte
    have hk : ∀ d, ((s.pulse l).core d).pm = (s.core d).pm ∧ ((s.pulse l).core d).x = (s.core d).x ∧
        ((s.pulse l).core d).y = (s.core d).y := by
      intro d; obtain ⟨h, i1, -⟩ := key (List.range 48) s d
      rw [hc, i1]; exact ⟨rfl, rfl, rfl⟩
    cases areaOf a <;> simp only [hm]
    · simp only [windowByte, (hk _).1, (hk _).2.1, (hk _).2.2]
    · simp only [State.nodeKeyAt, State.planeOf, e4.trans r3, e2.trans r1]
  · obtain ⟨h, i1, i2, -⟩ := key (List.range 48) s d
    rw [hc, i1]; exact i2 x hx

/-- With no posted write waiting there is none to drain. -/
theorem drain_none {s : State} {c : Nat} (h : (s.core c).wbuf = []) : s.drain c = s := by
  have e : s.drainOne c = s := by
    unfold State.drainOne
    simp only [h]
  unfold State.drain
  rw [e, e, e, e]

/-- Waiting at the banks touches no core and no memory. -/
theorem gateServe_same (c : Nat) (l : List (Nat × Bool)) (gs : List Gate) (s : State) : SameCores s (s.gateServe c l gs).2 := by
  induction l generalizing gs s with
  | nil => exact SameCores.rfl' s
  | cons e l ih =>
    obtain ⟨a, atomic⟩ := e
    unfold State.gateServe
    simp only
    refine SameCores.trans ?_ (ih _ _)
    split
    · exact ⟨rfl, rfl, rfl, rfl, rfl, rfl, rfl, rfl⟩
    · refine ⟨?_, ?_, ?_, ?_, ?_, ?_, ?_, ?_⟩ <;> simp

/-- What memory holds after byte `b` is written at `a`, with its second copy at `x` where the place moves (R197). -/
def putByte (x : Option Nat) (m : Store Byte) (a : Nat) (b : Byte) : Store Byte :=
  match x with
  | some d => Store.set 0 (Store.set 0 m a b) d b
  | none => Store.set 0 m a b

/-- The byte written reads back. -/
theorem get_putByte_self (x : Option Nat) (m : Store Byte) (a : Nat) (b : Byte) : Store.get 0 (putByte x m a b) a = b := by
  unfold putByte
  cases x with
  | none => exact Store.get_set_self _ _ _ _
  | some d =>
    simp only
    by_cases h : d = a
    · subst h; exact Store.get_set_self _ _ _ _
    · rw [Store.get_set_ne 0 _ _ h, Store.get_set_self]

/-- A byte that is neither the one written nor its second copy is as it was. -/
theorem get_putByte_ne {y : Option Nat} {m : Store Byte} {a x : Nat} {b : Byte} (h : a ≠ x) (hc : y ≠ some x) :
    Store.get 0 (putByte y m a b) x = Store.get 0 m x := by
  unfold putByte
  cases y with
  | none => exact Store.get_set_ne 0 _ _ h
  | some d => simp only; rw [Store.get_set_ne 0 _ _ (by rintro rfl; exact hc rfl), Store.get_set_ne 0 _ _ h]

theorem writeByte_bank {s : State} {a : Nat} (b : Byte) (h : a < 0x400000) :
    s.writeByte a b = { s with fab := { s.fab with mem := putByte (s.copyAt a) s.fab.mem a b } } := by
  unfold State.writeByte areaOf putByte
  rw [if_pos h]
  all_goals (cases s.copyAt a <;> rfl)

theorem readByte_bank {s : State} {a : Nat} (h : a < 0x400000) : s.readByte a = Store.get 0 s.fab.mem a := by
  unfold State.readByte areaOf
  rw [if_pos h]

/-- Where the second copy of a byte lies, the placement says. -/
theorem copyAt_plc {s t : State} (h : t.plc = s.plc) (a : Nat) : t.copyAt a = s.copyAt a := by
  unfold State.copyAt; rw [h]

/-- Where the second copy of a byte lies is no matter of the fabric. -/
theorem copyAt_fab (s : State) (f : Fab) (a : Nat) : ({ s with fab := f } : State).copyAt a = s.copyAt a := rfl

/-- What memory holds after word `w` is written at `a`; `y` says where second copies lie. -/
def putWord (y : Nat → Option Nat) (m : Store Byte) (a : Nat) (w : BitVec 32) : Store Byte :=
  putByte (y (a + 1 + 1 + 1)) (putByte (y (a + 1 + 1)) (putByte (y (a + 1)) (putByte (y a) m a (byteOf (w.toNat % 256))) (a + 1)
    (byteOf (w.toNat / 256 % 256))) (a + 1 + 1) (byteOf (w.toNat / 256 / 256 % 256))) (a + 1 + 1 + 1)
    (byteOf (w.toNat / 256 / 256 / 256 % 256))

/-- A word written to a scratch bank changes memory alone. -/
theorem writeBytes_bank (s : State) {a : Nat} (w : BitVec 32) (h : a + 4 ≤ 0x400000) :
    s.writeBytes a (leBytes 4 w.toNat) = { s with fab := { s.fab with mem := putWord s.copyAt s.fab.mem a w } } := by
  have h0 : a < 0x400000 := by omega
  have h1 : a + 1 < 0x400000 := by omega
  have h2 : a + 1 + 1 < 0x400000 := by omega
  have h3 : a + 1 + 1 + 1 < 0x400000 := by omega
  simp only [leBytes, State.writeBytes, writeByte_bank _ h0, writeByte_bank _ h1, writeByte_bank _ h2, writeByte_bank _ h3,
    copyAt_fab]
  rfl

/-- A word written to a scratch bank reads back where its second copy lies elsewhere; its cores and every byte but those
written and their copies are as they were. -/
theorem word32_writeBytes (s : State) {a : Nat} (w : BitVec 32) (h : a + 4 ≤ 0x400000)
    (hc : ∀ i j, i < 4 → j < 4 → s.copyAt (a + i) ≠ some (a + j)) :
    (s.writeBytes a (leBytes 4 w.toNat)).word32 a = w.toNat ∧
    ∃ mem, s.writeBytes a (leBytes 4 w.toNat) = { s with fab := { s.fab with mem := mem } } ∧
      ∀ b, ¬ ((a ≤ b ∧ b < a + 4) ∨ ∃ i, i < 4 ∧ s.copyAt (a + i) = some b) → Store.get 0 mem b = Store.get 0 s.fab.mem b := by
  have h0 : a < 0x400000 := by omega
  have h1 : a + 1 < 0x400000 := by omega
  have h2 : a + 1 + 1 < 0x400000 := by omega
  have h3 : a + 1 + 1 + 1 < 0x400000 := by omega
  simp only [leBytes, State.writeBytes, writeByte_bank _ h0, writeByte_bank _ h1, writeByte_bank _ h2, writeByte_bank _ h3,
    copyAt_fab]
  have hc' : ∀ i j, i < 4 → j < 4 → ∀ x y, x = a + i → y = a + j → s.copyAt x ≠ some y := by
    intro i j hi hj x y hx hy; subst hx; subst hy; exact hc i j hi hj
  refine ⟨?_, _, rfl, fun b hb => ?_⟩
  · simp only [State.word32, State.readBytes, readByte_bank h0, readByte_bank h1, readByte_bank h2, readByte_bank h3]
    rw [get_putByte_ne (by omega) (hc' 3 0 (by omega) (by omega) _ _ (by omega) (by omega)),
      get_putByte_ne (by omega) (hc' 2 0 (by omega) (by omega) _ _ (by omega) (by omega)),
      get_putByte_ne (by omega) (hc' 1 0 (by omega) (by omega) _ _ (by omega) (by omega)), get_putByte_self,
      get_putByte_ne (by omega) (hc' 3 1 (by omega) (by omega) _ _ (by omega) (by omega)),
      get_putByte_ne (by omega) (hc' 2 1 (by omega) (by omega) _ _ (by omega) (by omega)), get_putByte_self,
      get_putByte_ne (by omega) (hc' 3 2 (by omega) (by omega) _ _ (by omega) (by omega)), get_putByte_self, get_putByte_self]
    have hw := w.isLt
    simp only [leNat, byteOf, BitVec.toNat_ofNat]
    omega
  · have hn : ∀ i, i < 4 → ∀ x, x = a + i → s.copyAt x ≠ some b := by
      intro i hi x hx e; subst hx; exact hb (.inr ⟨i, hi, e⟩)
    rw [get_putByte_ne (by omega) (hn 3 (by omega) _ (by omega)), get_putByte_ne (by omega) (hn 2 (by omega) _ (by omega)),
      get_putByte_ne (by omega) (hn 1 (by omega) _ (by omega)), get_putByte_ne (by omega) (hn 0 (by omega) _ (by omega))]

/-- A bank word reads the same in states that share memory. -/
theorem word32_mem {s t : State} {a : Nat} (h : t.fab.mem = s.fab.mem) (ha : a + 4 ≤ 0x400000) : t.word32 a = s.word32 a := by
  have h0 : a < 0x400000 := by omega
  have h1 : a + 1 < 0x400000 := by omega
  have h2 : a + 1 + 1 < 0x400000 := by omega
  have h3 : a + 1 + 1 + 1 < 0x400000 := by omega
  simp only [State.word32, State.readBytes, readByte_bank h0, readByte_bank h1, readByte_bank h2, readByte_bank h3, h]

/-- A byte that a word's write does not reach is as it was. -/
theorem get_putWord_ne {s : State} {m : Store Byte} {a b : Nat} {w : BitVec 32} (hb : ¬ s.wordStored a b) :
    Store.get 0 (putWord s.copyAt m a w) b = Store.get 0 m b := by
  have hn : ∀ i, i < 4 → ∀ x, x = a + i → s.copyAt x ≠ some b := by
    intro i hi x hx e; subst hx; exact hb (.inr ⟨i, hi, e⟩)
  have ha : ¬ (a ≤ b ∧ b < a + 4) := fun h => hb (.inl h)
  unfold putWord
  rw [get_putByte_ne (by omega) (hn 3 (by omega) _ (by omega)), get_putByte_ne (by omega) (hn 2 (by omega) _ (by omega)),
    get_putByte_ne (by omega) (hn 1 (by omega) _ (by omega)), get_putByte_ne (by omega) (hn 0 (by omega) _ (by omega))]

/-- What memory holds after the banks have taken the posted writes `l`, oldest first. -/
def putPosts (y : Nat → Option Nat) (l : List (Nat × BitVec 32)) (m : Store Byte) : Store Byte :=
  l.foldl (fun m e => putWord y m e.1 e.2) m

/-- A byte that no posted write reaches is as it was. -/
theorem get_putPosts_ne {s : State} {l : List (Nat × BitVec 32)} {m : Store Byte} {b : Nat} (hb : ¬ ∃ w ∈ l, s.wordStored w.1 b) :
    Store.get 0 (putPosts s.copyAt l m) b = Store.get 0 m b := by
  induction l generalizing m with
  | nil => rfl
  | cons e l ih =>
    show Store.get 0 (putPosts s.copyAt l (putWord s.copyAt m e.1 e.2)) b = _
    rw [ih fun ⟨w, hw, h⟩ => hb ⟨w, List.mem_cons_of_mem _ hw, h⟩, get_putWord_ne fun h => hb ⟨e, List.mem_cons_self .., h⟩]

/-- State `t` is `s` with posted writes of core `c` taken: `l` is left of them, and memory is `m`. -/
def Drained (s : State) (c : Nat) (l : List (Nat × BitVec 32)) (m : Store Byte) (t : State) : Prop :=
  t.core c = { s.core c with wbuf := l } ∧ (∀ d, d ≠ c → t.core d = s.core d) ∧ t.anv.mods = s.anv.mods ∧ t.plc = s.plc ∧
    t.eng = s.eng ∧ t.lck.shadow = s.lck.shadow ∧ t.fab.mem = m ∧ t.cru = s.cru ∧ t.pending = s.pending

/-- The bank takes the oldest posted write of core `c`: its word is stored, and the core keeps the others. -/
theorem drainOne_bank {s : State} {c : Nat} (h : ∀ w ∈ (s.core c).wbuf.take 1, w.1 + 4 ≤ 0x400000) :
    Drained s c ((s.core c).wbuf.drop 1) (putPosts s.copyAt ((s.core c).wbuf.take 1) s.fab.mem) (s.drainOne c) := by
  cases hw : (s.core c).wbuf with
  | nil =>
    have e : s.drainOne c = s := by unfold State.drainOne; simp only [hw]
    rw [e]
    exact ⟨by rw [List.drop_nil, ← hw], fun _ _ => rfl, rfl, rfl, rfl, rfl, rfl, rfl, rfl⟩
  | cons e rest =>
    obtain ⟨a, w⟩ := e
    unfold State.drainOne
    simp only [hw]
    have ha : a + 4 ≤ 0x400000 := h (a, w) (by rw [hw]; exact List.mem_cons_self ..)
    generalize hy : (s.setCore c { s.core c with wbuf := rest }).eccClear (wordOf a) = y
    have hs : SameCores (s.setCore c { s.core c with wbuf := rest }) y := hy ▸ eccClear_same _ _
    rw [writeBytes_bank y w ha]
    obtain ⟨h1, h2, h3, h4, h5, h6, h7, h8⟩ := hs
    have hc : y.copyAt = s.copyAt := by funext x; exact copyAt_plc h2 x
    refine ⟨(core_of_anv h1 c).trans (core_setCore _ _ _), fun d hd => (core_of_anv h1 d).trans (core_setCore_ne _ (Ne.symm hd)), ?_, h2,
      h3, h5, ?_, h7, h8⟩
    · show y.anv.mods = _
      rw [h1]; rfl
    · show putWord y.copyAt y.fab.mem a w = putWord s.copyAt s.fab.mem a w
      rw [hc, h6]; rfl

theorem Drained.next {s t : State} {c : Nat} {l : List (Nat × BitVec 32)} {m : Store Byte} (h : Drained s c l m t)
    (hl : ∀ w ∈ l, w.1 + 4 ≤ 0x400000) : Drained s c (l.drop 1) (putPosts s.copyAt (l.take 1) m) (t.drainOne c) := by
  obtain ⟨h1, h2, h3, h4, h5, h6, h7, h8, h9⟩ := h
  have hk : (t.core c).wbuf = l := by rw [h1]
  obtain ⟨g1, g2, g3, g4, g5, g6, g7, g8, g9⟩ := drainOne_bank (s := t) (c := c) (by rw [hk]; exact fun w h => hl w (List.mem_of_mem_take h))
  have hcp : t.copyAt = s.copyAt := by funext x; exact copyAt_plc h4 x
  refine ⟨by rw [g1, hk, h1], fun d hd => (g2 d hd).trans (h2 d hd), g3.trans h3, g4.trans h4, g5.trans h5, g6.trans h6, ?_, g8.trans h8,
    g9.trans h9⟩
  rw [g7, hcp, hk, h7]

/-- The banks take every posted write of core `c`. -/
theorem drain_bank {s : State} {c : Nat} (h : s.posts c) :
    Drained s c [] (putPosts s.copyAt (s.core c).wbuf s.fab.mem) (s.drain c) := by
  obtain ⟨hlen, hb⟩ := h
  have hb' : ∀ w ∈ (s.core c).wbuf, w.1 + 4 ≤ 0x400000 := fun w hw => (hb w hw).1
  have h0 : Drained s c (s.core c).wbuf s.fab.mem s := ⟨rfl, fun _ _ => rfl, rfl, rfl, rfl, rfl, rfl, rfl, rfl⟩
  unfold State.drain
  generalize (s.core c).wbuf = l at hlen hb' h0 ⊢
  have g1 := h0.next hb'
  have g2 := g1.next (fun w h => hb' w (List.mem_of_mem_drop h))
  have g3 := g2.next (fun w h => hb' w (List.mem_of_mem_drop (List.mem_of_mem_drop h)))
  have g4 := g3.next (fun w h => hb' w (List.mem_of_mem_drop (List.mem_of_mem_drop (List.mem_of_mem_drop h))))
  match l, hlen with
  | [], _ => exact g4
  | [_], _ => exact g4
  | [_, _], _ => exact g4
  | [_, _, _], _ => exact g4
  | [_, _, _, _], _ => exact g4

/-- Where the fetch after it stays below Sp, nothing more happens. -/
theorem fetchBound_below {s : State} {c m : Nat} {md : Mod} (h : (s.core c).pc < md.image.sp) : s.fetchBound c m md = s := by
  unfold State.fetchBound
  simp only
  rw [if_neg (by omega)]

/-- A byte reads the same in states that agree on memory, on the core whose window it is in, on the planes and the engine. -/
theorem readByte_of {s t : State} {a : Nat} (hm : Store.get 0 t.fab.mem a = Store.get 0 s.fab.mem a) (hc : t.cru = s.cru)
    (he : t.eng = s.eng) (hw : ∀ d o, areaOf a = .window d o → t.core d = s.core d) : t.readByte a = s.readByte a := by
  unfold State.readByte
  cases ha : areaOf a <;> simp only [hm]
  · rw [hw _ _ ha]
  · simp only [State.nodeKeyAt, State.planeOf, hc, he]

/-- States that agree on all but core `c`, and on memory but for the bytes stored, after posted writes have been taken. -/
theorem elsewhere_drained {s u v t : State} {c : Nat} {stored : Nat → Prop} {k : CoreSt} {l : List (Nat × BitVec 32)} {m : Store Byte}
    (hu : SameRest (s.setCore c k) u) (hv : Drained u c l m v) (ha : t.anv = v.anv ∨ ∃ k', t.anv = (v.setCore c k').anv)
    (hp : t.plc = v.plc) (he : t.eng = v.eng) (hc : t.cru = v.cru) (hq : t.pending = v.pending)
    (hm : ∀ a, ¬ stored a → Store.get 0 t.fab.mem a = Store.get 0 s.fab.mem a) : s.elsewhere c stored t := by
  obtain ⟨h1, h2, h3, h5, h6, h7, h8⟩ := hu
  obtain ⟨g1, g2, g3, g4, g5, g6, g7, g8, g9⟩ := hv
  have hd : ∀ d, d ≠ c → t.core d = s.core d := by
    intro d hd
    have e : v.core d = s.core d := (g2 d hd).trans ((core_of_anv h1 d).trans (core_setCore_ne s (Ne.symm hd)))
    rcases ha with h | ⟨k', h⟩
    · rw [core_of_anv h, e]
    · rw [core_of_anv h, core_setCore_ne v (Ne.symm hd), e]
  have hmod : ∀ m, t.mod? m = s.mod? m := by
    intro m
    have e : v.mod? m = s.mod? m := by
      refine Eq.trans ?_ (mod?_of_anv (s := s.setCore c k) h1 m)
      unfold State.mod?
      rw [g3]
    rcases ha with h | ⟨k', h⟩
    · rw [mod?_of_anv h, e]
    · exact (mod?_of_anv h m).trans e
  refine ⟨hd, hmod, fun a hs hw => ?_, hq.trans (g9.trans h8), he.trans (g5.trans h3), hc.trans (g8.trans h7), hp.trans (g4.trans h2)⟩
  refine readByte_of (hm a hs) (hc.trans (g8.trans h7)) (he.trans (g5.trans h3)) fun d o h => ?_
  by_cases e : d = c
  · subst e; exact absurd h (hw o)
  · exact hd d e

/-- States that agree on all but core `c`, and on memory but for the bytes stored. -/
theorem elsewhere_of {s t : State} {c : Nat} {stored : Nat → Prop} {k : CoreSt} {u : State} (hu : SameRest (s.setCore c k) u)
    (ha : t.anv = u.anv ∨ ∃ k', t.anv = (u.setCore c k').anv) (hp : t.plc = u.plc) (he : t.eng = u.eng) (hc : t.cru = u.cru)
    (hq : t.pending = u.pending) (hm : ∀ a, ¬ stored a → Store.get 0 t.fab.mem a = Store.get 0 u.fab.mem a) :
    s.elsewhere c stored t := by
  obtain ⟨h1, h2, h3, h5, h6, h7, h8⟩ := hu
  have hd : ∀ d, d ≠ c → t.core d = s.core d := by
    intro d hd
    have e : u.core d = s.core d := by rw [core_of_anv h1]; exact core_setCore_ne s (Ne.symm hd)
    rcases ha with h | ⟨k', h⟩
    · rw [core_of_anv h, e]
    · rw [core_of_anv h, core_setCore_ne u (Ne.symm hd), e]
  have hmod : ∀ m, t.mod? m = s.mod? m := by
    intro m
    have e : u.mod? m = s.mod? m := mod?_of_anv h1 m
    rcases ha with h | ⟨k', h⟩
    · rw [mod?_of_anv h, e]
    · exact (mod?_of_anv h m).trans e
  refine ⟨hd, hmod, fun a hs hw => ?_, hq.trans h8, he.trans h3, hc.trans h7, hp.trans h2⟩
  refine readByte_of ((hm a hs).trans (by rw [h6]; rfl)) (hc.trans h7) (he.trans h3) fun d o h => ?_
  by_cases e : d = c
  · subst e; exact absurd h (hw o)
  · exact hd d e

/-- An instruction that does nothing beyond its core leaves it as its body says, and all else as it was. -/
theorem runInstr_core {c m : Nat} {i : Instr} {md : Mod} {needs : Hazard} {body : AEnv → CoreSt → Except Nat Ran} {r : Ran}
    {s : State} (hf : s.fetches c i m md) (hb : body (s.aenv c m md) (s.regsAt c) = .ok r) (hm : s.fitsMeter c md needs r)
    (h1 : r.bank = id) (h2 : r.after = id) : s.wentOn c (s.coreAfter c needs r) (runInstr c i needs body s) := by
  obtain ⟨u, hu, hq, he⟩ := runInstr_done hf hb hm.1
  have hc : u.core c = s.coreAfter c needs r := (core_of_anv hu.1 c).trans (core_setCore _ _ _)
  have e : runInstr c i needs body s = u := by
    rw [he, h1, h2]
    show u.fetchBound c m md = u
    rw [fetchBound_below (by rw [hc]; exact hm.2)]
  rw [e]
  exact ⟨hc, elsewhere_of hu (.inl rfl) rfl rfl rfl rfl fun _ _ => rfl, hq⟩

end Sys2Proof.Machine
end

