-- ==== Sys2Proof/Laws/AnvilRuns.lean ====
section
/-! SUPPORT. From a body to a run: what an instruction's body gives is what its core and memory hold after it. -/

namespace Sys2Proof.Machine

/-- A format P instruction whose meaning is `runP` runs. -/
theorem runsP_of {c : Nat} {i : Instr} {mv : Moves} {arith : CoreSt → Arith} (h : ∀ s, exec i s = runP c i mv arith s) :
    RunsP c i mv arith := by
  intro s m md x y hf hm hfit
  refine ⟨_, h s, ?_⟩
  exact runInstr_core (r := (s.aenv c m md).retireP mv x y (arith (s.regsAt c)) (s.regsAt c)) hf
    (by simp only [bodyP, hm.1, hm.2]) hfit rfl rfl

/-- An instruction whose body gives a result runs. -/
theorem runs_of_body {c : Nat} {i : Instr} {needs : Hazard} {body : AEnv → CoreSt → Except Nat Ran} {f : State → AEnv → CoreSt → Option Ran}
    (hx : ∀ s, exec i s = .next (runInstr c i needs body s))
    (hf : ∀ s e k r, f s e k = some r → ∃ q, body e k = .ok q ∧ q.k = r.k ∧ q.next = r.next ∧ q.cost = r.cost ∧ q.wrote = r.wrote ∧ q.bank = id ∧ q.after = id) :
    Runs c i needs f := by
  intro s m md r hfe hr hfit
  obtain ⟨q, h1, h2, h3, h4, h5, h6, h7⟩ := hf _ _ _ _ hr
  refine ⟨_, hx s, ?_⟩
  have e : s.coreAfter c needs q = s.coreAfter c needs r := by
    simp only [State.coreAfter, State.cyclesOf, h2, h3, h4, h5]
  have := runInstr_core (r := q) hfe h1 (by
    unfold State.fitsMeter at hfit ⊢; rw [e]; simp only [State.cyclesOf, h4] at hfit ⊢; exact hfit) h6 h7
  rw [e] at this
  exact this

/-- A loop whose start gives a result has it from `loopBody`. -/
theorem loopBody_of {t n : Nat} {k : CoreSt} {r : Ran}
    (h : (if n = 0 then some ({ k := k, next := some (pcAfter t), cost := 2 } : Ran)
    else if k.stack.length < 4 then
      some { k := { k with stack := .loop (pcAfter k.pc) t n :: k.stack }, cost := 2 }
    else none) = some r) : ∃ q, loopBody t n k = .ok q ∧ q.k = r.k ∧ q.next = r.next ∧ q.cost = r.cost ∧ q.wrote = r.wrote ∧ q.bank = id ∧ q.after = id := by
  unfold loopBody
  split at h
  · rename_i h0; cases h; rw [if_pos h0]; exact ⟨_, rfl, rfl, rfl, rfl, rfl, rfl, rfl⟩
  · rename_i h0; rw [if_neg h0]
    split at h
    · rename_i h1; cases h; rw [if_neg (by omega)]; exact ⟨_, rfl, rfl, rfl, rfl, rfl, rfl, rfl⟩
    · cases h

/-- A core that runs nothing meets no fetch bound. -/
theorem fetchBound_idle {s : State} {c m : Nat} {md : Mod} (h : (s.core c).run = none) : s.fetchBound c m md = s := by
  unfold State.fetchBound
  simp only [h]
  rw [if_neg (by rintro ⟨h, -⟩; cases h)]

/-- The end of the last module of a block. -/
theorem endModule_last {s : State} {c m : Nat} {md : Mod} {released : Bool} (ht : s.onTrial c = false) (hr : (s.core c).run = some m)
    (hq : (s.core c).todo = []) (hw : (s.core c).wbuf = []) (hm : s.mod? m = some md) :
    ((s.endModule c released).core c).run = none ∧
      (s.endModule c released).mod? m = some { md with released := released } ∧
      (∀ a, (s.endModule c released).readByte a = s.readByte a) ∧ (∀ d, d ≠ c → (s.endModule c released).core d = s.core d) ∧
      ∀ n, n ≠ m → (s.endModule c released).mod? n = s.mod? n := by
  unfold State.endModule
  rw [if_neg (by simp [ht])]
  simp only [drain_none hw, hr, hm, hq, startNext]
  generalize hX : ((s.peak Attr.modCyclesPeak m 0 ↑(s.core c).meter).setMod m { md with released := released }) = X
  have hx : X.mod? m = some { md with released := released } := by
    subst hX; simp [State.mod?, State.setMod, Store.find?_put_self]
  have hx2 : ∀ n, n ≠ m → X.mod? n = s.mod? n := by
    intro n hn; subst hX; simp only [State.mod?, State.setMod, Store.find?_put_ne _ _ (Ne.symm hn), State.peak_anv]
  have hx3 : X.anv.cores = s.anv.cores ∧ X.fab = s.fab ∧ X.cru = s.cru ∧ X.eng = s.eng := by
    subst hX; refine ⟨?_, ?_, ?_, ?_⟩ <;> simp [State.setMod]
  have hcd : ∀ d, X.core d = s.core d := fun d => by simp only [State.core, hx3.1]
  refine ⟨?_, ?_, fun a => ?_, fun d hd => ?_, fun n hn => ?_⟩
  · simp only [State.core, State.peak_anv, State.set_anv]
    simp only [State.setCore, Store.get_set_self]
  · simp only [State.mod?, State.peak_anv, State.set_anv]
    exact hx
  · have hfin : ∀ (Y : State) (k1 k2 : CoreSt) (p q : Int), (∀ d, (Y.core d) = s.core d) → Y.fab = s.fab → Y.cru = s.cru → Y.eng = s.eng →
        k2.pm = (s.core c).pm → k2.x = (s.core c).x → k2.y = (s.core c).y → ∀ a,
        ((((Y.setCore c k1).setCore c k2).set Attr.coreCyclesLast c 0 p).peak Attr.coreCyclesPeak c 0 q).readByte a = s.readByte a := by
      intro Y k1 k2 p q h1 h2 h3 h4 h5 h6 h7 a
      unfold State.readByte
      have hk : ∀ d, ((((((Y.setCore c k1).setCore c k2).set Attr.coreCyclesLast c 0 p).peak Attr.coreCyclesPeak c 0 q)).core d).pm = (s.core d).pm ∧
          ((((((Y.setCore c k1).setCore c k2).set Attr.coreCyclesLast c 0 p).peak Attr.coreCyclesPeak c 0 q)).core d).x = (s.core d).x ∧
          ((((((Y.setCore c k1).setCore c k2).set Attr.coreCyclesLast c 0 p).peak Attr.coreCyclesPeak c 0 q)).core d).y = (s.core d).y := by
        intro d
        have e : (((((Y.setCore c k1).setCore c k2).set Attr.coreCyclesLast c 0 p).peak Attr.coreCyclesPeak c 0 q)).core d =
            ((Y.setCore c k1).setCore c k2).core d := core_of_anv (by rw [State.peak_anv, State.set_anv]) d
        rw [e]
        by_cases hd : c = d
        · subst hd; rw [core_setCore]; exact ⟨h5, h6, h7⟩
        · rw [core_setCore_ne _ hd, core_setCore_ne _ hd, h1]; exact ⟨rfl, rfl, rfl⟩
      cases areaOf a <;> simp only [State.peak_fab, State.set_fab, State.setCore_fab, h2]
      · simp only [windowByte, (hk _).1, (hk _).2.1, (hk _).2.2]
      · simp only [State.nodeKeyAt, State.planeOf, State.peak_cru, State.set_cru, State.setCore_cru, State.peak_eng, State.set_eng,
          State.setCore_eng, h3, h4]
    simp only [core_setCore]
    refine hfin X _ _ _ _ hcd hx3.2.1 hx3.2.2.1 hx3.2.2.2 ?_ ?_ ?_ a <;> rfl
  · have e : ∀ (Y : State) (k1 k2 : CoreSt) (p q : Int), ((((Y.setCore c k1).setCore c k2).set Attr.coreCyclesLast c 0 p).peak
        Attr.coreCyclesPeak c 0 q).core d = Y.core d := by
      intro Y k1 k2 p q
      refine (core_of_anv (s := (Y.setCore c k1).setCore c k2) (by rw [State.peak_anv, State.set_anv]) d).trans ?_
      rw [core_setCore_ne _ (Ne.symm hd), core_setCore_ne _ (Ne.symm hd)]
    exact (e _ _ _ _ _).trans (hcd d)
  · simp only [State.mod?, State.peak_anv, State.set_anv]
    exact hx2 n hn

/-- What is the same but for a core's registers reads the same. -/
theorem readByte_of_rest {s u : State} {c : Nat} {k : CoreSt} (h : SameRest (s.setCore c k) u) (hp : k.pm = (s.core c).pm)
    (hx : k.x = (s.core c).x) (hy : k.y = (s.core c).y) (a : Nat) : u.readByte a = s.readByte a := by
  obtain ⟨h1, h2, h3, h5, h6, h7, h8⟩ := h
  unfold State.readByte
  have hk : ∀ d, (u.core d).pm = (s.core d).pm ∧ (u.core d).x = (s.core d).x ∧ (u.core d).y = (s.core d).y := by
    intro d
    rw [core_of_anv h1]
    by_cases hd : c = d
    · subst hd; rw [core_setCore]; exact ⟨hp, hx, hy⟩
    · rw [core_setCore_ne _ hd]; exact ⟨rfl, rfl, rfl⟩
  cases areaOf a <;> simp only [h6]
  all_goals first
    | rfl
    | simp only [windowByte, (hk _).1, (hk _).2.1, (hk _).2.2]
    | (simp only [State.nodeKeyAt, State.planeOf, h7, h3]; rfl)

/-- The posted writes of a core go where they went, in a state that agrees on the core's buffer and the placement. -/
theorem posts_of {s u : State} {c : Nat} (hw : (u.core c).wbuf = (s.core c).wbuf) (hp : u.plc = s.plc) (h : s.posts c) : u.posts c := by
  refine ⟨by rw [hw]; exact h.1, fun w hm => ⟨(h.2 w (hw ▸ hm)).1, fun i j hi hj => ?_⟩⟩
  rw [copyAt_plc hp]; exact (h.2 w (hw ▸ hm)).2 i j hi hj

/-- A remote access that is ready takes its posted writes to the banks, waits, returns the old word, and stores the new one where
it is an atomic operation. -/
theorem remote_runs {c : Nat} {i : Instr} {rb : Fin 8} {acc : Fin 4} {ix : Bool} {xr : Fin 4} {off : BitVec 18} {gates : List Gate}
    {f : Option (BitVec 32 → BitVec 32 → BitVec 32 × Bool)} {needs : Hazard} {s : State} {m : Nat} {md : Mod} {a : Nat} {r0 : Ran}
    (hn0 : needs = { regs := [], accs := if f.isSome then [acc.val] else [], flags := false })
    (h0 : r0 = tookWord acc (16 + s.waitAt c a f.isSome gates) ((s.drain c).word32 a) f.isSome (s.regsAt c))
    (h : s.remoteReady c m md i a needs r0 fun e k => e.remote k rb ix xr off) :
    ∃ t, runRemote c gates i rb acc ix xr off f s = .next t ∧ t.core c = { s.coreAfter c needs r0 with wbuf := [] } ∧
      s.elsewhere c (fun b => s.posted c b ∨ (f.isSome = true ∧ s.wordStored a b)) t ∧
      (∀ b, b < 0x400000 → ¬ (f.isSome = true ∧ s.wordStored a b) → t.readByte b = (s.drain c).readByte b) ∧
      ∀ g, f = some g → t.word32 a = (g (BitVec.ofNat 32 ((s.drain c).word32 a))
        (remoteWord (s.core c).rm ((s.core c).accReg acc.val)).1).1.toNat := by
  obtain ⟨hf, ha, hw, hfit, hb, hcp⟩ := h
  refine ⟨_, show _ = Host.Outcome.next (runInstr c i needs (remoteBody c gates rb acc ix xr off f s) s) by subst hn0; rfl, ?_⟩
  clear hn0
  subst h0
  generalize hold : (s.drain c).word32 a = old at hfit ⊢
  generalize hwait : s.waitAt c a f.isSome gates = wait at hfit ⊢
  generalize hpre : (fun t : State => ((t.drain c).gateServe c ((s.core c).postedAccesses ++ [(a, f.isSome)]) gates).2.eccTouches
    [wordOf a]) = pre
  obtain ⟨r, hr, hk, hn, hcst, hwr, haf, hbk⟩ : ∃ r, remoteBody c gates rb acc ix xr off f s (s.aenv c m md) (s.regsAt c) = .ok r ∧
    r.k = (tookWord acc (16 + wait) old f.isSome (s.regsAt c)).k ∧ r.next = none ∧ r.cost = 16 + wait ∧
    r.wrote = { regs := [], accs := [acc.val], flags := false } ∧ r.after = id ∧ ∀ u, r.bank u =
      match f with
      | none => pre u
      | some g => ((if (g (BitVec.ofNat 32 old) (remoteWord (s.regsAt c).rm ((s.regsAt c).accReg acc.val)).1).2 = true then
          (pre u).bump Attr.memAtomicSat (a / 0x40000) 0 else pre u).eccClear (wordOf a)).writeBytes a
          (leBytes 4 (g (BitVec.ofNat 32 old) (remoteWord (s.regsAt c).rm ((s.regsAt c).accReg acc.val)).1).1.toNat) := by
    subst hold hwait hpre
    unfold remoteBody
    simp only [ha]
    refine ⟨_, rfl, rfl, rfl, rfl, rfl, rfl, fun u => ?_⟩
    cases f <;> rfl
  have ee : s.coreAfter c needs r = s.coreAfter c needs (tookWord acc (16 + wait) old f.isSome (s.regsAt c)) := by
    simp only [State.coreAfter, State.cyclesOf, hk, hn, hcst, hwr]
    rfl
  obtain ⟨u, hu, -, he⟩ := runInstr_done (i := i) (needs := needs) hf hr
    (by have := hfit.1; simp only [State.cyclesOf, hcst] at this ⊢; exact this)
  have hcore := ((core_of_anv hu.1 c).trans (core_setCore _ _ _)).trans ee
  rw [ee] at hu
  have hwu : (u.core c).wbuf = (s.core c).wbuf := by rw [hcore]; rfl
  have hcu : u.copyAt = s.copyAt := by funext x; exact copyAt_plc hu.2.1 x
  have hD := drain_bank (posts_of hwu hu.2.1 hw)
  rw [hwu, hcu, show u.fab.mem = s.fab.mem from hu.2.2.2.2.1] at hD
  have hS := drain_bank hw
  have hP : SameCores (u.drain c) (pre u) := by
    subst hpre; exact (gateServe_same c _ gates _).trans (eccTouches_same _ [wordOf a])
  have hpm : (pre u).fab.mem = putPosts s.copyAt (s.core c).wbuf s.fab.mem := hP.2.2.2.2.2.1.trans hD.2.2.2.2.2.2.1
  have hpc : (pre u).core c = { s.coreAfter c needs (tookWord acc (16 + wait) old f.isSome (s.regsAt c)) with wbuf := [] } := by
    rw [core_of_anv hP.1, hD.1, hcore]
  have hread : ∀ b, b < 0x400000 → (s.drain c).readByte b = Store.get 0 (putPosts s.copyAt (s.core c).wbuf s.fab.mem) b := by
    intro b hb; rw [readByte_bank hb, hS.2.2.2.2.2.2.1]
  obtain ⟨p1, p2, p3, p4, p5, p6, p7, p8⟩ := hP
  rw [he, haf, hbk]
  simp only [id]
  cases f with
  | none =>
    simp only
    rw [fetchBound_below (by rw [hpc]; exact hfit.2)]
    refine ⟨hpc, elsewhere_drained hu hD (.inl p1) p2 p3 p7 p8 fun b hb => ?_, fun b hb _ => ?_, fun g hg => by cases hg⟩
    · rw [hpm]; exact get_putPosts_ne fun h => hb (.inl h)
    · rw [hread b hb, readByte_bank hb, hpm]
  | some g =>
    simp only
    generalize hY : (if (g (BitVec.ofNat 32 old) (remoteWord (s.regsAt c).rm ((s.regsAt c).accReg acc.val)).1).2 = true then
      (pre u).bump Attr.memAtomicSat (a / 0x40000) 0 else pre u) = Y
    have hy : SameCores (pre u) (Y.eccClear (wordOf a)) := by
      subst hY
      exact SameCores.trans (SameCores.ite (bump_same _ _ _ _) (SameCores.rfl' _)) (eccClear_same _ (wordOf a))
    obtain ⟨y1, y2, y3, y4, y5, y6, y7, y8⟩ := hy
    have hplc : (Y.eccClear (wordOf a)).plc = s.plc := y2.trans (p2.trans (hD.2.2.2.1.trans hu.2.1))
    obtain ⟨hz, mem, hz2, hz3⟩ := word32_writeBytes (Y.eccClear (wordOf a))
      (g (BitVec.ofNat 32 old) (remoteWord (s.regsAt c).rm ((s.regsAt c).accReg acc.val)).1).1 hb
      (fun i j hi hj => by rw [copyAt_plc hplc]; exact hcp i j hi hj)
    generalize hZ : (Y.eccClear (wordOf a)).writeBytes a (leBytes 4 (g (BitVec.ofNat 32 old)
      (remoteWord (s.regsAt c).rm ((s.regsAt c).accReg acc.val)).1).1.toNat) = Z at hz hz2 ⊢
    have hza : Z.anv = (u.drain c).anv := by rw [hz2]; exact y1.trans p1
    have hzc : Z.core c = { s.coreAfter c needs (tookWord acc (16 + wait) old (some g).isSome (s.regsAt c)) with wbuf := [] } := by
      rw [core_of_anv (s := pre u) (by rw [hz2]; exact y1)]; exact hpc
    have hzm : ∀ b, ¬ s.wordStored a b → Store.get 0 Z.fab.mem b = Store.get 0 (putPosts s.copyAt (s.core c).wbuf s.fab.mem) b := by
      intro b hb
      rw [hz2]
      refine (hz3 b ?_).trans (by rw [y6, hpm])
      simpa only [State.wordStored, copyAt_plc hplc] using hb
    rw [fetchBound_below (by rw [hzc]; exact hfit.2)]
    refine ⟨hzc, elsewhere_drained hu hD (.inl hza) (by rw [hz2]; exact y2.trans p2) (by rw [hz2]; exact y3.trans p3)
      (by rw [hz2]; exact y7.trans p7) (by rw [hz2]; exact y8.trans p8) fun b hb => ?_, fun b hb hs => ?_, fun g' hg => ?_⟩
    · rw [hzm b fun h => hb (.inr ⟨rfl, h⟩)]; exact get_putPosts_ne fun h => hb (.inl h)
    · rw [hread b hb, readByte_bank hb, hzm b fun h => hs ⟨rfl, h⟩]
    · cases hg; exact hz

/-- An instruction whose body meets a bound faults. -/
theorem faults_of {c : Nat} {i : Instr} {needs : Hazard} {body : AEnv → CoreSt → Except Nat Ran} {f : State → AEnv → CoreSt → Option Nat}
    (hx : ∀ s, exec i s = .next (runInstr c i needs body s)) (hf : ∀ s e k x, f s e k = some x → body e k = .error x) : Faults c i f := by
  intro s m md x hfe h
  obtain ⟨u, hu, he⟩ := runInstr_fault (needs := needs) hfe (hf _ _ _ _ h)
  exact ⟨u, hu, (hx s).trans (by rw [he])⟩

end Sys2Proof.Machine
end

