-- ==== Sys2Proof/Laws/Decoding.lean ====
section
/-! SUPPORT. The words of the Anvil instructions, format by format: fields written and read back (R251 to R272). -/

namespace Sys2Proof.Machine

/-- A field fits its width. -/
theorem wordField_lt (w : Word48) (lo len : Nat) : wordField w lo len < 2 ^ len := Nat.mod_lt _ (Nat.two_pow_pos len)

/-- A move field has eleven bits. -/
theorem encodeMove_lt (m : Option Move) : encodeMove m < 2048 := by
  cases m with
  | none => decide
  | some m => have := m.p.isLt; have := m.mode.isLt; have := m.reg.isLt; unfold encodeMove; dsimp only; split <;> omega

/-- A move field read back. -/
theorem decodeMove_encode (m : Option Move) : decodeMove (encodeMove m) = some m := by
  cases m with
  | none => decide
  | some m =>
    obtain ⟨w, p, md, r⟩ := m
    have hp := p.isLt; have hm := md.isLt; have hr := r.isLt
    unfold decodeMove encodeMove
    have h1 : ((if w = true then 1024 else 512) + p.val * 64 + md.val * 8 + r.val) / 512 % 4 = if w then 2 else 1 := by cases w <;> simp <;> omega
    have h2 : ((if w = true then 1024 else 512) + p.val * 64 + md.val * 8 + r.val) / 8 % 8 = md.val := by cases w <;> simp <;> omega
    have h3 : ((if w = true then 1024 else 512) + p.val * 64 + md.val * 8 + r.val) / 64 % 8 = p.val := by cases w <;> simp <;> omega
    have h4 : ((if w = true then 1024 else 512) + p.val * 64 + md.val * 8 + r.val) % 8 = r.val := by cases w <;> simp <;> omega
    simp only [h1, h2]
    rw [if_neg (by cases w <;> decide), if_neg (by cases w <;> decide), dif_pos hm]
    simp only [fin8, h3, h4]
    cases w <;> rfl

/-- A bit as a number. -/
def bitNat (b : Bool) : Nat := if b then 1 else 0

/-- A format P word as a number. -/
theorem encodeP_toNat {op : Nat} (ho : op < 32) (f : PFields) (mv : Moves) : (encodeP op f mv).toNat =
    2 ^ 44 + op * 2 ^ 39 + f.da.val * 2 ^ 37 + f.db.val * 2 ^ 35 + f.s1.val * 2 ^ 33 + f.s2.val * 2 ^ 31 + f.s3.val * 2 ^ 29 +
      f.s4.val * 2 ^ 27 + bitNat f.n1 * 2 ^ 26 + bitNat f.n2 * 2 ^ 25 + encodeMove mv.x * 2 ^ 11 + encodeMove mv.y := by
  unfold encodeP
  rw [BitVec.toNat_ofNat]
  have hx := encodeMove_lt mv.x; have hy := encodeMove_lt mv.y
  generalize encodeMove mv.x = x at *
  generalize encodeMove mv.y = y at *
  obtain ⟨da, db, s1, s2, s3, s4, n1, n2⟩ := f
  have := da.isLt; have := db.isLt; have := s1.isLt; have := s2.isLt; have := s3.isLt; have := s4.isLt
  cases n1 <;> cases n2 <;> simp [bitNat] <;> omega

/-- A word reads as the format P fields. -/
structure PRead (w : Word48) (op : Nat) (f : PFields) (mv : Moves) : Prop where
  cls : wordField w 44 4 = 1
  op : wordField w 39 5 = op
  zero : wordField w 22 3 = 0
  f : pFields w = f
  mv : decodeMove (wordField w 11 11) = some mv.x ∧ decodeMove (wordField w 0 11) = some mv.y

/-- The fields of a format P word read back. -/
theorem encodeP_reads {op : Nat} (ho : op < 32) (f : PFields) (mv : Moves) : PRead (encodeP op f mv) op f mv := by
  have h := encodeP_toNat ho f mv
  have hx := encodeMove_lt mv.x; have hy := encodeMove_lt mv.y
  have ex : wordField (encodeP op f mv) 11 11 = encodeMove mv.x ∧ wordField (encodeP op f mv) 0 11 = encodeMove mv.y ∧
      wordField (encodeP op f mv) 44 4 = 1 ∧ wordField (encodeP op f mv) 39 5 = op ∧ wordField (encodeP op f mv) 22 3 = 0 := by
    unfold wordField
    rw [h]
    generalize encodeMove mv.x = x at *
    generalize encodeMove mv.y = y at *
    obtain ⟨da, db, s1, s2, s3, s4, n1, n2⟩ := f
    have := da.isLt; have := db.isLt; have := s1.isLt; have := s2.isLt; have := s3.isLt; have := s4.isLt
    have : bitNat n1 ≤ 1 := by cases n1 <;> decide
    have : bitNat n2 ≤ 1 := by cases n2 <;> decide
    dsimp only
    generalize bitNat n1 = n1 at *
    generalize bitNat n2 = n2 at *
    refine ⟨?_, ?_, ?_, ?_, ?_⟩ <;> norm_num <;> omega
  refine ⟨ex.2.2.1, ex.2.2.2.1, ex.2.2.2.2, ?_, by rw [ex.1]; exact decodeMove_encode _, by rw [ex.2.1]; exact decodeMove_encode _⟩
  unfold pFields wordField
  rw [h]
  generalize encodeMove mv.x = x at *
  generalize encodeMove mv.y = y at *
  clear ex h
  obtain ⟨da, db, s1, s2, s3, s4, n1, n2⟩ := f
  have := da.isLt; have := db.isLt; have := s1.isLt; have := s2.isLt; have := s3.isLt; have := s4.isLt
  have e : ∀ n : Bool, n = (bitNat n == 1) := by intro n; cases n <;> rfl
  have : bitNat n1 ≤ 1 := by cases n1 <;> decide
  have : bitNat n2 ≤ 1 := by cases n2 <;> decide
  dsimp only
  congr 1
  · apply Fin.ext; simp only [fin4]; norm_num; omega
  · apply Fin.ext; simp only [fin4]; norm_num; omega
  · apply Fin.ext; simp only [fin4]; norm_num; omega
  · apply Fin.ext; simp only [fin4]; norm_num; omega
  · apply Fin.ext; simp only [fin4]; norm_num; omega
  · apply Fin.ext; simp only [fin4]; norm_num; omega
  · refine Eq.trans ?_ (e n1).symm; generalize bitNat n1 = n1 at *; generalize bitNat n2 = n2 at *; congr 1; norm_num; omega
  · refine Eq.trans ?_ (e n2).symm; generalize bitNat n1 = n1 at *; generalize bitNat n2 = n2 at *; congr 1; norm_num; omega

/-- Class 1 is format P. -/
theorem decodeAnvil_p {c pc : Nat} {w : Word48} (h : wordField w 44 4 = 1) : decodeAnvil c pc w = decodeP c w := by
  simp only [decodeAnvil, h]

/-- Class 2 is format I. -/
theorem decodeAnvil_i {c pc : Nat} {w : Word48} (h : wordField w 44 4 = 2) : decodeAnvil c pc w = decodeI c w := by
  simp only [decodeAnvil, h]

/-- Class 3 is format B. -/
theorem decodeAnvil_b {c pc : Nat} {w : Word48} (h : wordField w 44 4 = 3) : decodeAnvil c pc w = decodeB c pc w := by
  simp only [decodeAnvil, h]

/-- Class 4 is Remote. -/
theorem decodeAnvil_r {c pc : Nat} {w : Word48} (h : wordField w 44 4 = 4) : decodeAnvil c pc w = decodeR c w := by
  simp only [decodeAnvil, h]

/-- Format P decodes from the fields read. -/
theorem decodeP_w {c op : Nat} {w : Word48} {f : PFields} {mv : Moves} (h : PRead w op f mv) (hn : op ≠ 0x17) (hm : mv.ok = true)
    (hu : f.unusedZero (pUse op) = true) : decodeP c w = pInstr c op f mv := by
  obtain ⟨h1, h2, h3, h4, h5, h6⟩ := h
  have e : decodeMoves w = some mv := by
    unfold decodeMoves
    simp only [h5, h6]
    exact if_pos hm
  unfold decodeP
  simp only [h2, h3, h4, e, ne_eq, not_true, if_false, hn, hu, if_true]

/-- A format P word decodes from its fields. -/
theorem decodeP_encode {c pc op : Nat} {f : PFields} {mv : Moves} (ho : op < 32) (hn : op ≠ 0x17) (hm : mv.ok = true)
    (hu : f.unusedZero (pUse op) = true) : decodeAnvil c pc (encodeP op f mv) = pInstr c op f mv :=
  (decodeAnvil_p (encodeP_reads ho f mv).cls).trans (decodeP_w (encodeP_reads ho f mv) hn hm hu)

/-- A format I word as a number. -/
theorem encodeI_toNat {op dst src imm : Nat} (h1 : op < 16) (h2 : dst < 64) (h3 : src < 64) (h4 : imm < 2 ^ 24) :
    (encodeI op dst src imm).toNat = 2 * 2 ^ 44 + op * 2 ^ 40 + dst * 2 ^ 34 + src * 2 ^ 28 + imm := by
  unfold encodeI; rw [BitVec.toNat_ofNat]; omega

/-- The fields of a format I word read back. -/
theorem encodeI_reads {op dst src imm : Nat} (h1 : op < 16) (h2 : dst < 64) (h3 : src < 64) (h4 : imm < 2 ^ 24) :
    wordField (encodeI op dst src imm) 44 4 = 2 ∧ wordField (encodeI op dst src imm) 40 4 = op ∧
    wordField (encodeI op dst src imm) 34 6 = dst ∧ wordField (encodeI op dst src imm) 28 6 = src ∧
    wordField (encodeI op dst src imm) 24 4 = 0 ∧ wordField (encodeI op dst src imm) 0 24 = imm := by
  have h := encodeI_toNat h1 h2 h3 h4
  generalize encodeI op dst src imm = w at h ⊢
  unfold wordField
  rw [h]
  refine ⟨?_, ?_, ?_, ?_, ?_, ?_⟩ <;> omega

/-- A format B word as a number. -/
theorem encodeB_toNat {op cond t imm : Nat} (h1 : op < 16) (h2 : cond < 32) (h3 : t < 2 ^ 14) (h4 : imm < 2 ^ 16) :
    (encodeB op cond t imm).toNat = 3 * 2 ^ 44 + op * 2 ^ 40 + cond * 2 ^ 35 + t * 2 ^ 16 + imm := by
  unfold encodeB; rw [BitVec.toNat_ofNat]; omega

/-- The fields of a format B word read back. -/
theorem encodeB_reads {op cond t imm : Nat} (h1 : op < 16) (h2 : cond < 32) (h3 : t < 2 ^ 14) (h4 : imm < 2 ^ 16) :
    wordField (encodeB op cond t imm) 44 4 = 3 ∧ wordField (encodeB op cond t imm) 40 4 = op ∧
    wordField (encodeB op cond t imm) 35 5 = cond ∧ wordField (encodeB op cond t imm) 16 14 = t ∧
    wordField (encodeB op cond t imm) 30 5 = 0 ∧ wordField (encodeB op cond t imm) 0 16 = imm := by
  have h := encodeB_toNat h1 h2 h3 h4
  generalize encodeB op cond t imm = w at h ⊢
  unfold wordField
  rw [h]
  refine ⟨?_, ?_, ?_, ?_, ?_, ?_⟩ <;> omega

/-- A remote word as a number. -/
theorem encodeR_toNat {op : Nat} (h1 : op < 16) (rb : Fin 8) (acc : Fin 4) (ix : Bool) (xr : Fin 4) (off : BitVec 18) :
    (encodeR op rb acc ix xr off).toNat = 4 * 2 ^ 44 + op * 2 ^ 40 + rb.val * 2 ^ 37 + acc.val * 2 ^ 35 + bitNat ix * 2 ^ 34 + xr.val * 2 ^ 32 + off.toNat := by
  have a1 := rb.isLt; have a2 := acc.isLt; have a3 := xr.isLt; have a4 := off.isLt
  unfold encodeR; rw [BitVec.toNat_ofNat]
  cases ix <;> simp only [bitNat] <;> simp <;> omega

/-- The fields of a remote word read back. -/
theorem encodeR_reads {op : Nat} (h1 : op < 16) (rb : Fin 8) (acc : Fin 4) (ix : Bool) (xr : Fin 4) (off : BitVec 18) :
    wordField (encodeR op rb acc ix xr off) 44 4 = 4 ∧ wordField (encodeR op rb acc ix xr off) 40 4 = op ∧
    fin8 (wordField (encodeR op rb acc ix xr off) 37 3) = rb ∧ fin4 (wordField (encodeR op rb acc ix xr off) 35 2) = acc ∧
    (wordField (encodeR op rb acc ix xr off) 34 1 == 1) = ix ∧ fin4 (wordField (encodeR op rb acc ix xr off) 32 2) = xr ∧
    wordField (encodeR op rb acc ix xr off) 18 14 = 0 ∧ BitVec.ofNat 18 (wordField (encodeR op rb acc ix xr off) 0 18) = off := by
  have a1 := rb.isLt; have a2 := acc.isLt; have a3 := xr.isLt; have a4 := off.isLt
  have a5 : bitNat ix ≤ 1 := by cases ix <;> decide
  have h := encodeR_toNat h1 rb acc ix xr off
  have e : ix = (bitNat ix == 1) := by cases ix <;> rfl
  generalize encodeR op rb acc ix xr off = w at h ⊢
  unfold wordField
  rw [h]
  refine ⟨?_, ?_, ?_, ?_, ?_, ?_, ?_, ?_⟩
  · omega
  · omega
  · apply Fin.ext; simp only [fin8]; omega
  · apply Fin.ext; simp only [fin4]; omega
  · refine Eq.trans ?_ e.symm; generalize bitNat ix = x at *; congr 1; omega
  · apply Fin.ext; simp only [fin4]; omega
  · omega
  · apply BitVec.eq_of_toNat_eq; rw [BitVec.toNat_ofNat]; omega

/-- A bit vector from its own number. -/
theorem bv_ofNat_self {n : Nat} (x : BitVec n) : BitVec.ofNat n x.toNat = x := by simp


/-- The remote instruction of an operation. -/
def remoteOf (c op : Nat) (rb : Fin 8) (acc : Fin 4) (ix : Bool) (xr : Fin 4) (off : BitVec 18) : Option Instr :=
  match op with
    | 0x0 => some (.remoteRead c [] [] rb acc ix xr off)
    | 0x1 => some (.remoteWrite c [] [] rb acc ix xr off)
    | 0x2 => some (.atomicAddWrapping c [] [] rb acc ix xr off)
    | 0x3 => some (.atomicAddSaturating c [] [] rb acc ix xr off)
    | 0x4 => some (.atomicSwap c [] [] rb acc ix xr off)
    | _ => none

/-- Remote decodes from the fields read. -/
theorem decodeR_w {c op : Nat} {w : Word48} {rb : Fin 8} {acc : Fin 4} {ix : Bool} {xr : Fin 4} {off : BitVec 18} (e2 : wordField w 40 4 = op)
  (e3 : fin8 (wordField w 37 3) = rb) (e4 : fin4 (wordField w 35 2) = acc) (e5 : (wordField w 34 1 == 1) = ix) (e6 : fin4 (wordField w 32 2) = xr)
  (e7 : wordField w 18 14 = 0) (e8 : BitVec.ofNat 18 (wordField w 0 18) = off) : decodeR c w = remoteOf c op rb acc ix xr off := by
  unfold decodeR
  simp only [e2, e3, e4, e5, e6, e7, e8, ne_eq, not_true, if_false]
  rfl

/-- A remote word decodes from its fields. -/
theorem decodeR_encode {c pc op : Nat} (h1 : op < 16) (rb : Fin 8) (acc : Fin 4) (ix : Bool) (xr : Fin 4) (off : BitVec 18) :
    decodeAnvil c pc (encodeR op rb acc ix xr off) = remoteOf c op rb acc ix xr off := by
  obtain ⟨e1, e2, e3, e4, e5, e6, e7, e8⟩ := encodeR_reads h1 rb acc ix xr off
  exact (decodeAnvil_r e1).trans (decodeR_w e2 e3 e4 e5 e6 e7 e8)

/-- The format I instruction of an operation. -/
def immediateOf (c o : Nat) (d r : BitVec 6) (m : Nat) : Option Instr := match o with
    | 0x0 => if r = 0 ∧ dstOk d then some (.ldi c d (BitVec.ofNat 24 m)) else none
    | 0x1 => if m = 0 ∧ dstOk d ∧ srcOk r then some (.move c d r) else none
    | 0x2 => if r = 0 ∧ m < 256 ∧ dstOk d then some (.movc c d (BitVec.ofNat 8 m)) else none
    | 0x3 => if r = 0 ∧ m < 32768 ∧ dstOk d then some (.ldx c d (BitVec.ofNat 15 m)) else none
    | 0x4 => if r = 0 ∧ m < 32768 ∧ dstOk d then some (.ldy c d (BitVec.ofNat 15 m)) else none
    | 0x5 => if d = 0 ∧ m < 32768 ∧ srcOk r then some (.stx c r (BitVec.ofNat 15 m)) else none
    | 0x6 => if d = 0 ∧ m < 32768 ∧ srcOk r then some (.sty c r (BitVec.ofNat 15 m)) else none
    | 0x7 => if r = 0 ∧ m < 65536 ∧ 20 ≤ d.toNat ∧ d.toNat ≤ 27 then some (.lea c (fin8 (d.toNat - 20)) (BitVec.ofNat 16 m)) else none
    | 0x8 => if r = 0 ∧ 4 ≤ d.toNat ∧ d.toNat ≤ 7 then some (.addi c (fin4 (d.toNat - 4)) (BitVec.ofNat 24 m)) else none
    | 0x9 => if r = 0 ∧ 4 ≤ d.toNat ∧ d.toNat ≤ 7 then some (.cmpi c (fin4 (d.toNat - 4)) (BitVec.ofNat 24 m)) else none
    | _ => none

/-- Format I decodes from the fields read. -/
theorem decodeI_w {c op dst src imm : Nat} {w : Word48} (e2 : wordField w 40 4 = op) (e3 : wordField w 34 6 = dst)
    (e4 : wordField w 28 6 = src) (e5 : wordField w 24 4 = 0) (e6 : wordField w 0 24 = imm) :
    decodeI c w = immediateOf c op (BitVec.ofNat 6 dst) (BitVec.ofNat 6 src) imm := by
  unfold decodeI
  simp only [e2, e3, e4, e5, e6, ne_eq, not_true, if_false]
  rfl

/-- A format I word decodes from its fields. -/
theorem decodeI_encode {c pc op dst src imm : Nat} (h1 : op < 16) (h2 : dst < 64) (h3 : src < 64) (h4 : imm < 2 ^ 24) :
    decodeAnvil c pc (encodeI op dst src imm) = immediateOf c op (BitVec.ofNat 6 dst) (BitVec.ofNat 6 src) imm := by
  obtain ⟨e1, e2, e3, e4, e5, e6⟩ := encodeI_reads h1 h2 h3 h4
  exact (decodeAnvil_i e1).trans (decodeI_w e2 e3 e4 e5 e6)

/-- The format B instruction of an operation. -/
def branchOf (c pc o cond : Nat) (t : BitVec 14) (m : Nat) : Option Instr := match o with
    | 0x0 => if h : cond < 15 then if m = 0 then some (.bra c ⟨cond, h⟩ t) else none else none
    | 0x1 => if h : cond < 15 then if m = 0 then some (.call c ⟨cond, h⟩ t) else none else none
    | 0x2 => if h : cond < 15 then if m = 0 ∧ t = 0 then some (.ret c ⟨cond, h⟩) else none else none
    | 0x3 => if cond = 0 ∧ pc + 1 ≤ t.toNat then some (.loop c t (BitVec.ofNat 16 m)) else none
    | 0x4 =>
      if cond = 0 ∧ pc + 1 ≤ t.toNat ∧ m < 64 ∧ srcOk (BitVec.ofNat 6 m) then
        some (.loopr c t (BitVec.ofNat 6 m))
      else none
    | 0x5 => if cond = 0 ∧ m = 0 ∧ pc + 1 ≤ t.toNat then some (.loopn c t) else none
    | 0x6 => if cond = 0 ∧ m = 0 ∧ t = 0 then some (.breakOp c) else none
    | 0x7 => if cond = 0 ∧ m < 256 ∧ t = 0 then some (.evwait c (BitVec.ofNat 8 m)) else none
    | 0x8 => if cond = 0 ∧ m < 256 ∧ t = 0 then some (.evpulse c (BitVec.ofNat 8 m)) else none
    | 0x9 => if cond = 0 ∧ m = 0 ∧ t = 0 then some (.release c) else none
    | _ => none

/-- Format B decodes from the fields read. -/
theorem decodeB_w {c pc op cond t imm : Nat} {w : Word48} (e2 : wordField w 40 4 = op) (e3 : wordField w 35 5 = cond)
    (e4 : wordField w 16 14 = t) (e5 : wordField w 30 5 = 0) (e6 : wordField w 0 16 = imm) :
    decodeB c pc w = branchOf c pc op cond (BitVec.ofNat 14 t) imm := by
  unfold decodeB
  simp only [e2, e3, e4, e5, e6, ne_eq, not_true, if_false]
  rfl

/-- A format B word decodes from its fields. -/
theorem decodeB_encode {c pc op cond t imm : Nat} (h1 : op < 16) (h2 : cond < 32) (h3 : t < 2 ^ 14) (h4 : imm < 2 ^ 16) :
    decodeAnvil c pc (encodeB op cond t imm) = branchOf c pc op cond (BitVec.ofNat 14 t) imm := by
  obtain ⟨e1, e2, e3, e4, e5, e6⟩ := encodeB_reads h1 h2 h3 h4
  exact (decodeAnvil_b e1).trans (decodeB_w e2 e3 e4 e5 e6)

/-- The immediate of SCALEI in a format P word. -/
theorem encodeP_k {op : Nat} (ho : op < 32) (f : PFields) (mv : Moves) : wordField (encodeP op f mv) 27 8 =
    f.s1.val * 64 + f.s2.val * 16 + f.s3.val * 4 + f.s4.val := by
  have h := encodeP_toNat ho f mv
  have hx := encodeMove_lt mv.x; have hy := encodeMove_lt mv.y
  unfold wordField
  rw [h]
  generalize encodeMove mv.x = x at *
  generalize encodeMove mv.y = y at *
  obtain ⟨da, db, s1, s2, s3, s4, n1, n2⟩ := f
  have := da.isLt; have := db.isLt; have := s1.isLt; have := s2.isLt; have := s3.isLt; have := s4.isLt
  have : bitNat n1 ≤ 1 := by cases n1 <;> decide
  have : bitNat n2 ≤ 1 := by cases n2 <;> decide
  dsimp only
  generalize bitNat n1 = n1 at *
  generalize bitNat n2 = n2 at *
  norm_num
  omega

/-- SCALEI decodes from the fields read. -/
theorem decodeP_k {c : Nat} {w : Word48} {f : PFields} {mv : Moves} (h : PRead w 0x17 f mv) (hm : mv.ok = true)
    (hu : f.db = 0 ∧ f.n1 = false ∧ f.n2 = false) : decodeP c w = some (.scalei c f.da (BitVec.ofNat 8 (wordField w 27 8)) mv) := by
  obtain ⟨h1, h2, h3, h4, h5, h6⟩ := h
  have e : decodeMoves w = some mv := by
    unfold decodeMoves
    simp only [h5, h6]
    exact if_pos hm
  unfold decodeP
  simp only [h2, h3, h4, e, ne_eq, not_true, if_false, if_true]
  rw [if_pos hu]

/-- A bit vector from its own number. -/
theorem bv_ofNat_toNat {n : Nat} (x : BitVec n) : BitVec.ofNat n x.toNat = x := by simp

end Sys2Proof.Machine
end

