-- ==== Sys2Proof/Laws/Memory.lean ====
section
/-! SUPPORT. Every operation on memory keeps its canonical form, and so do the instructions and events of the sequencer. -/

namespace Sys2Proof.Machine

/-- The canonical form speaks of memory alone. -/
theorem wf_mem {s t : State} (h : t.fab.mem = s.fab.mem) (hs : s.memoryWf = true) : t.memoryWf = true := by
  unfold State.memoryWf at *; rw [h]; exact hs

/-- Writing a byte keeps memory canonical. -/
theorem wf_writeByte {s : State} (a : Nat) (b : Byte) (hs : s.memoryWf = true) : (s.writeByte a b).memoryWf = true := by
  have hm : ∀ x, Memory.wf (match x with
      | some d => Store.set 0 (Store.set 0 s.fab.mem a b) d b
      | none => Store.set 0 s.fab.mem a b) = true := by
    intro x
    have h1 := Store.wf_set (d := fun _ => 0) a b hs
    cases x with
    | none => exact h1
    | some d => exact Store.wf_set (d := fun _ => 0) d b h1
  unfold State.writeByte
  split
  · exact hm _
  · exact hm _
  · exact hm _
  · exact hs
  · split
    · unfold State.writeNodeByte; simp only; split <;> exact hs
    · exact hs
  · exact hs

/-- Writing bytes keeps memory canonical. -/
theorem wf_writeBytes {s : State} (a : Nat) (l : List Byte) (hs : s.memoryWf = true) : (s.writeBytes a l).memoryWf = true := by
  induction l generalizing s a with
  | nil => exact hs
  | cons b l ih => exact ih (a + 1) (wf_writeByte a b hs)

/-- Writing the bytes whose strobe is on keeps memory canonical. -/
theorem wf_writeStrobed {s : State} (a : Nat) (l : List (Option Byte)) (hs : s.memoryWf = true) :
    (s.writeStrobed a l).memoryWf = true := by
  induction l generalizing s a with
  | nil => exact hs
  | cons b l ih =>
    cases b with
    | none => exact ih (a + 1) hs
    | some b => exact ih (a + 1) (wf_writeByte a b hs)

/-- Reading and correcting a word that a write reaches touches no memory. -/
theorem mergeWord_same (s : State) (a : Nat) (d : List (Option Byte)) (w : Nat) : SameCores s (s.mergeWord a d w) := by
  unfold State.mergeWord
  exact SameCores.ite (SameCores.rfl' s) (SameCores.ite (eccClear_same s w) ((eccTouch_same s w).trans (eccClear_same _ w)))

/-- A write that is discarded only counts. -/
theorem wf_writeGuard {s t : State} {m : Master} {a : Nat} {f : State → State} (hg : s.writeGuard m a = some f)
    (ht : t.memoryWf = true) : (f t).memoryWf = true := by
  unfold State.writeGuard at hg
  split at hg
  · cases hg; exact wf_mem (bump_same _ _ _ _).2.2.2.2.2.1 ht
  · split at hg <;> cases hg; exact wf_mem (bump_same _ _ _ _).2.2.2.2.2.1 ht
  · split at hg
    · cases hg
    · split at hg <;> cases hg; exact wf_mem (bump_same _ _ _ _).2.2.2.2.2.1 ht
  · split at hg <;> cases hg; exact wf_mem (bump_same _ _ _ _).2.2.2.2.2.1 ht
  · cases hg

/-- A master's write keeps memory canonical. -/
theorem wf_busStrobed {s : State} (m : Master) (a : Nat) (l : List (Option Byte)) (hs : s.memoryWf = true) :
    (s.busStrobed m a l).memoryWf = true := by
  unfold State.busStrobed
  cases hg : s.writeGuard m a with
  | some f => exact wf_writeGuard hg hs
  | none => exact wf_writeStrobed a l (wf_mem (SameCores.foldl _ (fun s w => mergeWord_same s a l w) _ s).2.2.2.2.2.1 hs)

/-- A byte written to a bank, a Temper parameter or deep memory changes memory alone. -/
theorem writeByte_mem {s : State} {a : Nat} (b : Byte) (h : areaOf a = .temper ∨ areaOf a = .deep ∨ ∃ k, areaOf a = .bank k) :
    s.writeByte a b = { s with fab := { s.fab with mem := putByte (s.copyAt a) s.fab.mem a b } } := by
  unfold State.writeByte putByte
  rcases h with h | h | ⟨k, h⟩ <;> simp only [h] <;> cases s.copyAt a <;> rfl

/-- A byte of a bank, a Temper parameter or deep memory reads as memory holds it. -/
theorem readByte_mem {s : State} {a : Nat} (h : areaOf a = .temper ∨ areaOf a = .deep ∨ ∃ k, areaOf a = .bank k) :
    s.readByte a = Store.get 0 s.fab.mem a := by
  unfold State.readByte
  rcases h with h | h | ⟨k, h⟩ <;> simp only [h]

/-- A posted write keeps memory canonical. -/
theorem wf_drainOne {s : State} (c : Nat) (hs : s.memoryWf = true) : (s.drainOne c).memoryWf = true := by
  unfold State.drainOne
  simp only
  split
  · exact hs
  · refine wf_writeBytes _ _ (wf_mem (eccClear_same _ _).2.2.2.2.2.1 ?_)
    exact hs

/-- Draining keeps memory canonical. -/
theorem wf_drain {s : State} (c : Nat) (hs : s.memoryWf = true) : (s.drain c).memoryWf = true :=
  wf_drainOne c (wf_drainOne c (wf_drainOne c (wf_drainOne c hs)))

/-- Starting a module keeps memory canonical. -/
theorem wf_startNext {s : State} (c : Nat) (l : List Nat) (hs : s.memoryWf = true) : (startNext c l s).memoryWf = true := by
  induction l generalizing s with
  | nil =>
    unfold startNext
    exact wf_mem (by simp) hs
  | cons m l ih =>
    unfold startNext
    split
    · exact ih hs
    · exact wf_mem (s := s) rfl hs

/-- The end of a block keeps memory canonical. -/
theorem wf_endModule {s : State} (c : Nat) (r : Bool) (hs : s.memoryWf = true) : (s.endModule c r).memoryWf = true := by
  unfold State.endModule
  split
  · exact wf_mem (s := s.drain c) rfl (wf_drain c hs)
  · have hd := wf_drain c hs
    simp only
    split
    · exact hd
    · split
      · exact wf_startNext c _ hd
      · refine wf_startNext c _ (wf_mem (s := s.drain c) ?_ hd)
        simp [State.setMod]

/-- An overrun keeps memory canonical. -/
theorem wf_overran {s : State} (c m x : Nat) (hs : s.memoryWf = true) : (s.overran c m x).memoryWf = true := by
  unfold State.overran
  split
  · exact hs
  · have key : ∀ (p : Prop) [Decidable p] (a b : State), a.fab.mem = s.fab.mem → b.fab.mem = s.fab.mem → (if p then a else b).fab.mem = s.fab.mem := by
      intro p _ a b h1 h2; split <;> assumption
    exact wf_mem (key _ _ _ (by simp) (by simp)) hs

/-- A module fault keeps memory canonical. -/
theorem wf_moduleFault {s : State} (c m x : Nat) (hs : s.memoryWf = true) : (s.moduleFault c m x).memoryWf = true := by
  unfold State.moduleFault
  refine wf_endModule c false (wf_overran c m 2 ?_)
  split
  · exact hs
  · exact hs

/-- The test of the next fetch keeps memory canonical. -/
theorem wf_fetchBound {s : State} (c m : Nat) (md : Mod) (hs : s.memoryWf = true) : (s.fetchBound c m md).memoryWf = true := by
  unfold State.fetchBound
  simp only
  split
  · exact wf_moduleFault c m fPm hs
  · exact hs

/-- A tag record keeps memory canonical. -/
theorem wf_tagRecord {s : State} (g : Bool) (c m pc : Nat) (w : Word48) (b t u : Nat) (x : Bool) (hs : s.memoryWf = true) :
    (if g = true then s.tagRecord c m pc w b t u x else s).memoryWf = true := by split <;> exact hs

/-- An instruction keeps memory canonical where its bank part and what follows it do. -/
theorem wf_runInstr {c : Nat} {i : Instr} {needs : Hazard} {body : AEnv → CoreSt → Except Nat Ran} {s : State}
    (hb : ∀ e k r, body e k = .ok r → (∀ u : State, u.memoryWf = true → (r.bank u).memoryWf = true) ∧
      (∀ u : State, u.memoryWf = true → (r.after u).memoryWf = true)) (hs : s.memoryWf = true) :
    (runInstr c i needs body s).memoryWf = true := by
  unfold runInstr
  split
  · exact hs
  · rename_i m md _
    simp only
    split
    · exact hs
    · have h1 : ((s.eccTouches [(s.fetchWord c md).2]).tagFetch c).2.memoryWf = true :=
        wf_mem ((eccTouches_same s [(s.fetchWord c md).2]).trans (tagFetch_same _ c)).2.2.2.2.2.1 hs
      split
      · exact wf_moduleFault c m _ (wf_tagRecord _ _ _ _ _ _ _ _ _ h1)
      · rename_i r hr
        have hr := hb _ _ _ hr
        split
        · refine hr.1 _ ?_
          exact wf_tagRecord _ _ _ _ _ _ _ _ _ h1
        · refine wf_fetchBound c m md (hr.2 _ (hr.1 _ ?_))
          have h2 := wf_tagRecord (((s.eccTouches [(s.fetchWord c md).2]).tagFetch c).1) c m (s.core c).pc (s.fetchWord c md).1 md.blocks
            (r.cost + b2n (hazardOf (s.core c).haz needs != 0)) (if r.cause ≠ 0 then r.cause else hazardOf (s.core c).haz needs) false h1
          have h3 := wf_mem ((eccTouches_same _ r.reads).trans (SameCores.foldl State.eccClear eccClear_same r.writes _)).2.2.2.2.2.1 h2
          refine wf_mem ?_ h3
          simp only [State.events_fab]
          split
          · rw [State.event_fab]; rfl
          · rfl

/-- An instruction with no bank part keeps memory canonical. -/
theorem wf_plain {c : Nat} {i : Instr} {needs : Hazard} {body : AEnv → CoreSt → Except Nat Ran} {s t : State}
    (hb : ∀ e k r, body e k = .ok r → r.bank = id ∧ r.after = id) (hs : s.memoryWf = true)
    (ht : Host.Outcome.next (runInstr c i needs body s) = (Host.Outcome.next t : Host.Outcome State Fault Refusal)) : t.memoryWf = true := by
  cases ht
  exact wf_runInstr (fun e k r h => by rw [(hb e k r h).1, (hb e k r h).2]; exact ⟨fun _ h => h, fun _ h => h⟩) hs

/-- Format P keeps memory canonical. -/
theorem wf_runP {c : Nat} {i : Instr} {mv : Moves} {a : CoreSt → Arith} {s t : State} (hs : s.memoryWf = true)
    (ht : runP c i mv a s = .next t) : t.memoryWf = true := by
  refine wf_plain ?_ hs ht
  intro e k r h
  unfold bodyP at h
  repeat' split at h
  all_goals first | (cases h; exact ⟨rfl, rfl⟩) | cases h

/-- A remote access keeps memory canonical. -/
theorem wf_remote {c : Nat} {gates : List Gate} {i : Instr} {rb : Fin 8} {acc : Fin 4} {ix : Bool} {xr : Fin 4} {off : BitVec 18}
    {f : Option (BitVec 32 → BitVec 32 → BitVec 32 × Bool)} {s t : State} (hs : s.memoryWf = true)
    (ht : runRemote c gates i rb acc ix xr off f s = .next t) : t.memoryWf = true := by
  cases ht
  refine wf_runInstr ?_ hs
  intro e k r h
  unfold remoteBody at h
  split at h
  · cases h
  · cases h
    refine ⟨fun u hu => ?_, fun _ h => h⟩
    have h1 : ∀ l b, (((u.drain c).gateServe c l gates).2.eccTouches [wordOf b]).memoryWf = true := fun l b =>
      wf_mem ((gateServe_same _ _ _ _).trans (eccTouches_same _ _)).2.2.2.2.2.1 (wf_drain c hu)
    simp only
    split
    · exact h1 _ _
    · refine wf_writeBytes _ _ (wf_mem (eccClear_same _ _).2.2.2.2.2.1 ?_)
      split
      · exact wf_mem (by rw [State.bump_fab]) (h1 _ _)
      · exact h1 _ _

/-- A move keeps memory canonical. -/
theorem wf_move {c : Nat} {i : Instr} {dst : BitVec 6} {needs : Hazard} {f : AEnv → CoreSt → Except Nat (Word24 × Bool)}
    {readBytes_window : AEnv → List Nat} {s t : State} (hs : s.memoryWf = true) (ht : runMove c i dst needs f readBytes_window s = .next t) : t.memoryWf = true := by
  refine wf_plain ?_ hs ht
  intro e k r h
  dsimp only at h
  split at h <;> cases h
  exact ⟨rfl, rfl⟩

/-- A store keeps memory canonical. -/
theorem wf_store {c : Nat} {i : Instr} {needs : Hazard} {y : Bool} {src : BitVec 6} {addr : BitVec 15} {s t : State} (hs : s.memoryWf = true)
    (ht : Host.Outcome.next (runInstr c i needs (storeAbs y src addr) s) = (Host.Outcome.next t : Host.Outcome State Fault Refusal)) : t.memoryWf = true := by
  refine wf_plain ?_ hs ht
  intro e k r h
  unfold storeAbs at h
  split at h <;> cases h
  exact ⟨rfl, rfl⟩

/-- A loop start keeps memory canonical. -/
theorem wf_loop {c : Nat} {i : Instr} {needs : Hazard} {a : Nat} {g : AEnv → CoreSt → Nat} {s t : State} (hs : s.memoryWf = true)
    (ht : Host.Outcome.next (runInstr c i needs (fun e k => loopBody a (g e k) k) s) = (Host.Outcome.next t : Host.Outcome State Fault Refusal)) : t.memoryWf = true := by
  refine wf_plain ?_ hs ht
  intro e k r h
  unfold loopBody at h
  repeat' split at h
  all_goals first | (cases h; exact ⟨rfl, rfl⟩) | cases h

/-- A latch keeps memory canonical. -/
theorem wf_latchOn {s : State} (l d : Nat) (hs : s.memoryWf = true) : (s.latchOn l d).memoryWf = true :=
  wf_mem (by rw [(latchOn_rest s l d).2.1]) hs

/-- A pulse keeps memory canonical. -/
theorem wf_pulse {s : State} (l : Nat) (hs : s.memoryWf = true) : (s.pulse l).memoryWf = true := by
  have h : ∀ (ds : List Nat) (t : State), t.memoryWf = true → (ds.foldl (fun s d => s.latchOn l d) t).memoryWf = true := by
    intro ds
    induction ds with
    | nil => intro t ht; exact ht
    | cons d ds ih => intro t ht; exact ih _ (wf_latchOn l d ht)
  have h0 := h (List.range 48) s hs
  unfold State.pulse
  simp only
  have key : ∀ (t : State), t.memoryWf = true → ∀ e, (t.event e).memoryWf = true := fun t ht e => wf_mem (by rw [State.event_fab]) ht
  generalize (List.range 48).foldl (fun s d => s.latchOn l d) s = T at h0 ⊢
  refine key _ ?_ _
  split <;> exact h0

/-- Putting a value that is not the default keeps the canonical form. -/
theorem Store.wf_put {d : Nat → Byte} {m : Store Byte} (k : Nat) (v : Byte) (hv : v ≠ d k) (h : m.wf d = true) :
    (Store.put m k v).wf d = true := by
  have e := Store.wf_set (d := d) k v h
  unfold Store.set at e
  rwa [if_neg hv] at e

/-- Clearing a run keeps memory canonical. -/
theorem wf_clearRun {m : Store Byte} (b n : Nat) (h : Memory.wf m = true) : Memory.wf (clearRun m b n) = true :=
  Store.wf_keep _ h

/-- Copying a run keeps memory canonical. -/
theorem wf_copyBytes {m : Store Byte} (b n t : Nat) (h : Memory.wf m = true) : Memory.wf (copyBytes m b n t) = true := by
  have hne : ∀ e ∈ m.filter fun e => decide (b ≤ e.1 ∧ e.1 < b + n), e.2 ≠ (0 : Byte) := by
    intro e he
    simp only [Memory.wf, Store.wf, Bool.and_eq_true, List.all_eq_true, decide_eq_true_eq] at h
    exact h.2 e (List.mem_of_mem_filter he)
  have key : ∀ (l : Store Byte) (r : Store Byte), (∀ e ∈ l, e.2 ≠ (0 : Byte)) → Memory.wf r = true →
      Memory.wf (l.foldl (fun m e => Store.put m (t + (e.1 - b)) e.2) r) = true := by
    intro l
    induction l with
    | nil => intro r _ hr; exact hr
    | cons e l ih =>
      intro r hl hr
      exact ih _ (fun x hx => hl x (List.mem_cons_of_mem _ hx)) (Store.wf_put _ _ (hl e (List.mem_cons_self ..)) hr)
  exact key _ _ hne (Store.wf_keep _ h)

/-- A bit that an upset inverts keeps memory canonical. -/
theorem wf_flipByte {s : State} (a m : Nat) (h : s.memoryWf = true) : (s.flipByte a m).memoryWf = true := by
  unfold State.flipByte
  simp only
  split
  · exact Store.wf_set (d := fun _ => 0) a _ h
  · exact Store.wf_set (d := fun _ => 0) a _ h
  · exact Store.wf_set (d := fun _ => 0) a _ h
  · exact h
  · split
    · split <;> exact h
    · exact h
  · exact h

end Sys2Proof.Machine
end

