-- ==== Sys2Proof/Laws/Numbers.lean ====
section
/-! SUPPORT. Numbers: accumulators, convergent rounding, stages of samples. -/

namespace Sys2Proof.Machine

/-- A number within the range of an accumulator is held exactly. -/
theorem accInt_accOf {x : Int} (h : -(2:Int)^55 ≤ x) (g : x < 2^55) : accInt (accOf x) = x := by
  simp only [accInt, accOf]
  rw [BitVec.toInt_ofInt]
  rw [Int.bmod_eq_of_le] <;> norm_num <;> omega

/-- Convergent rounding is nearest, ties to even. -/
theorem roundEven_near (a : Int) : (2 * (a - roundEven a 19 * 524288)).natAbs ≤ 524288 ∧
    ((2 * (a - roundEven a 19 * 524288)).natAbs = 524288 → roundEven a 19 % 2 = 0) := by
  unfold roundEven
  norm_num
  split
  · constructor <;> omega
  · split
    · constructor <;> omega
    · constructor <;> omega

/-- A stage without state works sample by sample. -/
theorem runFrame_eq (f : Nat → Int → Int × Nat) (xs : List Int) (k : Nat) :
    (runFrame (fun (_ : Unit) i x => ((), f i x)) () k xs).2.1 = xs.mapIdx (fun i x => (f (k + i) x).1) ∧
    (runFrame (fun (_ : Unit) i x => ((), f i x)) () k xs).2.2 = (xs.mapIdx (fun i x => (f (k + i) x).2)).sum := by
  induction xs generalizing k with
  | nil => exact ⟨rfl, rfl⟩
  | cons x xs ih =>
    obtain ⟨h1, h2⟩ := ih (k + 1)
    simp only [runFrame, List.mapIdx_cons, List.sum_cons, Nat.add_zero]
    rw [h1, h2]
    simp only [Nat.add_assoc, Nat.add_comm 1]
    exact ⟨trivial, trivial⟩

end Sys2Proof.Machine
end

