-- ==== Sys2Proof/Laws/Operations.lean ====
section
/-! SUPPORT. Lemmas about the operations that many commands share: tickets, loads of the idle plane, admission. -/

namespace Sys2Proof.Machine

/-- A ticket opens without touching the engine. -/
theorem State.openTicket_eng {s t : State} {o n k : Nat} (h : s.openTicket o n = some (k, t)) : t.eng = s.eng := by
  unfold State.openTicket at h
  split at h
  · cases h
  · simp only [Option.some.injEq, Prod.mk.injEq] at h
    obtain ⟨rfl, rfl⟩ := h
    rfl

/-- The tick runs after a ticket opens as it did before. -/
theorem State.openTicket_ticking {s t : State} {o n k : Nat} (h : s.openTicket o n = some (k, t)) :
    t.ticking = s.ticking := by
  unfold State.ticking; rw [State.openTicket_eng h]

/-- A load of the idle plane with a ticket free. -/
theorem startLoad_ok {kind origin scene total k : Nat} {words : Store Nat} {s t : State}
    (h : s.openTicket origin total = some (k, t)) : startLoad kind origin words scene total s =
      okTicket (({ t with cru := { t.cru with load := some ⟨kind, 0, words, k, 0, scene⟩ } } : State).set
        Attr.cruIdleBusy 0 0 1) k := by
  unfold startLoad; rw [h]

/-- A change that is admitted without a plan binds its topology at once. -/
theorem admitChange_ok {s t w : State} {o : Nat} {e : List (Nat × Int)} (h : t.admitted = some w)
    (ht : t.ticking = s.ticking) (hp : s.ticking = false ∨ (s.plc.plans.all fun x => decide (x.effect = [])) = true) :
    admitChange s t o e = ok w := by
  unfold State.admitted at h
  unfold admitChange
  have he : s.ticking = true → (s.plc.plans.all (·.effect = [])) = true := by
    intro hs
    rcases hp with hp | hp
    · rw [hs] at hp; cases hp
    · exact hp
  generalize t.admits = a at h
  rw [ht] at h
  cases a with
  | no c => cases h
  | inc p u =>
    cases hs : s.ticking
    · simp only [hs, Bool.false_eq_true, if_false, Option.some.injEq] at h
      simp [h]
    · simp only [hs, if_true, Option.some.injEq] at h
      simp only [not_true, if_false, he hs, if_true, h]
  | plan p r u =>
    cases hs : s.ticking
    · simp only [hs, Bool.false_eq_true, if_false, Option.some.injEq] at h
      simp [h]
    · simp [hs] at h

/-- A change that needs moves runs under a plan, where an order of them passes. -/
theorem admitChange_moved {s t w u : State} {o k : Nat} {e : List (Nat × Int)} {p : Place} {r l : List PMove} (hs : s.ticking = true)
    (h : t.admits = .plan p r w) (hl : s.orderTo t p = some l) (ha : w.addPlan o p (l ++ r) e = some (k, u)) :
    admitChange s t o e = okTicket u k := by
  simp only [State.orderTo] at hl
  split at hl
  · rename_i hh
    simp only [admitChange, h, hs, hh, hl, ha, not_true, if_false]
  · cases hl

/-- A change behind a plan that changes the topology runs under a plan of its own. -/
theorem admitChange_behind {s t w u : State} {o k : Nat} {e : List (Nat × Int)} {p : Place} (hs : s.ticking = true)
    (h : t.admits = .inc p w) (hp : (s.plc.plans.any fun x => decide (x.effect ≠ [])) = true)
    (ha : w.addPlan o p [] e = some (k, u)) : admitChange s t o e = okTicket u k := by
  have : s.plc.plans.all (fun x => decide (x.effect = [])) = false := by
    simpa [← List.not_all_eq_any_not] using hp
  simp only [admitChange, h, hs, this, ha, not_true, if_false, Bool.false_eq_true]

/-! ### The start of a core leaves the engine -/

/-- A fold of steps that leave the engine leaves it. -/
theorem foldl_eng {α : Type} {f : State → α → State} (hf : ∀ s a, (f s a).eng = s.eng) (l : List α) (s : State) :
    (l.foldl f s).eng = s.eng := by
  induction l generalizing s with
  | nil => rfl
  | cons a l ih => rw [List.foldl_cons, ih, hf]

/-- The gateway's input leaves the engine. -/
theorem gatewayIn_eng (s : State) (c m : Nat) : (s.gatewayIn c m).eng = s.eng := by
  unfold State.gatewayIn
  split
  · rfl
  · simp only
    rw [foldl_eng (fun t a => by simp only [State.add_eng, State.setCore_eng])]
    rfl

/-- The next module of a core starts and leaves the engine. -/
theorem startNext_eng (c : Nat) (l : List Nat) (s : State) : (startNext c l s).eng = s.eng := by
  induction l generalizing s with
  | nil => simp [startNext]
  | cons m l ih =>
    unfold startNext
    split
    · exact ih s
    · rfl

/-- A core that starts its block leaves the engine. -/
theorem startCore_eng (s : State) (c : Nat) : (s.startCore c).eng = s.eng := by
  unfold State.startCore
  simp only
  split
  · rfl
  · rw [startNext_eng]
    exact foldl_eng (fun t a => gatewayIn_eng t c a) _ _

/-- A counter's step leaves every other attribute. -/
theorem State.a_bump_ne (s : State) {c i e c' i' e' : Nat} (h : attrKey c i e ≠ attrKey c' i' e') :
    (s.bump c i e).a c' i' e' = s.a c' i' e' := by
  unfold State.bump State.add
  simp only [State.a, State.noteCounter_attrs]
  exact State.a_set_ne s _ h

/-- The same, of its value as a number. -/
theorem State.n_bump_ne (s : State) {c i e c' i' e' : Nat} (h : attrKey c i e ≠ attrKey c' i' e') :
    (s.bump c i e).n c' i' e' = s.n c' i' e' := congrArg Int.toNat (State.a_bump_ne s h)

end Sys2Proof.Machine
end

