-- ==== Sys2Proof/Laws/Serve.lean ====
section
/-! SUPPORT. What serving a request comes to: the equation of a request that is served, and of one that is refused. -/

namespace Sys2Proof.Machine

/-- What `serving` finds, in its parts. -/
theorem serving_some {row : Row} {q : Req} {s : State} {sess : Option Session} {v : State} {c : Ctx}
    (h : serving row q s = some (sess, v, c)) :
    rowOf q = row ∧ s.take q = .got v ∧ v.auth q = .pass sess ∧ (v.opened sess).checks q = .ok c ∧
      (v.opened sess).shared c = none := by
  unfold serving at h
  split at h
  · cases h
  rename_i hrow
  split at h <;> try cases h
  rename_i w hw
  split at h <;> try cases h
  rename_i k hk
  split at h <;> try cases h
  rename_i d hd
  split at h <;> try cases h
  rename_i hs
  exact ⟨Decidable.not_not.mp hrow, hw, hk, hd, Option.isNone_iff_eq_none.mp hs⟩

/-- The checks hand the request on as it is. -/
theorem State.checks_q {s : State} {q : Req} {c : Ctx} (h : s.checks q = .ok c) : c.q = q := by
  unfold State.checks at h
  repeat' split at h
  all_goals first | (cases h; rfl) | cases h

/-- The checks tell an effect of a request that a frame brings: no due sample, no replay, no record. -/
theorem State.checks_fresh {s : State} {q : Req} {c : Ctx} (h : s.checks q = .ok c) :
    c.due = none ∧ c.sched = none ∧ c.atOnce = false ∧ c.mirrored = false ∧ c.code = reqCode q := by
  unfold State.checks at h
  repeat' split at h
  all_goals first | (cases h; exact ⟨rfl, rfl, rfl, rfl, rfl⟩) | cases h

/-- The checks tell an effect of a request that a frame brings: no timed change that was accepted before. -/
theorem State.checks_new {s : State} {q : Req} {c : Ctx} (h : s.checks q = .ok c) : c.accepted = false ∧ c.id = none := by
  unfold State.checks at h
  repeat' split at h
  all_goals first | (cases h; exact ⟨rfl, rfl⟩) | cases h

/-- A served request is answered by `State.answer`. -/
theorem serve_served {row : Row} {eff : Effect} {q : Req} {s : State} {sess : Option Session} {v : State} {c : Ctx}
    (h : serving row q s = some (sess, v, c)) : serve row eff q s = v.answer eff q sess := by
  obtain ⟨hr, ht, ha, -, -⟩ := serving_some h
  simp [serve, hr, ht, ha]

/-- A served request with no take-effect time does what its effect does. -/
theorem operate_served {row : Row} {eff : Effect} {q : Req} {s : State} {sess : Option Session} {v : State} {c : Ctx}
    (h : serving row q s = some (sess, v, c)) (hw : q.when_ = none) :
    (v.opened sess).operate eff q = performNow eff c (v.opened sess) := by
  obtain ⟨-, -, -, hc, hs⟩ := serving_some h
  simp [State.operate, hc, hs, perform, State.checks_q hc, hw]

/-- The equation of a request whose effect succeeds. -/
theorem serve_ok {row : Row} {eff : Effect} {q : Req} {s : State} {sess : Option Session} {v : State} {c : Ctx}
    {t : State} {o : Out} (h : serving row q s = some (sess, v, c)) (hw : q.when_ = none)
    (he : eff c (v.opened sess) = .ok (t, o)) : serve row eff q s = v.replied q sess c t o := by
  rw [serve_served h]
  have := operate_served (eff := eff) h hw
  simp only [State.opened] at this he
  simp [State.answer, this, performNow, he, State.replied]

/-- The equation of a request that its effect refuses. -/
theorem serve_error {row : Row} {eff : Effect} {q : Req} {s : State} {sess : Option Session} {v : State} {c : Ctx}
    {f : Fail} (h : serving row q s = some (sess, v, c)) (hw : q.when_ = none)
    (he : eff c (v.opened sess) = .error f) : serve row eff q s = v.repliedRefusal q sess f := by
  rw [serve_served h]
  have := operate_served (eff := eff) h hw
  simp only [State.opened] at this he
  simp [State.answer, this, performNow, he, State.repliedRefusal, State.opened]

/-- A row performs what its effect answers to a request that a frame brings. -/
theorem performs_of_effect {mk : Req → Instr} {row : Row} {cond : Ctx → State → Prop} {res : Ctx → State → State × Out}
    {eff : Effect} (hx : ∀ q s, exec (mk q) s = .next (serve row eff q s))
    (he : ∀ c u, c.due = none → c.sched = none → c.atOnce = false → c.code = reqCode c.q → cond c u →
      eff c u = .ok (res c u)) : Performs mk row cond res := by
  intro s q sess v c h hw hc
  obtain ⟨-, -, -, hk, -⟩ := serving_some h
  obtain ⟨h1, h2, h3, -, h4⟩ := State.checks_fresh hk
  rw [hx, serve_ok h hw (he c _ h1 h2 h3 (State.checks_q hk ▸ h4) hc)]

/-- The same, of an effect that looks at whether the change was accepted before. -/
theorem performs_of_new {mk : Req → Instr} {row : Row} {cond : Ctx → State → Prop} {res : Ctx → State → State × Out}
    {eff : Effect} (hx : ∀ q s, exec (mk q) s = .next (serve row eff q s))
    (he : ∀ c u, c.due = none → c.accepted = false → c.atOnce = false → cond c u → eff c u = .ok (res c u)) :
    Performs mk row cond res := by
  intro s q sess v c h hw hc
  obtain ⟨-, -, -, hk, -⟩ := serving_some h
  obtain ⟨h1, -, h3, -, -⟩ := State.checks_fresh hk
  rw [hx, serve_ok h hw (he c _ h1 (State.checks_new hk).1 h3 hc)]

/-- A row refuses what its effect refuses of a request that a frame brings. -/
theorem refusesWith_of_new {mk : Req → Instr} {row : Row} {cond : Ctx → State → Prop} {f : Ctx → State → Fail}
    {eff : Effect} (hx : ∀ q s, exec (mk q) s = .next (serve row eff q s))
    (he : ∀ c u, c.due = none → c.accepted = false → c.atOnce = false → cond c u → eff c u = .error (f c u)) :
    RefusesWith mk row cond f := by
  intro s q sess v c h hw hc
  obtain ⟨-, -, -, hk, -⟩ := serving_some h
  obtain ⟨h1, -, h3, -, -⟩ := State.checks_fresh hk
  rw [hx, serve_error h hw (he c _ h1 (State.checks_new hk).1 h3 hc)]

/-- A row answers what its effect answers. -/
theorem answers_of_effect {mk : Req → Instr} {row : Row} {cond : Ctx → State → Prop} {res : Ctx → State → Answer}
    {eff : Effect} (hx : ∀ q s, exec (mk q) s = .next (serve row eff q s))
    (he : ∀ c u, c.due = none → c.sched = none → c.atOnce = false → c.code = reqCode c.q → cond c u →
      eff c u = res c u) : Answers mk row cond res := by
  intro s q sess v c h hw hc
  obtain ⟨-, -, -, hk, -⟩ := serving_some h
  obtain ⟨h1, h2, h3, -, h4⟩ := State.checks_fresh hk
  have he := he c _ h1 h2 h3 (State.checks_q hk ▸ h4) hc
  rw [hx]
  cases hr : res c (v.opened sess) with
  | ok x => rw [serve_ok h hw (he.trans hr)]
  | error f => rw [serve_error h hw (he.trans hr)]

/-- A row under a ticket performs what its effect answers. -/
theorem performsTicket_of_effect {mk : Req → Instr} {row : Row} {cond : Ctx → State → Prop} {pre : Ctx → State → State}
    {origin : Ctx → Nat} {total : Ctx → State → Nat} {res : Ctx → State → Nat → State → State}
    {eff : Effect} (hx : ∀ q s, exec (mk q) s = .next (serve row eff q s))
    (he : ∀ c u k t, c.due = none → c.sched = none → c.atOnce = false → c.code = reqCode c.q → cond c u →
      (pre c u).openTicket (origin c) (total c u) = some (k, t) →
      eff c u = okTicket (res c u k t) k) : PerformsTicket mk row cond pre origin total res := by
  intro s q sess v c k t h hw hc ho
  obtain ⟨-, -, -, hk, -⟩ := serving_some h
  obtain ⟨h1, h2, h3, -, h4⟩ := State.checks_fresh hk
  rw [hx, serve_ok h hw (he c _ k t h1 h2 h3 (State.checks_q hk ▸ h4) hc ho)]
  rfl

/-- A row refuses what its effect refuses. -/
theorem refusesWith_of_effect {mk : Req → Instr} {row : Row} {cond : Ctx → State → Prop} {f : Ctx → State → Fail}
    {eff : Effect} (hx : ∀ q s, exec (mk q) s = .next (serve row eff q s))
    (he : ∀ c u, c.due = none → c.sched = none → c.atOnce = false → c.code = reqCode c.q → cond c u →
      eff c u = .error (f c u)) : RefusesWith mk row cond f := by
  intro s q sess v c h hw hc
  obtain ⟨-, -, -, hk, -⟩ := serving_some h
  obtain ⟨h1, h2, h3, -, h4⟩ := State.checks_fresh hk
  rw [hx, serve_error h hw (he c _ h1 h2 h3 (State.checks_q hk ▸ h4) hc)]

/-- A row refuses with a code what its effect refuses with it. -/
theorem refuses_of_effect {mk : Req → Instr} {row : Row} {cond : Ctx → State → Prop} {code : Nat}
    {eff : Effect} (hx : ∀ q s, exec (mk q) s = .next (serve row eff q s))
    (he : ∀ c u, c.due = none → c.sched = none → c.atOnce = false → c.code = reqCode c.q → cond c u →
      eff c u = refuse code) : Refuses mk row cond code :=
  refusesWith_of_effect hx he

end Sys2Proof.Machine
end

