-- ==== Sys2Proof/Laws/Requests.lean ====
section
/-! SUPPORT. What requests and events share: tickets that open, admission, journal and card, ports, the Tether. -/

namespace Sys2Proof.Machine

/-- A write that changes the declared topology, admitted without a plan, binds it at once. -/
theorem admitWrite_ok {c : Ctx} {u : State} (h1 : c.due = none) (h3 : c.atOnce = false)
   (h : (u.store c).admitted.isSome = true ∧ (u.ticking = false ∨ (u.plc.plans.all fun x => decide (x.effect = [])) = true)) : admitWrite c u = ok ((u.store c).admitted.getD u) := by
  obtain ⟨h, hp⟩ := h
  obtain ⟨w, hw⟩ := Option.isSome_iff_exists.mp h
  simp only [admitWrite, h3, h1, hw]
  simp [admitChange_ok hw (s := u) (by simp) hp]

/-- A write whose topology admission does not take is refused. -/
theorem admitWrite_no {c : Ctx} {u : State} {e : Nat} (h1 : c.due = none) (h3 : c.atOnce = false)
   (h : (u.store c).admits = .no e) : admitWrite c u = refuse e := by
  simp [admitWrite, h3, h1, admitChange, h]

/-- With no change of a parameter pending there is none to finish. -/
theorem settleZ_none {s : State} {p : ZParam} (h : s.z? p = none) : s.settleZ p = s := by
  unfold State.settleZ; rw [h]

/-- A change that still searches is not finished. -/
theorem settleZ_open {s : State} {p : ZParam} {z : ZPend} (h : s.z? p = some z) (hz : z.stepAt = none) : s.settleZ p = s := by
  unfold State.settleZ; rw [h]; simp [hz]

/-- A go whose ticket opens completes at once. -/
theorem wentTo_ok {u t : State} {k n : Nat} (h : (u.commit [goRec n]).openTicket (address Attr.engGo 0) 0 = some (k, t)) :
    wentTo u n = okTicket (t.completeTicket k rOk) k := by
  unfold wentTo atOnceTicket; rw [h]

/-- A ticket that opens and completes at once. -/
theorem atOnceTicket_ok {u t : State} {k n : Nat} (h : u.openTicket (address Attr.engGo 0) 0 = some (k, t)) :
    atOnceTicket u n = okTicket (t.completeTicket k n) k := by
  unfold atOnceTicket; rw [h]

/-- An action that succeeds under its ticket. -/
theorem underTicket_ok {s u t : State} {o k : Nat} (h : (s.openTicket o 1).isSome = true)
    (hu : u.openTicket o 1 = some (k, t)) : underTicket s o (ok u) = okTicket (t.completeTicket k rOk) k := by
  obtain ⟨⟨a, b⟩, hw⟩ := Option.isSome_iff_exists.mp h
  unfold underTicket; rw [hw]; simp only [ok]; rw [if_neg (by decide), hu]

/-- An action that fails under its ticket completes it with the code. -/
theorem underTicket_error {s t : State} {o k : Nat} {f : Fail}
    (hu : s.openTicket o 1 = some (k, t)) : underTicket s o (.error f) = okTicket (t.completeTicket k f.code) k := by
  unfold underTicket; rw [hu]

/-- The counter of free values does not decide on ticket slots. -/
theorem freeSlot_of_free (u : State) (x n : Nat) : ({ u with free := x } : State).freeSlot n = u.freeSlot n := by
  induction n with
  | zero => rfl
  | succ n ih => simp only [State.freeSlot, ih]; rfl

/-- The counter of free values does not decide whether a ticket opens. -/
theorem openTicket_isSome_of_free (u : State) (x o n : Nat) :
    (({ u with free := x } : State).openTicket o n).isSome = (u.openTicket o n).isSome := by
  unfold State.openTicket; rw [freeSlot_of_free]; cases u.freeSlot 16 <;> rfl

/-- Clearing the idle plane changes no attribute. -/
theorem clearIdlePlane_n (s : State) (c i e : Nat) : (s.clearIdlePlane).n c i e = s.n c i e := by
  unfold State.clearIdlePlane State.setIdlePlane
  simp only
  split <;> rfl

/-- Passing the journal to RAM leaves its groups. -/
theorem toRam_jrn (s : State) : s.toRam.jrn = s.jrn := rfl

/-- Taking the statistics of a card leaves its journal on it. -/
theorem cardStats_jrn (s : State) (c : CardSt) : (s.cardStats c).jrn = { s.jrn with card := some c } := by
  unfold State.cardStats
  simp only
  repeat' split
  all_goals simp [toRam_jrn]

/-- Starting a compaction leaves the groups, the ring and the card. -/
theorem startCompaction_keeps (s : State) (c : CardSt) (k : Option Nat) (a : Bool) :
    (s.startCompaction c k a).jrn.pend = s.jrn.pend ∧ (s.startCompaction c k a).jrn.ring = s.jrn.ring ∧
    (s.startCompaction c k a).jrn.ringOff = s.jrn.ringOff ∧ (s.startCompaction c k a).jrn.card = s.jrn.card := by
  unfold State.startCompaction
  simp only
  split <;> simp

/-- A compaction that a full ring starts leaves the groups, the ring and the card. -/
theorem compactIfFull_keeps (s : State) (c : CardSt) (w : Nat) :
    (s.compactIfFull c w).jrn.pend = s.jrn.pend ∧ (s.compactIfFull c w).jrn.ring = s.jrn.ring ∧
    (s.compactIfFull c w).jrn.ringOff = s.jrn.ringOff ∧ (s.compactIfFull c w).jrn.card = s.jrn.card := by
  unfold State.compactIfFull
  split <;> simp [startCompaction_keeps]

/-- What a programmed group leaves. -/
theorem programmed_jrn (s : State) (g : JGroup) (rest : List JGroup) (t : Tape) (o : Bool) :
    (s.programmed g rest t o).jrn.pend = rest ∧ (s.programmed g rest t o).jrn.ring = t.sectors ∧
    (s.programmed g rest t o).jrn.ringOff = t.off ∧ (s.programmed g rest t o).jrn.card = some t.card := by
  unfold State.programmed
  simp only [cardStats_jrn, State.set_jrn, and_self]

/-- Dropping a scene leaves the generation of the card. -/
theorem dropScene_gen (s : State) (n : Nat) : (s.dropScene n).jrn.gen = s.jrn.gen := by
  unfold State.dropScene; split <;> simp

/-- The run of hot samples of a sensor. -/
theorem tempOne_hot (s : State) (t : Nat) (v : Int) : (s.tempOne t v).hlt.hot = runOf s.hlt.hot t (decide (10500 ≤ v)) := by
  unfold State.tempOne
  simp only
  congr 1
  unfold State.warn State.reading
  simp only
  repeat' split
  all_goals simp

/-- A status bit of a time base leaves every other attribute. -/
theorem tbBit_n (s : State) (t b : Nat) (v : Bool) {c i e : Nat} (h : attrKey Attr.tbStatus t 0 ≠ attrKey c i e) :
    (s.tbBit t b v).n c i e = s.n c i e := by
  unfold State.tbBit; simp only; split
  · rfl
  · exact State.n_set_ne s _ h

/-- A stream set is the stream read. -/
theorem setRx_rxs (s : State) (k : Nat) (x : RxSt) : (s.setRx k x).rxs k = x :=
  Store.get_set_self _ _ _ _

/-- A status bit of a stream leaves the network. -/
theorem rxBit_net (s : State) (k b : Nat) (v : Bool) : (s.rxBit k b v).net = s.net := by simp [State.rxBit]

/-- A frame sent leaves the state of its port. -/
theorem sendFrame_sapSt (s : State) (n : Nat) (x : SapSt) (v : Int) :
    (((s.set Attr.sapRateOffset n 0 v).setPort n x).sendFrame n).sapSt n = s.sapSt n :=
  State.n_set_ne s v (by simp only [attrKey, Attr.sapRateOffset, Attr.sapState]; omega)

/-- A rate offset leaves the width of slots. -/
theorem rateOffset_slot (s : State) (n : Nat) (v : Int) :
    (s.set Attr.sapRateOffset n 0 v).n Attr.sapSlot n 0 = s.n Attr.sapSlot n 0 :=
  State.n_set_ne s v (by simp only [attrKey, Attr.sapRateOffset, Attr.sapSlot]; omega)

/-- A slow slip is asked for below 0.5. -/
theorem slipOf_slow (x : Int) : slipOf x = some true ↔ x < 128 := by
  unfold slipOf; split <;> (try split) <;> simp <;> omega

/-- A fast slip is asked for above 3.5. -/
theorem slipOf_fast (x : Int) : slipOf x = some false ↔ 896 < x := by
  unfold slipOf; split <;> (try split) <;> simp <;> omega

/-- A frame on a lane that is down, or with the pair disabled, does nothing. -/
theorem tetherIn_barred (s : State) (y now lane : Nat) (b : List Byte) (h : s.n Attr.pairPairEnable 0 0 ≠ 1 ∨ 2 ≤ lane ∨
      bit (s.n Attr.pairLanes 0 0) lane = false) : s.tetherIn y now lane b = (none, s) := by
  unfold State.tetherIn
  rw [if_pos]
  rcases h with h | h | h
  · exact .inl h
  · exact .inr (.inl h)
  · exact .inr (.inr (by simp [h]))

/-- A frame that fails its checks is an error of its lane. -/
theorem tetherIn_malformed (s : State) (y now lane : Nat) (b : List Byte) (h1 : s.n Attr.pairPairEnable 0 0 = 1) (h2 : lane < 2)
    (h3 : bit (s.n Attr.pairLanes 0 0) lane = true) (h : tetherParse b = none) : s.tetherIn y now lane b =
      (none, ({ s with pair := { s.pair with now := now } } : State).bump Attr.pairFrameErrors 0 lane) := by
  have : ¬ 2 ≤ lane := by omega
  simp [State.tetherIn, h1, this, h3, h]

/-- A frame of another type, or a second copy, only tells the time. -/
theorem tetherIn_other (s : State) (y now lane : Nat) (b : List Byte) (f : TFrame) (h1 : s.n Attr.pairPairEnable 0 0 = 1) (h2 : lane < 2)
    (h3 : bit (s.n Attr.pairLanes 0 0) lane = true) (h : tetherParse b = some f) (h4 : f.typ ≠ y ∨ s.tetherSeen y f.seq = true) :
      s.tetherIn y now lane b = (none, { s with pair := { s.pair with now := now } }) := by
  have : ¬ 2 ≤ lane := by omega
  have hs : ({ s with pair := { s.pair with now := now } } : State).tetherSeen y f.seq = s.tetherSeen y f.seq := rfl
  simp only [State.tetherIn, h1, this, h3, h, ne_eq, not_true, or_self, if_false]
  rcases h4 with h4 | h4
  · rw [if_pos h4]
  · rw [hs, h4]; split <;> simp

/-- The winner of a target is among its candidates and none is of a higher level. -/
theorem winner_spec (p : Nat) (l : List Cand) (c : Cand) (h : winner p l = some c) : c ∈ l ∧ ∀ d ∈ l, d.qos ≤ c.qos := by
  have hf : ∀ (m : List Cand) (q : Nat), q ≤ m.foldl (fun q c => Nat.max q c.qos) q ∧ ∀ d ∈ m, d.qos ≤ m.foldl (fun q c => Nat.max q c.qos) q := by
    intro m
    induction m with
    | nil => intro q; simp
    | cons x xs ih =>
      intro q
      simp only [List.foldl_cons, List.mem_cons, forall_eq_or_imp]
      obtain ⟨i1, i2⟩ := ih (Nat.max q x.qos)
      exact ⟨Nat.le_trans (Nat.le_max_left _ _) i1, Nat.le_trans (Nat.le_max_right _ _) i1, i2⟩
  unfold winner at h
  obtain ⟨i, -, hi⟩ := List.exists_of_findSome?_eq_some h
  have := List.mem_of_find?_eq_some hi
  simp only [List.mem_filter, beq_iff_eq] at this
  exact ⟨this.1, fun d hd => this.2 ▸ (hf l 0).2 d hd⟩

/-- A doorbell channel with a waiting slot that can be reached takes its oldest descriptor. -/
theorem execDescriptorTake_doorbell (s : State) (ch ad a m : Nat) (rest : List (Nat × Nat)) (h1 : ch < 12)
    (h2 : (s.chan ch).run = none) (h3 : s.low = false) (h4 : (s.chan ch).queue = (a, m) :: rest) (h5 : s.usable a = true)
    (h6 : areaOf a ≠ .hole) (h7 : a % 64 = 0) : execDescriptorTake ch ad s = .next (
      let r := ((s.setChan ch { s.chan ch with queue := rest }).grantTongs a).accessRead a 64
      let d : Desc := ⟨r.1, some m⟩
      if ¬ bit d.ctrl 31 then r.2.bump Attr.tngIdleTriggers ch 0
      else (r.2.accessWrite (tongsMaster ch) a ((leBytes 4 (d.ctrl - 2 ^ 31)).map some)).startDesc ch d) := by
  unfold execDescriptorTake descriptorTake State.slotTaken
  simp only [if_pos h1, h2, h3, h4, h5, h6, h7, List.head?_cons, Option.map_some, Option.isSome_none, Bool.false_eq_true,
    or_self, if_false, not_true, ne_eq, List.drop_succ_cons, List.drop_zero]

end Sys2Proof.Machine
end

