-- ==== Sys2Proof/Laws/Window.lean ====
section
/-! SUPPORT. The windows of the cores: their words byte by byte, read and written (R208). -/

namespace Sys2Proof.Machine

/-- An address in the window of core `c`. -/
theorem areaOf_window {c o : Nat} (hc : c < 48) (ho : o < 0x100000) : areaOf (0x10000000 + c * 0x100000 + o) = .window c o := by
  unfold areaOf
  rw [if_neg (by omega), if_pos (by omega)]
  congr 1 <;> omega

/-- A byte of a window is read from its core. -/
theorem readByte_at {s : State} {a c o : Nat} (h : areaOf a = .window c o) : s.readByte a = windowByte (s.core c) o := by
  unfold State.readByte; rw [h]

/-- A byte of a window is written to its core. -/
theorem writeByte_at {s : State} {a c o : Nat} (b : Byte) (h : areaOf a = .window c o) :
    s.writeByte a b = s.setCore c (setWindowByte (s.core c) o b) := by
  unfold State.writeByte; rw [h]

/-- A byte of a number. -/
theorem byteAt_toNat (w i : Nat) : (byteAt w i).toNat = w / 256 ^ i % 256 := by
  simp [byteAt, byteOf]

/-- Four bytes hold a 32-bit number. -/
theorem leNat_byteAt_four (w : Nat) (h : w < 2 ^ 32) : leNat [byteAt w 0, byteAt w 1, byteAt w 2, byteAt w 3] = w := by
  simp only [leNat, byteAt_toNat]
  norm_num
  omega

/-- Eight bytes hold a 48-bit number. -/
theorem leNat_byteAt_eight (w : Nat) (h : w < 2 ^ 48) : leNat [byteAt w 0, byteAt w 1, byteAt w 2, byteAt w 3, byteAt w 4, byteAt w 5, byteAt w 6, byteAt w 7] = w := by
  simp only [leNat, byteAt_toNat]
  norm_num
  omega

/-- A byte of an X word in the window. -/
theorem windowByte_x {k : CoreSt} {i j : Nat} (hi : i < 0x8000) (hj : j < 4) :
    windowByte k (0x20000 + 4 * i + j) = byteAt ((Store.get 0 k.x i).signExtend 32).toNat j := by
  unfold windowByte
  rw [if_neg (by omega), if_pos (by omega), show (0x20000 + 4 * i + j) % 0x20000 / 4 = i from by omega, show (0x20000 + 4 * i + j) % 4 = j from by omega]

/-- A byte of a Y word in the window. -/
theorem windowByte_y {k : CoreSt} {i j : Nat} (hi : i < 0x8000) (hj : j < 4) :
    windowByte k (0x40000 + 4 * i + j) = byteAt ((Store.get 0 k.y i).signExtend 32).toNat j := by
  unfold windowByte
  rw [if_neg (by omega), if_neg (by omega), if_pos (by omega), show (0x40000 + 4 * i + j) % 0x20000 / 4 = i from by omega, show (0x40000 + 4 * i + j) % 4 = j from by omega]

/-- A byte of a program word in the window. -/
theorem windowByte_pm {k : CoreSt} {i j : Nat} (hi : i < 0x4000) (hj : j < 8) :
    windowByte k (8 * i + j) = byteAt (Store.get 0 k.pm i).toNat j := by
  unfold windowByte
  rw [if_pos (by omega), show (8 * i + j) / 8 = i from by omega, show (8 * i + j) % 8 = j from by omega]

/-- Writing a byte of an X word in the window. -/
theorem setWindowByte_x {k : CoreSt} {i j : Nat} (b : Byte) (hi : i < 0x8000) (hj : j < 4) :
    setWindowByte k (0x20000 + 4 * i + j) b = { k with x := Store.set 0 k.x i (BitVec.ofNat 24 (withByte (Store.get 0 k.x i).toNat j b)) } := by
  unfold setWindowByte
  rw [if_neg (by omega), if_pos (by omega)]
  simp only [show (0x20000 + 4 * i + j) % 0x20000 / 4 = i from by omega, show (0x20000 + 4 * i + j) % 4 = j from by omega]

/-- Writing a byte of a Y word in the window. -/
theorem setWindowByte_y {k : CoreSt} {i j : Nat} (b : Byte) (hi : i < 0x8000) (hj : j < 4) :
    setWindowByte k (0x40000 + 4 * i + j) b = { k with y := Store.set 0 k.y i (BitVec.ofNat 24 (withByte (Store.get 0 k.y i).toNat j b)) } := by
  unfold setWindowByte
  rw [if_neg (by omega), if_neg (by omega), if_pos (by omega)]
  simp only [show (0x40000 + 4 * i + j) % 0x20000 / 4 = i from by omega, show (0x40000 + 4 * i + j) % 4 = j from by omega]

/-- Writing a byte of a program word in the window. -/
theorem setWindowByte_pm {k : CoreSt} {i j : Nat} (b : Byte) (hi : i < 0x4000) (hj : j < 8) :
    setWindowByte k (8 * i + j) b = { k with pm := Store.set 0 k.pm i (BitVec.ofNat 48 (withByte (Store.get 0 k.pm i).toNat j b)) } := by
  unfold setWindowByte
  rw [if_pos (by omega)]
  simp only [show (8 * i + j) / 8 = i from by omega, show (8 * i + j) % 8 = j from by omega]

/-- Four bytes written one after another leave the low 24 bits of their number. -/
theorem withByte_four (g w : Nat) (hg : g < 2 ^ 24) :
    withByte (withByte (withByte (withByte g 0 (byteOf (w % 256)) % 2 ^ 24) 1 (byteOf (w / 256 % 256)) % 2 ^ 24) 2 (byteOf (w / 256 / 256 % 256)) % 2 ^ 24) 3
      (byteOf (w / 256 / 256 / 256 % 256)) % 2 ^ 24 = w % 2 ^ 24 := by
  simp only [withByte, byteOf, BitVec.toNat_ofNat]
  norm_num
  omega

/-- Bytes written to a window change its core alone, byte by byte. -/
theorem writeBytes_window (s : State) {c o a : Nat} (l : List Byte) (hc : c < 48) (h : o + l.length ≤ 0x100000) (ha : a = 0x10000000 + c * 0x100000 + o) :
    (∀ d, d ≠ c → (s.writeBytes a l).core d = s.core d) ∧
    (s.writeBytes a l).core c = (l.foldl (fun (p : CoreSt × Nat) b => (setWindowByte p.1 p.2 b, p.2 + 1)) (s.core c, o)).1 := by
  induction l generalizing s o a with
  | nil => exact ⟨fun _ _ => rfl, rfl⟩
  | cons b l ih =>
    simp only [List.length_cons] at h
    have hw : areaOf a = .window c o := by rw [ha]; exact areaOf_window hc (by omega)
    obtain ⟨h1, h2⟩ := ih (s.writeByte a b) (o := o + 1) (a := a + 1) (by omega) (by omega)
    have e : (s.writeByte a b).core c = setWindowByte (s.core c) o b := by rw [writeByte_at b hw, core_setCore]
    refine ⟨fun d hd => ?_, ?_⟩
    · have e2 : (s.writeByte a b).core d = s.core d := by rw [writeByte_at b hw, core_setCore_ne _ (Ne.symm hd)]
      exact (h1 d hd).trans e2
    · show ((s.writeByte a b).writeBytes (a + 1) l).core c = _
      rw [h2, e]; rfl

/-- The four bytes of a number written over an X word leave its low 24 bits there. -/
theorem window_write_x (k : CoreSt) {i : Nat} (w : Nat) (hi : i < 0x8000) :
    ∃ x, ((leBytes 4 w).foldl (fun (p : CoreSt × Nat) b => (setWindowByte p.1 p.2 b, p.2 + 1)) (k, 0x20000 + 4 * i)).1 = { k with x := x } ∧
      Store.get 0 x i = BitVec.ofNat 24 w ∧ ∀ j, j ≠ i → Store.get 0 x j = Store.get 0 k.x j := by
  have x0 := fun (k : CoreSt) b => setWindowByte_x (k := k) (i := i) (j := 0) b hi (by omega)
  simp only [Nat.add_zero] at x0
  simp only [leBytes, List.foldl_cons, List.foldl_nil]
  rw [x0, setWindowByte_x (j := 1) _ hi (by omega)]
  simp only [Nat.add_assoc]
  norm_num only
  simp only [← Nat.add_assoc]
  rw [setWindowByte_x (j := 2) _ hi (by omega), setWindowByte_x (j := 3) _ hi (by omega)]
  refine ⟨_, rfl, ?_, ?_⟩
  · simp only [Store.get_set_self, BitVec.toNat_ofNat]
    have hg := (Store.get 0 k.x i).isLt
    apply BitVec.eq_of_toNat_eq
    rw [BitVec.toNat_ofNat, withByte_four _ _ hg]
    simp
  · intro j hj
    simp only [Store.get_set_ne _ _ _ (Ne.symm hj)]

/-- The four bytes of a number written over a Y word leave its low 24 bits there. -/
theorem window_write_y (k : CoreSt) {i : Nat} (w : Nat) (hi : i < 0x8000) :
    ∃ x, ((leBytes 4 w).foldl (fun (p : CoreSt × Nat) b => (setWindowByte p.1 p.2 b, p.2 + 1)) (k, 0x40000 + 4 * i)).1 = { k with y := x } ∧
      Store.get 0 x i = BitVec.ofNat 24 w ∧ ∀ j, j ≠ i → Store.get 0 x j = Store.get 0 k.y j := by
  have x0 := fun (k : CoreSt) b => setWindowByte_y (k := k) (i := i) (j := 0) b hi (by omega)
  simp only [Nat.add_zero] at x0
  simp only [leBytes, List.foldl_cons, List.foldl_nil]
  rw [x0, setWindowByte_y (j := 1) _ hi (by omega)]
  simp only [Nat.add_assoc]
  norm_num only
  simp only [← Nat.add_assoc]
  rw [setWindowByte_y (j := 2) _ hi (by omega), setWindowByte_y (j := 3) _ hi (by omega)]
  refine ⟨_, rfl, ?_, ?_⟩
  · simp only [Store.get_set_self, BitVec.toNat_ofNat]
    have hg := (Store.get 0 k.y i).isLt
    apply BitVec.eq_of_toNat_eq
    rw [BitVec.toNat_ofNat, withByte_four _ _ hg]
    simp
  · intro j hj
    simp only [Store.get_set_ne _ _ _ (Ne.symm hj)]

/-- A byte written below bit 48 fixes one more byte of the word. -/
theorem withByte_low (g b j : Nat) (hb : b < 256) (hj : j ≤ 5) (low : Nat) (hl : g % 256 ^ j = low) (hg : g < 2 ^ 48) :
    (withByte g j (byteOf b) % 2 ^ 48) % 256 ^ (j + 1) = low + b * 256 ^ j ∧ withByte g j (byteOf b) < 2 ^ 48 := by
  subst hl
  simp only [withByte, byteOf, BitVec.toNat_ofNat]
  rcases (show j = 0 ∨ j = 1 ∨ j = 2 ∨ j = 3 ∨ j = 4 ∨ j = 5 by omega) with rfl | rfl | rfl | rfl | rfl | rfl <;> norm_num <;> omega

/-- A byte written above bit 47 changes nothing. -/
theorem withByte_high (g b j : Nat) (hj : j = 6 ∨ j = 7) (hg : g < 2 ^ 48) : withByte g j (byteOf b) % 2 ^ 48 = g := by
  simp only [withByte, byteOf, BitVec.toNat_ofNat]
  rcases hj with rfl | rfl <;> norm_num <;> omega

/-- The eight bytes of a number written over a program word leave its low 48 bits there. -/
theorem window_write_pm (k : CoreSt) {i : Nat} (w : Nat) (hi : i < 0x4000) :
    ∃ x, ((leBytes 8 w).foldl (fun (p : CoreSt × Nat) b => (setWindowByte p.1 p.2 b, p.2 + 1)) (k, 8 * i)).1 = { k with pm := x } ∧
      Store.get 0 x i = BitVec.ofNat 48 w ∧ ∀ j, j ≠ i → Store.get 0 x j = Store.get 0 k.pm j := by
  have x0 := fun (k : CoreSt) b => setWindowByte_pm (k := k) (i := i) (j := 0) b hi (by omega)
  simp only [Nat.add_zero] at x0
  simp only [leBytes, List.foldl_cons, List.foldl_nil]
  rw [x0, setWindowByte_pm (j := 1) _ hi (by omega)]
  simp only [Nat.add_assoc]
  norm_num only
  rw [setWindowByte_pm (j := 2) _ hi (by omega), setWindowByte_pm (j := 3) _ hi (by omega), setWindowByte_pm (j := 4) _ hi (by omega), setWindowByte_pm (j := 5) _ hi (by omega),
    setWindowByte_pm (j := 6) _ hi (by omega), setWindowByte_pm (j := 7) _ hi (by omega)]
  refine ⟨_, rfl, ?_, ?_⟩
  · simp only [Store.get_set_self, BitVec.toNat_ofNat]
    have hg := (Store.get 0 k.pm i).isLt
    generalize (Store.get 0 k.pm i).toNat = g at hg ⊢
    apply BitVec.eq_of_toNat_eq
    rw [BitVec.toNat_ofNat, BitVec.toNat_ofNat]
    have a0 := withByte_low g (w % 256) 0 (Nat.mod_lt _ (by omega)) (by omega) 0 (by simp [Nat.mod_one]) hg
    generalize withByte g 0 (byteOf (w % 256)) = g0 at a0 ⊢
    rw [Nat.mod_eq_of_lt a0.2] at a0 ⊢
    have a1 := withByte_low g0 (w / 256 % 256) 1 (Nat.mod_lt _ (by omega)) (by omega) _ a0.1 a0.2
    generalize withByte g0 1 (byteOf (w / 256 % 256)) = g1 at a1 ⊢
    rw [Nat.mod_eq_of_lt a1.2] at a1 ⊢
    have a2 := withByte_low g1 (w / 256 / 256 % 256) 2 (Nat.mod_lt _ (by omega)) (by omega) _ a1.1 a1.2
    generalize withByte g1 2 (byteOf (w / 256 / 256 % 256)) = g2 at a2 ⊢
    rw [Nat.mod_eq_of_lt a2.2] at a2 ⊢
    have a3 := withByte_low g2 (w / 256 / 256 / 256 % 256) 3 (Nat.mod_lt _ (by omega)) (by omega) _ a2.1 a2.2
    generalize withByte g2 3 (byteOf (w / 256 / 256 / 256 % 256)) = g3 at a3 ⊢
    rw [Nat.mod_eq_of_lt a3.2] at a3 ⊢
    have a4 := withByte_low g3 (w / 256 / 256 / 256 / 256 % 256) 4 (Nat.mod_lt _ (by omega)) (by omega) _ a3.1 a3.2
    generalize withByte g3 4 (byteOf (w / 256 / 256 / 256 / 256 % 256)) = g4 at a4 ⊢
    rw [Nat.mod_eq_of_lt a4.2] at a4 ⊢
    have a5 := withByte_low g4 (w / 256 / 256 / 256 / 256 / 256 % 256) 5 (Nat.mod_lt _ (by omega)) (by omega) _ a4.1 a4.2
    generalize withByte g4 5 (byteOf (w / 256 / 256 / 256 / 256 / 256 % 256)) = g5 at a5 ⊢
    rw [Nat.mod_eq_of_lt a5.2] at a5 ⊢
    rw [withByte_high g5 _ 6 (.inl rfl) a5.2, withByte_high g5 _ 7 (.inr rfl) a5.2]
    have a6 := a5.1
    have a7 := a5.2
    clear a0 a1 a2 a3 a4 a5
    norm_num at a6 a7 ⊢
    omega
  · intro j hj
    simp only [Store.get_set_ne _ _ _ (Ne.symm hj)]

/-- Bytes read from a window, byte by byte. -/
theorem readBytes_window (s : State) {c o a : Nat} (n : Nat) (hc : c < 48) (h : o + n ≤ 0x100000) (ha : a = 0x10000000 + c * 0x100000 + o) :
    s.readBytes a n = (List.range n).map fun j => windowByte (s.core c) (o + j) := by
  induction n generalizing o a with
  | zero => rfl
  | succ n ih =>
    have hw : areaOf a = .window c o := by rw [ha]; exact areaOf_window hc (by omega)
    rw [List.range_succ_eq_map, State.readBytes, readByte_at hw, ih (o := o + 1) (a := a + 1) (by omega) (by omega)]
    simp [Nat.add_assoc, Nat.add_comm 1]

end Sys2Proof.Machine
end

