-- ==== Sys2Proof/Machine/Balls.lean ====
section
/-! DEFINITION. The ball map of the package (R582 to R590): what each ball of the 46 by 46 array is. -/

namespace Sys2Proof.Machine

/-- What a ball of the package is: a supply, ground, a ball to leave open, or a signal. -/
inductive Ball where
  | vss | vddCore | vddSram | vddaSds | vddtSds | vddDdrc | vddqDdr | vddIo18 | vddIo33 | dnc
  /-- DDRk_DQ(i), DDRk_DMI(b), DDRk_RDQS_t(b) and DDRk_RDQS_c(b) (R584). -/
  | ddrDq (k i : Nat) | ddrDmi (k b : Nat) | ddrRdqsT (k b : Nat) | ddrRdqsC (k b : Nat)
  /-- DDRk_WCK_t(i) and DDRk_WCK_c(i) (R584). -/
  | ddrWckT (k i : Nat) | ddrWckC (k i : Nat)
  /-- CA, CS and CK of subchannel A (0) or B (1), RESET_n and ZQ (R585). -/
  | ddrCa (k sub i : Nat) | ddrCs (k sub i : Nat) | ddrCkT (k sub : Nat) | ddrCkC (k sub : Nat) | ddrResetN (k : Nat)
  | ddrZq (k : Nat)
  /-- TXP, TXN, RXP and RXN of SerDes lane j: N0 to N3, TTH0 and TTH1 (R586). -/
  | sdsTxp (j : Nat) | sdsTxn (j : Nat) | sdsRxp (j : Nat) | sdsRxn (j : Nat) | sdsCal
  /-- The balls of serial audio port p (R587). -/
  | sapBck (p : Nat) | sapWs (p : Nat) | sapDi (p : Nat) | sapDo (p : Nat)
  /-- The extra signals of the edge banks (R587). -/
  | sil (p : Nat) | tmux (j : Nat) | hostSck | hostMosi | hostMiso | hostCs | hostRdy
  /-- The signals of the control bank (R588). -/
  | bootSck | bootCs | bootIo (i : Nat) | bilSck | bilCs | bilIo (i : Nat) | bilDet | oscIn | refIn (i : Nat) | porN | testEn
  | bootSel (i : Nat) | wake | pwrOff | alert | active | sfpLos (n : Nat) | sfpTxDis (n : Nat) | sfpModAbs (n : Nat)
deriving DecidableEq, Repr

/-- The letters of the rows, row 1 first (R582). -/
def rowNames : List String :=
  ["A", "B", "C", "D", "E", "F", "G", "H", "J", "K", "L", "M", "N", "P", "T", "U", "V", "W", "Y", "AA", "AB", "AC", "AD"] ++
  ["AE", "AF", "AG", "AH", "AJ", "AK", "AL", "AM", "AN", "AP", "AT", "AU", "AV", "AW", "AY", "BA", "BB", "BC", "BD", "BE"] ++
  ["BF", "BG", "BH"]

/-- The name of the ball in row r and column c: its row's letters and its column (R582). -/
def ballName (r c : Nat) : String := rowNames.getD (r - 1) "" ++ toString c

/-- Byte lane b of channel k: the ball of row r (1 to 4) at offset o (0 to 4) of its block (R584). -/
def byteLaneBall (k b r o : Nat) : Ball :=
  match r, o with
  | 1, 2 => .vss
  | 1, o => .ddrDq k (8 * b + (if o < 2 then o else o - 1))
  | 2, 1 => .ddrRdqsT k b
  | 2, 2 => .ddrRdqsC k b
  | 2, 3 => .ddrDmi k b
  | 2, _ => .vss
  | 3, 2 => .vss
  | 3, o => .ddrDq k (8 * b + 4 + (if o < 2 then o else o - 1))
  | _, 1 => if b % 2 = 0 then .ddrWckT k (b / 2) else .vddqDdr
  | _, 2 => if b % 2 = 0 then .ddrWckC k (b / 2) else .vddqDdr
  | _, 4 => .vss
  | _, _ => .vddqDdr

/-- The ball of row E (subchannel 0) or F (subchannel 1) of channel k at offset o (R585). -/
def commandBall (k sub o : Nat) : Ball :=
  if o ≤ 6 then .ddrCa k sub o else
  if o = 7 then .ddrCs k sub 0 else
  if o = 8 then .ddrCs k sub 1 else
  if o = 9 then .ddrCkT k sub else
  if o = 10 then .ddrCkC k sub else
  if o = 11 then (if sub = 0 then .ddrResetN k else .ddrZq k) else
  if o % 2 = 0 then .vddDdrc else .vss

/-- The ball of deep-memory channel k in row r (1 to 6) at offset o (0 to 22) of its columns (R584, R585). -/
def ddrBall (k r o : Nat) : Ball :=
  if 5 ≤ r then commandBall k (r - 5) o else
  if o < 20 then byteLaneBall k (o / 5) r (o % 5) else
  if r % 2 = 1 then .vddDdrc else .vss

/-- The ball of SerDes lane j at offset o (0 to 6): rows 42 (BD) to 46 (BH) (R586). -/
def serdesBall (j r o : Nat) : Ball :=
  if r = 46 then
    (match o with
     | 1 => .sdsTxp j
     | 2 => .sdsTxn j
     | 4 => .sdsRxp j
     | 5 => .sdsRxn j
     | _ => .vss)
  else if r = 44 then
    (match o with
     | 0 => .vddtSds
     | 6 => .vddtSds
     | o => if o % 2 = 0 then .vddaSds else .vss)
  else if r = 42 then (if o % 2 = 0 then .vddaSds else .vss)
  else .vss

/-- Extra signal q of the left edge bank, or of the right (R587). -/
def extraBall (right : Bool) (q : Nat) : Ball :=
  if !right then .sil q else
  if q < 8 then .tmux q else
  match q with
  | 8 => .hostSck
  | 9 => .hostMosi
  | 10 => .hostMiso
  | 11 => .hostCs
  | 12 => .hostRdy
  | _ => .dnc

/-- The ball of an edge bank in row r and column c of the left bank, or mirrored in the right (R587). -/
def edgeBall (right : Bool) (r c : Nat) : Ball :=
  if r = 40 then .vss else
  let q := (r - 8) / 2
  let p := if right then 16 + q else q
  let first := r % 2 == 0
  match c with
  | 1 => if first then .sapBck p else .sapDi p
  | 2 => if first then .sapWs p else .sapDo p
  | 3 => .vss
  | _ => if first then .vddIo18 else extraBall right q

/-- The control bank, row H (8) first: its balls in columns 5 and 6 (R588). -/
def controlBalls : List (Ball × Ball) :=
  [(.bootSck, .bootCs), (.bootIo 0, .bootIo 1), (.bootIo 2, .bootIo 3), (.vss, .vss), (.bilSck, .bilCs), (.bilIo 0, .bilIo 1),
   (.bilIo 2, .bilIo 3), (.bilDet, .vss), (.vss, .vss), (.oscIn, .vss), (.vss, .vss), (.vddIo33, .vddIo33)] ++
  [(.refIn 0, .refIn 1), (.vss, .vss), (.refIn 2, .refIn 3), (.vddIo33, .vss), (.porN, .testEn), (.bootSel 0, .bootSel 1),
   (.bootSel 2, .wake), (.pwrOff, .alert), (.active, .vddIo33), (.sfpLos 0, .sfpTxDis 0), (.sfpModAbs 0, .sfpLos 1)] ++
  [(.sfpTxDis 1, .sfpModAbs 1), (.vddIo33, .vss), (.sfpLos 2, .sfpTxDis 2), (.sfpModAbs 2, .sfpLos 3),
   (.sfpTxDis 3, .sfpModAbs 3), (.vddIo33, .vss)]

/-- The ball of the core power region in row r and column c (R589). -/
def powerBall (r c : Nat) : Ball :=
  if (r + c) % 2 = 0 then .vss else
  if c ≤ 10 ∨ 39 ≤ c then .vddSram else .vddCore

/-- The ball in row r (1 to 46) and column c (1 to 46), by the region it lies in (R583). -/
def ballAt (r c : Nat) : Ball :=
  if r ≤ 6 then ddrBall ((c - 1) / 23) r ((c - 1) % 23) else
  if r = 7 ∨ r = 41 then .vss else
  if r ≤ 40 then
    (if c ≤ 4 then edgeBall false r c else
     if c = 5 then (controlBalls.getD (r - 8) (.vss, .vss)).1 else
     if c = 6 then (controlBalls.getD (r - 8) (.vss, .vss)).2 else
     if c ≤ 42 then powerBall r c else
     edgeBall true r (47 - c))
  else if c ≤ 42 then serdesBall ((c - 1) / 7) r ((c - 1) % 7)
  else if r = 46 ∧ c = 43 then .sdsCal
  else .vss

/-- Every ball of the array, row by row. -/
def allBalls : List Ball :=
  (List.range 46).flatMap fun (r : Nat) => (List.range 46).map fun (c : Nat) => ballAt (r + 1) (c + 1)

/-- How many balls of a kind the array holds (R590). -/
def ballCount (b : Ball) : Nat := allBalls.countP fun (x : Ball) => x == b

end Sys2Proof.Machine
end

