-- ==== Sys2Proof/Machine/Pins.lean ====
section
/-! DEFINITION. The levels at the output balls (R170, R462, R468, R542, R552, R564, R566, R592, R593), as views of the state. -/

namespace Sys2Proof.Machine

/-- An output ball of R592: SILp, TMUXj, ACTIVE, ALERT, HOST_RDY, PWR_OFF, SFPn_TXDIS and the output pins of port p. -/
inductive OutBall where
  | sapBck (p : Nat)
  | sapWs (p : Nat)
  | sapDo (p : Nat)
  | sil (p : Nat)
  | tmux (j : Nat)
  | active
  | alert
  | hostRdy
  | pwrOff
  | sfpTxDis (n : Nat)
deriving DecidableEq, Repr

/-- The level of a ball: driven low or high, left to its pull, or carrying a clock or serial data. -/
inductive Level where
  | running
  | low
  | high
  | highZ
deriving DecidableEq, Repr

/-- A driven level. -/
def driven (b : Bool) : Level := if b then .high else .low

/-- The level of an internal signal on a test ball (R566): signals that the state shows; those that pulse within a
command, and clocks, are free. (DESIGN CHOICE, entry 66) -/
def State.testSignal (s : State) (i : Nat) : Bool :=
  if i = 0x028 then s.n Attr.heaSwitching 0 0 == 1
  else if 0x029 ≤ i ∧ i ≤ 0x02B then bit (s.n Attr.heaState 0 0) (i - 0x029)
  else if i = 0x030 then s.role == 0 || s.role == 1
  else if 0x040 ≤ i ∧ i ≤ 0x06F then (s.core (i - 0x040)).run.isSome
  else if 0x070 ≤ i ∧ i ≤ 0x09F then (s.core (i - 0x070)).stall.isSome
  else if i = 0x0B9 then s.n Attr.cruStrikeState 0 0 == 2
  else if 0x1F0 ≤ i ∧ i ≤ 0x1F6 then s.condition (i - 0x1F0)
  else if i = 0x1FF then true
  else if (0x006 ≤ i ∧ i ≤ 0x00F) ∨ (0x02C ≤ i ∧ i ≤ 0x02F) ∨ (0x034 ≤ i ∧ i ≤ 0x03F) ∨ (0x0BA ≤ i ∧ i ≤ 0x0BF) ∨
    (0x1F7 ≤ i ∧ i ≤ 0x1FE) then false
  else Config.testPulse s.free i

/-- The level at an output ball once firmware runs (R592), and in OFF, where the silence and test balls change and PWR_OFF is
driven high (R593). (DESIGN CHOICE, entry 66) -/
def State.level (s : State) (b : OutBall) : Level :=
  match b with
  | .sapBck p => if s.pow.pwrOff || s.n Attr.sapEnable p 0 == 0 || s.n Attr.sapClocking p 0 == 1 then .highZ else .running
  | .sapWs p => if s.pow.pwrOff || s.n Attr.sapEnable p 0 == 0 || s.n Attr.sapClocking p 0 == 1 then .highZ else .running
  | .sapDo p => if s.pow.pwrOff then .highZ else if s.n Attr.sapEnable p 0 == 0 then .low else .running
  | .sil p => if s.pow.pwrOff then .highZ
    else driven (bit (s.n Attr.silPinState 0xFFFF 0) p != bit (s.n Attr.silPinPolarity 0xFFFF 0) p)
  | .tmux j => driven (!s.pow.pwrOff && s.n Attr.devUnlocked 0 0 == 1 && s.testSignal (s.n Attr.devTmuxSelect 0 j))
  | .active => driven (s.role == 0 || s.role == 1)
  | .alert => driven (!s.hlt.alert)
  | .hostRdy => driven s.yug.spiReady
  | .pwrOff => driven s.pow.pwrOff
  | .sfpTxDis n => driven (s.n Attr.portEnable n 0 == 0 || (s.n Attr.portLink n 0 == 0 && Config.moduleAbsent s.free n))

/-- The level at an output ball while PORn is low: high-Z with its pull, PWR_OFF low and SFPn_TXDIS high (R592). -/
def resetLevel (b : OutBall) : Level :=
  match b with
  | .pwrOff => .low
  | .sfpTxDis _ => .high
  | _ => .highZ

end Sys2Proof.Machine
end

