-- ==== Sys2Proof/Tests/Slice0.lean ====
section
/-! SUPPORT. Tests of the model, and for every statement with hypotheses a theorem that shows a state and operands that
meet them. A witness evaluates the hypotheses on small states built from the one after reset. -/

namespace Sys2Proof.Tests

open Sys2Proof Sys2Proof.Machine

set_option maxRecDepth 20000
set_option Elab.async false

/-! ### Small states -/

/-- A request on the SPI host port from node 1: operation, attribute code, instance and data. -/
def req (op code inst : Nat) (data : List Nat := []) (elem : Nat := 0) (count : Nat := 0) : Req :=
  ⟨0, 0, 1, 0, 1, 4096, 0, none, [], true, op, code / 256, inst, code % 256, elem, count, none, none, none, none,
   data.map byteOf⟩

/-- The type code of an attribute. -/
def tyOf (code inst : Nat) : Nat := ((rowAt code inst).map (·.ty)).getD 0

/-- The values `vs` as the data of a request on an attribute. -/
def dataOf (code inst : Nat) (vs : List Int) : List Byte := vs.flatMap (encodeVal (tyOf code inst))

/-- A READ. -/
def readOf (code inst : Nat) : Req := req 1 code inst
/-- A WRITE of one value. -/
def writeOf (code inst : Nat) (v : Int) : Req := { req 2 code inst with data := dataOf code inst [v] }
/-- An array write from an element on. -/
def writesOf (code inst elem : Nat) (vs : List Int) : Req := { req 4 code inst [] elem vs.length with data := dataOf code inst vs }
/-- An action with its arguments. -/
def actOf (code inst : Nat) (vs : List Int) : Req := { req 5 code inst with data := dataOf code inst vs }

/-- The engine in RUN with the tick running, at MD0 count 480, N = 8. -/
def inRun : State :=
  let s := State.reset.set Attr.engState 0 0 1
  { s with eng := { s.eng with running := true, count := 480, frames := 9 } }

/-- Whether request `q` is served as `row` in `s` and meets `cond` there. -/
def meets (row : Row) (q : Req) (s : State) (cond : Ctx → State → Bool) : Bool :=
  q.when_.isNone && match serving row q s with
  | some (sess, v, c) => cond c (v.opened sess)
  | none => false

/-- Whether request `q` is taken and authenticated in `s`, and the state it is checked in meets `cond`. -/
def passes (q : Req) (s : State) (cond : State → Bool) : Bool :=
  match s.take q with
  | .got v => (match v.auth q with
    | .pass k => cond (v.opened k)
    | _ => false)
  | _ => false

/-- A request that `meets` describes, and the ticket of its action opens in the state `pre`. -/
def opens (row : Row) (q : Req) (s : State) (cond : Ctx → State → Bool) (origin total : Nat)
    (pre : Ctx → State → State := fun _ u => u) : Bool :=
  meets row q s fun c u => cond c u && ((pre c u).openTicket origin total).isSome

/-- What a command answers, where it is a next state. -/
def after (i : Instr) (s : State) : Option State :=
  match exec i s with
  | .next t => some t
  | _ => none
/-- The request frame of `q` (R435, R436). -/
def frame (q : Req) : List Byte :=
  let b := bodyBytes q
  let h := [byteOf 0x59, byteOf 0x47, byteOf 1, byteOf 0] ++ leBytes 2 q.dst ++ leBytes 2 q.src ++ leBytes 2 q.seq ++
    leBytes 2 q.maxReply ++ leBytes 2 b.length ++ leBytes 2 q.session ++ b
  h ++ leBytes 4 (crc32 h)

/-- A state whose transport N0 carries Yugal. -/
def onN0 : State := (((State.reset.set Attr.yugEnable 0 0 1).set Attr.portEnable 0 0 1).set Attr.portIpAddr 0 0 1).set Attr.portLink 0 0 1

/-- A read of the engine's state over N0. -/
def readState1 : Req := { req 1 Attr.engState 0 with via := 1 }

/-- A state with a queue of requests. -/
def queued (l : List Req) (s : State) : State := { s with yug := { s.yug with queue := l } }

/-- A state with ticket 0x100 in slot 0, in progress. -/
def withTicket : State := (State.reset.set Attr.tktTicket 0 0 0x100).set Attr.tktState 0 0 1

/-- A state with a key in slot 7 and a session of it. -/
def withKey : State :=
  { State.reset with yug := { State.reset.yug with
      keys := [(7, List.replicate 32 1)], sessions := [⟨1, 7, List.replicate 32 2, none, 0⟩] } }

/-- A state whose module slot 0 is staged with bytes. -/
def stagedAs (b : List Byte) (s : State) : State :=
  { s with blobs := Store.put s.blobs (attrKey Attr.modImage 0 0) b }

/-- A ramp of one stretch from 0 to 100 over 16 samples from the first frame on. -/
def ramp16 (p : RParam) : Ramp := ⟨p, [⟨0, 100, 16, 0, 0, 0⟩], true⟩

/-- The engine in RUN with one parameter in flight. -/
def ramping (p : RParam) : State := { inRun with bel := { inRun.bel with ramps := [ramp16 p] } }

/-- The engine in RUN with a strike that runs since its first frame. -/
def striking (k : Strike) : State :=
  { inRun.set Attr.cruStrikeState 0 0 2 with cru := { inRun.cru with strike := some k } }

/-- A state with a Class Z change in work. -/
def withZ (z : ZPend) (s : State) : State := { s with bel := { s.bel with zs := [z] } }

/-- A change of the trim of strip 0 that still searches. -/
def trimZ : ZPend := ⟨.trim 0, 0, 100, 480, 480, none, false, false⟩
/-- The bytes of an image of `prog` with one input and one output port in X, four CONST words in X at 64, `events` event
lines and a budget for `fam` at N = 8 (R245, R246). -/
def imageWith (events : Nat) (prog : List Nat) (fam cycles : Nat) : List Byte :=
  let sec (t a base size data : Nat) : List Byte :=
    leBytes 1 t ++ leBytes 1 a ++ leBytes 2 0 ++ leBytes 4 base ++ leBytes 4 size ++ leBytes 4 data
  let data := 112 + 8 * prog.length
  let body := sec 1 0 0 prog.length 112 ++ sec 2 0 64 4 data ++ sec 6 0 0 1 (data + 16) ++ prog.flatMap (leBytes 8) ++
    leBytes 4 1 ++ leBytes 4 2 ++ leBytes 4 3 ++ leBytes 4 4 ++ leBytes 1 fam ++ leBytes 1 8 ++ leBytes 2 0 ++
    leBytes 4 cycles ++ leBytes 4 0 ++ leBytes 4 0
  let tail := leBytes 16 0x41 ++ leBytes 4 1 ++ leBytes 2 0 ++ leBytes 1 1 ++ leBytes 1 1 ++ leBytes 2 0 ++ leBytes 2 32 ++
    leBytes 1 0 ++ leBytes 1 events ++ leBytes 18 0 ++ body
  let head := [byteOf 0x58, byteOf 0x49, byteOf 0x58, byteOf 0x31] ++ leBytes 2 1 ++ leBytes 2 3 ++ leBytes 4 (16 + tail.length)
  head ++ leBytes 4 (crc32 (head ++ leBytes 4 0 ++ tail)) ++ tail

/-- An image without events. -/
def imageOf (prog : List Nat) (fam cycles : Nat) : List Byte := imageWith 0 prog fam cycles

/-- A state with a module of program `prog` in slot 0, whose budget is for family `fam`. -/
def withMod (prog : List Nat) (fam : Nat) (s : State) : State :=
  (s.setMod 0 (Mod.new (readImage (imageOf prog fam 1000)) none)).imageAttrs 0 (readImage (imageOf prog fam 1000))

/-- Whether admission refuses the topology that a write leaves. -/
def turnedAway (c : Ctx) (u : State) : Bool :=
  match (u.store c).admits with
  | .no _ => true
  | _ => false
/-- Module `m`, of `cycles` cycles a block, on a core. -/
def moduleAt (m core cycles : Nat) (s : State) : State :=
  let g := readImage (imageOf [0x390000000000] 0 cycles)
  ((s.setMod m (Mod.new g none)).imageAttrs m g).set Attr.plcModuleCore 0 m core

/-- The engine in RUN with three usable cores, a spare count, and these modules (number, core, cycles). -/
def threeCores (spare : Nat) (mods : List (Nat × Nat × Nat)) : State :=
  mods.foldl (fun s m => moduleAt m.1 m.2.1 m.2.2 s)
    ((inRun.set Attr.plcRetiredCores 0 0 (2 ^ 48 - 8)).set Attr.plcSpareCores 0 0 (spare : Int))

/-- Module 0 on core 0, with the engine in RUN or not. -/
def placed (s : State) : State := (withMod [0x390000000000] 0 s).set Attr.plcModuleCore 0 0 0

/-- Bring-up at the entry into RUN, and one whose time base is still acquiring. -/
def entering : State :=
  { State.reset.set Attr.powBringUpStep 0 0 5 with pow := { State.reset.pow with entryDue := true } }
def unlocked (s : State) : State := (s.set Attr.tbSource s.md0Tb 0 1).set Attr.tbState s.md0Tb 0 1

/-- A state with these plans. -/
def planning (l : List Plan) (s : State) : State := { s with plc := { s.plc with plans := l } }

/-- A module of 64 words of program with one port each way in X, 16 words of STATE in Y, one event line, a bank region of
256 bytes and a budget of 1,000 cycles at N = 8. -/
def runImageOf : Image :=
  { crc := 0, name := [], version := 0, entry := 0, nIn := 1, nOut := 1, inY := false, inArea := 0, outY := false,
    outArea := 32, sIn := 0, sOut := 0, events := 1, progBase := 0, prog := List.replicate 64 0
    data := [⟨true, 1, 0, 16, []⟩], banks := [(false, 256)], deeps := [], budget := [⟨0, 8, 1000, 0, 0⟩] }

/-- Core 0 in RUN, on that module, about to fetch word `w`; `f` changes the core. -/
def onCore (w : Word48) (f : CoreSt → CoreSt := id) : State :=
  let s := (inRun.setMod 0 (Mod.new runImageOf (some 16))).set Attr.plcModuleCore 0 0 0
  let s := { s with plc := { s.plc with regions := [⟨.rb 0 0, 0x1000, 256, []⟩] } }
  s.setCore 0 (f { s.core 0 with pm := [(0, w)], run := some 0 })

/-- Bytes of a card from an address on; erased bytes are not listed. -/
def run (a : Nat) (l : List Nat) : Store Byte := (l.mapIdx fun i x => (a + i, byteOf x)).filter fun e => e.2 != 0xFF

/-- The identity block of a card of 11 sectors with serial number 5 and 1,000 rated cycles (R505). -/
def idBlock : Store Byte := run 0
  [66, 76, 84, 49, 1, 0, 0, 0, 5, 0, 0, 0, 0, 0, 0, 0, 11, 0, 0, 0, 232, 3, 0, 0, 0, 0,
    0, 0, 15, 186, 74, 92]
/-- Its superblock of generation 1, in sector 1 (R507). -/
def superOne : Store Byte := run 0x10000
  [66, 83, 66, 49, 1, 0, 0, 0, 5, 0, 0, 0, 0, 0, 0, 0, 0, 0, 0, 0, 0, 0, 0, 0, 0, 0,
    0, 0, 0, 0, 0, 0, 1, 0, 0, 0, 0, 0, 0, 0, 0, 0, 0, 0, 0, 0, 0, 0, 0, 0, 0, 0,
    0, 0, 0, 0, 0, 0, 0, 0, 195, 96, 251, 70]
/-- The header of a sector that has never been erased again, and of one erased 2,000 times (R506). -/
def freshHead (k : Nat) : Store Byte := run (0x10000 * k) [66, 83, 72, 49, 0, 0, 0, 0, 228, 240, 237, 99]
def wornHead (k : Nat) : Store Byte := run (0x10000 * k) [66, 83, 72, 49, 208, 7, 0, 0, 248, 95, 246, 64]

/-- That card, with sectors 3 and 4 free. -/
def smallCard : CardSt := ⟨5, 11, 1000, idBlock ++ (superOne ++ (freshHead 3 ++ freshHead 4))⟩

/-- A state with a card in its slot, in card state `st`. -/
def cardIn (c : CardSt) (st : Nat) (s : State) : State :=
  { s.set Attr.jrnCardState 0 0 st with jrn := { s.jrn with card := some c } }

/-- A state with a card without free sectors. -/
def carded (st : Nat) (s : State) : State := cardIn ⟨5, 3, 1000, []⟩ st s

/-! ### Well-formedness: an ill-formed term for each check -/

theorem test_wf_request : (Instr.goAction (req 5 Attr.engGo 0 [1])).wf = true := by decide
theorem test_wf_request_source : (Instr.goAction { req 5 Attr.engGo 0 [1] with src := 0 }).wf = false := by decide
theorem test_wf_request_transport : (Instr.goAction { req 5 Attr.engGo 0 [1] with via := 5 }).wf = false := by decide
theorem test_wf_request_reply : (Instr.goAction { req 5 Attr.engGo 0 [1] with maxReply := 67 }).wf = false := by decide
theorem test_wf_latch : (Instr.blockTick 0 (List.replicate 9 0)).wf = false := by decide
theorem test_wf_slot : (Instr.rowSwapEnd 4096).wf = false := by decide
theorem test_wf_node : (Instr.rampEnd (.node 2 0 0)).wf = false := by decide
theorem test_wf_class_z : (Instr.zeroCrossing (.trim 2048)).wf = false := by decide
theorem test_wf_output : (Instr.holdTimeExpiry (.sapOut 32 0)).wf = false := by decide
theorem test_wf_core : (Instr.release 48).wf = false := by decide
theorem test_wf_moves : (Instr.nop 0 ⟨some ⟨false, 3, 1, 0⟩, some ⟨false, 3, 1, 0⟩⟩).wf = false := by decide
theorem test_wf_pair_of_accumulators : (Instr.addsub 0 1 1 ⟨none, none⟩).wf = false := by decide
theorem test_wf_destination : (Instr.ldi 0 45 0).wf = false := by decide
theorem test_wf_source : (Instr.stx 0 47 0).wf = false := by decide
theorem test_wf_gate : (Instr.remoteRead 0 [[0]] [none] 0 0 false 0 0).wf = false := by decide
theorem test_wf_gates : (Instr.outputReleased ⟨0, List.replicate 6 ⟨[], none⟩⟩).wf = false := by decide
theorem test_wf_burst : (Instr.matrixBurstGrant 0 0 [⟨0, 16, 241, .read, [], [], 0⟩] [] 0).wf = false := by decide
theorem test_wf_atomic_burst : (Instr.matrixBurstGrant 0 0 [⟨3, 0, 4, .swap, [0, 0, 0, 0], [], 0⟩] [] 0).wf = false := by decide
theorem test_wf_march_read : (Instr.marchComplete [⟨1, 0, 1⟩]).wf = false := by decide
theorem test_wf_march_fail : (Instr.powerOnReset ⟨0, 0, none, [], [⟨1, 0, 0⟩], false⟩).wf = false := by decide
theorem test_wf_bootsel : (Instr.powerOnReset ⟨0, 8, none, [], [], false⟩).wf = false := by decide
theorem test_wf_channel : (Instr.descriptorComplete 16).wf = false := by decide
theorem test_wf_port : (Instr.clockStopped 32).wf = false := by decide
theorem test_wf_network_port : (Instr.linkChange 4 true).wf = false := by decide
theorem test_wf_lane : (Instr.laneChange 2 true).wf = false := by decide
theorem test_wf_spi : (Instr.spiBadCommand 2).wf = false := by decide
theorem test_wf_counters : (Instr.counterPoll (List.replicate 9 0)).wf = false := by decide
theorem test_wf_stream : (Instr.streamLost 512).wf = false := by decide
theorem test_wf_member : (Instr.memberAbsent 32).wf = false := by decide

/-! ### Anvil words, written out by their fields (R251 to R273) -/

/-- ADD C, B without moves: class 1, op 0x08, da 2, db 1. -/
theorem test_decode_add : decodeAnvil 0 0 (BitVec.ofNat 48 (1 * 2 ^ 44 + 8 * 2 ^ 39 + 2 * 2 ^ 37 + 1 * 2 ^ 35)) =
    some (.add 0 2 1 ⟨none, none⟩) := by decide
/-- STX of register 4 at 0x7FFF: class 2, op 5, src 4. -/
theorem test_decode_stx : decodeAnvil 0 0 (BitVec.ofNat 48 (2 * 2 ^ 44 + 5 * 2 ^ 40 + 4 * 2 ^ 28 + 0x7FFF)) =
    some (.stx 0 4 0x7FFF) := by decide
/-- CALL always to 0x3FFF: class 3, op 1, cond 0. -/
theorem test_decode_call : decodeAnvil 0 0 (BitVec.ofNat 48 (3 * 2 ^ 44 + 1 * 2 ^ 40 + 0x3FFF * 2 ^ 16)) =
    some (.call 0 0 0x3FFF) := by decide
/-- A remote write of A3 through region base 7 at offset 8: class 4, op 1. -/
theorem test_decode_remote_write : decodeAnvil 0 0 (BitVec.ofNat 48 (4 * 2 ^ 44 + 1 * 2 ^ 40 + 7 * 2 ^ 37 + 3 * 2 ^ 35 + 8)) =
    some (.remoteWrite 0 [] [] 7 3 false 0 8) := by decide

/-! ### Witnesses: Yugal -/

theorem witness_frames : State.reset.transportOn 1 = false ∧ State.reset.pow.pwrOff = false ∧ onN0.transportOn 1 = true ∧ onN0.pow.pwrOff = false ∧ parseFrame 1 0 [] = none ∧
    (parseFrame 1 0 (frame readState1)).any (fun q => match onN0.arrive q with
      | .got t => decide (t.yug.queue.length < 32)
      | _ => false) = true ∧
    (parseFrame 1 0 (frame readState1)).any (fun q => match (queued (List.replicate 32 readState1) onN0).arrive q with
      | .got t => decide (32 ≤ t.yug.queue.length)
      | _ => false) = true := by decide +kernel

/-- Repeats, failures of authentication, refusals by the checks and by the checks that every operation shares. -/
theorem witness_requests :
    (match State.reset.take (req 1 Attr.engState 0) with
     | .got v => (match ({ v with yug := { v.yug with kept := [⟨0, 1, 1, none, [0]⟩] } } : State).auth (req 1 Attr.engState 0) with
       | .dup _ => true
       | _ => false) &&
       (match (v.set Attr.sesAuthPolicy 0xFFFF 0 2).auth (req 1 Attr.engState 0) with
       | .fail => true
       | _ => false)
     | _ => false) = true ∧
    (match State.reset.checks (req 1 0xFFFF 0) with
     | .error _ => true
     | .ok _ => false) = true ∧
    (match inRun.checks (req 2 Attr.engFamily 0 [0]) with
     | .error _ => false
     | .ok c => (inRun.shared c).isSome) = true ∧
    rowOf (req 1 Attr.engState 0) = .read ∧ (queued [req 1 Attr.engState 0] State.reset).yug.queue = [req 1 Attr.engState 0] := by
  decide +kernel

theorem witness_reads :
    meets .read (readOf Attr.engState 0) State.reset (fun c u => decide (c.row.ty ≠ 11 ∧
      (encodeVal c.row.ty (u.value c.code c.q.inst 0)).length ≤ roomFor c.q false)) = true ∧
    meets .readArray (req 3 Attr.engAdmittedLoad 0 [] 0 1) State.reset (fun c _ => decide (c.q.token = none ∧ c.q.count ≠ 0 ∧
      c.q.count * elemBytes c.code c.q.inst c.row.ty ≤ roomFor c.q false)) = true ∧
    meets .readArray { req 3 Attr.nodeGain 0 [] 0 64 with maxReply := 68 } State.reset (fun c _ =>
      decide (c.q.token.getD (c.q.elem, c.q.count) = (0, 64) ∧ roomFor c.q false < 64 * elemBytes c.code c.q.inst c.row.ty ∧
        0 < roomFor c.q true / elemBytes c.code c.q.inst c.row.ty ∧
        roomFor c.q true / elemBytes c.code c.q.inst c.row.ty < 64)) = true ∧
    meets .ticketRead (req 3 Attr.tktQuery 0xFFFF [] 0x100 1) withTicket (fun c u => decide (c.q.token = none ∧ c.q.count = 1 ∧
      8 ≤ roomFor c.q false ∧ u.n Attr.tktState (c.q.elem % 16) 0 ≠ 0 ∧ u.n Attr.tktTicket (c.q.elem % 16) 0 = c.q.elem)) = true ∧
    meets .ticketRead (req 3 Attr.tktQuery 0xFFFF [] 0x110 1) withTicket (fun c u => decide (c.q.token = none ∧ c.q.count = 1 ∧
      8 ≤ roomFor c.q false ∧ u.n Attr.tktTicket (c.q.elem % 16) 0 ≠ c.q.elem)) = true ∧
    meets .write (writeOf Attr.belZcTimeout 0 10000) State.reset (fun c u => decide (c.code ≠ Attr.plcSpareCores ∧
      c.code ≠ Attr.insCompKeyCoef ∧ c.code ≠ Attr.outsCompKeyCoef) && (u.writeBad c).isNone) = true ∧
    meets .write (writeOf Attr.mdEnable 3 0) (State.reset.set Attr.rxEnable 0 0 1 |>.set Attr.rxDomain 0 0 3)
      (fun c u => decide (c.code ≠ Attr.plcSpareCores ∧ c.code ≠ Attr.insCompKeyCoef ∧ c.code ≠ Attr.outsCompKeyCoef) &&
        (u.writeBad c).isSome) = true ∧
    meets .clearCounts (actOf Attr.insClearSat 0 [1]) State.reset (fun c _ => decide (c.code ≠ Attr.engClearCounts ∧
      c.code ≠ Attr.monClearMax ∧ c.code ≠ Attr.vmClearMax)) = true := by
  decide +kernel

theorem witness_sessions :
    meets .openSession { req 5 Attr.sesOpenSession 0xFFFF with data := List.replicate 17 7 } withKey (fun c u =>
      decide (c.arg.toNat ≤ 7 ∧ u.yug.sessions.length < 16) && (Store.find? u.yug.keys c.arg.toNat).isSome) = true ∧
    meets .openSession { req 5 Attr.sesOpenSession 0xFFFF with data := List.replicate 17 8 } withKey (fun c _ =>
      decide (7 < c.arg.toNat)) = true ∧
    meets .openSession { req 5 Attr.sesOpenSession 0xFFFF with data := List.replicate 17 0 } withKey (fun c u =>
      decide (c.arg.toNat ≤ 7) && (Store.find? u.yug.keys c.arg.toNat).isNone) = true ∧
    meets .closeSession (actOf Attr.sesCloseSession 0xFFFF [1]) withKey (fun c u =>
      u.yug.sessions.any (·.id == c.arg.toNat)) = true ∧
    meets .key { req 4 Attr.sesKey 7 [] 0 32 with data := List.replicate 32 1 } withKey (fun c _ =>
      decide (c.q.elem = 0 ∧ c.q.count = 32)) = true ∧
    meets .key { req 4 Attr.sesKey 7 [] 1 31 with data := List.replicate 31 1 } withKey (fun c _ =>
      decide (c.q.elem ≠ 0 ∨ c.q.count ≠ 32)) = true ∧
    meets .keyErase (actOf Attr.sesKeyErase 7 [1]) withKey (fun _ _ => true) = true ∧
    meets .nodeId (writeOf Attr.yugNodeId 0 5) State.reset (fun _ _ => true) = true ∧
    State.reset.pow.pwrOff = false ∧ State.reset.yug.spiBusy = false := by decide +kernel

/-! ### Witnesses: the Crucible and Bellows -/

/-- The engine in RUN with one group of `n` ramps in the queue. -/
def waiting (n : Nat) : State :=
  { inRun with bel := { inRun.bel with queue := [⟨List.replicate n ⟨.outFader 5, 100, 16, 0, 0, 0⟩, none⟩] } }

theorem witness_gains :
    meets .gain (writesOf Attr.nodeGain 3 5 [100, 200]) State.reset (fun _ u => !u.ticking) = true ∧
    meets .gain (writesOf Attr.nodeGainCdb 3 5 [-600]) inRun (fun c u => u.ticking && u.bel.queue.isEmpty &&
      decide (rampsNamed c (gainTargets c u) u ≠ [] ∧ u.newSlots (rampsNamed c (gainTargets c u) u) + u.slotsUsed ≤ 16384)) = true ∧
    meets .fader (writeOf Attr.insFader 0 1000) State.reset (fun _ u => !u.ticking) = true ∧
    meets .fader (writeOf Attr.outsFaderCdb 7 (-1000)) inRun (fun c u => u.ticking && u.bel.queue.isEmpty &&
      decide (rampsNamed c [faderTarget c u] u ≠ [] ∧ u.newSlots (rampsNamed c [faderTarget c u] u) + u.slotsUsed ≤ 16384)) = true ∧
    meets .fader (writeOf Attr.insFader 0 1000) (waiting 1) (fun c u => u.ticking && (u.queued? (faderTarget c u).1).isNone &&
      decide (u.newSlots (rampsNamed c [faderTarget c u] u) ≠ 0 ∧ u.bel.queue ≠ [] ∧
        (rampsNamed c [faderTarget c u] u).length + u.queueUsed ≤ 4096)) = true ∧
    meets .fader (writeOf Attr.insFader 0 1000) (waiting 4096) (fun c u => u.ticking && (u.queued? (faderTarget c u).1).isNone &&
      decide (u.newSlots (rampsNamed c [faderTarget c u] u) ≠ 0 ∧ u.bel.queue ≠ [] ∧
        4096 < (rampsNamed c [faderTarget c u] u).length + u.queueUsed)) = true ∧
    meets .idleGain (writesOf Attr.nodeIdleGain 3 5 [100]) State.reset (fun _ u => !u.idleLocked) = true ∧
    meets .idleGain (writesOf Attr.nodeIdleGainCdb 3 5 [100]) (State.reset.set Attr.cruStrikeState 0 0 2)
      (fun _ u => u.idleLocked) = true := by decide +kernel

/-- Whether an occupant write may bind what it names in `u`. -/
def mayBind (c : Ctx) (u : State) (b : Nat × Nat) : Bool :=
  decide (bindingNamed c u = some b ∧ u.occupantBad b.2 = none ∧ u.target (.swap b.1) ≠ (b.2 : Int)) &&
    (u.bindings b.1 b.2).all (fun e => !u.inFlight (.swap e.1))

/-- Whether admission takes a binding without a move. -/
def placedHere (u : State) (b : Nat × Nat) : Bool :=
  match (bindingMade b u).admits with
  | .inc _ _ => true
  | _ => false

/-- The engine in RUN with in-strip 1 in slot 7, whose swap runs. -/
def swapping : State :=
  { inRun.set Attr.slotOccupant 7 0 0x10000001 with bel := { inRun.bel with ramps := [⟨.swap 7, [⟨0, 0x10000001, 16, 0, 480, 0⟩], true⟩] } }

theorem witness_occupants :
    meets .occupant (writeOf Attr.slotOccupant 0 0) State.reset (fun c u =>
      decide (bindingNamed c u = some (0, 0) ∧ u.occupantBad 0 = none ∧ u.target (.swap 0) = 0)) = true ∧
    meets .occupant (writeOf Attr.insSource 3 0xFFFF) State.reset (fun c u =>
      decide (c.code ≠ Attr.slotOccupant ∧ c.arg.toNat = 0xFFFF ∧ u.slotOf (2 ^ 28 + c.q.inst) = none)) = true ∧
    meets .occupant (writeOf Attr.slotOccupant 5 0x10000001) State.reset (fun c u =>
      mayBind c u (5, 0x10000001) && placedHere u (5, 0x10000001) && !u.ticking) = true ∧
    meets .occupant (writeOf Attr.insSource 1 5) inRun (fun c u =>
      mayBind c u (5, 0x10000001) && placedHere u (5, 0x10000001) && u.ticking && u.plc.plans.isEmpty &&
      (u.acceptSwaps ((u.bindings 5 0x10000001).map (u.swapOf (u.order c))) none false).toOption.isSome) = true ∧
    meets .occupant (writeOf Attr.slotOccupant 5 0x10000001) swapping (fun c u =>
      decide (bindingNamed c u = some (5, 0x10000001) ∧ u.occupantBad 0x10000001 = none ∧ u.target (.swap 5) ≠ 0x10000001) &&
      (u.bindings 5 0x10000001).any (fun e => u.inFlight (.swap e.1))) = true ∧
    meets .occupant (writeOf Attr.slotOccupant 5 0x30000001) State.reset (fun c u =>
      decide (bindingNamed c u = some (5, 0x30000001)) && (u.occupantBad 0x30000001).isSome) = true ∧
    meets .occupant (writeOf Attr.insSource 0 3000) (State.reset.set Attr.engShape 0 0 1) (fun c u =>
      decide (c.code ≠ Attr.slotOccupant ∧ c.arg.toNat ≠ 0xFFFF ∧ u.S ≤ c.arg.toNat)) = true ∧
    meets .occupant (writeOf Attr.slotOccupant 5 0x10000001) (withMod [0] 1 State.reset) (fun c u =>
      mayBind c u (5, 0x10000001) && match (bindingMade (5, 0x10000001) u).admits with
       | .no _ => true
       | _ => false) = true := by decide +kernel

theorem witness_strikes :
    opens .strike (actOf Attr.cruStrike 0 [1]) inRun
      (fun _ u => decide (u.n Attr.cruStrikeState 0 0 = 0 ∧ u.n Attr.cruIdleBusy 0 0 ≠ 1) && u.ticking)
      (address Attr.cruStrike 0) 0 = true ∧
    opens .strike (actOf Attr.cruStrike 0 [1]) State.reset
      (fun _ u => decide (u.n Attr.cruStrikeState 0 0 = 0 ∧ u.n Attr.cruIdleBusy 0 0 ≠ 1) && !u.ticking)
      (address Attr.cruStrike 0) 0 = true ∧
    meets .strike (actOf Attr.cruStrike 0 [1]) (striking ⟨0, 100, 0, 0⟩)
      (fun _ u => decide (u.n Attr.cruStrikeState 0 0 ≠ 0)) = true ∧
    meets .cancelStrike (actOf Attr.cruCancelStrike 0 [1]) State.reset (fun _ u => decide (u.n Attr.cruStrikeState 0 0 ≠ 2)) = true ∧
    meets .cancelStrike (actOf Attr.cruCancelStrike 0 [1]) (striking ⟨0, 100, 0, 0⟩)
      (fun _ u => decide (u.n Attr.cruStrikeState 0 0 = 2)) = true ∧
    (striking ⟨0, 464, 0, 0⟩).cru.strike = some ⟨0, 464, 0, 0⟩ ∧
    (striking ⟨0, 464, 0, 0⟩).n Attr.cruStrikeState 0 0 = 2 ∧
    0 + 464 < (striking ⟨0, 464, 0, 0⟩).eng.count + (striking ⟨0, 464, 0, 0⟩).eng.cfg.n ∧
    ¬ 0 + 488 < (striking ⟨0, 488, 0, 0⟩).eng.count + (striking ⟨0, 488, 0, 0⟩).eng.cfg.n ∧
    ({ State.reset with cru := { State.reset.cru with load := some ⟨1, 0, [], 0, 0, 0⟩ } } : State).low = false ∧
    ({ inRun with cru := { inRun.cru with load := some ⟨1, inRun.eng.cfg.S, [], 0, 0, 0⟩ } } : State).ticking = true ∧
    inRun.eng.cfg.S - 1 < inRun.eng.cfg.S := by decide +kernel

theorem witness_idle_loads :
    opens .copyLiveToIdle (actOf Attr.cruCopyLiveToIdle 0 [1]) State.reset (fun _ u => !u.loadBusy)
      (address Attr.cruCopyLiveToIdle 0) State.reset.S = true ∧
    opens .clearIdle (actOf Attr.cruClearIdle 0 [1]) State.reset (fun _ u => !u.loadBusy)
      (address Attr.cruClearIdle 0) State.reset.S = true ∧
    meets .copyLiveToIdle (actOf Attr.cruCopyLiveToIdle 0 [1]) (State.reset.set Attr.cruIdleBusy 0 0 1)
      (fun _ u => u.loadBusy) = true ∧
    meets .clearIdle (actOf Attr.cruClearIdle 0 [1]) (State.reset.set Attr.cruIdleBusy 0 0 1)
      (fun _ u => u.loadBusy) = true := by decide +kernel

theorem witness_class_z :
    meets .trim (writeOf Attr.insTrim 0 100) State.reset (fun _ u => !u.ticking) = true ∧
    meets .trim (writeOf Attr.insTrim 0 100) inRun (fun c u => u.ticking && (u.z? (.trim c.q.inst)).isNone) = true ∧
    meets .polarity (writeOf Attr.insPolarity 0 1) State.reset (fun _ u => !u.ticking) = true ∧
    meets .polarity (writeOf Attr.insPolarity 0 1) inRun (fun c u => u.ticking && (u.z? (.polarity c.q.inst)).isNone) = true ∧
    meets .cut (writeOf Attr.insCut 0 1) State.reset (fun _ u => !u.ticking) = true ∧
    meets .cut (writeOf Attr.outsCut 0 1) inRun (fun c u => u.ticking && (u.z? (cutParam c)).isNone) = true ∧
    meets .preampGain (writeOf Attr.insPreampGain 0 100) State.reset
      (fun c u => !u.ticking && decide (u.a Attr.insPreampGain c.q.inst 0 ≠ c.arg)) = true ∧
    meets .preampGain (writeOf Attr.insPreampGain 0 100) inRun
      (fun c u => u.ticking && (u.z? (.preamp c.q.inst)).isNone) = true ∧
    meets .preampGain (writeOf Attr.insPreampGain 0 100) (State.reset.set Attr.insPreampGain 0 0 100)
      (fun c u => !u.ticking && decide (u.a Attr.insPreampGain c.q.inst 0 = c.arg)) = true ∧
    [300, 0].all (fun v => meets .trim (writeOf Attr.insTrim 0 v) (withZ trimZ inRun)
      (fun _ u => u.ticking && decide (u.z? (.trim 0) = some trimZ ∧ trimZ.stepAt = none))) = true ∧
    meets .trim (writeOf Attr.insTrim 0 300) (withZ { trimZ with stepAt := some 500 } inRun)
      (fun _ u => u.ticking && decide (u.z? (.trim 0) = some { trimZ with stepAt := some 500 })) = true := by
  decide +kernel

/-! ### Witnesses: events of Bellows and the Crucible -/

theorem witness_class_z_steps :
    (withZ { trimZ with stepAt := some 500 } inRun).z? (.trim 0) = some { trimZ with stepAt := some 500 } ∧
    (withZ { trimZ with stepAt := some 960, timedOut := true } inRun).z? (.trim 0) =
      some { trimZ with stepAt := some 960, timedOut := true } ∧
    (withZ { trimZ with param := .preamp 3, stepAt := some 471 } inRun).z? (.preamp 3) =
      some { trimZ with param := .preamp 3, stepAt := some 471 } ∧
    (withZ { trimZ with param := .preamp 3, stepAt := some 471 } inRun).evaluated 0 472 = true ∧
    (withZ { trimZ with param := .preamp 3, stepAt := some 472 } inRun).z? (.preamp 3) =
      some { trimZ with param := .preamp 3, stepAt := some 472 } ∧ inRun.ticking = true ∧
    (withZ { trimZ with param := .preamp 3, stepAt := some 472 } inRun).evaluated 0 473 = false ∧
    (withZ trimZ inRun).z? (.trim 0) = some trimZ ∧ inRun.z? (.preamp 3) = none := by decide +kernel

theorem witness_ramps :
    (ramping (.inFader 0)).ramp? (.inFader 0) = some (ramp16 (.inFader 0)) ∧
    0 + 16 + (1 + (ramping (.inFader 0)).lagOf (.inFader 0)) * (ramping (.inFader 0)).eng.cfg.n ≤
      (ramping (.inFader 0)).eng.count ∧
    (ramping (.swap 7)).ramp? (.swap 7) = some (ramp16 (.swap 7)) ∧ inRun.ramp? (.inFader 0) = none ∧
    inRun.ramp? (.swap 7) = none ∧ inRun.ticking = true ∧
    inRun.newSlots [⟨.inFader 0, 100, 16, 0, 0, 0⟩] + inRun.slotsUsed ≤ 16384 ∧ State.reset.ticking = false ∧
    inRun.bel.queue = [] := by decide +kernel

/-- The engine in RUN with three outputs that hold, fade and resume. -/
def holding : State := { inRun with bel := { inRun.bel with
  holds := [(.sapOut 0 0, ⟨1, 5, 4800, 4800, 0⟩), (.sapOut 0 1, ⟨2, 5, 240, 0, 0⟩), (.tx 0 0, ⟨4, 5, 32, 0, 0⟩)] } }

theorem witness_held_outputs :
    holding.holdOf (.sapOut 0 0) = some ⟨1, 5, 4800, 4800, 0⟩ ∧ holding.holdOf (.sapOut 0 1) = some ⟨2, 5, 240, 0, 0⟩ ∧
    holding.holdOf (.tx 0 0) = some ⟨4, 5, 32, 0, 0⟩ ∧ inRun.holdOf (.sapOut 0 0) = none := by decide +kernel

/-- A head group of the queue that fits, and one that does not. -/
theorem witness_queued_groups :
    (waiting 1).bel.queue = [⟨[⟨.outFader 5, 100, 16, 0, 0, 0⟩], none⟩] ∧ (waiting 1).ticking = true ∧
    (waiting 1).newSlots [⟨.outFader 5, 100, 16, 0, 0, 0⟩] + (waiting 1).slotsUsed ≤ 16384 ∧
    16384 < (waiting 1).newSlots ((List.range 16385).map fun i => ⟨.node 0 i i, 100, 16, 0, 0, 0⟩) + (waiting 1).slotsUsed := by
  decide +kernel

/-- A timed write of the trim of strip 0, due at sample 485, that the hardware holds. -/
def timedTrim (due : Nat) : Timed := ⟨7, { writeOf Attr.insTrim 0 100 with when_ := some ⟨0, 0⟩ }, due, true, 0⟩

/-- The engine in RUN with a timed change. -/
def withTimed (due : Nat) : State := { inRun with bel := { inRun.bel with timed := [timedTrim due] } }

/-- The engine in RUN with a timed change that the supervisor holds. -/
def withHeld (due : Nat) : State :=
  { inRun with bel := { inRun.bel with timed := [{ timedTrim due with inHardware := false }] } }

/-- Whether a timed change of `s` passes its checks and takes effect then, as a change due at `due`. -/
def takes (s : State) (t : Timed) (due : Option Nat) : Bool :=
  match s.checks t.req with
  | .ok c => (effectOf (rowOf t.req) { c with due := due, accepted := true, id := some t.id, mirrored := true }
      (s.without t.id)).toOption.isSome
  | .error _ => false

/-- The keys of a change of `s` that a change accepted later has overtaken. -/
def overtakenKeys (s : State) (t : Timed) : List Nat :=
  match s.checks t.req with
  | .ok c =>
    let c : Ctx := { c with due := some t.due, accepted := true, id := some t.id, mirrored := true }
    c.keys.filter ((s.without t.id).overtaken c)
  | .error _ => []

/-- A timed write of a section bypass of strip 0, and a state in which a change accepted later has been made to it. -/
def timedBypass : Timed := ⟨7, { writeOf Attr.insSectionBypass 0 1 with when_ := some ⟨0, 0⟩ }, 485, true, 0⟩
def overtaking : State :=
  { inRun with bel := { inRun.bel with timed := [timedBypass], stored := [(attrKey Attr.insSectionBypass 0 0, 99)] } }

theorem witness_timed_changes :
    overtakenKeys overtaking timedBypass = [attrKey Attr.insSectionBypass 0 0] ∧ takes overtaking timedBypass (some 485) = true ∧
    (withTimed 485).bel.timed.find? (·.id == 7) = some (timedTrim 485) ∧
    485 < (withTimed 485).reach (reqCode (timedTrim 485).req) (timedTrim 485).req.inst + (withTimed 485).eng.cfg.n ∧
    takes (withTimed 485) (timedTrim 485) (some 485) = true ∧ overtakenKeys (withTimed 485) (timedTrim 485) = [] ∧
    (withTimed 5000).reach (reqCode (timedTrim 5000).req) 0 + (withTimed 5000).eng.cfg.n ≤ 5000 ∧
    (withHeld 480).reach (reqCode (timedTrim 480).req) 0 = 480 ∧
    479 < (withHeld 479).reach (reqCode (timedTrim 479).req) 0 ∧
    takes (withHeld 479) { timedTrim 479 with inHardware := false } none = true ∧
    (withTimed 485).ticking = true ∧ State.reset.ticking = false ∧
    ((withTimed 485).checks { (timedTrim 485).req with data := [] }).toOption.isNone = true ∧
    meets .cancelTimed (actOf Attr.belCancelTimed 0 [1000000]) (withTimed 485) (fun _ _ => true) = true := by decide +kernel

/-- A request that may be scheduled on MD0 for `t` ns. -/
def timedReq (t : Nat) : Req := { writeOf Attr.insTrim 0 100 with when_ := some ⟨0, t⟩ }

/-- The engine in RUN with MD0 on. -/
def onTime : State := inRun.set Attr.tbState 0 0 1

theorem witness_timed_requests :
    onTime.tbNow 0 + 86400000000000 < 10 ^ 20 ∧ ¬ onTime.tbNow 0 + 86400000000000 < 5000000 ∧
    onTime.n Attr.tbState 0 0 ≠ 0 ∧ State.reset.n Attr.tbState 3 0 = 0 ∧ onTime.ticking = true ∧
    onTime.dueOf ⟨0, 1000⟩ < onTime.reach Attr.insTrim 0 ∧ onTime.reach Attr.insTrim 0 ≤ onTime.dueOf ⟨0, 50000000⟩ ∧
    onTime.bel.timed.length < 8192 ∧ ((onTime.checks (timedReq 50000000)).toOption.any fun c =>
      (effectOf (rowOf (timedReq 50000000)) { c with due := some (onTime.dueOf ⟨0, 50000000⟩), accepted := true } onTime).toOption.isSome) =
      true := by decide +kernel

/-! ### Witnesses: strips and measurement -/

theorem witness_strip_settings :
    meets .coef (writesOf Attr.insCoef 0 0 [1, 0, 0, 0, 0]) State.reset (fun c u =>
      ((List.range ((c.q.elem + c.vals.length - 1) / 5 + 1)).drop (c.q.elem / 5)).all
        fun j => (u.store c).sectionOk c.code c.q.inst j) = true ∧
    meets .coef (writesOf Attr.insCoef 0 8 [536870912, 0]) State.reset (fun c u =>
      !((List.range ((c.q.elem + c.vals.length - 1) / 5 + 1)).drop (c.q.elem / 5)).all
        fun j => (u.store c).sectionOk c.code c.q.inst j) = true ∧
    meets .sectionBypass (writeOf Attr.insSectionBypass 0 1) State.reset (fun _ _ => true) = true ∧
    meets .insertBypass (writeOf Attr.insInsertBypass 0 1) State.reset (fun _ _ => true) = true ∧
    meets .delay (writeOf Attr.insDelay 0 96000) State.reset (fun c u => decide (c.arg ≤ ((2 * u.fs : Nat) : Int))) = true ∧
    meets .delay (writeOf Attr.insDelay 0 96001) State.reset (fun c u => decide (((2 * u.fs : Nat) : Int) < c.arg)) = true ∧
    meets .compKey (writeOf Attr.insCompKey 0 7) State.reset (fun c u => u.keyOk c.arg.toNat) = true ∧
    meets .compKey (writeOf Attr.insCompKey 0 0xC0000000) State.reset (fun c u => !u.keyOk c.arg.toNat) = true := by
  decide +kernel

theorem witness_topology_writes :
    meets .delayEnable (writeOf Attr.insDelayEnable 0 1) State.reset
      (fun c u => (u.store c).admitted.isSome && (!u.ticking || u.plc.plans.isEmpty)) = true ∧
    meets .delayEnable (writeOf Attr.insDelayEnable 0 1) (withMod [0] 1 State.reset) turnedAway = true ∧
    meets .stripMap (writesOf Attr.plcInStripMap 0 0 [1]) inRun (fun c u =>
      (mapBad u.ins c.q.elem c.vals).isNone && (u.store c).admitted.isSome && u.plc.plans.isEmpty) = true ∧
    meets .stripMap (writesOf Attr.plcOutStripMap 0 0 [1]) (withMod [0] 1 State.reset) (fun c u =>
      (mapBad u.D c.q.elem c.vals).isNone && turnedAway c u) = true ∧
    meets .stripMap (writesOf Attr.plcOutStripMap 0 63 [1]) State.reset
      (fun c u => (mapBad u.D c.q.elem c.vals).isSome) = true ∧
    meets .insert (writeOf Attr.insInsert 0 0x30000000) (withMod [0] 0 State.reset) (fun c u =>
      (u.insertBad c.q.inst c.arg.toNat).isNone && (u.store c).admitted.isSome && !u.ticking) = true ∧
    meets .insert (writeOf Attr.insInsert 0 0x30000000) (withMod [0] 1 State.reset) (fun c u =>
      (u.insertBad c.q.inst c.arg.toNat).isNone && turnedAway c u) = true ∧
    meets .insert (writeOf Attr.insInsert 0 0x30000000) State.reset
      (fun c u => (u.insertBad c.q.inst c.arg.toNat).isSome) = true := by decide +kernel

/-- A state whose tickets are all in progress. -/
def noTicket (s : State) : State := (List.range 16).foldl (fun t k => t.set Attr.tktState k 0 1) s

/-- What a write does that admission takes by moves only: the moves in their order, if there is one, and whether the plan is
filed. -/
def plannedWrite (c : Ctx) (u : State) : Option (Option (List PMove) × Bool) :=
  match (u.store c).admits with
  | .plan p r w => some ((u.orderTo (u.store c) p).map (· ++ r), match u.orderTo (u.store c) p with
    | some l => (w.addPlan (address c.code c.q.inst) p (l ++ r) (u.undo c)).isSome
    | none => false)
  | _ => none

/-- Whether a write that admission takes without a move gets its plan behind another. -/
def filedBehind (c : Ctx) (u : State) : Option Bool :=
  match (u.store c).admits with
  | .inc p w => some (w.addPlan (address c.code c.q.inst) p [] (u.undo c)).isSome
  | _ => none

/-- A plan that waits to unbind slot 5. -/
def unbinding : Plan := ⟨[], 0, none, [(attrKey Attr.slotOccupant 5 0, 0)]⟩

theorem witness_topology_moves :
    meets .stripMap (writesOf Attr.plcInStripMap 0 0 [1]) (threeCores 2 [(1, 1, 60000), (2, 2, 60000)]) (fun c u =>
      u.ticking && plannedWrite c u == some (some [.module 1 0, .module 2 0], true)) = true ∧
    meets .stripMap (writesOf Attr.plcInStripMap 0 0 [1]) (noTicket (threeCores 2 [(1, 1, 60000), (2, 2, 60000)])) (fun c u =>
      u.ticking && plannedWrite c u == some (some [.module 1 0, .module 2 0], false)) = true ∧
    meets .stripMap (writesOf Attr.plcInStripMap 0 0 [1])
      (threeCores 1 [(1, 1, 120000), (2, 1, 120000), (3, 0, 20000), (4, 2, 20000)]) (fun c u =>
      u.ticking && plannedWrite c u == some (none, false)) = true ∧
    meets .stripMap (writesOf Attr.plcInStripMap 0 0 [1]) (planning [unbinding] inRun) (fun c u =>
      u.ticking && u.plc.plans.any (fun x => decide (x.effect ≠ [])) && filedBehind c u == some true) = true ∧
    meets .stripMap (writesOf Attr.plcInStripMap 0 0 [1]) (noTicket (planning [unbinding] inRun)) (fun c u =>
      u.ticking && u.plc.plans.any (fun x => decide (x.effect ≠ [])) && filedBehind c u == some false) = true := by decide +kernel

/-- A state whose meter 0 has these holds. -/
def metering (x : MeterCtx) : State := { inRun with mtr := { inRun.mtr with meters := [(0, x)], silFound := [1] } }

theorem witness_meters :
    meets .loudnessStart (actOf Attr.loudStart 0 [1]) State.reset (fun c u => decide (u.n Attr.loudRunning c.q.inst 0 ≠ 1)) = true ∧
    meets .loudnessStart (actOf Attr.loudStart 0 [1]) (State.reset.set Attr.loudRunning 0 0 1)
      (fun c u => decide (u.n Attr.loudRunning c.q.inst 0 = 1)) = true ∧
    meets .loudnessStop (actOf Attr.loudStop 0 [1]) State.reset (fun _ _ => true) = true ∧
    meets .loudnessReset (actOf Attr.loudReset 0 [1]) State.reset (fun _ _ => true) = true ∧
    meets .silence (writeOf Attr.silTap 0 0x10000000) State.reset
      (fun c u => decide (c.code = Attr.silTap) && u.tapOk c.arg.toNat) = true ∧
    meets .silence (writeOf Attr.silTap 0 0x60000000) State.reset
      (fun c u => decide (c.code = Attr.silTap) && !u.tapOk c.arg.toNat) = true ∧
    meets .silence (writeOf Attr.silThreshold 0 (-6000)) State.reset (fun c _ => decide (c.code ≠ Attr.silTap)) = true ∧
    Store.find? (metering ⟨7, 0, 0, 9, [], []⟩).mtr.meters 0 = some ⟨7, 0, 0, 9, [], []⟩ ∧
    Store.find? (metering ⟨7, 9, 7, 0, [], []⟩).mtr.meters 0 = some ⟨7, 9, 7, 0, [], []⟩ ∧
    Store.find? (metering ⟨7, 9, 7, 9, [], []⟩).mtr.meters 0 = some ⟨7, 9, 7, 9, [], []⟩ ∧
    inRun.mtr.peaksDone.contains 0 = false ∧ inRun.mtr.peaksDone.contains 65536 = false ∧
    (metering ⟨7, 0, 0, 9, [], []⟩).mtr.silFound.contains 1 = true ∧ inRun.mtr.silFound.contains 1 = false := by decide +kernel

/-! ### Witnesses: the engine -/

/-- The engine in HALT. -/
def halted : State := State.reset.set Attr.engState 0 0 2

/-- Whether a go may be considered. -/
def canGo (u : State) : Bool := !u.pow.broken && decide (u.n Attr.powPowerState 0 0 = 0 ∧ u.eng.fade ≠ 2)

theorem witness_go :
    opens .go (actOf Attr.engGo 0 [0]) State.reset (fun c u => canGo u && decide (c.arg.toNat ≤ 2 ∧ c.arg.toNat = u.engState))
      (address Attr.engGo 0) 0 (fun c u => u.commit [goRec c.arg.toNat]) = true ∧
    opens .go (actOf Attr.engGo 0 [1]) State.reset
      (fun c u => canGo u && decide (c.arg = 1 ∧ u.engState = 0 ∧ u.n Attr.tbState u.md0Tb 0 ≠ 0) && u.enterFresh.toOption.isSome)
      (address Attr.engGo 0) 0 (fun _ u => (u.enterFresh.toOption.getD u).startTick.commit [goRec 1]) = true ∧
    opens .go (actOf Attr.engGo 0 [1]) (withMod [0] 1 State.reset)
      (fun c u => canGo u && decide (c.arg = 1 ∧ u.engState = 0 ∧ u.n Attr.tbState u.md0Tb 0 ≠ 0) && u.enterFresh.toOption.isNone)
      (address Attr.engGo 0) 0 = true ∧
    opens .go (actOf Attr.engGo 0 [1]) halted
      (fun c u => canGo u && decide (c.arg = 1 ∧ u.engState = 2 ∧ u.n Attr.tbState u.md0Tb 0 ≠ 0))
      (address Attr.engGo 0) 0 (fun _ u => u.startTick.commit [goRec 1]) = true ∧
    opens .go (actOf Attr.engGo 0 [1]) (halted.set Attr.tbState State.reset.md0Tb 0 0)
      (fun c u => canGo u && decide (c.arg = 1 ∧ u.engState ≠ 1 ∧ u.n Attr.tbState u.md0Tb 0 = 0)) (address Attr.engGo 0) 0 = true ∧
    opens .go (actOf Attr.engGo 0 [2]) inRun (fun c u => canGo u && decide ((c.arg = 0 ∨ c.arg = 2) ∧ u.engState = 1))
      (address Attr.engGo 0) 0 = true ∧
    opens .go (actOf Attr.engGo 0 [0]) halted (fun c u => canGo u && decide (c.arg = 0 ∧ u.engState = 2))
      (address Attr.engGo 0) 0 (fun _ u => (u.set Attr.engState 0 0 0).commit [goRec 0]) = true ∧
    meets .go (actOf Attr.engGo 0 [3]) State.reset (fun c _ => decide (2 < c.arg)) = true ∧
    meets .go (actOf Attr.engGo 0 [2]) State.reset (fun c u => canGo u && decide (c.arg = 2 ∧ u.engState = 0)) = true ∧
    meets .go (actOf Attr.engGo 0 [2]) { inRun with eng := { inRun.eng with fade := 2 } } (fun c u =>
      decide (c.arg.toNat ≤ 2 ∧ u.pow.broken = false ∧ u.n Attr.powPowerState 0 0 = 0 ∧ u.eng.fade = 2)) = true := by
  decide +kernel

/-- The engine in RUN with a fade that began at a sample. -/
def fading (fade at_ : Nat) : State := { inRun with eng := { inRun.eng with fade := fade, fadeAt := at_ } }

theorem witness_engine_events :
    (fading 2 248).ticking = true ∧ (fading 2 248).eng.frames ≠ 0 ∧
    (fading 2 248).eng.fadeAt + (fading 2 248).engineFade ≤ (fading 2 248).eng.count + (fading 2 248).eng.cfg.n ∧
    (fading 2 248).eng.fade = 2 ∧
    (fading 1 248).eng.fadeAt + (fading 1 248).engineFade ≤ (fading 1 248).eng.count + (fading 1 248).eng.cfg.n ∧
    (fading 1 248).eng.fade = 1 ∧ (fading 1 248).pow.entryDue = false ∧
    ({ fading 1 248 with pow := { (fading 1 248).pow with entryDue := true } } : State).pow.entryDue = true ∧
    (fading 0 248).eng.fadeAt + (fading 0 248).engineFade ≤ (fading 0 248).eng.count + (fading 0 248).eng.cfg.n ∧
    (fading 0 248).eng.fade = 0 ∧ State.reset.ticking = false ∧
    (fading 1 249).eng.count + (fading 1 249).eng.cfg.n < (fading 1 249).eng.fadeAt + (fading 1 249).engineFade := by
  decide +kernel

/-! ### Witnesses: modules and placement -/

/-- A state whose module 1 holds every event line. -/
def allLines : State :=
  State.reset.setMod 1 (Mod.new { readImage (imageOf [0x390000000000] 0 1000) with events := 240 } (some 16))

/-- What a load of checked bytes comes to: refused by admission, placed without a move, or by moves; and whether a plan for it
would be filed. -/
inductive Loading where
  | refused
  | placed (filed : Bool)
  | moves (l : List PMove) (filed : Bool)
deriving DecidableEq, Repr

def loading (b : List Byte) (m : Nat) (u : State) : Option Loading :=
  match checkImage b with
  | .error _ => none
  | .ok g => match u.freeLines g.events with
    | none => none
    | some l =>
      let filed (w : State) (p : Place) (x : List PMove) : Bool :=
        (w.addPlan (address Attr.modLoad m) p x [(attrKey Attr.modState m 0, 0)]).isSome
      match (declared u m g l).admits with
      | .no _ => some .refused
      | .inc p w => some (.placed (filed w p []))
      | .plan p r w => (u.orderTo (declared u m g l) p).map fun x => .moves (x ++ r) (filed w p (x ++ r))

theorem witness_load_and_unload :
    opens .load (actOf Attr.modLoad 0 [1]) (stagedAs (imageOf [0x390000000000] 0 1000) State.reset) (fun c u =>
      (u.mod? c.q.inst).isNone && (match checkImage (staged u c.q.inst) with
        | .ok g => (u.freeLines g.events).any fun l => (declared u c.q.inst g l).admitted.isSome
        | .error _ => false) && !u.ticking && (u.openTicket (address c.code c.q.inst) 1).isSome)
      (address Attr.modLoad 0) 1 (fun c u => match checkImage (staged u c.q.inst) with
        | .ok g => ((declared u c.q.inst g ((u.freeLines g.events).getD 0)).admitted.getD u).assignChannels.commit
            (imageRecs c.q.inst (staged u c.q.inst))
        | .error _ => u) = true ∧
    opens .load (actOf Attr.modLoad 0 [1]) (stagedAs [1, 2, 3] State.reset) (fun c u =>
      (u.mod? c.q.inst).isNone && (match checkImage (staged u c.q.inst) with
        | .ok _ => false
        | .error e => decide (e = rType)))
      (address Attr.modLoad 0) 1 = true ∧
    opens .load (actOf Attr.modLoad 0 [1]) (stagedAs (imageOf [0x390000000000] 0 31) State.reset) (fun c u =>
      (u.mod? c.q.inst).isNone && (match checkImage (staged u c.q.inst) with
        | .ok _ => false
        | .error e => decide (e = rRange)))
      (address Attr.modLoad 0) 1 = true ∧
    meets .load (actOf Attr.modLoad 0 [1]) (placed State.reset) (fun c u => (u.mod? c.q.inst).isSome) = true ∧
    opens .load (actOf Attr.modLoad 0 [1]) (stagedAs (imageOf [0x390000000000] 1 1000) State.reset) (fun c u =>
      (u.mod? c.q.inst).isNone && (u.openTicket (address c.code c.q.inst) 1).isSome &&
      loading (staged u c.q.inst) c.q.inst u == some .refused) (address Attr.modLoad 0) 1 = true ∧
    meets .load (actOf Attr.modLoad 0 [1])
      (stagedAs (imageOf [0x390000000000] 0 130000) (threeCores 1 [(1, 1, 60000), (2, 2, 60000)])) (fun c u =>
      u.ticking && loading (staged u c.q.inst) c.q.inst u == some (.moves [.module 2 1] true)) = true ∧
    meets .load (actOf Attr.modLoad 0 [1]) (stagedAs (imageOf [0x390000000000] 0 1000) (planning [unbinding] inRun)) (fun c u =>
      u.ticking && loading (staged u c.q.inst) c.q.inst u == some (.placed true)) = true ∧
    opens .load (actOf Attr.modLoad 0 [1]) (stagedAs (imageWith 8 [0x390000000000] 0 1000) allLines) (fun c u =>
      (u.mod? c.q.inst).isNone && match checkImage (staged u c.q.inst) with
       | .ok g => (u.freeLines g.events).isNone
       | .error _ => false) (address Attr.modLoad 0) 1 = true ∧
    opens .unload (actOf Attr.modUnload 0 [1]) (placed State.reset) (fun c u => (u.mod? c.q.inst).isSome &&
      !u.moduleNamed c.q.inst && !u.ticking) (address Attr.modUnload 0) 1 = true ∧
    opens .unload (actOf Attr.modUnload 0 [1]) (placed inRun) (fun c u => (u.mod? c.q.inst).isSome &&
      !u.moduleNamed c.q.inst && u.ticking) (address Attr.modUnload 0) 1 = true ∧
    meets .unload (actOf Attr.modUnload 0 [1]) ((placed State.reset).set Attr.insInsert 0 0 0x30000000)
      (fun c u => (u.mod? c.q.inst).isSome && u.moduleNamed c.q.inst) = true ∧
    meets .unload (actOf Attr.modUnload 0 [1]) State.reset (fun c u => (u.mod? c.q.inst).isNone) = true := by
  decide +kernel

/-- A core whose const queue holds 256 words. -/
def constFull : State :=
  (placed inRun).setCore 0 { (placed inRun).core 0 with constQ := List.replicate 256 ⟨0, false, 64, 0, 488⟩ }

theorem witness_ports_and_const :
    meets .inSrc (writesOf Attr.modInSrc 0 0 [0x10000005]) (placed State.reset) (fun c u =>
      (u.inSrcBad c.q.inst c.q.elem c.vals).isNone &&
      ((List.range c.vals.length).map (c.q.elem + ·)).all fun p => (insertNaming u.attrs c.q.inst p).isNone) = true ∧
    meets .inSrc (writesOf Attr.modInSrc 0 0 [0x20000000]) (placed State.reset)
      (fun c u => (u.inSrcBad c.q.inst c.q.elem c.vals).isSome) = true ∧
    meets .const (writesOf Attr.modConst 0 3 [77]) (withMod [0] 0 State.reset) (fun c u =>
      (u.mod? c.q.inst).any (fun md => decide (c.q.elem + c.vals.length ≤ md.image.constPlaces.length)) &&
      decide (u.n Attr.plcModuleCore 0 c.q.inst = 255)) = true ∧
    meets .const (writesOf Attr.modConst 0 3 [77]) (placed inRun) (fun c u =>
      (u.mod? c.q.inst).any (fun md => decide (c.q.elem + c.vals.length ≤ md.image.constPlaces.length ∧
        (u.core 0).constQ.length + ((md.image.constPlaces.drop c.q.elem).zip c.vals).length ≤ 256)) && u.ticking &&
      decide (u.n Attr.plcModuleCore 0 c.q.inst = 0)) = true ∧
    meets .const (writesOf Attr.modConst 0 3 [77]) constFull (fun c u =>
      (u.mod? c.q.inst).any (fun md => decide (c.q.elem + c.vals.length ≤ md.image.constPlaces.length ∧
        256 < (u.core 0).constQ.length + ((md.image.constPlaces.drop c.q.elem).zip c.vals).length)) && u.ticking &&
      decide (u.n Attr.plcModuleCore 0 c.q.inst = 0)) = true ∧
    meets .const (writesOf Attr.modConst 0 3 [77]) (placed State.reset) (fun c u =>
      (u.mod? c.q.inst).any (fun md => decide (c.q.elem + c.vals.length ≤ md.image.constPlaces.length)) && !u.ticking &&
      decide (u.n Attr.plcModuleCore 0 c.q.inst = 0)) = true := by decide +kernel

/-! ### Witnesses: placement -/

/-- Core 3 is retired. -/
def retired3 : State := State.reset.set Attr.plcRetiredCores 0 0 8

/-- The moves a DEFRAGMENT comes to, where the topology packs, its regions too, and an order passes. -/
def defragMoves (u : State) : Option (List PMove) :=
  match u.topo.fresh u.retired, u.freshRegions with
  | some q, .ok (_, r) => if u.topo.policy = 0 then
      ((Topo.union u.runningTopo u.topo).order u.retired (2 * (u.futurePlace.movesTo q).length + 1) u.futurePlace
        (u.futurePlace.movesTo q)).map (· ++ r) else none
  | _, _ => none

theorem witness_placement_requests :
    opens .reinstateCore (actOf Attr.plcReinstateCore 0 [3]) retired3 (fun c u => decide (c.arg ≤ 47) &&
      bit (u.n Attr.plcRetiredCores 0 0) c.arg.toNat && u.fab.march.isNone) (address Attr.plcReinstateCore 0) 6 = true ∧
    opens .reinstateCore (actOf Attr.plcReinstateCore 0 [47]) retired3 (fun c u => decide (c.arg ≤ 47) &&
      !bit (u.n Attr.plcRetiredCores 0 0) c.arg.toNat) (address Attr.plcReinstateCore 0) 1 = true ∧
    meets .reinstateCore (actOf Attr.plcReinstateCore 0 [48]) retired3 (fun c _ => decide (47 < c.arg)) = true ∧
    meets .reinstateCore (actOf Attr.plcReinstateCore 0 [3])
      { retired3 with fab := { retired3.fab with march := some ⟨0, true, 0, 0⟩ } }
      (fun c u => decide (c.arg ≤ 47) && bit (u.n Attr.plcRetiredCores 0 0) c.arg.toNat && u.fab.march.isSome) = true ∧
    meets .defragment (actOf Attr.plcDefragment 0 [1]) (State.reset.set Attr.plcMigrationPolicy 0 0 1)
      (fun _ u => decide (u.topo.policy ≠ 0)) = true ∧
    opens .defragment (actOf Attr.plcDefragment 0 [1])
      ((State.reset.set Attr.plcRetiredCores 0 0 (2 ^ 48 - 1 : Nat)).set Attr.plcSpareCores 0 0 1)
      (fun _ u => decide (u.topo.policy = 0) && (u.topo.fresh u.retired).isNone) (address Attr.plcDefragment 0) 1 = true ∧
    opens .defragment (actOf Attr.plcDefragment 0 [1]) State.reset (fun c u => !u.ticking && defragMoves u == some [] &&
      (u.openTicket (address c.code c.q.inst) 1).isSome) (address Attr.plcDefragment 0) 1 (fun _ u =>
        match u.topo.fresh u.retired, u.freshRegions with
        | some q, .ok (w, r) => w.moveAll q r
        | _, _ => u) = true ∧
    opens .defragment (actOf Attr.plcDefragment 0 [1]) inRun (fun _ u => u.ticking && defragMoves u == some [])
      (address Attr.plcDefragment 0) 1 = true ∧
    meets .defragment (actOf Attr.plcDefragment 0 [1]) (threeCores 0 [(1, 1, 60000), (2, 2, 60000)]) (fun c u =>
      u.ticking && match defragMoves u, u.freshRegions with
       | some l, .ok (w, _) => decide (l ≠ []) && (w.addPlan (address c.code c.q.inst) u.futurePlace l []).isSome
       | _, _ => false) = true := by decide +kernel

/-- A core of `s` is condemned, and stopped. -/
def condemn (c : Nat) (s : State) : State := s.setCore c { s.core c with condemned := true, halted := true }

/-- The module 0 on its way from core 0 to core 1. -/
def moving0 (preCopied : Bool) : State :=
  let s := planning [⟨[.module 0 1], 0, none, []⟩] (placed inRun)
  { s with plc := { s.plc with preCopied := preCopied } }

/-- A region of bank 1 on its way. -/
def movingRegion (copied : Bool) : State :=
  let s := planning [⟨[.region (.rb 0 0) 64], 0, none, []⟩] inRun
  { s with plc := { s.plc with regions := [⟨.rb 0 0, 262144, 64, [64]⟩], copied := copied } }

/-- A retirement of core 0 with core 1 as its spare, before its copies are complete. -/
def retiring0 : State := { inRun with plc := { inRun.plc with retiring := [⟨0, some 1, false, false, [0]⟩] } }

theorem witness_placement_events :
    (planning [⟨[], 2, none, []⟩] inRun).plc.plans = [⟨[], 2, none, []⟩] ∧ inRun.plc.plans = [] ∧
    (planning [⟨[.inStrip 0 1], 0, none, []⟩] inRun).headMove = some (.inStrip 0 1) ∧
    (planning [⟨[.outStrip 0 1], 0, none, []⟩] inRun).headMove = some (.outStrip 0 1) ∧ inRun.plc.switched < 32 ∧
    (PMove.inStrip 0 1).strip? = some 0 ∧ (PMove.outStrip 0 1).strip? = some 32768 ∧
    32 ≤ ({ inRun with plc := { inRun.plc with switched := 32 } } : State).plc.switched ∧
    inRun.headMove.bind PMove.strip? ≠ some 0 ∧
    (moving0 false).headMove = some (.module 0 1) ∧ (moving0 false).plc.preCopied = false ∧
    (moving0 true).plc.preCopied = true ∧ ((moving0 false).mod? 0).isSome = true ∧ inRun.headMove = none ∧
    (movingRegion false).headMove = some (.region (.rb 0 0) 64) ∧ (movingRegion false).plc.copied = false ∧
    (movingRegion false).plc.regions.find? (fun x => x.owner == Owner.rb 0 0) = some ⟨.rb 0 0, 262144, 64, [64]⟩ ∧
    (movingRegion true).plc.copied = true ∧ inRun.plc.zeroing = [] ∧
    ({ inRun with plc := { inRun.plc with zeroing := [(0, 64)] } } : State).low = false ∧
    (State.reset.set Attr.powPowerState 0 0 2).low = true ∧
    inRun.plc.retiring = [] ∧ retiring0.plc.retiring = [⟨0, some 1, false, false, [0]⟩] := by decide +kernel

/-- Whether `s` may retire core `c` as R200 has it, holding its outputs. -/
def retires (s : State) (c : Nat) : Bool :=
  decide (c < 48 ∧ (s.core c).condemned = true ∧ bit (s.n Attr.plcRetiredCores 0 0) c = false) &&
    (!s.ticking || (s.core c).halted)

/-- A core whose modules are held, as its retirement leaves it. -/
def withHeldModules (s : State) (c : Nat) : State := ((s.modsOn c).map (·.1)).foldl State.holdModule (retiredNow s c)

/-- The engine in RUN with module 0 on core 0, the only usable core. -/
def oneCore : State := (placed inRun).set Attr.plcRetiredCores 0 0 (2 ^ 48 - 2)

theorem witness_retirements :
    retires (condemn 5 State.reset) 5 = true ∧ (condemn 5 State.reset).modsOn 5 = [] ∧
    retires (condemn 0 oneCore) 0 = true ∧ (condemn 0 oneCore).modsOn 0 ≠ [] ∧
    (withHeldModules (condemn 0 oneCore) 0).emptyCore = none ∧
    retires (condemn 0 (placed inRun)) 0 = true ∧ (condemn 0 (placed inRun)).modsOn 0 ≠ [] ∧
    (withHeldModules (condemn 0 (placed inRun)) 0).emptyCore = some 1 ∧
    retires (condemn 0 (placed State.reset)) 0 = true ∧
    (withHeldModules (condemn 0 (placed State.reset)) 0).emptyCore = some 1 ∧ (State.reset.core 5).condemned = false := by
  decide +kernel

/-! ### Witnesses: ticks -/

theorem witness_ticks :
    inRun.ticking = true ∧ inRun.eng.offset = false ∧ inRun.eng.frames ≠ 0 ∧ 488 % inRun.eng.cfg.n = 0 ∧
    488 = inRun.eng.count + inRun.eng.cfg.n ∧
    ({ inRun with eng := { inRun.eng with frames := 0 } } : State).ticking = true ∧ 800 % inRun.eng.cfg.n = 0 ∧
    485 % inRun.eng.cfg.n ≠ 0 ∧ 496 ≠ inRun.eng.count + inRun.eng.cfg.n ∧ State.reset.ticking = false ∧
    State.reset.pow.entryDue = false ∧
    ({ inRun with eng := { inRun.eng with frames := 0 } } : State).eng.count < 800 ∧
    entering.atEntry = true ∧ entering.ticking = false ∧ entering.bringUpFault = false ∧ entering.entryWaits = false ∧
    (entering.raise 3).atEntry = true ∧ (entering.raise 3).bringUpFault = true ∧
    (unlocked entering).atEntry = true ∧ (unlocked entering).bringUpFault = false ∧ (unlocked entering).entryWaits = true ∧
    entering.blk ≤ 8 ∧ 8 % entering.blk = 0 ∧ 9 % entering.blk ≠ 0 ∧ 0 < entering.blk := by decide +kernel

/-! ### Witnesses: the card and the scenes -/

/-- The rest of the header of sector 3 as scene 3 has it, and the scene: source 0 to destination 5 (R506, R520). -/
def sceneSector : Store Byte := run 0x30010
  [4, 255, 255, 255, 3, 0, 0, 0, 0, 0, 0, 0, 6, 178, 111, 68] ++ run 0x30020
  [66, 83, 67, 49, 0, 16, 0, 4, 1, 0, 0, 0, 1, 0, 0, 0, 0, 0, 0, 0, 0, 0, 0, 0, 0, 0,
    0, 0, 0, 0, 0, 0, 0, 0, 0, 0, 0, 0, 0, 0, 187, 121, 147, 22, 0, 0, 0, 0, 0, 0, 0, 0,
    0, 0, 0, 0, 0, 0, 0, 0, 0, 0, 0, 0, 0, 0, 1, 0, 5, 0, 77, 0, 0, 0]

/-- A card with scene 3 in sector 3 and a free sector 5; sector 4 has been erased 2,000 times. -/
def sceneCard : CardSt :=
  ⟨5, 11, 1000, idBlock ++ (superOne ++ (freshHead 3 ++ (sceneSector ++ (wornHead 4 ++ freshHead 5))))⟩

/-- That card with a byte of the scene's body spoilt. -/
def spoilt : CardSt := { sceneCard with mem := Store.put sceneCard.mem 0x30062 7 }

/-- The state with a card that has scene 3 in sector 3. -/
def scenicWith (c : CardSt) : State :=
  let s := (cardIn c 2 State.reset).set Attr.scnSize 3 0 74
  { s with jrn := { s.jrn with dir := [(3, ⟨[3], 1⟩)], serial := 1 } }
def scenic : State := scenicWith sceneCard

/-- A state with a compaction under way, of no records. -/
def busyCard (s : State) : State := { s with jrn := { s.jrn with compaction := some ⟨1, [], 0, none, false, none⟩ } }

theorem witness_card_requests :
    opens .compact (actOf Attr.jrnCompact 0 [1]) (carded 2 State.reset) (fun _ u => u.jrn.card.isSome &&
      decide (u.n Attr.jrnCardState 0 0 = 2) && u.jrn.compaction.isNone && u.jrn.saving.isNone && u.jrn.format.isNone)
      (address Attr.jrnCompact 0) 1 = true ∧
    meets .compact (actOf Attr.jrnCompact 0 [1]) State.reset (fun _ u => u.jrn.card.isNone) = true ∧
    meets .compact (actOf Attr.jrnCompact 0 [1]) (carded 4 State.reset)
      (fun _ u => u.jrn.card.isSome && decide (u.n Attr.jrnCardState 0 0 ≠ 2)) = true ∧
    meets .compact (actOf Attr.jrnCompact 0 [1]) (busyCard (carded 2 State.reset))
      (fun _ u => u.jrn.card.isSome && decide (u.n Attr.jrnCardState 0 0 = 2) && u.jrn.compaction.isSome) = true ∧
    opens .format (actOf Attr.jrnFormat 0 [0xA5]) (carded 1 State.reset) (fun c u => decide (c.arg = 0xA5) && u.jrn.card.isSome &&
      decide (u.n Attr.jrnCardState 0 0 ≠ 5 ∧ u.n Attr.jrnCardState 0 0 ≠ 3) && u.jrn.compaction.isNone && u.jrn.saving.isNone &&
      u.jrn.format.isNone && u.cru.load.isNone) (address Attr.jrnFormat 0) 1 = true ∧
    meets .format (actOf Attr.jrnFormat 0 [0xA4]) (carded 1 State.reset) (fun c _ => decide (c.arg ≠ 0xA5)) = true ∧
    meets .format (actOf Attr.jrnFormat 0 [0xA5]) State.reset (fun c u => decide (c.arg = 0xA5) && u.jrn.card.isNone) = true ∧
    [5, 3].all (fun st => meets .format (actOf Attr.jrnFormat 0 [0xA5]) (carded st State.reset)
      (fun c u => decide (c.arg = 0xA5) && u.jrn.card.isSome)) = true ∧
    meets .format (actOf Attr.jrnFormat 0 [0xA5]) { carded 2 State.reset with cru := { State.reset.cru with load := some ⟨2, 0, [], 0, 0, 3⟩ } }
      (fun c u => decide (c.arg = 0xA5) && u.jrn.card.isSome && u.cru.load.any (·.kind == 2)) = true ∧
    meets .format (actOf Attr.jrnFormat 0 [0xA5]) (busyCard (carded 2 State.reset))
      (fun c u => decide (c.arg = 0xA5) && u.jrn.card.isSome && u.jrn.compaction.isSome) = true ∧
    meets .adoptCard (actOf Attr.jrnAdoptCard 0 [1]) (cardIn smallCard 2 State.reset) (fun _ u => u.jrn.card.isSome &&
      decide (u.n Attr.jrnCardState 0 0 ≠ 4)) = true ∧
    meets .adoptCard (actOf Attr.jrnAdoptCard 0 [1]) (busyCard (cardIn smallCard 4 State.reset)) (fun _ u =>
      u.jrn.card.any (·.current.isSome) && decide (u.n Attr.jrnCardState 0 0 = 4) && u.jrn.compaction.isSome) = true ∧
    opens .adoptCard (actOf Attr.jrnAdoptCard 0 [1]) (cardIn smallCard 4 State.reset) (fun _ u => u.jrn.card.any (·.current.isSome) &&
      decide (u.n Attr.jrnCardState 0 0 = 4) && u.jrn.compaction.isNone && u.jrn.format.isNone)
      (address Attr.jrnAdoptCard 0) 1 = true ∧
    meets .adoptCard (actOf Attr.jrnAdoptCard 0 [1]) State.reset (fun _ u => u.jrn.card.isNone) = true := by decide +kernel

/-- The state that SAVE asks for. -/
def saveReady (u : State) : Bool := decide (u.n Attr.jrnCardState 0 0 = 2 ∧ u.n Attr.cruStrikeState 0 0 ≠ 2 ∧
  u.n Attr.cruIdleBusy 0 0 ≠ 1) && u.jrn.saving.isNone && u.jrn.compaction.isNone && u.jrn.format.isNone && u.jrn.card.isSome

theorem witness_scene_requests :
    opens .save (actOf Attr.scnSave 3 [0]) (cardIn smallCard 2 State.reset) (fun c u => decide (c.arg = 0 ∨ c.arg = 1) && saveReady u)
      (address Attr.scnSave 3) 1 = true ∧
    opens .save (actOf Attr.scnSave 3 [1]) (carded 2 State.reset) (fun c u =>
      decide (c.arg = 0 ∨ c.arg = 1) && saveReady u && u.jrn.card.any fun k => (k.pick).isNone)
      (address Attr.scnSave 3) 1 = true ∧
    meets .save (actOf Attr.scnSave 3 [2]) (carded 2 State.reset) (fun c _ => decide (c.arg ≠ 0 ∧ c.arg ≠ 1)) = true ∧
    meets .save (actOf Attr.scnSave 3 [1]) (carded 3 State.reset)
      (fun c u => decide ((c.arg = 0 ∨ c.arg = 1) ∧ u.n Attr.jrnCardState 0 0 = 3)) = true ∧
    meets .save (actOf Attr.scnSave 3 [1]) State.reset (fun c u => decide ((c.arg = 0 ∨ c.arg = 1) ∧
      u.n Attr.jrnCardState 0 0 = 0 ∧ u.n Attr.cruStrikeState 0 0 ≠ 2 ∧ u.n Attr.cruIdleBusy 0 0 ≠ 1) && u.jrn.card.isNone) = true ∧
    meets .save (actOf Attr.scnSave 3 [1]) ((carded 2 State.reset).set Attr.cruIdleBusy 0 0 1)
      (fun c u => decide ((c.arg = 0 ∨ c.arg = 1) ∧ u.n Attr.jrnCardState 0 0 = 2 ∧ u.n Attr.cruIdleBusy 0 0 = 1)) = true ∧
    meets .save (actOf Attr.scnSave 3 [1]) (busyCard (carded 2 State.reset)) (fun c u =>
      decide ((c.arg = 0 ∨ c.arg = 1) ∧ u.n Attr.jrnCardState 0 0 = 2) && u.jrn.card.isSome && u.jrn.compaction.isSome) = true ∧
    opens .stage (actOf Attr.scnStage 3 [1]) (scenicWith spoilt) (fun c u => u.jrn.card.any (fun k =>
        (Store.find? u.jrn.dir c.q.inst).any fun e => (sceneNodes (k.getScene (u.n Attr.scnSize c.q.inst 0) e.sectors)).isNone) &&
      !u.loadBusy && decide (u.n Attr.jrnCardState 0 0 = 2)) (address Attr.scnStage 3) 1 = true ∧
    meets .stage (actOf Attr.scnStage 3 [1]) (scenic.set Attr.cruIdleBusy 0 0 1) (fun c u => u.jrn.card.isSome && u.loadBusy &&
      decide (u.n Attr.jrnCardState 0 0 = 2) && (Store.find? u.jrn.dir c.q.inst).isSome) = true ∧
    meets .stage (actOf Attr.scnStage 3 [1]) { scenic with jrn := { scenic.jrn with card := none } } (fun c u =>
      u.jrn.card.isNone && (Store.find? u.jrn.dir c.q.inst).isSome) = true ∧
    opens .stage (actOf Attr.scnStage 3 [1]) scenic (fun c u => u.jrn.card.any (fun k => (Store.find? u.jrn.dir c.q.inst).any
        fun e => (sceneNodes (k.getScene (u.n Attr.scnSize c.q.inst 0) e.sectors)).isSome) && !u.loadBusy && decide (u.n Attr.jrnCardState 0 0 = 2))
      (address Attr.scnStage 3) 1 = true ∧
    meets .stage (actOf Attr.scnStage 3 [1]) (carded 4 State.reset) (fun _ u => u.jrn.card.isSome &&
      decide (u.n Attr.jrnCardState 0 0 ≠ 2 ∧ u.n Attr.jrnCardState 0 0 ≠ 3)) = true ∧
    meets .stage (actOf Attr.scnStage 3 [1]) State.reset (fun c u => u.jrn.card.isNone &&
      (Store.find? u.jrn.dir c.q.inst).isNone) = true ∧
    meets .stage (actOf Attr.scnStage 4 [1]) scenic
      (fun c u => u.jrn.card.isSome && (Store.find? u.jrn.dir c.q.inst).isNone) = true ∧
    meets .delete (actOf Attr.scnDelete 3 [1]) scenic (fun _ _ => true) = true := by decide +kernel

/-- A state in which scene 3 is saved, with this entry. -/
def saving (e : List Byte) (s : State) : State := { s with jrn := { s.jrn with saving := some ⟨3, 0, e⟩ } }

theorem witness_card_events :
    (carded 2 State.reset).jrn.card.isSome = true ∧ State.reset.jrn.card = none ∧ (cardOf ⟨[]⟩).usable = false ∧
    (cardOf ⟨smallCard.mem⟩).usable = true ∧ (cardOf ⟨smallCard.mem⟩).current = some (1, ⟨1, 0, 0, 0⟩) ∧
    (cardOf ⟨idBlock⟩).usable = true ∧ (cardOf ⟨idBlock⟩).current = none ∧
    State.reset.jrn.lastCard ≠ some (cardOf ⟨smallCard.mem⟩).id ∧
    ({ State.reset with jrn := { State.reset.jrn with lastCard := some 5 } } : State).jrn.lastCard =
      some (cardOf ⟨smallCard.mem⟩).id ∧
    scenic.n Attr.jrnCardState 0 0 = 2 ∧ scenic.jrn.saving = none ∧
    (scenic.jrn.card.any fun c =>
      (let counts := (c.data.filter c.headed).map c.erases
       decide (1000 < counts.foldl Nat.max 0 - counts.foldl Nat.min (counts.headD 0))) &&
      (leastErased c scenic.jrn.dir).any fun e => (c.allocate 4 (c.secId e.2)).isSome) = true ∧
    (scenic.jrn.card.any fun c => (leastErased { c with mem := [] } scenic.jrn.dir).any fun e =>
      (({ c with mem := [] } : CardSt).allocate 4 (c.secId e.2)).isNone) = true ∧
    leastErased smallCard [] = none ∧
    (saving [] scenic).jrn.saving = some ⟨3, 0, []⟩ ∧ (saving [1] scenic).jrn.saving = some ⟨3, 0, [1]⟩ := by decide +kernel

/-- A state whose oldest waiting group is `g`, with a journal on its card. -/
def flushing (c : CardSt) (g : JGroup) (s : State) : State :=
  let s := (cardIn c 2 s).set Attr.jrnJournalState 0 0 0
  { s with jrn := { s.jrn with pend := [g] } }

/-- A group of one record. -/
def oneGroup (p : Option Nat) : JGroup := ⟨0, [goRec 1], p⟩

/-- What programming the oldest group comes to. -/
def programs (s : State) (c : CardSt) (g : JGroup) : Bool :=
  ((Tape.mk c s.jrn.ring s.jrn.ringOff).group s.jrn.nextSerial c.ringLimit g.first g.recs).isSome

theorem witness_journal_events :
    (flushing smallCard (oneGroup none) State.reset).onCard = true ∧
    (flushing smallCard (oneGroup none) State.reset).jrn.format = none ∧
    (flushing smallCard (oneGroup none) State.reset).jrn.compaction = none ∧
    (flushing smallCard (oneGroup none) State.reset).tooEarly (oneGroup none) = false ∧
    programs (flushing smallCard (oneGroup none) State.reset) smallCard (oneGroup none) = true ∧
    programs (flushing ⟨5, 3, 1000, []⟩ (oneGroup none) State.reset) ⟨5, 3, 1000, []⟩ (oneGroup none) = false ∧
    (flushing smallCard (oneGroup (some 480)) inRun).tooEarly (oneGroup (some 480)) = true ∧
    (flushing smallCard (oneGroup (some 472)) inRun).tooEarly (oneGroup (some 472)) = false ∧
    ((flushing smallCard (oneGroup none) State.reset).set Attr.jrnJournalState 0 0 1).onCard = false ∧
    (busyCard (carded 2 State.reset)).jrn.compaction = some ⟨1, [], 0, none, false, none⟩ ∧
    ({ carded 2 State.reset with jrn := { (carded 2 State.reset).jrn with format := some 0 } } : State).jrn.format = some 0 ∧
    ((Tape.mk smallCard [] 65536).snapshot 1 0 []).isSome = true ∧
    (Tape.mk ⟨5, 3, 1000, []⟩ [] 65536).snapshot 1 0 [goRec 1] = none := by decide +kernel

/-! ### Witnesses: power and firmware -/

/-- A state whose OFF waits under ticket 0. -/
def offWaits : State := { State.reset with pow := { State.reset.pow with offDue := some 0 } }

theorem witness_power_requests :
    meets .restart (actOf Attr.powRestart 0 [0xA5]) State.reset (fun c u => decide (c.arg = 0xA5) && !u.armed) = true ∧
    meets .restart (actOf Attr.powRestart 0 [0xA5]) { State.reset.set Attr.pairRole 0 0 1 with
        pair := { State.reset.pair with renewals := [⟨9, 0, true⟩] } } (fun c u => decide (c.arg = 0xA5) && u.armed) = true ∧
    meets .restart (actOf Attr.powRestart 0 [0xA6]) State.reset (fun c _ => decide (c.arg ≠ 0xA5)) = true ∧
    meets .enterLow (actOf Attr.powEnter 0 [2]) State.reset (fun c u => decide (c.arg = 2) && u.mayRest) = true ∧
    meets .enterLow (actOf Attr.powEnter 0 [2]) inRun (fun c u => decide (c.arg = 2) && !u.mayRest) = true ∧
    meets .enterLow (actOf Attr.powEnter 0 [1]) State.reset (fun c _ => decide (c.arg ≠ 2)) = true ∧
    meets .wakeFromLow (actOf Attr.powEnter 0 [0]) (State.reset.set Attr.powPowerState 0 0 2) (fun _ _ => true) = true ∧
    opens .enterOff (actOf Attr.powEnter 0 [3]) State.reset (fun _ u => u.mayRest && u.pow.offDue.isNone)
      (address Attr.powEnter 0) 0 = true ∧
    meets .enterOff (actOf Attr.powEnter 0 [3]) inRun (fun _ u => !u.mayRest) = true ∧
    meets .enterOff (actOf Attr.powEnter 0 [3]) offWaits (fun _ u => u.mayRest && u.pow.offDue.isSome) = true ∧
    offWaits.pow.offDue = some 0 ∧
    ({ State.reset with pow := { State.reset.pow with restartDue := true } } : State).pow.restartDue = true ∧
    ({ State.reset with pow := { State.reset.pow with pwrOff := true } } : State).pow.pwrOff = true ∧
    State.reset.pow.restartDue = false ∧ State.reset.pow.pwrOff = false ∧
    State.reset.n Attr.jrnDurableSeq 0 0 = State.reset.n Attr.jrnCommittedSeq 0 0 ∧
    (State.reset.set Attr.jrnCommittedSeq 0 0 3).n Attr.jrnDurableSeq 0 0 ≠
      (State.reset.set Attr.jrnCommittedSeq 0 0 3).n Attr.jrnCommittedSeq 0 0 := by decide +kernel

theorem witness_firmware :
    meets .install (actOf Attr.fwInstall 0 [1]) State.reset
      (fun _ u => u.pow.installing.isNone && (u.openTicket (address Attr.fwInstall 0) 0).isSome) = true ∧
    meets .install (actOf Attr.fwInstall 0 [1]) { State.reset with pow := { State.reset.pow with installing := some (0, []) } }
      (fun _ u => u.pow.installing.isSome) = true ∧
    ({ State.reset with pow := { State.reset.pow with installing := some (0, []) } } : State).pow.installing = some (0, []) ∧
    State.reset.pow.installing = none ∧
    meets .activate (actOf Attr.fwActivate 0 [1]) (State.reset.set Attr.fwSlotState 0 1 1)
      (fun _ u => decide (u.slotState (1 - u.runningSlot) = 1)) = true ∧
    meets .activate (actOf Attr.fwActivate 0 [1]) State.reset
      (fun _ u => decide (u.slotState (1 - u.runningSlot) ≠ 1)) = true ∧
    meets .confirm (actOf Attr.fwConfirm 0 [1]) { State.reset with pow := { State.reset.pow with trial := some 0 } }
      (fun _ u => decide (u.pow.trial = some u.runningSlot)) = true ∧
    meets .confirm (actOf Attr.fwConfirm 0 [1]) State.reset (fun _ u => decide (u.pow.trial ≠ some u.runningSlot)) = true ∧
    meets .runImage (actOf Attr.fwRunImage 0 [1])
      { State.reset with pow := { State.reset.pow with recovery := true, waitingIn := some ⟨0, 0, none, [], [], false⟩ } }
      (fun _ u => u.pow.waitingIn.isSome && u.pow.recovery) = true ∧
    meets .runImage (actOf Attr.fwRunImage 0 [1]) State.reset (fun _ u => !u.pow.recovery) = true := by decide +kernel

/-- A reset whose deep memory is not filled yet, with the condition word `d`. -/
def filling (d : Int) : State := (State.reset.cold.set Attr.powBringUpStep 0 0 2).set Attr.diaPresent 0 0 d

theorem witness_bring_up :
    ((filling 0).fab.deepReady = false ∧ (filling 0).pow.recovery = false ∧ (filling 0).n Attr.powBringUpStep 0 0 = 2 ∧
      (filling 0).bringUpFault = false) ∧
    ((filling 8).fab.deepReady = false ∧ (filling 8).pow.recovery = false ∧ (filling 8).n Attr.powBringUpStep 0 0 = 2 ∧
      (filling 8).bringUpFault = true) ∧ State.reset.fab.deepReady = true ∧
    (State.reset.cold.fab.deepReady = false ∧ State.reset.cold.pow.recovery = false ∧
      (State.reset.cold.set Attr.powBringUpStep 0 0 1).n Attr.powBringUpStep 0 0 ≠ 2) ∧
    (entering.raise 3).atEntry = true ∧ (entering.raise 3).bringUpFault = true ∧
    (unlocked entering).atEntry = true ∧ (unlocked entering).bringUpFault = false ∧ (unlocked entering).entryWaits = true ∧
    entering.bringUpFault = false ∧ entering.entryWaits = false ∧ State.reset.atEntry = false := by decide +kernel

/-! ### Witnesses: health and development access -/

theorem witness_counters :
    meets .control (writeOf Attr.cntControl 0 0x80000010) State.reset (fun c _ => controlOk c.q.inst c.arg.toNat) = true ∧
    meets .control (writeOf Attr.cntControl 0 0x40000010) State.reset (fun c _ => !controlOk c.q.inst c.arg.toNat) = true ∧
    meets .clearMask (actOf Attr.cntClearMask 0xFFFF [3]) State.reset (fun _ _ => true) = true ∧
    meets .tagClear (actOf Attr.cntTagClear 0x100 [1]) State.reset (fun _ _ => true) = true ∧
    meets .clearConditions (actOf Attr.diaClearConditions 0 [1]) State.reset (fun _ u => !u.hlt.fatalMarch) = true ∧
    meets .clearConditions (actOf Attr.diaClearConditions 0 [1])
      { State.reset with hlt := { State.reset.hlt with fatalMarch := true } } (fun _ u => u.hlt.fatalMarch) = true := by
  decide +kernel

theorem witness_development_access :
    meets .issueChallenge (actOf Attr.devIssueChallenge 0 [1]) State.reset (fun _ u => !u.hlt.lockout) = true ∧
    meets .issueChallenge (actOf Attr.devIssueChallenge 0 [1])
      { State.reset with hlt := { State.reset.hlt with lockout := true } } (fun _ u => u.hlt.lockout) = true ∧
    State.reset.hlt.lockout = false ∧ State.reset.hlt.px.contains 2 = false ∧
    meets .unlock { req 5 Attr.devUnlock 0 with data := List.replicate 128 0 }
      { State.reset with hlt := { State.reset.hlt with challenge := some (List.replicate 32 0) } }
      (fun _ u => u.hlt.challenge.isSome) = true ∧
    meets .unlock { req 5 Attr.devUnlock 0 with data := List.replicate 128 0 } State.reset
      (fun _ u => u.hlt.challenge.isNone) = true ∧
    meets .lock (actOf Attr.devLock 0 [1]) State.reset (fun _ _ => true) = true ∧
    meets .tmuxSelect (writesOf Attr.devTmuxSelect 0 0 [1]) (State.reset.set Attr.devUnlocked 0 0 1)
      (fun _ u => decide (u.n Attr.devUnlocked 0 0 ≠ 0)) = true ∧
    meets .tmuxSelect (writesOf Attr.devTmuxSelect 0 0 [1]) State.reset
      (fun _ u => decide (u.n Attr.devUnlocked 0 0 = 0)) = true := by decide +kernel

/-! ### Witnesses: Hearth -/

/-- A state in which references 0 and 1 are enabled and present within tolerance; they are qualified or not. -/
def referenced (q : Bool) : State :=
  let r : RefSt := ⟨[], true, true, q, q, none⟩
  ((State.reset.set Attr.refEnable 0 0 1).set Attr.refEnable 1 0 1 |>.setRef 0 r).setRef 1 r

/-- A state with Hearth in a state, at 10 minutes, with a model of the last hour. -/
def hearthIn (st : Nat) (f : Hea → Hea) : State :=
  let s := (State.reset.set Attr.heaState 0 0 st).set Attr.heaModelHistory 0 0 7200
  { s with hea := f { s.hea with now := 600000 } }

theorem witness_hearth :
    ((referenced false).ref 0).qualified = false ∧ (referenced false).refValid 0 = true ∧
    (referenced false).n Attr.refEnable 0 0 = 1 ∧ State.reset.refValid 0 = false ∧ ((referenced true).ref 0).present = true ∧
    ((State.reset.setRef 0 ⟨[], true, true, true, true, some 5000⟩).ref 0).waitEnd.isSome = true ∧
    (State.reset.ref 0).waitEnd = none ∧
    meets .clearWtr (actOf Attr.refClearWtr 0 [1]) (State.reset.setRef 0 ⟨[], true, true, true, true, some 5000⟩)
      (fun c u => (u.ref c.q.inst).waitEnd.isSome) = true ∧
    ((((referenced true).set Attr.refFreqOffset 0 0 1000000000).ref 0).qualified &&
      (((referenced true).set Attr.refFreqOffset 0 0 1000000000).ref 1).qualified) = true ∧
    ((referenced true).set Attr.refFreqOffset 0 0 1000000000).rank 0 = ((referenced true).set Attr.refFreqOffset 0 0 1000000000).rank 1 ∧
    ((referenced true).set Attr.refFreqOffset 0 0 1000000000).disagrees 0 1 = false ∧
    ((referenced true).set Attr.refFreqOffset 0 0 1000000000).agree 0 1 = false ∧
    (State.reset.set Attr.refQuality 0 0 5).rank 0 ≠ (State.reset.set Attr.refQuality 0 0 5).rank 1 ∧
    State.reset.heaSt ≠ 3 ∧ (hearthIn 3 id).heaSt = 3 ∧ State.reset.hea.switch = none ∧
    (hearthIn 3 id).chooseRef.heaSt = 3 ∧ State.reset.chooseRef.heaSt ≠ 3 ∧
    ((hearthIn 3 id).set Attr.heaModelRange 0 0 9000).chooseRef.outOfRange = true ∧
    16 ≤ (hearthIn 2 fun h => { h with acc := List.replicate 16 ⟨0, 0, 0⟩, clean := 76 }).hea.acc.length ∧
    (hearthIn 2 id).hea.written + 3600 ≤ (hearthIn 2 id).n Attr.heaModelHistory 0 0 ∧
    State.reset.n Attr.heaModelHistory 0 0 < State.reset.hea.written + 3600 ∧
    meets .modelReset (actOf Attr.heaModelReset 0 [1]) State.reset (fun _ _ => true) = true ∧
    (State.reset.set Attr.heaModelSensor 0 0 8).n Attr.heaModelSensor 0 0 = 8 ∧ State.reset.n Attr.heaModelSensor 0 0 ≠ 8 ∧
    (hearthIn 2 fun h => { h with lockedSince := some 300000 }).heaSt = 2 ∧
    300000 + 300000 ≤ (hearthIn 2 fun h => { h with lockedSince := some 300000 }).hea.now ∧
    (hearthIn 2 fun h => { h with lockedSince := some 300000 }).hea.lockedSince = some 300000 ∧
    State.reset.hea.lockedSince = none ∧
    (hearthIn 2 fun h => { h with switch := some ⟨1, List.replicate 16 0, some 0, false⟩ }).hea.switch =
      some ⟨1, List.replicate 16 0, some 0, false⟩ ∧ 599999 < (hearthIn 2 id).hea.now ∧ (hearthIn 2 id).hea.now ≤ 600010 ∧
    [some 590000, none].all (fun t => decide ((hearthIn 3 fun h => { h with holdSince := t }).hea.holdSince = t)) = true := by decide +kernel

/-! ### Witnesses: time bases and PTP -/

/-- PTP instance 0 in SLAVE for 3 s, on a port that is up, after 4 Announces of master 7. -/
def slaved : State :=
  let s := ((State.reset.set Attr.portEnable 0 0 1).set Attr.portLink 0 0 1).set Attr.ptpEnable 0x100 0 1
  let s := (s.set Attr.ptpPortState 0x100 0 9).set Attr.tbSource 1 0 1
  let s := { s with hea := { s.hea with now := 5000 } }
  s.setPtp 0 { s.ptp 0 with follows := some 7, slaveSince := some 2000, announces := 4 }

theorem witness_time_bases :
    meets .tbEnable (writeOf Attr.tbEnable 1 1) State.reset
      (fun c u => decide (c.arg = 1 ∧ u.a Attr.tbEnable c.q.inst 0 ≠ 1)) = true ∧
    meets .tbEnable (writeOf Attr.tbEnable 1 0) (State.reset.set Attr.tbEnable 1 0 1) (fun c u =>
      decide (c.arg = 0 ∧ u.a Attr.tbEnable c.q.inst 0 ≠ 0) &&
      !((List.range 16).any fun m => u.n Attr.mdEnable m 0 == 1 && u.n Attr.mdTimeBase m 0 == c.q.inst)) = true ∧
    meets .tbEnable (writeOf Attr.tbEnable 1 0)
      (((State.reset.set Attr.tbEnable 1 0 1).set Attr.mdEnable 3 0 1).set Attr.mdTimeBase 3 0 1) (fun c u => decide (c.arg = 0) &&
      (List.range 16).any fun m => u.n Attr.mdEnable m 0 == 1 && u.n Attr.mdTimeBase m 0 == c.q.inst) = true ∧
    meets .tbEnable (writeOf Attr.tbEnable 1 0) State.reset (fun c u => decide (u.a Attr.tbEnable c.q.inst 0 = c.arg) &&
      !((List.range 16).any fun m => u.n Attr.mdEnable m 0 == 1 && u.n Attr.mdTimeBase m 0 == c.q.inst)) = true ∧
    meets .restep (actOf Attr.tbRestep 0 [0]) State.reset (fun c u =>
      !u.tbFeeds c.q.inst && decide (u.tbState c.q.inst ≠ 0 ∧ u.tbState c.q.inst ≠ 2 ∧ c.arg.toNat = 0 ∧
        u.n Attr.tbSource c.q.inst 0 = 0)) = true ∧
    meets .restep (actOf Attr.tbRestep 1 [1000000000]) ((slaved.set Attr.tbEnable 1 0 1).set Attr.tbState 1 0 1) (fun c u =>
      !u.tbFeeds c.q.inst && decide (u.tbState c.q.inst ≠ 0 ∧ u.tbState c.q.inst ≠ 2 ∧ c.arg.toNat ≠ 0 ∧
        u.n Attr.tbSource c.q.inst 0 ≠ 0)) = true ∧
    meets .timeBase (writeOf Attr.mdTimeBase 3 0) State.reset
      (fun c u => decide (c.q.inst ≠ 0 ∧ u.a c.code c.q.inst 0 = c.arg)) = true ∧
    meets .tbSource (writeOf Attr.tbSource 1 1) State.reset (fun _ _ => true) = true ∧
    meets .restep (actOf Attr.tbRestep 1 [0]) ((slaved.set Attr.tbEnable 1 0 1).set Attr.tbState 1 0 1) (fun c u =>
      !u.tbFeeds c.q.inst && decide (u.tbState c.q.inst ≠ 0 ∧ u.tbState c.q.inst ≠ 2 ∧ c.arg.toNat = 0 ∧
        u.n Attr.tbSource c.q.inst 0 ≠ 0) && u.inSlave (u.n Attr.tbSource c.q.inst 0 - 1)) = true ∧
    meets .restep (actOf Attr.tbRestep 0 [1000000000]) State.reset (fun c u =>
      !u.tbFeeds c.q.inst && decide (u.tbState c.q.inst ≠ 0 ∧ u.tbState c.q.inst ≠ 2 ∧ c.arg.toNat ≠ 0 ∧
        u.n Attr.tbSource c.q.inst 0 = 0)) = true ∧
    meets .restep (actOf Attr.tbRestep 0 [1000000000]) inRun (fun c u => u.tbFeeds c.q.inst) = true ∧
    meets .rate (writeOf Attr.tbRate 0 1000) State.reset
      (fun c u => decide ((c.arg.natAbs : Int) ≤ u.rateLimit c.q.inst ∧ u.n Attr.tbSource c.q.inst 0 = 0)) = true ∧
    meets .rate (writeOf Attr.tbRate 0 9000000000) State.reset
      (fun c u => decide (u.rateLimit c.q.inst < (c.arg.natAbs : Int))) = true ∧
    meets .rate (writeOf Attr.tbRate 0 1000) (State.reset.set Attr.tbSource 0 0 1)
      (fun c u => decide ((c.arg.natAbs : Int) ≤ u.rateLimit c.q.inst ∧ u.n Attr.tbSource c.q.inst 0 ≠ 0)) = true ∧
    meets .timeBase (writeOf Attr.mdTimeBase 3 1) State.reset
      (fun c u => decide (c.q.inst ≠ 0 ∧ u.a c.code c.q.inst 0 ≠ c.arg)) = true ∧
    meets .timeBase (writeOf Attr.mdTimeBase 0 1) State.reset
      (fun c u => decide (c.q.inst = 0 ∧ c.code = Attr.mdTimeBase ∧ u.engState = 0 ∧ u.a c.code c.q.inst 0 ≠ c.arg)) = true ∧
    (rowOf (writeOf Attr.mdTimeBase 0 1) = .timeBase ∧ passes (writeOf Attr.mdTimeBase 0 1) inRun
      (fun v => decide (v.engState ≠ 0) && (v.checks (writeOf Attr.mdTimeBase 0 1)).toOption.isSome) = true) ∧
    (rowOf (writeOf Attr.mdRate 0 1) = .timeBase ∧ passes (writeOf Attr.mdRate 0 1) State.reset (fun _ => true) = true ∧
      reqCode (writeOf Attr.mdRate 0 1) = Attr.mdRate) := by decide +kernel

/-- A state whose time base 1 is in a state, with a source event behind it, and waits for a restep or not. -/
def sourced (st : Nat) (restep : Bool) : State :=
  let s := ((slaved.set Attr.tbEnable 1 0 1).set Attr.tbState 1 0 st).set Attr.tbStatus 1 0 1
  s.setTb 1 { s.tbSt 1 with lastEvent := some 4000, restep := restep }

theorem witness_ptp :
    State.reset.tbState 0 ≠ 0 ∧ State.reset.tbState 1 = 0 ∧ slaved.ptpOn 0 = true ∧ State.reset.ptpOn 0 = false ∧
    (slaved.ptp 0).follows = some 7 ∧ (slaved.ptp 0).masters = [] ∧ (slaved.ptp 0).follows.isNone = false ∧
    slaved.sourceIsReady 1 = true ∧ (slaved.set Attr.tbState 1 0 1).tbState 1 = 1 ∧
    ((slaved.set Attr.tbState 1 0 1).set Attr.mdTimeBase 0 0 1 |>.set Attr.engState 0 0 1).tbFeeds 1 = true ∧
    State.reset.sourceIsReady 1 = false ∧
    (bestMaster (slaved.heardMasters 0 ⟨7, 9, 6, 33, 0, 128, 128, 0, 0⟩)).isSome = true ∧
    (sourced 1 true).tbState 1 ≠ 0 ∧ ((sourced 1 true).tbSt 1).restep = true ∧
    (sourced 1 false).tbState 1 = 1 ∧ ((sourced 1 false).tbSt 1).restep = false ∧
    (sourced 3 false).tbState 1 = 3 ∧ ((sourced 3 false).tbSt 1).restep = false ∧
    ((sourced 3 false).tbSt 1).lastEvent = some 4000 ∧ (sourced 4 false).tbState 1 = 4 ∧
    ((sourced 4 false).tbSt 1).restep = false ∧ bit ((sourced 4 false).n Attr.tbStatus 1 0) 0 = true ∧
    (sourced 4 false).n Attr.tbCaptureLimit 1 0 < ((sourced 4 false).extend 1 0 - 10 ^ 18).natAbs ∧
    (((State.reset.set Attr.portEnable 1 0 1).set Attr.portLink 1 0 1).set Attr.ptpEnable 0x101 0 1).ptpOn 1 = true ∧
    ((((State.reset.set Attr.portEnable 1 0 1).set Attr.portLink 1 0 1).set Attr.ptpEnable 0x101 0 1).ptp 1).follows = none := by
  decide +kernel

/-! ### Witnesses: serial audio ports -/

/-- The engine in RUN with serial audio port 0 enabled, in a state, master or slave. -/
def ported (st slave : Int) : State :=
  (((inRun.set Attr.sapEnable 0 0 1).set Attr.sapState 0 0 st).set Attr.sapClocking 0 0 slave).set Attr.sapDistance 0 0 512

/-- Port 0 recovers from a rate fault beside port 1, which runs in its group. -/
def beside : State :=
  let s := (((ported 3 1).set Attr.sapGroup 0 0 3).set Attr.sapGroup 1 0 3).set Attr.sapState 1 0 2
  ((s.set Attr.sapEnable 1 0 1).set Attr.sapDistance 1 0 512).setPort 0 { s.port 0 with near := 64, fault := 4 }

theorem witness_ports :
    State.reset.sapSt 0 = 0 ∧ ((ported 3 0).sapSlave 0 = false ∧ (ported 3 0).sapSt 0 = 3) ∧
    ((ported 2 0).sapSlave 0 = false ∧ (ported 2 0).sapSt 0 = 2 ∧ (ported 2 0).sapBuffered 0 = false) ∧
    ((ported 2 1).sapBuffered 0 = true ∧ (ported 2 1).ticking = true ∧ (ported 2 1).sapGroupOf 0 = 0xFF ∧
      128 ≤ (ported 2 1).a Attr.sapDistance 0 0 + (-384) ∧ (ported 2 1).a Attr.sapDistance 0 0 + 384 ≤ 896) ∧
    ((ported 2 1).sapSlave 0 = true ∧ ((ported 2 1).sapFault 0 2).sapSt 0 ≠ 0) ∧
    8 ≤ (((ported 2 1).setPort 0 { (ported 2 1).port 0 with far := 8 }).port 0).far ∧ ((ported 2 1).port 0).far < 8 ∧
    (((ported 3 1).setPort 0 { (ported 3 1).port 0 with good := 16, fault := 2 }).sapSt 0 = 3 ∧
      (((ported 3 1).setPort 0 { (ported 3 1).port 0 with good := 16, fault := 2 }).port 0).fault ≠ 4) ∧
    (((ported 3 1).setPort 0 { (ported 3 1).port 0 with near := 64, fault := 4 }).port 0).fault = 4 ∧
    (ported 3 1).sapGroupOf 0 = 0xFF ∧ (ported 1 1).sapSt 0 = 1 ∧ (ported 2 1).sapSt 0 ≠ 1 ∧ (ported 2 1).sapSt 0 ≠ 3 ∧
    (ported 2 1).paired = false ∧ (ported 2 1).a Attr.sapDistance 0 0 + (-800) < -256 ∧
    (ported 2 1).a Attr.sapDistance 0 0 + (-385) = 127 ∧ (ported 2 1).a Attr.sapDistance 0 0 + 385 = 897 ∧
    1280 < (ported 2 1).a Attr.sapDistance 0 0 + 800 ∧
    (beside.sapGroupOf 0 = 3 ∧ beside.groupRef 3 = some 1 ∧ beside.sapSt 0 = 3 ∧ 64 ≤ (beside.port 0).near ∧ (beside.port 0).fault = 4) := by
  decide +kernel

/-! ### Witnesses: media and packets -/

/-- Receive stream 0 enabled with 2 channels of L24 in packets of 1 ms, in a state, on a port that is up, with the engine in RUN. -/
def receiving (st : Int) : State :=
  let s := ((inRun.set Attr.portEnable 0 0 1).set Attr.portLink 0 0 1).set Attr.rxEnable 0 0 1
  let s := ((s.set Attr.rxState 0 0 st).set Attr.rxChannels 0 0 2).set Attr.rxPort 0 0 0
  { s with net := { s.net with rx := [(0, { RxSt.reset with next := 480 })] } }

/-- A packet of stream 0 as `receiving` expects it, of `n` instants, with a timestamp. -/
def packet (s : State) (n ts : Nat) : RtpPacket := ⟨0, true, 1, ts, 0, List.replicate n (List.replicate (s.rxCh 0) 7)⟩

/-- How far a packet's first sample is due from its arrival. -/
def dueIn (s : State) (p : RtpPacket) : Int :=
  signed 32 (toBits 32 ((p.ts : Int) + s.linkOffset 0 - countAt (s.domRate (s.n Attr.rxDomain 0 0)) p.arrival))

/-- Transmit stream 0 with a packet waiting, on a port that is up. -/
def sending : State :=
  let s := ((inRun.set Attr.portEnable 0 0 1).set Attr.portLink 0 0 1).set Attr.txState 0 0 1
  s.setTx 0 { (s.txs 0) with buf := List.replicate (s.packetLen txAttrs 0) [0] }

theorem witness_media_requests :
    meets .sapSetting (writeOf Attr.sapEnable 0 1) State.reset (fun c u => !u.sapBad c.code c.q.inst c.arg.toNat &&
      decide (c.code ≠ Attr.sapDomain)) = true ∧
    meets .sapSetting (writeOf Attr.sapEnable 0 1) (State.reset.set Attr.sapDomain 0 0 3)
      (fun c u => u.sapBad c.code c.q.inst c.arg.toNat) = true ∧
    meets .sapSetting (writeOf Attr.sapDomain 0 3) (State.reset.set Attr.mdEnable 3 0 1) (fun c u =>
      !u.sapBad c.code c.q.inst c.arg.toNat && decide (c.code = Attr.sapDomain ∧ u.n c.code c.q.inst 0 ≠ c.arg.toNat)) = true ∧
    meets .binding (writeOf Attr.weldBinding 0 5) State.reset (fun c u => decide (c.code = Attr.weldBinding ∧
      c.arg.toNat / 4096 % 2 ^ 18 = 0 ∧ weldRole c.arg = false) && !bit c.arg.toNat 31 && !bit c.arg.toNat 30 &&
      (u.store c).netAdmits) = true ∧
    meets .streamEnable (writeOf Attr.rxEnable 0 1) State.reset (fun c u => decide (c.code = Attr.rxEnable ∧ c.arg.toNat = 1 ∧
      u.n Attr.mdEnable (u.n Attr.rxDomain c.q.inst 0) 0 = 1 ∧ (u.store c).payload rxAttrs c.q.inst ≤ 1460) &&
      (u.store c).netAdmits) = true ∧
    meets .streamEnable (writeOf Attr.txEnable 0 1) State.reset (fun c u => decide (c.code = Attr.txEnable ∧ c.arg.toNat = 1 ∧
      u.n Attr.mdEnable (u.n Attr.txDomain c.q.inst 0) 0 = 1 ∧ (u.store c).payload txAttrs c.q.inst ≤ 1460) &&
      (u.store c).netAdmits) = true ∧
    meets .streamEnable (writeOf Attr.rxChannels 0 2) (State.reset.set Attr.rxEnable 0 0 1)
      (fun c u => decide (c.code = Attr.rxChannels ∧ u.n Attr.rxEnable c.q.inst 0 = 1)) = true ∧
    meets .streamEnable (writeOf Attr.rxEnable 0 1) ((State.reset.set Attr.rxEnable 1 0 1).set Attr.rxChannels 1 0 4096)
      (fun c u => decide (c.code = Attr.rxEnable ∧ c.arg.toNat = 1 ∧
        u.n Attr.mdEnable (u.n Attr.rxDomain c.q.inst 0) 0 = 1 ∧ (u.store c).payload rxAttrs c.q.inst ≤ 1460) &&
        !(u.store c).netAdmits) = true ∧
    meets .binding (writeOf Attr.weldContributors 0 3) State.reset
      (fun c u => decide (c.code = Attr.weldContributors) && (u.store c).netAdmits) = true ∧
    meets .binding (writeOf Attr.weldBinding 0 0x1000) State.reset
      (fun c _ => decide (c.code = Attr.weldBinding ∧ c.arg.toNat / 4096 % 2 ^ 18 ≠ 0)) = true ∧
    meets .binding (writeOf Attr.weldContributors 0 3) ((State.reset.set Attr.rxEnable 1 0 1).set Attr.rxChannels 1 0 5000)
      (fun c u => decide (c.code = Attr.weldContributors) && !(u.store c).netAdmits) = true := by decide +kernel

theorem witness_packets :
    State.reset.n Attr.rxState 0 0 = 0 ∧
    ((receiving 2).n Attr.rxState 0 0 = 2 ∧ ((legPorts ((receiving 2).n Attr.rxPort 0 0))[0]?).any (receiving 2).portUp = true ∧
      (packet (receiving 2) 5 0).samples.length ≠ (receiving 2).packetLen rxAttrs 0) ∧
    ((packet (receiving 2) ((receiving 2).packetLen rxAttrs 0) 8192).samples.length = (receiving 2).packetLen rxAttrs 0 ∧
      (packet (receiving 2) ((receiving 2).packetLen rxAttrs 0) 8192).samples.any (·.length != (receiving 2).rxCh 0) = false ∧
      8192 - ((receiving 2).packetLen rxAttrs 0 : Int) ≤
        dueIn (receiving 2) (packet (receiving 2) ((receiving 2).packetLen rxAttrs 0) 8192)) ∧
    (dueIn (receiving 2) (packet (receiving 2) ((receiving 2).packetLen rxAttrs 0) 0) <
        8192 - ((receiving 2).packetLen rxAttrs 0 : Int) ∧ (receiving 2).ticking = true) ∧
    (receiving 4).n Attr.rxState 0 0 = 4 ∧ (receiving 5).n Attr.rxState 0 0 = 5 ∧ (receiving 2).portUp 0 = true ∧
    (sending.set Attr.txState 0 0 4).n Attr.txState 0 0 = 4 ∧
    (bit (((receiving 2).set Attr.rxStatus 0 0 3).n Attr.rxStatus 0 0) 1 = true ∧
      (((receiving 2).set Attr.rxStatus 0 0 3).set Attr.rxPort 0 0 4).n Attr.rxPort 0 0 = 4) ∧
    bit ((receiving 2).n Attr.rxStatus 0 0) 1 = false ∧
    State.reset.n Attr.txState 0 0 ≠ 1 ∧
    (sending.n Attr.txState 0 0 = 1 ∧ sending.packetLen txAttrs 0 ≤ (sending.txs 0).buf.length ∧ sending.sends = true ∧
      sending.n Attr.txPort 0 0 < 4 ∧ sending.portUp (sending.n Attr.txPort 0 0) = true) ∧
    State.reset.portUp 0 = false := by decide +kernel

/-! ### Witnesses: Weld -/

/-- The engine in RUN as member 3 of a Weld, summing index 5 to destination 0, on a Weld port that is up. -/
def welding : State :=
  let s := ((inRun.set Attr.portEnable 2 0 1).set Attr.portLink 2 0 1).set Attr.weldWeldId 0xFFFF 0 3
  (s.set Attr.weldBinding 0 0 (2 ^ 30 + 5)).set Attr.weldContributors 0 0 (8 + 16)

/-- A fragment of member 4 for a frame, of a format version. -/
def fragment (version frame : Nat) : WeldFrag :=
  ⟨welding.n Attr.weldSystemId 0xFFFF 0, version, 4, 8, welding.md0Code, frame, 0, 0, 1, [], 0⟩

theorem witness_weld :
    State.reset.ticking = false ∧
    (welding.portUp 2 = true ∧ welding.weldId ≠ 255 ∧ welding.ticking = true ∧
      ((welding.welds 30).any fun e => e.2 / 64 == (fragment 1 480).lane) = true) ∧
    (fragment 2 480).version ≠ 1 ∧
    ((fragment 1 480).n = welding.eng.cfg.n ∧ (fragment 1 480).sender < 32 ∧ (fragment 1 480).frame % welding.eng.cfg.n = 0) ∧
    ((fragment 1 472).frame ≤ welding.weldNext + welding.eng.cfg.n ∧ ¬ (fragment 1 472).frame < welding.weldNext ∧
      ({ welding with net := { welding.net with seen := [(4, 472, 0, 0)] } } : State).net.seen.contains (4, 472, 0, 0) = true) ∧
    ((fragment 1 456).frame < welding.weldNext ∧ welding.net.seen.contains (4, 456, 0, 0) = false) ∧
    (welding.weldNext ≤ (fragment 1 472).frame ∧ welding.net.seen.contains (4, 472, 0, 0) = false ∧
      (fragment 1 472).frame ≤ welding.weldNext + welding.eng.cfg.n) ∧
    ({ welding with net := { welding.net with due := some 464 } } : State).net.due = some 464 ∧
    welding.net.due = none ∧ State.reset.weldPeers 0 = [] ∧
    (64 ≤ Store.get 0 ({ welding with net := { welding.net with gone := [(4, 64)] } } : State).net.gone 4 ∧
      bit (welding.n Attr.weldMembersAbsent 0xFFFF 0) 4 = false) ∧ Store.get 0 welding.net.gone 4 < 64 := by decide +kernel

/-! ### Witnesses: the Tether and the pair -/

/-- A Tether frame of a type (R472). -/
def tetherFrame (typ seq count : Nat) (payload : List Byte) : List Byte :=
  let b := [byteOf typ, byteOf 1] ++ leBytes 2 payload.length ++ leBytes 4 seq ++ leBytes 8 count ++ leBytes 8 0 ++ payload
  b ++ leBytes 4 (crc32 b)

/-- A token of a role that acknowledges `ack` (R474). -/
def tokenBytes (role ack : Nat) : List Byte :=
  leBytes 4 1 ++ [byteOf 1, byteOf role, byteOf 0, byteOf 0] ++ leBytes 4 ack ++ leBytes 2 1000 ++ leBytes 2 2 ++ leBytes 8 0

/-- A pair member in a role, on lane 0, in an engine state. -/
def paired (role st : Int) : State :=
  (((State.reset.set Attr.pairPairEnable 0 0 1).set Attr.pairLanes 0 0 1).set Attr.pairRole 0 0 role).set Attr.engState 0 0 st

/-- Whether a frame is taken in `s`, and `cond` holds of it and of the state after. -/
def takesIn (typ : Nat) (b : List Byte) (s : State) (cond : TFrame → State → Bool) : Bool :=
  match s.tetherIn typ 10 0 b with
  | (some f, w) => cond f w
  | _ => false

/-- A state whose pair engine is changed. -/
def withPair (s : State) (f : Pair → Pair) : State := { s with pair := f s.pair }

theorem witness_tether_frames_checked :
    State.reset.n Attr.pairPairEnable 0 0 ≠ 1 ∧ (paired 2 0).n Attr.pairPairEnable 0 0 = 1 ∧
    bit ((paired 2 0).n Attr.pairLanes 0 0) 0 = true ∧ tetherParse [] = none ∧
    ((tetherParse (tetherFrame tRenew 1 0 (tokenBytes 1 0))).any fun f => f.typ != tHello) = true ∧
    ((tetherParse (tetherFrame tRenew 1 0 (tokenBytes 1 0))).any fun f =>
      (withPair (paired 2 0) fun p => { p with seqIn := [(tRenew, 64)] }).tetherSeen tRenew f.seq) = true := by decide +kernel

theorem witness_tether_frames :
    (paired 3 0).role = 3 ∧
    takesIn tRenew (tetherFrame tRenew 1 0 (tokenBytes 1 0)) (paired 3 0)
      (fun f w => decide (((w.hear (tokenOf f.payload) false).settle (tokenOf f.payload)).role = 2)) = true ∧
    takesIn tAck (tetherFrame tAck 1 0 (tokenBytes 2 9)) (withPair (paired 1 1) fun p => { p with renewals := [⟨9, 5, true⟩] })
      (fun f w =>
        let u := (w.hear (tokenOf f.payload) true).settle (tokenOf f.payload)
        decide (u.role = 1) && u.pair.lastAcked.isNone &&
          (u.pair.renewals.find? (·.seq == (tokenOf f.payload).ackSeq)).isSome) = true ∧
    takesIn tTake (tetherFrame tTake 1 0 (tokenBytes 3 0)) (paired 3 1) (fun f w =>
      let u := (w.hear (tokenOf f.payload) false).settle (tokenOf f.payload)
      decide (u.role = 3 ∧ u.engState = 1)) = true ∧
    takesIn tGrant (tetherFrame tGrant 1 0 (tokenBytes 3 9)) (withPair (paired 3 1) fun p => { p with taking := some 9 })
      (fun f w =>
        let u := w.hear (tokenOf f.payload) false
        decide (u.role = 3 ∧ u.engState = 1 ∧ u.pair.taking = some (tokenOf f.payload).ackSeq)) = true ∧
    takesIn tRelease (tetherFrame tRelease 1 0 (tokenBytes 1 0)) ((paired 2 1).set Attr.pairStandbyState 0 0 3) (fun f w =>
      decide ((w.hear (tokenOf f.payload) false).role = 2) && (w.hear (tokenOf f.payload) false).entitled) = true ∧
    takesIn tRelease (tetherFrame tRelease 1 0 (tokenBytes 1 0)) (paired 2 1) (fun f w =>
      decide ((w.hear (tokenOf f.payload) false).role = 2) && !(w.hear (tokenOf f.payload) false).entitled) = true ∧
    takesIn tHello (tetherFrame tHello 1 0 (tokenBytes 3 0)) (paired 3 0) (fun f w =>
      !((w.hear (tokenOf f.payload) true).settle (tokenOf f.payload)).takes (tokenOf f.payload)) = true ∧
    takesIn tDigest (tetherFrame tDigest 1 8 [1, 2, 3]) (paired 2 1) (fun _ w => decide (w.role = 2)) = true ∧
    takesIn tDigest (tetherFrame tDigest 1 8 [1, 2, 3]) (paired 3 1) (fun _ w => decide (w.role ≠ 2)) = true ∧
    takesIn tAdopt (tetherFrame tAdopt 1 8 [1, 2, 3]) ((paired 2 1).set Attr.pairStandbyState 0 0 2) (fun _ w =>
      decide (w.role = 2 ∧ w.n Attr.pairStandbyState 0 0 = 2)) = true ∧
    takesIn tAck (tetherFrame tAck 1 0 (tokenBytes 2 9)) (withPair (paired 1 1) fun p => { p with lastAcked := some 12 })
      (fun f w =>
        let u := (w.hear (tokenOf f.payload) true).settle (tokenOf f.payload)
        u.pair.lastAcked.any fun l => !seqLater (tokenOf f.payload).ackSeq l) = true ∧
    ((paired 1 1).role = 1 ∧ (paired 1 1).n Attr.pairPairEnable 0 0 = 1) ∧
    takesIn tAdopt (tetherFrame tAdopt 1 8 [1, 2, 3]) (paired 3 1) (fun _ w => decide (w.role ≠ 2)) = true := by decide +kernel

/-- An ACTIVE with an armed renewal, acknowledged at time 0. -/
def leasing : State := withPair (paired 1 1) fun p => { p with renewals := [⟨9, 0, true⟩] }

/-- A STANDBY that took a renewal at time 0, armed or not, in a standby state. -/
def leased (arm : Bool) (st : Int) : State :=
  withPair ((paired 2 1).set Attr.pairStandbyState 0 0 st) fun p => { p with tRen := some 0, arm := arm, lease := 1000 }

theorem witness_roles :
    (leasing.role = 1 ∧ leasing.pair.renewals.any (·.armed) = true ∧
      leasing.pair.tAck + 1000 * leasing.n Attr.pairLeaseTime 0 0 ≤ 100000000 + guardNs) ∧ State.reset.role ≠ 1 ∧
    ((leased true 3).pair.tRen = some 0 ∧ (leased true 3).role = 2 ∧ 0 + 1000 * (leased true 3).pair.lease + guardNs ≤ 1012000 ∧
      (leased true 3).pair.arm = true ∧ (withPair (leased true 3) fun p => { p with now := 1012000 }).entitled = true) ∧
    ((leased false 3).pair.tRen = some 0 ∧ (leased false 3).role = 2 ∧
      0 + 1000 * (leased false 3).pair.lease + guardNs ≤ 1012000 ∧ (leased false 3).pair.arm = false) ∧
    State.reset.pair.tRen = none ∧ State.reset.armed = false ∧
    ((withPair leasing fun p => { p with giveUpDue := 1 }).pair.giveUpDue = 1 ∧
      (withPair leasing fun p => { p with giveUpDue := 1 }).armed = true) ∧
    (bit ((leasing.set Attr.pairLanes 0 0 3).n Attr.pairLanes 0 0) 0 = true ∧
      (leasing.set Attr.pairLanes 0 0 3).n Attr.pairLanes 0 0 ≠ 2 ^ 0 ∧ (leasing.set Attr.pairLanes 0 0 3).role = 1) ∧
    bit (leasing.n Attr.pairLanes 0 0) 1 = false ∧
    ((withPair (paired 2 1) fun p => { p with convergeEnd := 5 }).role = 2 ∧
      (withPair (paired 2 1) fun p => { p with convergeEnd := 5 }).pair.convergeEnd ≠ 0) := by decide +kernel

/-- A STANDBY that enrols and has all 8 bytes of a state without records. -/
def enrolling : State :=
  withPair ((paired 2 0).set Attr.pairStandbyState 0 0 1) fun p =>
    { p with sE := some 5, enrolLen := 8, enrol := (List.range 8).map fun i => (i, 0) }

theorem witness_enrolment :
    takesIn tMirror (tetherFrame tMirror 1 0 (leBytes 8 8)) (paired 1 1) (fun _ w => decide (w.role ≠ 2)) = true ∧
    takesIn tMirror (tetherFrame tMirror 7 0 (leBytes 8 8)) (withPair (paired 2 1) fun p => { p with seqIn := [(tMirror, 5)] })
      (fun f w => decide (w.role = 2 ∧ (5 + 1) % 2 ^ 32 ≠ f.seq)) = true ∧
    takesIn tMirror (tetherFrame tMirror 7 0 (leBytes 8 8)) ((paired 2 1).set Attr.pairStandbyState 0 0 1) (fun _ w =>
      decide (w.role = 2 ∧ w.n Attr.pairStandbyState 0 0 = 1)) = true ∧
    takesIn tMirror (tetherFrame tMirror 6 0 (leBytes 8 8)) (withPair (paired 2 1) fun p => { p with seqIn := [(tMirror, 5)] })
      (fun f w => decide (w.role = 2 ∧ (5 + 1) % 2 ^ 32 = f.seq)) = true ∧
    ((paired 2 1).n Attr.pairStandbyState 0 0 ≠ 1 ∧ 0 ≤ (paired 2 1).eng.count ∧ (paired 2 1).pair.mirror = []) ∧
    takesIn tEnrol (tetherFrame tEnrol 1 0 (leBytes 4 0 ++ leBytes 8 0)) ((paired 2 1).set Attr.pairStandbyState 0 0 1)
      (fun f w => decide (f.payload.length ≠ 4 ∧ w.role = 2 ∧ w.n Attr.pairStandbyState 0 0 = 1 ∧
        fieldAt f.payload 0 4 = w.pair.acked)) = true ∧
    (((withPair enrolling fun p => { p with mirror := [⟨9, 0, []⟩] }).pair.mirror.filter fun r => seqLater r.seq 5).head? =
      some ⟨9, 0, []⟩ ∧ 9 ≠ (5 + 1) % 2 ^ 32) ∧
    Store.find? ((paired 2 1).set Attr.pairStandbyState 0 0 1).pair.seqIn tMirror = none ∧
    takesIn tEnrol (tetherFrame tEnrol 1 0 (leBytes 4 0)) (paired 1 1) (fun f w =>
      decide (f.payload.length = 4 ∧ w.role = 1 ∧ fieldAt f.payload 0 4 = 0)) = true ∧
    takesIn tEnrol (tetherFrame tEnrol 1 0 (leBytes 4 0)) (paired 3 1) (fun f w =>
      decide (f.payload.length = 4 ∧ w.role ≠ 1)) = true ∧
    State.reset.pair.sE = none ∧
    (enrolling.pair.sE = some 5 ∧ enrolling.role = 2 ∧ enrolling.n Attr.pairStandbyState 0 0 = 1 ∧ 8 ≤ enrolling.pair.enrolLen ∧
      enrolling.pair.enrol.length = enrolling.pair.enrolLen ∧ enrolling.pair.mirror = []) ∧
    (let recs := recsAt enrolling.pair.enrol.length ((enrolling.pair.enrol.map (·.2)).drop 8)
     (applyRecs none (recs.filter (·.typ < 16)) enrolling.clearReplicated).enterFresh.toOption.isSome) = true := by
  decide +kernel

theorem witness_pair_requests :
    meets .switchover (actOf Attr.pairSwitchover 0 [1]) leasing (fun _ u => u.armed) = true ∧
    meets .switchover (actOf Attr.pairSwitchover 0 [1]) (paired 3 0) (fun _ u => !u.armed) = true ∧
    meets .rejoin (actOf Attr.pairRejoin 0 [1]) (paired 4 0) (fun _ u => decide (u.role = 4 ∧ u.n Attr.diaPresent 0 0 = 0)) = true ∧
    meets .rejoin (actOf Attr.pairRejoin 0 [1]) (paired 3 0) (fun _ u => decide (u.role ≠ 4)) = true ∧
    meets .forceActive (actOf Attr.pairForceActive 0 [0xA5]) ((paired 3 0).set Attr.pairLanes 0 0 0)
      (fun _ u => decide ((u.role = 3 ∨ u.role = 2) ∧ u.n Attr.pairLanes 0 0 % 4 = 0)) = true ∧
    meets .forceActive (actOf Attr.pairForceActive 0 [0xA5]) (paired 3 0)
      (fun _ u => decide (u.n Attr.pairLanes 0 0 % 4 ≠ 0)) = true ∧
    meets .pairEnable (writeOf Attr.pairPairEnable 0 1) (paired 3 0)
      (fun c u => decide ((u.store c).pairEnabled.role = 0 ↔ u.role = 0)) = true ∧
    meets .pairEnable (writeOf Attr.pairPairEnable 0 1) State.reset (fun c u =>
      !decide ((u.store c).pairEnabled.role = 0 ↔ u.role = 0) && match (u.store c).pairEnabled.admits with
       | .no _ => false
       | _ => true) = true ∧
    meets .pairEnable (writeOf Attr.pairPairEnable 0 1) (withMod [0] 1 State.reset) (fun c u =>
      !decide ((u.store c).pairEnabled.role = 0 ↔ u.role = 0) && match (u.store c).pairEnabled.admits with
       | .no _ => true
       | _ => false) = true ∧
    (State.reset.n Attr.pairPairEnable 0 0 = 0 ∧ State.reset.role ≠ 1) ∧
    ((State.reset.set Attr.pairPairEnable 0 0 1).n Attr.pairPairEnable 0 0 = 1 ∧
      (State.reset.set Attr.pairPairEnable 0 0 1).role = 0) := by decide +kernel

/-! ### Witnesses: the fabric and Tongs -/

/-- A read burst of the supervisor's master 0. -/
def readBurst (addr : Nat) : Burst := ⟨0, addr, 32, .read, [], [], 0⟩

/-- A one-byte write of it, and an atomic addition. -/
def writeBurst (addr : Nat) : Burst := ⟨0, addr, 1, .write, [7], [true], 0⟩
def addBurst (addr : Nat) : Burst := ⟨0, addr, 4, .addWrapping, [7, 0, 0, 0], [], 0⟩

/-- A state in which bursts wait, and one in which a march runs. -/
def bursting (l : List Burst) : State := { State.reset with fab := { State.reset.fab with waiting := l } }
def marching (m : March) (s : State) : State := { s with fab := { s.fab with march := some m } }

/-- Who wins a grant at bank 0 to which `l` arrive. -/
def granted (l : List Burst) : Option Cand :=
  let u := State.reset.beforeGrant 0 5 l []
  winner (Store.get 0 u.fab.rr 0) (u.candidates 0)

theorem witness_fabric :
    targetOf (readBurst 0x20000000).addr = none ∧ granted [] = none ∧
    [readBurst 64, writeBurst 64, addBurst 64].all (fun b => (granted [b]).any fun c =>
      c.burst == some { b with waited := 0 }) = true ∧
    ((openedBurst (writeBurst 64) 0).write = true ∧ (openedBurst (writeBurst 64) 0).master ≠ 1 ∧
      (openedBurst (writeBurst 64) 0).data ≠ [] ∧
      (openedBurst (writeBurst 64) 0).addr % 32 + (openedBurst (writeBurst 64) 0).data.length ≤ 32) ∧
    ((openedBurst (readBurst 64) 0).write = false ∧ (openedBurst (readBurst 64) 0).master ≠ 1 ∧
      (openedBurst (readBurst 64) 0).len ≠ 0 ∧
      (openedBurst (readBurst 64) 0).addr % 32 + (openedBurst (readBurst 64) 0).len ≤ 32) ∧
    areaOf 64 = .bank 0 ∧
    opens .marchRun (actOf Attr.memRun 0x100 [257]) State.reset (fun c u => decide (c.arg.toNat % 256 ≤ 91 ∧ c.arg.toNat < 512) &&
      u.fab.march.isNone && (u.marchRefusal (c.arg.toNat % 256) (bit c.arg.toNat 8)).isNone) (address Attr.memRun 0x100) 6 = true ∧
    meets .marchRun (actOf Attr.memRun 0x100 [92]) State.reset (fun c _ => decide (91 < c.arg.toNat % 256)) = true ∧
    meets .marchRun (actOf Attr.memRun 0x100 [512]) State.reset (fun c _ => decide (512 ≤ c.arg.toNat)) = true ∧
    meets .marchRun (actOf Attr.memRun 0x100 [257]) (marching ⟨1, true, 0, 0⟩ State.reset) (fun c u =>
      decide (c.arg.toNat % 256 ≤ 91 ∧ c.arg.toNat < 512) && u.fab.march.isSome) = true ∧
    meets .marchRun (actOf Attr.memRun 0x100 [16]) (placed State.reset) (fun c u => u.fab.march.isNone &&
      (u.marchRefusal (c.arg.toNat % 256) (bit c.arg.toNat 8)).isSome) = true ∧
    State.reset.fab.march = none ∧ (marching ⟨1, true, 0, 0⟩ State.reset).fab.march = some ⟨1, true, 0, 0⟩ ∧
    State.reset.plc.reinstating = none ∧
    ({ State.reset with plc := { State.reset.plc with reinstating := some (3, 0) } } : State).plc.reinstating = some (3, 0) ∧
    firstFailure 1 [⟨0, 0, 0⟩] = none ∧ (firstFailure 1 [⟨0, 0, 0⟩, ⟨1, 5, 2⟩]).isSome = true := by decide +kernel

/-- A module in slot 0 with two event lines from 16, a bank region of 256 bytes at 0x1000 and Tongs channel 0. -/
def ringing : State :=
  let g := readImage (imageOf [0x390000000000] 0 1000)
  let s := State.reset.setMod 0 (Mod.new { g with events := 2, banks := [(false, 256)] } (some 16))
  let s := s.set Attr.tngModuleChannel 0xFFFF 0 0
  { s with
    plc := { s.plc with regions := [⟨.rb 0 0, 0x1000, 256, []⟩] }
    tng := { s.tng with pulses := [17] } }

/-- A descriptor of `n` words of zeros to bank address 0x2000, paced by a line. -/
def zeroDesc (n pace : Nat) : Desc :=
  ⟨leBytes 4 (2 ^ 31 + 128 + 2) ++ leBytes 4 0 ++ leBytes 4 0x2000 ++ leBytes 4 0 ++ leBytes 2 n ++ leBytes 2 1 ++ leBytes 2 n ++
    leBytes 2 1 ++ leBytes 14 0 ++ leBytes 1 pace ++ leBytes 25 0, none⟩

/-- That descriptor as it runs, `k` of its elements moved. -/
def runs (n pace k : Nat) : Running := ⟨zeroDesc n pace, ⟨0, 0, 0, 0⟩, ⟨0x2000, 0, 0, 0⟩, none, none, 0, k, k, [], none, none, none⟩

/-- A state with a channel that runs it. -/
def moving (ch n pace k : Nat) : State := State.reset.setChan ch { State.reset.chan ch with run := some (runs n pace k) }

/-- A state whose channel 0 has a slot waiting, of an address. -/
def slotted (a : Nat) : State := ringing.setChan 0 { ringing.chan 0 with queue := [(a, 0)] }

/-- Whether a slot of channel 0 is taken, and what its descriptor's bytes are. -/
def slotRead (s : State) (a : Nat) (cond : Desc → Bool) : Bool :=
  decide (s.slotTaken 0 0 = some (a, some 0)) && (s.chan 0).run.isNone && !s.low && s.usable a && decide (areaOf a ≠ .hole ∧ a % 64 = 0) &&
    cond ⟨((s.grantTongs a).accessRead a 64).1, some 0⟩

theorem witness_tongs :
    State.reset.tng.pulses.contains 17 = false ∧ ringing.tng.pulses.contains 17 = true ∧ ringing.triggerOf 17 = some (0, 0x1040) ∧
    ((({ ringing with tng := { ringing.tng with pulses := [] } } : State).chan 0).queue.length < 16 ∧
      ringing.n Attr.tngModuleChannel 0xFFFF 0 = 0) ∧
    16 ≤ ((ringing.setChan 0 { ringing.chan 0 with queue := List.replicate 16 (0x1000, 0) }).chan 0).queue.length ∧
    ((moving 12 4 0 0).chan 12).run.isSome = true ∧ (State.reset.chan 0).queue = [] ∧
    ((slotted 0x1000).slotTaken 0 0 = some (0x1000, some 0) ∧ ((slotted 0x1000).chan 0).run = none ∧ (slotted 0x1000).low = false ∧
      (groupOf 0x1000).any (fun g => !(marching ⟨g, true, 0, 0⟩ (slotted 0x1000)).usable 0x1000) = true) ∧
    ((slotted 0x20000000).slotTaken 0 0 = some (0x20000000, some 0) ∧ areaOf 0x20000000 = .hole ∧
      (slotted 0x20000000).usable 0x20000000 = true) ∧
    ((slotted 0x1004).slotTaken 0 0 = some (0x1004, some 0) ∧ areaOf 0x1004 ≠ .hole ∧ (slotted 0x1004).usable 0x1004 = true) ∧
    slotRead (slotted 0x1000) 0x1000 (fun d => !bit d.ctrl 31) = true ∧
    slotRead ((slotted 0x1000).writeBytes 0x1000 (zeroDesc 4 0).bytes) 0x1000 (fun d => bit d.ctrl 31) = true ∧
    State.reset.slotTaken 14 64 = some (64, none) ∧
    (State.reset.checkDesc (zeroDesc 0 0) 12).toOption = none ∧ (State.reset.checkDesc (zeroDesc 4 0) 12).toOption.isSome = true ∧
    (State.reset.chan 12).run = none ∧
    (((moving 12 4 0 3).chan 12).run = some (runs 4 0 3) ∧ (runs 4 0 3).k < (runs 4 0 3).desc.count) ∧
    (((moving 12 4 0 4).chan 12).run = some (runs 4 0 4) ∧ (runs 4 0 4).desc.count ≤ (runs 4 0 4).k ∧
      (moving 12 4 0 4).writeOut 12 = false) ∧
    ({ moving 12 4 0 4 with tng := { (moving 12 4 0 4).tng with
        issued := [⟨0, 1, 12, 0, none, 0x2000, true, [some 0], 1, 1, [], 0, 0⟩] } } : State).writeOut 12 = true := by
  decide +kernel

/-! ### Witnesses: Anvil -/

/-- Whether the core fetches `i` and ends it within the meter in `cost` cycles, where `cond` holds of its module and registers. -/
def goes (i : Instr) (needs : Hazard) (cost : Nat := 1) (next : Option Nat := none)
    (cond : AEnv → CoreSt → Bool := fun _ _ => true) (f : CoreSt → CoreSt := id) : Bool :=
  match encodeAnvil i with
  | none => false
  | some w =>
    let s := onCore w f
    match s.runs 0 with
    | none => false
    | some (m, md) =>
      let r : Ran := { k := s.regsAt 0, cost := cost, next := next }
      decodeAnvil 0 (s.core 0).pc (s.fetchWord 0 md).1 == some i && cond (s.aenv 0 m md) (s.regsAt 0) &&
        decide ((s.core 0).meter + s.cyclesOf 0 needs r ≤ s.limitOf md.image ∧ (s.coreAfter 0 needs r).pc < md.image.sp)

/-- What a format P instruction costs does not depend on its arithmetic. -/
theorem fitsMeter_arith (s : State) (c : Nat) (md : Mod) (needs : Hazard) (e : AEnv) (mv : Moves) (x y : Option MoveDone)
    (a : Arith) (k l : CoreSt) : s.fitsMeter c md needs (e.retireP mv x y a k) ↔ s.fitsMeter c md needs { k := l } := Iff.rfl

/-- A read of X through P0 into V0 and a write of Y through P1 from B. -/
def bothMoves : Moves := ⟨some ⟨false, 0, 1, 0⟩, some ⟨true, 1, 1, 5⟩⟩

/-- Whether a format P instruction runs: its moves meet no bound. -/
def goesP (i : Instr) (mv : Moves) : Bool :=
  goes i (movesNeed mv) (cond := fun e k => (e.move k false mv.x).toOption.isSome && (e.move k true mv.y).toOption.isSome)

theorem witness_anvil_arithmetic :
    [fun mv => Instr.nop 0 mv, (.mul 0 0 1 2 false ·), (.mac 0 3 0 0 true ·), (.mul2 0 0 1 2 3 0 false true ·),
     (.mac2 0 0 1 2 3 0 true true ·), (.dmul 0 0 1 1 2 3 0 false false ·), (.dmac 0 2 3 1 2 3 0 true false ·),
     (.macrn 0 0 1 2 false ·), (.add 0 0 1 ·), (.sub 0 0 0 ·), (.addsub 0 0 3 ·), (.addx 0 0 1 ·), (.subx 0 0 1 ·),
     (.mova 0 0 1 ·), (.clr 0 0 ·), (.neg 0 0 ·), (.abs 0 0 ·), (.max 0 0 1 ·), (.min 0 0 1 ·), (.cmp 0 0 1 ·),
     (.cmpx 0 0 1 ·), (.tst 0 3 ·), (.rnd 0 0 ·), (.scalei 0 0 0x80 ·), (.scaler 0 0 1 ·), (.norm 0 0 1 ·), (.divs 0 0 1 ·),
     (.bexp 0 3 ·), (.andx 0 0 1 ·), (.orx 0 0 1 ·), (.xorx 0 0 1 ·)].all
      (fun f => goesP (f bothMoves) bothMoves && goesP (f ⟨none, none⟩) ⟨none, none⟩) = true := by decide +kernel

/-- A core with a stack. -/
def stacked (l : List StackEntry) (k : CoreSt) : CoreSt := { k with stack := l }

theorem witness_anvil_control :
    goes (.ldi 0 3 7) noNeeds = true ∧ goes (.move 0 4 7) (sourceNeeds 7) = true ∧ goes (.move 0 0 7) (sourceNeeds 7) = true ∧
    goes (.movc 0 0 1) noNeeds (cond := fun e k => (e.control k 1).isSome) = true ∧
    goes (.ldx 0 0 63) noNeeds (cond := fun e _ => decide (63 < e.bound false)) = true ∧
    goes (.ldy 0 0 15) noNeeds (cond := fun e _ => decide (15 < e.bound true)) = true ∧
    goes (.stx 0 5 63) (sourceNeeds 5) (cond := fun e k => (storeAbs false 5 63 e k).toOption.isSome) = true ∧
    goes (.sty 0 5 15) (sourceNeeds 5) (cond := fun e k => (storeAbs true 5 15 e k).toOption.isSome) = true ∧
    goes (.lea 0 2 0xFFFF) { regs := [22, 38], accs := [], flags := false } = true ∧ goes (.addi 0 0 1) noNeeds = true ∧
    goes (.cmpi 0 0 1) noNeeds = true ∧
    goes (.bra 0 0 63) (condNeeds 0) 2 (some 63) (fun _ k => condHolds k.sr 0) = true ∧
    goes (.bra 0 1 63) (condNeeds 1) (cond := fun _ k => !condHolds k.sr 1) = true ∧
    goes (.call 0 0 63) (condNeeds 0) 2 (some 63) (fun _ k => condHolds k.sr 0 && decide (k.stack.length < 4))
      (stacked [.ret 1, .ret 2, .ret 3]) = true ∧
    goes (.ret 0 0) (condNeeds 0) 2 (some 9) (fun _ k => condHolds k.sr 0 && k.stack == [.ret 9]) (stacked [.ret 9]) = true ∧
    goes (.loop 0 20 0) noNeeds 2 (some 21) = true ∧
    goes (.loop 0 20 5) noNeeds 2 none (fun _ k => decide (k.stack.length < 4)) (stacked [.ret 1, .ret 2, .ret 3]) = true ∧
    goes (.loopr 0 20 1) noNeeds 2 none (fun _ k => decide ((k.source 1).1.toNat % 65536 = 5 ∧ k.stack.length < 4))
      (fun k => k.setV 1 5) = true ∧
    goes (.loopn 0 20) noNeeds 2 none (fun e k => decide (e.n ≠ 0 ∧ k.stack.length < 4)) = true ∧
    goes (.breakOp 0) noNeeds 1 (some 9) (fun _ k => k.stack == [.loop 1 8 4]) (stacked [.loop 1 8 4]) = true ∧
    goes (.evwait 0 0) noNeeds 1 none (fun e k => (e.line 0).any fun l => Store.get false k.latch l)
      (fun k => { k with latch := [(16, true)] }) = true ∧
    goes (.evwait 0 0) noNeeds 0 none (fun e k => (e.line 0).any fun l => !Store.get false k.latch l) = true ∧
    goes (.evpulse 0 0) noNeeds (cond := fun e _ => (e.line 0).isSome) = true ∧
    goes (.release 0) noNeeds (cond := fun _ k => k.wbuf == [] && k.todo == []) = true ∧
    (onCore 0).onTrial 0 = false ∧
    goes (.release 0) noNeeds (cond := fun _ k => k.wbuf != []) (f := fun k => { k with wbuf := [(0x1000, 5)] }) = true := by
  decide +kernel

/-- What a remote access of accumulator 1 waits for. -/
def remoteNeeds : Hazard := { regs := [], accs := [1], flags := false }

/-- Whether a word of the scratch banks may be reached, and moves to no place of its own. -/
def bankWordOk (s : State) (a : Nat) : Bool := decide (a + 4 ≤ 0x400000) &&
  (List.range 4).all fun i => (List.range 4).all fun j => s.copyAt (a + i) != some (a + j)

/-- Core 0 with these posted writes. -/
def posting (l : List (Nat × BitVec 32)) (k : CoreSt) : CoreSt := { k with wbuf := l }

/-- Whether a remote access, of the operands given, runs at word `a` with what it meets on the way, waiting `wait` cycles. -/
def goesRemote (i : Instr) (needs : Hazard) (rb ix xr off a : Nat) (atomic : Bool) (gates : List Gate) (wait : Nat)
    (l : List (Nat × BitVec 32)) : Bool :=
  goes i needs (16 + wait) (f := posting l) (cond := fun e k =>
    (e.remote k (BitVec.ofNat 3 rb).toFin (ix == 1) (BitVec.ofNat 2 xr).toFin (BitVec.ofNat 18 off)).toOption == some a) &&
  (match encodeAnvil i with
   | none => false
   | some w =>
     let s := onCore w (posting l)
     decide (s.waitAt 0 a atomic gates = wait ∧ (s.core 0).wbuf.length ≤ 4) && bankWordOk s a &&
       (s.core 0).wbuf.all fun x => bankWordOk s x.1)

theorem witness_remote_accesses :
    [[], [(0x1000, 5), (0x1004, 6)]].all (fun l =>
      goesRemote (.remoteRead 0 [] [] 0 1 false 0 252) noNeeds 0 0 0 252 0x10FC false [] 0 l &&
      goesRemote (.atomicAddWrapping 0 [] [] 0 1 false 0 0) remoteNeeds 0 0 0 0 0x1000 true [] 0 l &&
      goesRemote (.atomicAddSaturating 0 [] [] 0 1 true 2 4) remoteNeeds 0 1 2 4 0x1004 true [] 0 l &&
      goesRemote (.atomicSwap 0 [] [] 0 1 false 0 8) remoteNeeds 0 0 0 8 0x1008 true [] 0 l) = true ∧
    goesRemote (.atomicSwap 0 [] [] 0 1 false 0 8) remoteNeeds 0 0 0 8 0x1008 true [⟨[46, 47], some ⟨1, false⟩⟩] 1 [] = true ∧
    goes (.remoteWrite 0 [] [] 0 1 false 0 252) remoteNeeds (cond := fun e k =>
      (e.remote k 0 false 0 252).toOption == some 0x10FC && decide (k.wbuf.length < 4)) = true ∧
    goes (.remoteWrite 0 [] [] 0 1 false 0 252) remoteNeeds 2 (f := posting (List.replicate 4 (0x1000, 5))) (cond := fun e k =>
      (e.remote k 0 false 0 252).toOption == some 0x10FC && decide (k.wbuf.length = 4)) = true ∧
    (let s := onCore 0 (posting (List.replicate 4 (0x1000, 5)))
     (s.gateServe 0 [(0x1000, false)] []).1 == 0 && bankWordOk s 0x1000) = true := by decide +kernel

theorem witness_sequencer_events :
    goes (.ldx 0 0 64) noNeeds (cond := fun e _ => decide (e.bound false ≤ 64)) = true ∧
    goes (.sty 0 0 16) noNeeds (cond := fun e _ => decide (e.bound true ≤ 16)) = true ∧
    goes (.call 0 0 63) noNeeds (cond := fun _ k => condHolds k.sr 0 && decide (4 ≤ k.stack.length))
      (f := stacked [.ret 1, .ret 2, .ret 3, .ret 4]) = true ∧
    goes (.movc 0 0 0xFF) noNeeds (cond := fun e k => (e.control k 0xFF).isNone) = true ∧
    ((onCore 0).runs 0).any (fun m => (decodeAnvil 0 ((onCore 0).core 0).pc ((onCore 0).fetchWord 0 m.2).1).isNone) = true ∧
    State.reset.runs 0 = none ∧
    (((onCore 0 fun k => { k with meter := 1000 }).core 0).run = some 0 ∧
      ((onCore 0 fun k => { k with meter := 1000 }).mod? 0).any (fun md =>
        decide ((onCore 0).limitOf md.image ≤ ((onCore 0 fun k => { k with meter := 1000 }).core 0).meter)) = true) ∧
    (State.reset.core 0).run = none ∧ ((onCore 0 fun k => { k with blockOver := true }).core 0).blockOver = true ∧
    ((onCore 0).core 0).blockOver = false ∧
    (let k := (onCore 0 fun k => { k with stall := some 16, latch := [(16, true)] }).core 0
     k.run == some 0 && k.stall == some 16 && Store.get false k.latch 16 && decide (k.meter + Nat.max 1 999 ≤ 1000 ∧ k.pc < 64 ∧
       k.meter < 1000 ∧ 1000 < k.meter + Nat.max 1 1001)) = true ∧
    (let k := (onCore 0 fun k => { k with stall := some 16 }).core 0
     k.stall == some 16 && !Store.get false k.latch 16) = true ∧
    ((onCore 0).core 0).stall = none ∧ ((onCore 0 fun k => { k with draining := true }).core 0).draining = true ∧
    ((onCore 0).core 0).draining = false := by decide +kernel

/-- A core whose posted writes drain, with a meter. -/
def draining (meter : Nat) (l : List (Nat × BitVec 32)) : State :=
  onCore 0 fun k => { k with draining := true, meter := meter, wbuf := l }

theorem witness_output_released :
    ((draining 0 [(0x1000, 5)]).core 0).run = some 0 ∧ ((draining 0 [(0x1000, 5)]).core 0).draining = true ∧
    (let s := draining 0 [(0x1000, 5)]
     (s.mod? 0).any fun md => decide ((s.core 0).meter < s.limitOf md.image ∧
       (s.core 0).meter + ((s.core 0).wbuf.length + (s.gateServe 0 (s.core 0).postedAccesses []).1) ≤ s.limitOf md.image)) = true ∧
    (let s := draining 999 [(0x1000, 5), (0x1004, 6)]
     (s.mod? 0).any fun md => decide ((s.core 0).meter < s.limitOf md.image ∧
       s.limitOf md.image < (s.core 0).meter + ((s.core 0).wbuf.length + (s.gateServe 0 (s.core 0).postedAccesses []).1))) = true := by
  decide +kernel

/-! ### Witnesses: steps, memory, words and samples -/

theorem witness_idle_step : State.reset.pending = [] := by decide

/-- A step and an instruction that answer a next state, from a memory in canonical form that is not empty. -/
theorem witness_memory_canonical :
    let w : Word48 := BitVec.ofNat 48 (1 * 2 ^ 44)
    let s : State := onCore w fun k => { k with x := [(3, 0x123456)] }
    let i := Instr.nop 0 ⟨none, none⟩
    (encodeAnvil i).isSome = true ∧ s.memoryWf = true ∧ (after i s).any (fun t => t.memoryWf) = true ∧
      (match step { s with pending := [i] } with
        | .next t => t.pending == [] && (t.core 0).pc == (s.core 0).pc + 1 && t.memoryWf
        | _ => false) = true := by decide +kernel

theorem witness_word_round_trip :
    let i := Instr.mac 5 1 0 2 false ⟨none, some ⟨false, 4, 1, 2⟩⟩
    i.wf = true ∧ i.spelledAt 5 9 = true ∧ encodeAnvil i = some 0x11210000030A#48 ∧
      decodeAnvil 5 9 0x11210000030A#48 = some i := by decide +kernel

/-- A word for each way to be undefined: class, format P, format I, format B, remote (R274). -/
theorem witness_undefined_words :
    let word (l : List (Nat × Nat)) : Word48 := BitVec.ofNat 48 ((l.map fun e => e.1 * 2 ^ e.2).sum)
    let f := wordField
    let p := [word [(1, 44), (0x1F, 39)], word [(1, 44), (1, 22)], word [(1, 44), (3, 20)], word [(1, 44), (3, 9)],
      word [(1, 44), (1, 20), (6, 14)], word [(1, 44), (2, 9), (7, 3)]]
    let q := [word [(1, 44), (5, 39)], word [(1, 44), (6, 39), (3, 37), (3, 35)], word [(1, 44), (0xA, 39), (1, 37), (1, 35)]]
    let r := [word [(2, 44), (0xA, 40)], word [(2, 44), (1, 24)], word [(2, 44), (4, 40), (45, 34)],
      word [(2, 44), (5, 40), (47, 28)]]
    let b := [word [(3, 44), (0xA, 40)], word [(3, 44), (1, 30)], word [(3, 44), (15, 35)], word [(3, 44), (3, 40), (1, 35)],
      word [(3, 44), (4, 40), (9, 16)]]
    let m := [word [(4, 44), (5, 40)], word [(4, 44), (1, 18)]]
    f (word []) 44 4 = 0 ∧ f (word [(5, 44)]) 44 4 = 5 ∧ (p ++ q).all (fun w => f w 44 4 == 1) = true ∧
      r.all (fun w => f w 44 4 == 2) = true ∧ b.all (fun w => f w 44 4 == 3) = true ∧ m.all (fun w => f w 44 4 == 4) = true ∧
      (word [] :: word [(5, 44)] :: p ++ q ++ r ++ b ++ m).all (fun w => (decodeAnvil 0 9 w).isNone) = true ∧
      (decodeAnvil 0 9 (word [(3, 44), (4, 40), (10, 16)])).isSome = true := by decide +kernel

/-- The first and last byte of each region (R276, R277). -/
theorem witness_regions :
    areaOf 0 = .bank 0 ∧ areaOf 0x3FFFFF = .bank 15 ∧ areaOf 0x400000 = .hole ∧ areaOf 0x60000000 = .temper ∧
      areaOf 0x60FFFFFF = .temper ∧ areaOf 0x61000000 = .hole ∧ areaOf 0x70000000 = .control ∧ areaOf 0x7FFFFFFF = .control ∧
      areaOf (deepBase - 1) = .hole := by
  decide +kernel

theorem witness_deep_memory : areaOf deepBase = .deep ∧ areaOf (deepBase + usableBytes) = .hole := by
  have h : 0 < usableBytes ∧ deepBase = 34359738368 := by
    unfold usableBytes fittedBytes
    refine ⟨?_, rfl⟩
    have h : Config.fittedCode % 3 = 0 ∨ Config.fittedCode % 3 = 1 ∨ Config.fittedCode % 3 = 2 := by omega
    rcases h with h | h | h <;> rw [h] <;> decide
  unfold areaOf
  simp only [h.2]
  constructor <;> (repeat' split) <;> first | rfl | omega

theorem witness_accumulator_limits :
    (arFlags 36028797018963967 false).2.aov = false ∧ (arFlags 36028797018963968 false).2.aov = true ∧
      (arFlags (-36028797018963968) false).2.aov = false ∧ (arFlags (-36028797018963969) false).2.aov = true := by
  decide +kernel

/-- A sample outside every strike, and one inside the one that runs. -/
theorem witness_strike_samples :
    inRun.strikes.all (fun k => decide ¬ (k.first ≤ 480 + 3 ∧ 480 + 3 < k.first + k.len)) = true ∧
    (striking ⟨0, 481, 240, 0⟩).strikes = [⟨0, 481, 240, 0⟩] ∧ 481 ≤ 480 + 3 ∧ 480 + 3 < 481 + 240 ∧
    (2 * ((262144 : Int) - 0 * 524288)).natAbs = 524288 := by decide +kernel

/-- A byte whose place moves, with its second copy in another bank. -/
theorem witness_second_copy :
    (let s := planning [⟨[.region (.rb 0 0) 64], 0, none, []⟩] inRun
     ({ s with plc := { s.plc with regions := [⟨.rb 0 0, 0x40000, 64, [64]⟩], copied := true } } : State).copyAt 0x40005 = some 69) ∧
    areaOf 69 = .bank 0 ∧ areaOf 0x40005 = .bank 1 := by decide +kernel

theorem witness_monitor_boundaries :
    (500 < (501 : Int).natAbs ∧ 500 < (-501 : Int).natAbs) ∧ inRun.hlt.px.contains 3 = false ∧
      Store.get 0 (inRun.tempOne 2 10500).hlt.hot 2 = 1 ∧ Store.get 0 (inRun.tempOne 2 10499).hlt.hot 2 = 0 := by decide +kernel

/-! ### Known answers: the spec's worked examples and public check values -/

/-- The check value of CRC-32 as R437 parameterises it. -/
theorem test_crc : crc32 ("123456789".toList.map fun c => byteOf c.toNat) = 0xCBF43926 := by decide +kernel

/-- SHA-256 of "abc", from FIPS 180-4. -/
theorem test_sha : (sha256 (["a", "b", "c"].flatMap fun t => t.toList.map fun c => byteOf c.toNat)).take 4 =
    [0xBA, 0x78, 0x16, 0xBF] := by decide +kernel

/-- One gain in three forms: −6.02 dB is code 262,162 and reads −602. -/
theorem test_gain_forms : codeOfCdb (-602) = 262162 ∧ cdbOfCode 262162 = -602 ∧ gainStage 262162 0x400000 = (0x200090, 0) := by
  decide +kernel

/-- One sample inside a strike, under both laws, with S the source plane's sum and T the target's. -/
theorem test_strike_sample :
    (let w := weights 0 59 240
     w = (6291456, 2097152) ∧ roundEven (w.1 * 2 ^ 38 + w.2 * 2 ^ 39) 42 = 655360) ∧
    (let w := weights 1 59 240
     w = (7750063, 3210181) ∧ roundEven (w.1 * 2 ^ 38 + w.2 * 2 ^ 39) 42 = 885652) := by decide +kernel

/-- One sample of a fader move, in the three shapes, and its last sample. -/
theorem test_fader_sample :
    rampGain 0 0x80000 0x20000 119 240 = 327680 ∧ rampGain 1 0x80000 0x20000 119 240 = 463410 ∧
      rampGain 2 0x80000 0x20000 119 240 = 262144 ∧ rampGain 2 0x80000 0x20000 239 240 = 0x20000 := by decide +kernel

/-- Quench on one frame. -/
theorem test_quench :
    let xs : List Int := [4000000, 6000000, 8000000, 12000000, 14000000, 16777216, 10000000, 4000000]
    let r := quenchFrame 8 3495 8388608 (quenchNeeds 8388607 xs) xs
    quenchCeiling 0 = 8388607 ∧ quenchRelease 100000 48000 = 3495 ∧ r.1 = 4196049 ∧ r.2.getD 5 0 = 8388606 ∧
      r.2.getD 4 0 = 7874998 := by decide +kernel

/-- A sum that leaves the guard bits: the limit, the second product, and the stored word. -/
theorem test_guard_bits :
    let a := arFlags (accInt (0x7FE00000000000 : Word56) + product 0xC00000 0x800000) false
    let b := arFlags (accInt a.1 + product 0x400000 0x800000) false
    a.1 = 0x7FFFFFFFFFFFFF ∧ (a.2.l = true ∧ a.2.aov = true ∧ a.2.e = true) ∧ b.1 = 0x7FBFFFFFFFFFFF ∧
      (b.2.l = false ∧ b.2.aov = false) ∧ roundedStore false b.1 = (0x7FFFFF, true) := by decide +kernel

/-- The first two steps of a division of 0.25 by 0.75. -/
theorem test_division :
    let one := divStep ((1048576 : BitVec 32) ++ (0 : BitVec 24)) 0x600000
    let two := divStep one.1 0x600000
    ((one.1.extractLsb' 24 32).toInt = -4194304 ∧ one.1.extractLsb' 0 1 = 0) ∧
      (two.1.extractLsb' 24 32).toInt = -2097152 ∧ two.1.extractLsb' 0 1 = 0 := by decide +kernel

/-- The example frame of a timed fader write: parsed, with its ramp time, its time base and its value. -/
theorem test_frame :
    let head : List Nat := [0x59, 0x47, 1, 0, 0x11, 0, 1, 0, 0, 1, 0xC0, 5, 0x22, 0, 0, 0, 2, 5, 0, 0, 0x11, 5, 0, 0x30,
      0, 0, 0, 0, 0, 0, 0, 0, 0x20, 0x4E, 0, 0, 2, 0, 0, 0, 7, 0, 0, 0, 0, 0, 0, 0, 0xA8, 0xFD]
    let body := head.map byteOf
    (match parseFrame 1 7 (body ++ leBytes 4 (crc32 body)) with
      | some q => q.dst == 17 && q.src == 1 && q.cls == 0x30 && q.inst == 5 && q.attr == 0x11 && q.op == 2 &&
          q.ramp == some 20000 && q.data == [0xA8, 0xFD] && q.when_ == some ⟨2, 7⟩
      | none => false) = true := by decide +kernel

/-- The output balls after reset (R592): ACTIVE and ALERT high, HOST_RDY, PWR_OFF, the silence and test balls low, a disabled
port's laser off; and in OFF (R593). -/
theorem test_balls :
    let s := State.reset
    let off : State := { s with pow := { s.pow with pwrOff := true } }
    (s.level .active = .high ∧ s.level .alert = .high ∧ s.level .hostRdy = .low ∧ s.level .pwrOff = .low ∧
      s.level (.sil 3) = .low ∧ s.level (.tmux 0) = .low ∧ s.level (.sfpTxDis 1) = .high) ∧
    off.level (.sil 3) = .highZ ∧ off.level (.tmux 0) = .low ∧ off.level .pwrOff = .high ∧ off.level .active = .high := by
  decide +kernel

/-- Balls of the package, one in each kind of region (R583 to R589), and two of their names (R582). -/
theorem test_ball_map :
    ballAt 3 30 = .ddrDq 1 13 ∧ ballAt 7 20 = .vss ∧ ballAt 19 45 = .sapDo 21 ∧ ballAt 31 43 = .hostCs ∧
      ballAt 46 19 = .sdsRxp 2 ∧ ballAt 24 21 = .vddCore ∧ ballAt 46 43 = .sdsCal ∧ ballName 1 1 = "A1" ∧
      ballName 46 43 = "BH43" := by decide +kernel

/-- The table of ball totals (R590), for the supplies, ground and the balls left open. -/
theorem test_ball_totals :
    [Ball.vddCore, .vddSram, .vddaSds, .vddtSds, .vddDdrc, .vddqDdr, .vddIo18, .vddIo33, .vss, .dnc].map ballCount =
      [462, 132, 36, 12, 36, 24, 32, 6, 1008, 3] := by decide +kernel

end Sys2Proof.Tests
end

/-! ### BLOCK_TICK

Its cases, at an entry of bring-up, and with the tick running or stopped (R12, R536, R539). -/

section
namespace Sys2Proof.Machine

variable {s : State}

/-- BLOCK_TICK answers with its meaning. -/
@[simp] theorem exec_blockTick (count : Nat) (latch : List Nat) (s : State) :
    exec (.blockTick count latch) s = .next (blockTick count latch s) := rfl

/-! ### When a tick comes -/

theorem State.atEntry_eq_false_of_ticking (h : s.ticking = true) : s.atEntry = false := by
  simp [State.atEntry, h]

theorem State.ticking_eq_false_of_atEntry (h : s.atEntry = true) : s.ticking = false := by
  cases ht : s.ticking with
  | false => rfl
  | true => simp [State.atEntry_eq_false_of_ticking ht] at h

/-- `tickComes` as the one test that BLOCK_TICK makes. -/
theorem tickComes_iff (count : Nat) : tickComes s count ↔
    s.ticking = true ∧ count % s.eng.cfg.n = 0 ∧
      (if s.eng.frames = 0 then s.eng.count < count else count = s.eng.count + s.eng.cfg.n) := by
  unfold tickComes
  by_cases hf : s.eng.frames = 0 <;> simp [hf]

/-! ### The cases of BLOCK_TICK -/

/-- At the next multiple of N a running tick does its work (R12). -/
theorem blockTick_of_tickComes {count : Nat} (latch : List Nat) (h : tickComes s count) :
    blockTick count latch s = s.tick count latch := by
  obtain ⟨hrun, hmod, hnext⟩ := (tickComes_iff count).mp h
  have hentry := State.atEntry_eq_false_of_ticking hrun
  by_cases hf : s.eng.frames = 0
  · simp only [hf, if_true] at hnext
    simp [blockTick, hentry, hrun, hmod, hf, hnext]
  · simp only [hf, if_false] at hnext
    simp [blockTick, hentry, hrun, hf, ← hnext, hmod]

/-- Away from an entry of bring-up nothing happens at any other count, nor with the tick stopped. -/
theorem blockTick_of_not_tickComes {count : Nat} (latch : List Nat) (hentry : s.atEntry = false)
    (h : ¬ tickComes s count) : blockTick count latch s = s := by
  rw [tickComes_iff] at h
  by_cases hf : s.eng.frames = 0 <;> simp_all [blockTick]

/-- At the entry of bring-up a fault stops it; else the first multiple of N without a wait enters RUN (R536, R539). -/
theorem blockTick_of_atEntry (count : Nat) (latch : List Nat) (hentry : s.atEntry = true) :
    blockTick count latch s =
      if s.bringUpFault = true then s.stopBringUp
      else if s.entryWaits = false ∧ s.blk ≤ count ∧ count % s.blk = 0 then (s.enterRun count).tick count latch
      else s := by
  simp [blockTick, hentry, State.ticking_eq_false_of_atEntry hentry]

/-! ### The count of the ticks (R37) -/

/-- The engine's own fields hold no attribute. -/
theorem State.n_with_eng (s : State) (e : Eng) (code inst elem : Nat) :
    ({ s with eng := e } : State).n code inst elem = s.n code inst elem := rfl

theorem State.countTick_frames (s : State) :
    s.countTick.eng.frames = ((s.event 0x0F0).noteUses.laneEvents).eng.frames + 1 := by
  unfold State.countTick
  generalize ((s.event 0x0F0).noteUses).laneEvents = u
  rfl

theorem State.countTick_engBlockCount (s : State) :
    s.countTick.n Attr.engBlockCount 0 0 = ((s.event 0x0F0).noteUses.laneEvents).n Attr.engBlockCount 0 0 + 1 := by
  unfold State.countTick
  generalize ((s.event 0x0F0).noteUses).laneEvents = u
  exact (State.n_with_eng _ _ _ _ _).trans (State.n_set_self u _ _ _ _)

end Sys2Proof.Machine

open Sys2Proof Sys2Proof.Machine

/-- Settles O28: the cases of BLOCK_TICK, with the parts of a tick as the model defines them. -/
theorem ticksComeAtMultiplesOfN : Obligations.TicksComeAtMultiplesOfN := by
  unfold Obligations.TicksComeAtMultiplesOfN
  refine ⟨?comes, ?otherCount, ?stopped, ?fault, ?enters, ?waits, ?opens, ?snapshot, ?counted⟩
  case comes =>
    intro s count latch h
    rw [exec_blockTick, blockTick_of_tickComes latch h]
    rfl
  case otherCount =>
    intro s count latch hrun h
    rw [exec_blockTick, blockTick_of_not_tickComes latch (State.atEntry_eq_false_of_ticking hrun) h]
  case stopped =>
    intro s count latch hstop hentry
    have h : ¬ tickComes s count := fun hc => by simp [hc.1] at hstop
    rw [exec_blockTick, blockTick_of_not_tickComes latch hentry h]
  case fault =>
    intro s count latch hentry hfault
    rw [exec_blockTick, blockTick_of_atEntry count latch hentry, if_pos hfault]
  case enters =>
    intro s count latch hentry hfault hwait hblk hmod
    rw [exec_blockTick, blockTick_of_atEntry count latch hentry, if_neg (by simp [hfault]),
      if_pos ⟨hwait, hblk, hmod⟩]
    rfl
  case waits =>
    intro s count latch hentry hfault hwait
    have hno : ¬ (s.entryWaits = false ∧ s.blk ≤ count ∧ count % s.blk = 0) := by
      rintro ⟨hw, hblk, hmod⟩
      rcases hwait with hw' | hlt | hne
      · simp [hw] at hw'
      · omega
      · exact hne hmod
    rw [exec_blockTick, blockTick_of_atEntry count latch hentry, if_neg (by simp [hfault]), if_neg hno]
  case opens => exact fun _ _ => rfl
  case snapshot => exact fun _ => rfl
  case counted => exact fun s => ⟨s.countTick_frames, s.countTick_engBlockCount⟩
end

/-! ### Writes of the declared topology

A write that a frame brings goes to admission as it is stored, and what admission answers decides (R30, R187 to R190). -/

section
namespace Sys2Proof.Machine

variable {s t w : State} {o : Nat} {e : List (Nat × Int)} {p : Place} {r l : List PMove}

/-! ### The refusals of a change of topology -/

/-- A change that admission does not take is refused with its code. -/
theorem admitChange_no {code : Nat} (h : t.admits = .no code) : admitChange s t o e = refuse code := by
  simp only [admitChange, h]

/-- A change whose moves have no order in which every state on the way passes is refused (R189). -/
theorem admitChange_noOrder (hrun : s.ticking = true) (h : t.admits = .plan p r w) (horder : s.orderTo t p = none) :
    admitChange s t o e = refuse rAdmission := by
  simp only [State.orderTo] at horder
  split at horder
  case isTrue hstands => simp only [admitChange, h, hrun, hstands, horder, not_true, if_false]
  case isFalse hstands => simp [admitChange, h, hrun, hstands]

/-- A change that needs moves is refused where no plan or ticket is free. -/
theorem admitChange_moved_busy (hrun : s.ticking = true) (h : t.admits = .plan p r w)
    (horder : s.orderTo t p = some l) (hbusy : w.addPlan o p (l ++ r) e = none) :
    admitChange s t o e = refuse rBusy := by
  simp only [State.orderTo] at horder
  split at horder
  case isTrue hstands => simp only [admitChange, h, hrun, hstands, horder, hbusy, not_true, if_false]
  case isFalse => cases horder

/-- A change behind a plan that changes the topology is refused where no plan or ticket is free. -/
theorem admitChange_behind_busy (hrun : s.ticking = true) (h : t.admits = .inc p w)
    (hplan : (s.plc.plans.any fun x => decide (x.effect ≠ [])) = true) (hbusy : w.addPlan o p [] e = none) :
    admitChange s t o e = refuse rBusy := by
  have hall : s.plc.plans.all (fun x => decide (x.effect = [])) = false := by
    simpa [← List.not_all_eq_any_not] using hplan
  simp only [admitChange, h, hrun, hall, hbusy, not_true, if_false, Bool.false_eq_true]

/-! ### From admission to the rows -/

/-- A write that a frame brings goes to admission with what it stores. -/
theorem admitWrite_fresh {c : Ctx} {u : State} (hdue : c.due = none) (hnow : c.atOnce = false) :
    admitWrite c u = admitChange u (u.store c) (address c.code c.q.inst) (u.undo c) := by
  simp [admitWrite, hdue, hnow]

/-- A row whose effect is an admitted write, where `may` allows it, changes the declared topology. -/
theorem changesTopology_of_admitWrite {mk : Req → Instr} {row : Row} {may : Ctx → State → Prop} {eff : Effect}
    (hx : ∀ q s, exec (mk q) s = .next (serve row eff q s))
    (he : ∀ c u, c.atOnce = false → may c u → eff c u = admitWrite c u) : ChangesTopology mk row may := by
  have hchange : ∀ c u, c.due = none → c.atOnce = false → may c u →
      eff c u = admitChange u (u.store c) (address c.code c.q.inst) (u.undo c) :=
    fun c u hdue hnow hmay => (he c u hnow hmay).trans (admitWrite_fresh hdue hnow)
  refine ⟨?placed, ?moved, ?behind, ?movedBusy, ?behindBusy, ?noOrder, ?refused⟩
  case placed =>
    refine performs_of_effect hx fun c u hdue _ hnow _ ⟨hmay, hplaced⟩ => ?_
    rw [he c u hnow hmay, admitWrite_ok hdue hnow hplaced]
    rfl
  case moved =>
    intro p r w l k t
    refine performs_of_effect hx fun c u hdue _ hnow _ ⟨hmay, ⟨hrun, hadm, horder⟩, hplan⟩ => ?_
    rw [hchange c u hdue hnow hmay, admitChange_moved hrun hadm horder hplan]
    rfl
  case behind =>
    intro p w k t
    refine performs_of_effect hx fun c u hdue _ hnow _ ⟨hmay, ⟨hrun, hadm, hbehind⟩, hplan⟩ => ?_
    rw [hchange c u hdue hnow hmay, admitChange_behind hrun hadm hbehind hplan]
    rfl
  case movedBusy =>
    intro p r w l
    refine refuses_of_effect hx fun c u hdue _ hnow _ ⟨hmay, ⟨hrun, hadm, horder⟩, hbusy⟩ => ?_
    rw [hchange c u hdue hnow hmay, admitChange_moved_busy hrun hadm horder hbusy]
  case behindBusy =>
    intro p w
    refine refuses_of_effect hx fun c u hdue _ hnow _ ⟨hmay, ⟨hrun, hadm, hbehind⟩, hbusy⟩ => ?_
    rw [hchange c u hdue hnow hmay, admitChange_behind_busy hrun hadm hbehind hbusy]
  case noOrder =>
    intro p r w
    refine refuses_of_effect hx fun c u hdue _ hnow _ ⟨hmay, hrun, hadm, horder⟩ => ?_
    rw [hchange c u hdue hnow hmay, admitChange_noOrder hrun hadm horder]
  case refused =>
    intro code
    refine refuses_of_effect hx fun c u hdue _ hnow _ ⟨hmay, hadm⟩ => ?_
    rw [hchange c u hdue hnow hmay, admitChange_no hadm]

/-! ### What is refused before admission -/

/-- A strip map without a strip that the shape lacks goes to admission (R206). -/
theorem writeStripMap_of_mapBad_eq_none {c : Ctx} {u : State} (hnow : c.atOnce = false)
    (h : mapBad (if c.code = Attr.plcInStripMap then u.ins else u.D) c.q.elem c.vals = none) :
    writeStripMap c u = admitWrite c u := by
  simp [writeStripMap, hnow, h]

/-- A strip map with a strip that the shape lacks is refused at the first element that names one (R206). -/
theorem writeStripMap_of_mapBad {c : Ctx} {u : State} {i : Nat} (hnow : c.atOnce = false)
    (h : mapBad (if c.code = Attr.plcInStripMap then u.ins else u.D) c.q.elem c.vals = some i) :
    writeStripMap c u = .error ⟨rRange, i, []⟩ := by
  simp [writeStripMap, hnow, h]

/-- An insert on nothing or on a port that may be named goes to admission (R155, R241). -/
theorem writeInsert_of_insertBad_eq_none {c : Ctx} {u : State} (hnow : c.atOnce = false)
    (h : u.insertBad c.q.inst c.arg.toNat = none) : writeInsert c u = admitWrite c u := by
  simp [writeInsert, hnow, h]

/-- An insert on a port that may not be named is refused with its code (R155, R241). -/
theorem writeInsert_of_insertBad {c : Ctx} {u : State} {code : Nat} (hnow : c.atOnce = false)
    (h : u.insertBad c.q.inst c.arg.toNat = some code) : writeInsert c u = refuse code := by
  simp [writeInsert, hnow, h]

end Sys2Proof.Machine

open Sys2Proof Sys2Proof.Machine

/-- Settles O20: each row is an admitted write, where its own test finds nothing; the tests refuse before admission. -/
theorem topologyWritesPerform : Obligations.TopologyWritesPerform := by
  unfold Obligations.TopologyWritesPerform
  refine ⟨?delay, ?map, ?mapRefused, ?insert, ?insertRefused⟩
  case delay => exact changesTopology_of_admitWrite (eff := writeDelayEnable) (fun _ _ => rfl) fun _ _ _ _ => rfl
  case map =>
    exact changesTopology_of_admitWrite (fun _ _ => rfl) fun _ _ hnow hmay => writeStripMap_of_mapBad_eq_none hnow hmay
  case mapRefused =>
    refine refusesWith_of_effect (fun _ _ => rfl) fun c u _ _ hnow _ hbad => ?_
    obtain ⟨i, hi⟩ := Option.isSome_iff_exists.mp hbad
    simp only [writeStripMap_of_mapBad hnow hi, hi, Option.getD_some]
  case insert =>
    exact changesTopology_of_admitWrite (fun _ _ => rfl) fun _ _ hnow hmay => writeInsert_of_insertBad_eq_none hnow hmay
  case insertRefused =>
    refine refusesWith_of_effect (fun _ _ => rfl) fun c u _ _ hnow _ hbad => ?_
    obtain ⟨code, hcode⟩ := Option.isSome_iff_exists.mp hbad
    simp only [writeInsert_of_insertBad hnow hcode, hcode, Option.getD_some, refuse]
end

/-! ### GO

What a go answers, by the state it names and the present one, where the chip is in NORMAL and no exit fade runs
(R33, R35, R37, R114). -/

section
namespace Sys2Proof.Machine

section
variable {c : Ctx} {u : State} (hnow : c.atOnce = false) (hopen : goOpen u)
include hnow hopen

/-- Into the present state a go completes at once. -/
theorem go_present (hle : c.arg.toNat ≤ 2) (hst : c.arg.toNat = u.engState) : go c u = wentTo u c.arg.toNat := by
  obtain ⟨hbroken, hpower, hfade⟩ := hopen
  simp [go, hnow, hbroken, hpower, hfade, ← hst, Nat.not_lt.mpr hle]

/-- From CONFIG there is no way to HALT. -/
theorem go_halt_of_config (harg : c.arg = 2) (hst : u.engState = 0) : go c u = refuse rState := by
  obtain ⟨hbroken, hpower, hfade⟩ := hopen
  simp [go, hnow, hbroken, hpower, hfade, harg, hst]

/-- To RUN with the time base of MD0 OFF. -/
theorem go_run_of_tbOff (harg : c.arg = 1) (hst : u.engState ≠ 1) (htb : u.n Attr.tbState u.md0Tb 0 = 0) :
    go c u = atOnceTicket u rState := by
  obtain ⟨hbroken, hpower, hfade⟩ := hopen
  simp [go, hnow, hbroken, hpower, hfade, harg, hst.symm, htb]

/-- From HALT to RUN the tick starts. -/
theorem go_run_of_halt (harg : c.arg = 1) (hst : u.engState = 2) (htb : u.n Attr.tbState u.md0Tb 0 ≠ 0) :
    go c u = wentTo u.startTick 1 := by
  obtain ⟨hbroken, hpower, hfade⟩ := hopen
  simp [go, hnow, hbroken, hpower, hfade, harg, hst, htb]

/-- From CONFIG to RUN the tick starts in the state that is placed afresh. -/
theorem go_run_of_config {t : State} (harg : c.arg = 1) (hst : u.engState = 0) (htb : u.n Attr.tbState u.md0Tb 0 ≠ 0)
    (hfresh : u.enterFresh = .ok t) : go c u = wentTo t.startTick 1 := by
  obtain ⟨hbroken, hpower, hfade⟩ := hopen
  simp [go, hnow, hbroken, hpower, hfade, harg, hst, htb, hfresh]

/-- From CONFIG to RUN where admission does not take the topology. -/
theorem go_run_of_config_error {e : Nat} (harg : c.arg = 1) (hst : u.engState = 0)
    (htb : u.n Attr.tbState u.md0Tb 0 ≠ 0) (hfresh : u.enterFresh = .error e) : go c u = atOnceTicket u e := by
  obtain ⟨hbroken, hpower, hfade⟩ := hopen
  simp [go, hnow, hbroken, hpower, hfade, harg, hst, htb, hfresh]

/-- From RUN the exit fade starts, and the ticket waits for its end. -/
theorem go_exit {k : Nat} {t : State} (harg : c.arg = 0 ∨ c.arg = 2) (hst : u.engState = 1)
    (hticket : u.openTicket (address Attr.engGo 0) 0 = some (k, t)) :
    go c u = okTicket (t.startExit c.arg.toNat (some k)) k := by
  obtain ⟨hbroken, hpower, hfade⟩ := hopen
  rcases harg with harg | harg <;> simp [go, hnow, hbroken, hpower, hfade, harg, hst, hticket]

/-- From HALT to CONFIG a go completes at once. -/
theorem go_config_of_halt (harg : c.arg = 0) (hst : u.engState = 2) :
    go c u = wentTo (u.set Attr.engState 0 0 0) 0 := by
  obtain ⟨hbroken, hpower, hfade⟩ := hopen
  simp [go, hnow, hbroken, hpower, hfade, harg, hst]

end

/-- A go to no state of the engine is refused. -/
theorem go_range {c : Ctx} (u : State) (harg : 2 < c.arg) : go c u = refuse rRange := by
  have htarget : 2 < c.arg.toNat := by omega
  simp [go, htarget]

/-- A go while the exit fade runs is refused. -/
theorem go_busy {c : Ctx} {u : State} (hnow : c.atOnce = false) (hle : c.arg.toNat ≤ 2) (hbroken : u.pow.broken = false)
    (hpower : u.n Attr.powPowerState 0 0 = 0) (hfade : u.eng.fade = 2) : go c u = refuse rBusy := by
  simp [go, hnow, hbroken, hpower, hfade, Nat.not_lt.mpr hle]

end Sys2Proof.Machine

open Sys2Proof Sys2Proof.Machine

/-- Settles O22: the answer of go in each case, under the ticket that opens. -/
theorem goPerforms : Obligations.GoPerforms := by
  unfold Obligations.GoPerforms
  have hexec : ∀ q s, exec (.goAction q) s = .next (serve .go go q s) := fun _ _ => rfl
  refine ⟨?present, ?run, ?notAdmitted, ?resume, ?noTime, ?exit, ?config, ?range, ?halt, ?busy⟩
  case present =>
    refine performsTicket_of_effect hexec fun c u k t _ _ hnow _ ⟨hopen, hle, hst⟩ hticket => ?_
    rw [go_present hnow hopen hle hst, wentTo_ok hticket]
  case run =>
    refine performsTicket_of_effect hexec fun c u k t _ _ hnow _ ⟨hopen, harg, hst, htb, hfresh⟩ hticket => ?_
    cases hu : u.enterFresh with
    | error e => simp [hu, Except.toOption] at hfresh
    | ok w =>
      rw [hu] at hticket
      rw [go_run_of_config hnow hopen harg hst htb hu]
      exact wentTo_ok hticket
  case notAdmitted =>
    intro e
    refine performsTicket_of_effect hexec fun c u k t _ _ hnow _ ⟨hopen, harg, hst, htb, hfresh⟩ hticket => ?_
    rw [go_run_of_config_error hnow hopen harg hst htb hfresh, atOnceTicket_ok hticket]
  case resume =>
    refine performsTicket_of_effect hexec fun c u k t _ _ hnow _ ⟨hopen, harg, hst, htb⟩ hticket => ?_
    rw [go_run_of_halt hnow hopen harg hst htb, wentTo_ok hticket]
  case noTime =>
    refine performsTicket_of_effect hexec fun c u k t _ _ hnow _ ⟨hopen, harg, hst, htb⟩ hticket => ?_
    rw [go_run_of_tbOff hnow hopen harg hst htb, atOnceTicket_ok hticket]
  case exit =>
    refine performsTicket_of_effect hexec fun c u k t _ _ hnow _ ⟨hopen, harg, hst⟩ hticket => ?_
    rw [go_exit hnow hopen harg hst hticket]
  case config =>
    refine performsTicket_of_effect hexec fun c u k t _ _ hnow _ ⟨hopen, harg, hst⟩ hticket => ?_
    rw [go_config_of_halt hnow hopen harg hst, wentTo_ok hticket]
  case range => exact refuses_of_effect hexec fun c u _ _ _ _ harg => go_range u harg
  case halt => exact refuses_of_effect hexec fun c u _ _ hnow _ ⟨hopen, harg, hst⟩ => go_halt_of_config hnow hopen harg hst
  case busy =>
    exact refuses_of_effect hexec fun c u _ _ hnow _ ⟨hle, hbroken, hpower, hfade⟩ => go_busy hnow hle hbroken hpower hfade
end

/-! ### Events of the engine

The end of a fade, a missed deadline and a watchdog expiry (R31, R33, R133, R529, R545, R553). -/

section
namespace Sys2Proof.Machine

/-- FADE_COMPLETE answers with its meaning. -/
@[simp] theorem exec_fadeComplete (s : State) : exec .fadeComplete s = .next (fadeComplete s) := rfl

/-- DEADLINE_MISS answers with its meaning. -/
@[simp] theorem exec_deadlineMiss (outs : List Nat) (s : State) :
    exec (.deadlineMiss outs) s = .next (deadlineMiss outs s) := rfl

/-- WATCHDOG_EXPIRY answers with its meaning. -/
@[simp] theorem exec_watchdogExpiry (s : State) : exec .watchdogExpiry s = .next (watchdogExpiry s) := rfl

/-! ### The end of a fade (R33, R133, R545) -/

/-- The fade of the engine has delivered its last sample, which is the test of `fadeComplete`. -/
def State.fadeEnded (s : State) : Prop :=
  s.ticking = true ∧ s.eng.frames ≠ 0 ∧ s.eng.fadeAt + s.engineFade ≤ s.eng.count + s.eng.cfg.n

theorem State.not_fadeEnded_iff (s : State) : ¬ s.fadeEnded ↔
    s.ticking = false ∨ s.eng.frames = 0 ∨ s.eng.count + s.eng.cfg.n < s.eng.fadeAt + s.engineFade := by
  simp only [State.fadeEnded, not_and_or, Bool.not_eq_true, not_not, Nat.not_le, ne_eq]

variable {s : State}

/-- Nothing happens before the fade's last sample, nor with the tick stopped. -/
theorem fadeComplete_of_not_fadeEnded (h : ¬ s.fadeEnded) : fadeComplete s = s := by
  rw [State.not_fadeEnded_iff] at h
  simp [fadeComplete, h]

/-- What the end of a fade does, by the fade that runs: 1 is the entry fade, 2 the exit fade. -/
theorem fadeComplete_of_fadeEnded (h : s.fadeEnded) : fadeComplete s =
    if s.eng.fade = 1 then
      if s.pow.entryDue = true then
        ({ s with eng := { s.eng with fade := 0 }, pow := { s.pow with entryDue := false } } : State).set
          Attr.powStartupTime 0 0 s.hea.now
      else { s with eng := { s.eng with fade := 0 } }
    else if s.eng.fade = 2 then
      let u : State := (({ s with pow := { s.pow with entryDue := false } } : State).stopTick s.eng.target).commit
        [goRec s.eng.target]
      ({ u with eng := { u.eng with goTicket := none } } : State).completeTicket? s.eng.goTicket rOk
    else s := by
  obtain ⟨hrun, hframes, hle⟩ := h
  have hgoes : ¬ (¬ s.ticking = true ∨ s.eng.frames = 0 ∨ s.eng.count + s.eng.cfg.n < s.eng.fadeAt + s.engineFade) := by
    simp [hrun, hframes, hle]
  simp only [fadeComplete, if_neg hgoes]

end Sys2Proof.Machine

open Sys2Proof Sys2Proof.Machine

/-- Settles O23: a fade by whether it has ended and which it is, and both other events by their one test. -/
theorem engineEventsAct : Obligations.EngineEventsAct := by
  unfold Obligations.EngineEventsAct
  refine ⟨⟨?exit, ?entry, ?startup, ?noFade, ?going, ?missed, ?stopped⟩, ?halts, ?goesOn⟩
  case exit =>
    intro s hended hfade
    simp only [exec_fadeComplete, fadeComplete_of_fadeEnded hended, hfade]
    rfl
  case entry =>
    intro s hended hfade hdue
    simp [fadeComplete_of_fadeEnded hended, hfade, hdue]
  case startup =>
    intro s hended hfade hdue
    simp [fadeComplete_of_fadeEnded hended, hfade, hdue]
  case noFade =>
    intro s hended hentry hexit
    simp [fadeComplete_of_fadeEnded hended, hentry, hexit]
  case going =>
    intro s h
    rw [exec_fadeComplete, fadeComplete_of_not_fadeEnded (s.not_fadeEnded_iff.mpr h)]
  case missed =>
    intro s outs hrun
    simp [deadlineMiss, hrun]
  case stopped =>
    intro s outs hstop
    simp [deadlineMiss, hstop]
  case halts =>
    intro s hsolo hinRun
    simp [watchdogExpiry, hsolo, hinRun]
  case goesOn =>
    intro s h
    have hno : ¬ ((giveUp (s.raise 5)).role = 0 ∧ (giveUp (s.raise 5)).engState = 1) := not_and_or.mpr h
    simp [watchdogExpiry, hno]
end

/-! ### OFFSET_TICK

The work of the offset tick, and that it marks the period in which it has acted (R17, R233 to R240, R249, R330). -/

section
namespace Sys2Proof.Machine

/-- OFFSET_TICK answers with its meaning. -/
@[simp] theorem exec_offsetTick (s : State) : exec .offsetTick s = .next (offsetTick s) := rfl

variable {s : State}

/-- An offset tick that is not the first of its period, or comes with the tick stopped, does nothing. -/
theorem offsetTick_idle (h : s.ticking = false ∨ s.eng.offset = true) : offsetTick s = s := by
  rcases h with h | h <;> simp [offsetTick, h]

/-- The blocks of a period end as the model's own operation ends them. -/
theorem blocksEnded_eq (s : State) : blocksEnded s = s.endBlocks := rfl

/-- The Tongs budgets open as the model's own operation opens them. -/
theorem budgetsOpened_eq (s : State) : budgetsOpened s = s.openBudgets := rfl

/-- The first offset tick of a period, in its parts. -/
theorem offsetTick_first (hrun : s.ticking = true) (hfirst : s.eng.offset = false) : offsetTick s =
    (budgetsOpened (((blocksEnded s).endRetirements.moduleSwitch).regionSwitch false)).startBlocks
      (s.endShadow.anv.cores.map (·.1)) := by
  simp [offsetTick, hrun, hfirst, blocksEnded_eq, budgetsOpened_eq]

/-- The cores that start their blocks mark the period as served, and what follows leaves the engine. -/
theorem State.startBlocks_offset (s : State) (cores : List Nat) : (s.startBlocks cores).eng.offset = true := by
  unfold State.startBlocks
  rw [foldl_eng (fun t e => State.set_eng t _ _ _ _), foldl_eng startCore_eng]

end Sys2Proof.Machine

open Sys2Proof Sys2Proof.Machine

/-- Settles O27: the first offset tick of a period does its work and marks the period, so that another finds it served. -/
theorem offsetTickActsOncePerPeriod : Obligations.OffsetTickActsOncePerPeriod := by
  unfold Obligations.OffsetTickActsOncePerPeriod
  refine ⟨?acts, ?once, ?idle⟩
  case acts =>
    intro s hrun hfirst
    simp only [exec_offsetTick, offsetTick_first hrun hfirst, State.startBlocks]
  case once =>
    intro s hrun hfirst
    have hserved : (offsetTick s).eng.offset = true := by
      rw [offsetTick_first hrun hfirst, State.startBlocks_offset]
    exact ⟨offsetTick s, exec_offsetTick s, hserved,
      by rw [exec_offsetTick, offsetTick_idle (.inr hserved)]⟩
  case idle =>
    intro s h
    rw [exec_offsetTick, offsetTick_idle h]
end

/-! ### Writes of gains and faders

A Class R write by the tick, the queue and the free slots, and a write of the idle plane
(R60, R61, R64, R99, R104, R106, R109, R114). -/

section
namespace Sys2Proof.Machine

/-! ### A group of ramps of which none waits -/

section
variable {s : State} {l : List NewRamp} {a : Nat × Nat} (hfresh : ∀ r ∈ l, s.queued? r.param = none)
include hfresh

/-- A group of which no ramp waits starts, joins the queue, or is refused, by the free slots and queue entries (R106). -/
theorem State.acceptGroup_fresh : s.acceptGroup l none false a =
    if l = [] then .ok s
    else if s.newSlots l = 0 ∨ (s.bel.queue = [] ∧ s.newSlots l + s.slotsUsed ≤ 16384) then .ok (s.startGroup l s.firstOf)
    else if l.length + s.queueUsed ≤ 4096 then
      .ok (l.foldl State.showTarget { s with bel := { s.bel with queue := s.bel.queue ++ [⟨l, none⟩] } })
    else .error ⟨rRampFull, 0, [Attr.belRampFullCount]⟩ := by
  have hwaiting : (l.filter fun r => (s.queued? r.param).isSome) = [] :=
    List.filter_eq_nil_iff.mpr fun r hr => by simp [hfresh r hr]
  have hall : (l.filter fun r => (s.queued? r.param).isNone) = l :=
    List.filter_eq_self.mpr fun r hr => by simp [hfresh r hr]
  simp only [State.acceptGroup, hwaiting, List.foldl_nil, hall, Bool.false_eq_true, if_false]

/-- With the queue empty and slots free the group starts (R106). -/
theorem State.acceptGroup_starts (hqueue : s.bel.queue = []) (hslots : s.newSlots l + s.slotsUsed ≤ 16384) :
    s.acceptGroup l none false a = .ok (s.startGroup l s.firstOf) := by
  rw [State.acceptGroup_fresh hfresh]
  split
  case isTrue hl => rw [hl]; rfl
  case isFalse => rw [if_pos (.inr ⟨hqueue, hslots⟩)]

/-- A group that needs slots and finds too few, or others before it, waits where the queue has entries for all of it, and is
refused where it has not (R106). -/
theorem State.acceptGroup_waits (hneeds : s.newSlots l ≠ 0)
    (hwaits : s.bel.queue ≠ [] ∨ 16384 < s.newSlots l + s.slotsUsed) : s.acceptGroup l none false a =
      if l.length + s.queueUsed ≤ 4096 then
        .ok (l.foldl State.showTarget { s with bel := { s.bel with queue := s.bel.queue ++ [⟨l, none⟩] } })
      else .error ⟨rRampFull, 0, [Attr.belRampFullCount]⟩ := by
  have hsome : l ≠ [] := by
    rintro rfl
    exact hneeds rfl
  have hnot : ¬ (s.newSlots l = 0 ∨ (s.bel.queue = [] ∧ s.newSlots l + s.slotsUsed ≤ 16384)) := by
    rintro (h | ⟨hqueue, hslots⟩)
    · exact hneeds h
    · exact hwaits.elim (fun h => h hqueue) (fun h => absurd hslots (Nat.not_le.mpr h))
  rw [State.acceptGroup_fresh hfresh, if_neg hsome, if_neg hnot]

end

/-! ### A Class R write -/

section
variable {c : Ctx} {u : State} {l : List (RParam × Int)}

/-- With the tick stopped each parameter takes its target at once (R114). -/
theorem writeRamps_stopped (hstop : u.ticking = false) :
    writeRamps c l u = .ok (l.foldl (fun s e => s.commitParam e.1 e.2 false) u) := by
  simp [writeRamps, hstop]

/-- The ramps that a write makes are of the parameters that it names. -/
theorem rampsNamed_fresh (h : ∀ e ∈ l, u.queued? e.1 = none) : ∀ r ∈ rampsNamed c l u, u.queued? r.param = none := by
  simp only [rampsNamed, List.mem_map, List.mem_filter]
  rintro _ ⟨e, ⟨he, -⟩, rfl⟩
  exact h e he

/-- While the queue is empty no parameter waits. -/
theorem State.queued?_of_queue_nil (h : u.bel.queue = []) (p : RParam) : u.queued? p = none := by
  simp [State.queued?, h]

section
variable (hdue : c.due = none) (hnew : c.accepted = false) (hnow : c.atOnce = false) (hrun : u.ticking = true)
include hdue hnew hnow hrun

/-- With the tick running a write that a frame brings has its ramps accepted as one group (R60, R99). -/
theorem writeRamps_running :
    writeRamps c l u = u.acceptGroup (rampsNamed c l u) none false (c.code, c.q.inst) := by
  simp [writeRamps, rampsNamed, hdue, hnew, hnow, hrun]

/-- With the queue empty and slots free the ramps start together (R99, R106). -/
theorem writeRamps_starts (hqueue : u.bel.queue = []) (hslots : u.newSlots (rampsNamed c l u) + u.slotsUsed ≤ 16384) :
    writeRamps c l u = .ok (u.startGroup (rampsNamed c l u) u.firstOf) := by
  rw [writeRamps_running hdue hnew hnow hrun]
  exact State.acceptGroup_starts (rampsNamed_fresh fun e _ => State.queued?_of_queue_nil hqueue e.1) hqueue hslots

/-- Else they wait as one group where the queue has entries for it, and are refused where it has not (R106). -/
theorem writeRamps_waits (hnone : l.all (fun e => (u.queued? e.1).isNone) = true)
    (hneeds : u.newSlots (rampsNamed c l u) ≠ 0)
    (hwaits : u.bel.queue ≠ [] ∨ 16384 < u.newSlots (rampsNamed c l u) + u.slotsUsed) : writeRamps c l u =
      if (rampsNamed c l u).length + u.queueUsed ≤ 4096 then
        .ok ((rampsNamed c l u).foldl State.showTarget
          { u with bel := { u.bel with queue := u.bel.queue ++ [⟨rampsNamed c l u, none⟩] } })
      else .error ⟨rRampFull, 0, [Attr.belRampFullCount]⟩ := by
  rw [writeRamps_running hdue hnew hnow hrun]
  exact State.acceptGroup_waits (rampsNamed_fresh (by simpa using hnone)) hneeds hwaits

end

/-- A gain write answers what its ramps answer. -/
theorem writeGain_eq (hdue : c.due = none) : writeGain c u = (writeRamps c (gainTargets c u) u).map (·, {}) := by
  simp only [writeGain, hdue, gainTargets]
  generalize writeRamps c _ u = r
  cases r <;> rfl

/-- A fader write answers what its ramp answers. -/
theorem writeFader_eq : writeFader c u = (writeRamps c [faderTarget c u] u).map (·, {}) := by
  simp only [writeFader, faderTarget]
  generalize writeRamps c _ u = r
  cases r <;> rfl

/-- A write of nodes of a plane that is locked is refused (R65, R81). -/
theorem writeIdleGain_locked (hnow : c.atOnce = false) (h : u.idleLocked = true) : writeIdleGain c u = refuse rBusy := by
  simp [writeIdleGain, hnow, h]

/-- A write of nodes of a plane that is free writes each at once (R64). -/
theorem writeIdleGain_free (h : u.idleLocked = false) : writeIdleGain c u =
    ok ((c.vals.mapIdx fun i v => (c.q.elem + i, v)).foldl (fun t e => t.writeIdle c.q.inst e.1
      (if c.code = Attr.nodeIdleGainCdb then cdbWrite (gainOf (u.nodeWord (1 - u.live) c.q.inst e.1)) e.2 else e.2)) u) := by
  simp [writeIdleGain, h]

end
end Sys2Proof.Machine

open Sys2Proof Sys2Proof.Machine

/-- Settles O10: gains and faders are one Class R write of the parameters they name, by what it finds of the tick, the
queue and the slots; which parameters then ramp is the model's choice (`rampsNamed`, entry 57). -/
theorem gainAndFaderWritesPerform : Obligations.GainAndFaderWritesPerform := by
  unfold Obligations.GainAndFaderWritesPerform
  intro ramps
  have hramps : ∀ (mk : Req → Instr) (row : Row) (eff : Effect) (l : Ctx → State → List (RParam × Int)),
      (∀ q s, exec (mk q) s = .next (serve row eff q s)) →
      (∀ c u, c.due = none → eff c u = (writeRamps c (l c u) u).map (·, {})) → ramps mk row l := by
    intro mk row eff l hexec heff
    refine ⟨?stopped, ?starts, ?queues, ?full⟩
    case stopped =>
      refine performs_of_new hexec fun c u hdue _ _ hstop => ?_
      rw [heff c u hdue, writeRamps_stopped hstop]
      rfl
    case starts =>
      refine performs_of_new hexec fun c u hdue hnew hnow ⟨hrun, hqueue, hslots⟩ => ?_
      rw [heff c u hdue, writeRamps_starts hdue hnew hnow hrun hqueue hslots]
      rfl
    case queues =>
      refine performs_of_new hexec fun c u hdue hnew hnow ⟨⟨hrun, hnone, hneeds, hwaits⟩, hentries⟩ => ?_
      rw [heff c u hdue, writeRamps_waits hdue hnew hnow hrun hnone hneeds hwaits, if_pos hentries]
      rfl
    case full =>
      refine refusesWith_of_new hexec fun c u hdue hnew hnow ⟨⟨hrun, hnone, hneeds, hwaits⟩, hfull⟩ => ?_
      rw [heff c u hdue, writeRamps_waits hdue hnew hnow hrun hnone hneeds hwaits, if_neg (Nat.not_le.mpr hfull)]
      rfl
  refine ⟨?gain, ?fader, ?idle, ?locked⟩
  case gain => exact hramps _ _ writeGain _ (fun _ _ => rfl) fun _ _ hdue => writeGain_eq hdue
  case fader => exact hramps _ _ writeFader _ (fun _ _ => rfl) fun _ _ _ => writeFader_eq
  case idle => exact performs_of_effect (fun _ _ => rfl) fun _ _ _ _ _ _ hfree => writeIdleGain_free hfree
  case locked => exact refuses_of_effect (fun _ _ => rfl) fun _ _ _ _ hnow _ hlocked => writeIdleGain_locked hnow hlocked
end

/-! ### Writes of occupants

A binding by what the slot holds, the swaps that run, the tick and what admission answers (R41 to R45, R84 to R87). -/

section
namespace Sys2Proof.Machine

variable {c : Ctx} {u : State}

/-- A write that names a binding makes it (R42). -/
theorem writeOccupant_of_bindingNamed {b : Nat × Nat} (h : bindingNamed c u = some b) :
    writeOccupant c u = bindSlot c b.1 b.2 u := by
  unfold bindingNamed at h
  unfold writeOccupant
  split at h
  case isTrue hcode =>
    cases h
    simp only [if_pos hcode]
  case isFalse hcode =>
    simp only [if_neg hcode]
    split at h
    case isTrue hnone =>
      obtain ⟨k, hk, rfl⟩ := Option.map_eq_some_iff.mp h
      simp only [if_pos hnone, hk]
    case isFalse hsome =>
      split at h
      case isTrue => cases h
      case isFalse hslot =>
        cases h
        simp only [if_neg hsome, if_neg hslot]

/-- An in-strip taken from the slot that holds it changes nothing where none does (R42). -/
theorem writeOccupant_of_unbound (hcode : c.code ≠ Attr.slotOccupant) (harg : c.arg.toNat = 0xFFFF)
    (hslot : u.slotOf (2 ^ 28 + c.q.inst) = none) : writeOccupant c u = ok u := by
  simp only [writeOccupant, if_neg hcode, if_pos harg, hslot]

/-- A source slot that the shape lacks is refused (R38). -/
theorem writeOccupant_of_no_slot (hcode : c.code ≠ Attr.slotOccupant) (harg : c.arg.toNat ≠ 0xFFFF)
    (hslot : u.S ≤ c.arg.toNat) : writeOccupant c u = refuse rRange := by
  simp only [writeOccupant, if_neg hcode, if_neg harg, if_pos hslot]

/-! ### A binding -/

section
variable {slot w : Nat}

/-- An item that may not be named is refused with its code (R45, R48). -/
theorem bindSlot_of_occupantBad {e : Nat} (h : u.occupantBad w = some e) : bindSlot c slot w u = refuse e := by
  simp only [bindSlot, h]

/-- Where every slot of a binding is still none has a swap that runs. -/
theorem State.not_any_inFlight_of_all_still (h : (u.bindings slot w).all (fun e => !u.inFlight (.swap e.1)) = true) :
    ¬ (u.bindings slot w).any (fun e => u.inFlight (.swap e.1)) = true := by
  simpa [← List.not_any_eq_all_not] using h

variable (hitem : u.occupantBad w = none)
include hitem

/-- A slot that is to hold the item already is left as it is (R44). -/
theorem bindSlot_of_held (h : u.target (.swap slot) = (w : Int)) : bindSlot c slot w u = ok u := by
  simp only [bindSlot, hitem, if_pos h]

variable (hnew : u.target (.swap slot) ≠ (w : Int))
include hnew

/-- A slot whose swap runs is not bound anew (R87). -/
theorem bindSlot_of_swapping (h : (u.bindings slot w).any (fun e => u.inFlight (.swap e.1)) = true) :
    bindSlot c slot w u = refuse rBusy := by
  simp only [bindSlot, hitem, if_neg hnew, if_pos h]

variable (hnow : c.atOnce = false) (hstill : (u.bindings slot w).all (fun e => !u.inFlight (.swap e.1)) = true)
include hnow hstill

/-- A binding that admission does not take is refused with its code (R44). -/
theorem bindSlot_of_not_admitted {e : Nat} (hadm : (bindingMade (slot, w) u).admits = .no e) :
    bindSlot c slot w u = refuse e := by
  have hnone := State.not_any_inFlight_of_all_still hstill
  simp only [bindingMade] at hadm
  simp only [bindSlot, hitem, if_neg hnew, if_neg hnone, hnow, Bool.false_eq_true, if_false, hadm]

/-- A binding that admission takes without a move is made at once with the tick stopped, and as row swaps with it running and
no change of the topology under way (R41, R44, R84). -/
theorem bindSlot_of_admitted {p : Place} {v : State} (hadm : (bindingMade (slot, w) u).admits = .inc p v)
    (hplans : u.ticking = true → (u.plc.plans.all fun x => decide (x.effect = [])) = true) (hdue : c.due = none)
    (hfresh : c.accepted = false) : bindSlot c slot w u =
      if u.ticking = true then
        (u.acceptSwaps ((u.bindings slot w).map (u.swapOf (u.order c))) none false).map
          fun t => (t.loadAttrs t.topo t.place, {})
      else ok ((bindingMade (slot, w) u).loadAttrs (bindingMade (slot, w) u).topo (bindingMade (slot, w) u).place) := by
  have hnone := State.not_any_inFlight_of_all_still hstill
  simp only [bindingMade] at hadm
  simp only [bindSlot, hitem, if_neg hnew, if_neg hnone, hnow, Bool.false_eq_true, if_false, hadm, hdue, hfresh]
  by_cases hrun : u.ticking = true
  · rw [if_neg (not_not.mpr hrun), if_pos (hplans hrun), if_pos hrun]
    cases u.acceptSwaps ((u.bindings slot w).map (u.swapOf (u.order c))) none false <;> rfl
  · rw [if_pos hrun, if_neg hrun]
    rfl

end
end Sys2Proof.Machine

open Sys2Proof Sys2Proof.Machine

/-- Settles O11: a write names a binding, and the binding's own cases decide. -/
theorem occupantWritePerforms : Obligations.OccupantWritePerforms := by
  unfold Obligations.OccupantWritePerforms
  have hexec : ∀ q s, exec (.occupant q) s = .next (serve .occupant writeOccupant q s) := fun _ _ => rfl
  refine ⟨?held, ?unbound, ⟨?stopped, ?running, ?notAdmitted, ?swapping⟩, ?badItem, ?noSlot⟩
  case held =>
    intro b
    refine performs_of_effect hexec fun c u _ _ _ _ ⟨hb, hitem, hheld⟩ => ?_
    exact (writeOccupant_of_bindingNamed hb).trans (bindSlot_of_held hitem hheld)
  case unbound =>
    exact performs_of_effect hexec fun c u _ _ _ _ ⟨hcode, harg, hslot⟩ => writeOccupant_of_unbound hcode harg hslot
  case stopped =>
    intro b
    refine performs_of_new hexec fun c u hdue hfresh hnow ⟨⟨hb, hitem, hnew, hstill⟩, ⟨p, v, hadm⟩, hstop⟩ => ?_
    rw [writeOccupant_of_bindingNamed hb,
      bindSlot_of_admitted hitem hnew hnow hstill hadm (by simp [hstop]) hdue hfresh, if_neg (by simp [hstop])]
    rfl
  case running =>
    intro b t
    refine performs_of_new hexec fun c u hdue hfresh hnow ⟨⟨hb, hitem, hnew, hstill⟩, ⟨p, v, hadm⟩, hrun, hplans, hswaps⟩ => ?_
    rw [writeOccupant_of_bindingNamed hb,
      bindSlot_of_admitted hitem hnew hnow hstill hadm (fun _ => hplans) hdue hfresh, if_pos hrun, hswaps]
    rfl
  case notAdmitted =>
    intro b e
    refine refuses_of_effect hexec fun c u _ _ hnow _ ⟨⟨hb, hitem, hnew, hstill⟩, hadm⟩ => ?_
    rw [writeOccupant_of_bindingNamed hb, bindSlot_of_not_admitted hitem hnew hnow hstill hadm]
  case swapping =>
    intro b
    refine refuses_of_effect hexec fun c u _ _ _ _ ⟨hb, hitem, hnew, hswaps⟩ => ?_
    rw [writeOccupant_of_bindingNamed hb, bindSlot_of_swapping hitem hnew hswaps]
  case badItem =>
    intro b e
    refine refuses_of_effect hexec fun c u _ _ _ _ ⟨hb, hbad⟩ => ?_
    rw [writeOccupant_of_bindingNamed hb, bindSlot_of_occupantBad hbad]
  case noSlot =>
    exact refuses_of_effect hexec fun c u _ _ _ _ ⟨hcode, harg, hslot⟩ => writeOccupant_of_no_slot hcode harg hslot
end

/-! ### Loads of the idle plane

A copy of the live plane and a clear of the idle plane, by whether the plane is free (R64 to R66). -/

section
namespace Sys2Proof.Machine

variable {c : Ctx} {u t : State} {k : Nat}

/-- A copy of the live plane onto a plane that is free starts a load under a ticket (R66). -/
theorem copyLiveToIdle_free (hnow : c.atOnce = false) (hfree : u.loadBusy = false)
    (hticket : u.openTicket (address Attr.cruCopyLiveToIdle 0) u.S = some (k, t)) :
    copyLiveToIdle c u = okTicket (({ t with cru := { t.cru with load := some ⟨0, 0, u.liveTargets, k, 0, 0⟩ } } :
      State).set Attr.cruIdleBusy 0 0 1) k := by
  simp [copyLiveToIdle, hnow, hfree, startLoad_ok hticket]

/-- A clear of a plane that is free starts a load under a ticket (R64, R65). -/
theorem clearIdle_free (hnow : c.atOnce = false) (hfree : u.loadBusy = false)
    (hticket : u.openTicket (address Attr.cruClearIdle 0) u.S = some (k, t)) :
    clearIdle c u = okTicket (({ t with cru := { t.cru with load := some ⟨1, 0, [], k, 0, 0⟩ } } :
      State).set Attr.cruIdleBusy 0 0 1) k := by
  simp [clearIdle, hnow, hfree, startLoad_ok hticket]

/-- A copy onto a plane that is busy is refused (R65). -/
theorem copyLiveToIdle_busy (hnow : c.atOnce = false) (hbusy : u.loadBusy = true) : copyLiveToIdle c u = refuse rBusy := by
  simp [copyLiveToIdle, hnow, hbusy]

/-- A clear of a plane that is busy is refused (R65). -/
theorem clearIdle_busy (hnow : c.atOnce = false) (hbusy : u.loadBusy = true) : clearIdle c u = refuse rBusy := by
  simp [clearIdle, hnow, hbusy]

end Sys2Proof.Machine

open Sys2Proof Sys2Proof.Machine

/-- Settles O13: each load starts under the ticket that opens, or is refused where the plane is busy. -/
theorem idlePlaneLoadsPerform : Obligations.IdlePlaneLoadsPerform := by
  unfold Obligations.IdlePlaneLoadsPerform
  refine ⟨?copy, ?clear, ?copyBusy, ?clearBusy⟩
  case copy =>
    exact performsTicket_of_effect (fun _ _ => rfl) fun _ _ _ _ _ _ hnow _ hfree hticket =>
      copyLiveToIdle_free hnow hfree hticket
  case clear =>
    exact performsTicket_of_effect (fun _ _ => rfl) fun _ _ _ _ _ _ hnow _ hfree hticket => clearIdle_free hnow hfree hticket
  case copyBusy => exact refuses_of_effect (fun _ _ => rfl) fun _ _ _ _ hnow _ hbusy => copyLiveToIdle_busy hnow hbusy
  case clearBusy => exact refuses_of_effect (fun _ _ => rfl) fun _ _ _ _ hnow _ hbusy => clearIdle_busy hnow hbusy
end

/-! ### Strikes

A strike by the tick and by what stands already, its end, and the end of a load of the idle plane
(R68, R69, R75, R77, R114, R607). -/

section
namespace Sys2Proof.Machine

/-- STRIKE_END answers with its meaning. -/
@[simp] theorem exec_strikeEnd (s : State) : exec .strikeEnd s = .next (strikeEnd s) := rfl

/-- IDLE_LOAD_COMPLETE answers with its meaning. -/
@[simp] theorem exec_idleLoadComplete (s : State) : exec .idleLoadComplete s = .next (idleLoadComplete s) := rfl

/-! ### What a strike request does -/

section
variable {c : Ctx} {u t : State} {k : Nat}

/-- A strike that nothing bars, with no take-effect time, begins in this period or ends at once, by the tick (R69, R114). -/
theorem doStrike_free (hdue : c.due = none) (hsched : c.sched = none) (hnow : c.atOnce = false)
    (hstate : u.n Attr.cruStrikeState 0 0 = 0) (hidle : u.n Attr.cruIdleBusy 0 0 ≠ 1)
    (hticket : u.openTicket (address Attr.cruStrike 0) 0 = some (k, t)) : doStrike c u =
      if u.ticking = true then okTicket (t.startStrike t.eng.count k) k
      else okTicket ((t.set Attr.cruLivePlane 0 0 (1 - t.live : Nat)).endStrike k) k := by
  simp [doStrike, hdue, hsched, hnow, hstate, hidle, hticket, State.openTicket_ticking hticket]

/-- A strike while one stands or the idle plane is busy is refused (R65, R77). -/
theorem doStrike_busy (hdue : c.due = none) (hnow : c.atOnce = false)
    (hbusy : u.n Attr.cruStrikeState 0 0 ≠ 0 ∨ u.n Attr.cruIdleBusy 0 0 = 1) : doStrike c u = refuse rBusy := by
  simp [doStrike, hdue, hnow, hbusy]

end

/-! ### The ends of a strike and of a load -/

variable {s : State}

/-- A running strike ends in the period that holds the sample after its last (R75). -/
theorem strikeEnd_of_striking {k : Strike} (hk : s.cru.strike = some k) (hstate : s.n Attr.cruStrikeState 0 0 = 2) :
    strikeEnd s = if k.first + k.len < s.eng.count + s.eng.cfg.n then
      ({ s with cru := { s.cru with past := s.cru.past ++
        [PastStrike.mk k (1 - s.live) (s.plane (1 - s.live)) (s.rampsOn (1 - s.live))] } } : State).leaveStrike else s := by
  simp only [strikeEnd, hk, hstate, true_and]

/-- With no strike running its end does nothing. -/
theorem strikeEnd_of_not_striking (h : s.cru.strike = none ∨ s.n Attr.cruStrikeState 0 0 ≠ 2) : strikeEnd s = s := by
  unfold strikeEnd
  split
  case h_1 k hk => simp [h.resolve_left (by simp [hk])]
  case h_2 => rfl

/-- A load ends once its rows are written, or with the tick stopped (R607). -/
theorem idleLoadComplete_done {l : IdleLoad} (hl : s.cru.load = some l) (hlow : s.low = false)
    (hrows : s.ticking = true → s.eng.cfg.S ≤ l.rowsDone) : idleLoadComplete s =
      (({ s.loadRows l 4096 with cru := { (s.loadRows l 4096).cru with load := none } } : State).set
        Attr.cruIdleBusy 0 0 0).completeTicket l.ticket rOk := by
  have hdone : ¬ (s.low = true ∨ s.ticking = true ∧ l.rowsDone < s.eng.cfg.S) := by
    rintro (h | ⟨hrun, h⟩)
    · simp [hlow] at h
    · exact absurd (hrows hrun) (Nat.not_le.mpr h)
  simp only [idleLoadComplete, hl, if_neg hdone]

/-- A load in LOW, or with rows left to write, goes on (R607). -/
theorem idleLoadComplete_waits {l : IdleLoad} (hl : s.cru.load = some l)
    (hwait : s.low = true ∨ s.ticking = true ∧ l.rowsDone < s.eng.cfg.S) : idleLoadComplete s = s := by
  simp only [idleLoadComplete, hl, if_pos hwait]

/-- With no load its end does nothing. -/
theorem idleLoadComplete_idle (h : s.cru.load = none) : idleLoadComplete s = s := by
  simp only [idleLoadComplete, h]

/-- The rows of a load change nothing in the dictionary but the bytes of TC15 (R607). -/
theorem State.loadRows_attrs (l : IdleLoad) (upto : Nat) :
    (s.loadRows l upto).attrs = (s.add Attr.tngBytes 15 0 (s.loadBytes l upto)).attrs := by
  simp only [State.loadRows, State.ticketProgress_attrs]
  split <;> rfl

/-- The bytes of a load go through TC15 (R607). -/
theorem State.loadRows_n (l : IdleLoad) (upto code inst elem : Nat) : (s.loadRows l upto).n code inst elem =
    (s.add Attr.tngBytes 15 0 (s.loadBytes l upto)).n code inst elem := by
  simp only [State.n, State.a, State.loadRows_attrs]

end Sys2Proof.Machine

open Sys2Proof Sys2Proof.Machine

/-- Settles O12: a strike by the tick and by what bars it, and the ends of strikes and loads by their one test. -/
theorem strikeRequestsAndEndsAct : Obligations.StrikeRequestsAndEndsAct := by
  unfold Obligations.StrikeRequestsAndEndsAct
  refine ⟨⟨⟨?running, ?stopped⟩, ?busy, ?cancel, ?striking⟩, ?ends, ?noStrike, ?loaded, ?loading, ?noLoad, ?bytes⟩
  case running =>
    refine performsTicket_of_effect (fun _ _ => rfl) fun c u k t hdue hsched hnow _ ⟨⟨hstate, hidle⟩, hrun⟩ hticket => ?_
    rw [doStrike_free hdue hsched hnow hstate hidle hticket, if_pos hrun]
  case stopped =>
    refine performsTicket_of_effect (fun _ _ => rfl) fun c u k t hdue hsched hnow _ ⟨⟨hstate, hidle⟩, hstop⟩ hticket => ?_
    rw [doStrike_free hdue hsched hnow hstate hidle hticket, if_neg (by simp [hstop])]
  case busy => exact refuses_of_effect (fun _ _ => rfl) fun _ _ hdue _ hnow _ hbusy => doStrike_busy hdue hnow hbusy
  case cancel =>
    exact performs_of_effect (eff := cancelStrike) (fun _ _ => rfl) fun _ _ _ _ _ _ hstate => if_neg hstate
  case striking =>
    exact refuses_of_effect (eff := cancelStrike) (fun _ _ => rfl) fun _ _ _ _ _ _ hstate => if_pos hstate
  case ends =>
    intro s k hk hstate
    rw [exec_strikeEnd, strikeEnd_of_striking hk hstate]
    rfl
  case noStrike =>
    intro s h
    rw [exec_strikeEnd, strikeEnd_of_not_striking h]
  case loaded =>
    intro s l hl hlow hrows
    rw [exec_idleLoadComplete, idleLoadComplete_done hl hlow hrows]
  case loading =>
    intro s l hl hwait
    rw [exec_idleLoadComplete, idleLoadComplete_waits hl hwait]
  case noLoad =>
    intro s h
    rw [exec_idleLoadComplete, idleLoadComplete_idle h]
  case bytes => exact fun _ l upto => State.loadRows_n l upto _ _ _
end

/-! ### Ends of ramps and the start of the queue

A ramp or a row swap by whether its last sample is evaluated, and the queue's head group by whether it fits
(R60, R80, R84, R104, R106, R107, R112, R127). -/

section
namespace Sys2Proof.Machine

/-- RAMP_END of a node or a fader answers with its meaning. -/
theorem exec_rampEnd_of_ne_swap {p : RParam} (h : ∀ k, p ≠ .swap k) (s : State) :
    exec (.rampEnd p) s = .next (rampEnd p s) := by
  cases p with
  | swap k => exact absurd rfl (h k)
  | _ => rfl

/-- RAMP_END of a row swap does nothing: it ends by ROW_SWAP_END. -/
@[simp] theorem exec_rampEnd_swap (k : Nat) (s : State) : exec (.rampEnd (.swap k)) s = .next s := rfl

/-- ROW_SWAP_END is the end of the slot's ramp. -/
@[simp] theorem exec_rowSwapEnd (k : Nat) (s : State) : exec (.rowSwapEnd k) s = .next (rampEnd (.swap k) s) := rfl

/-- QUEUED_GROUP_START answers with its meaning. -/
@[simp] theorem exec_queuedGroupStart (s : State) : exec .queuedGroupStart s = .next (queuedGroupStart s) := rfl

variable {s : State}

/-- With no ramp of the parameter its end does nothing. -/
theorem rampEnd_of_no_ramp {p : RParam} (h : s.ramp? p = none) : rampEnd p s = s := by
  simp only [rampEnd, h]

/-- A ramp ends once a frame that holds its last sample has been evaluated (R104). -/
theorem rampEnd_of_ramp {p : RParam} {r : Ramp} {g : Seg} {rest : List Seg} (hr : s.ramp? p = some r)
    (hsegs : r.segs = g :: rest) : rampEnd p s =
      if g.first + g.len + (1 + s.lagOf p) * s.eng.cfg.n ≤ s.eng.count then
        (s.endRamp p g.g1).commitParam p (s.held p) false else s := by
  simp only [rampEnd, hr, hsegs, State.evaluated, decide_eq_true_eq]

/-- A row swap is not behind the frame (R85). -/
theorem State.lagOf_swap (s : State) (k : Nat) : s.lagOf (.swap k) = 0 := rfl

/-- With no group waiting nothing starts. -/
theorem queuedGroupStart_of_queue_nil (h : s.bel.queue = []) : queuedGroupStart s = s := by
  simp only [queuedGroupStart, h]

section
variable {g : Group} {rest : List Group} (hqueue : s.bel.queue = g :: rest)
include hqueue

/-- The head group starts where the whole of it fits, and is late where a first sample lies after its due sample (R107,
R127). -/
theorem queuedGroupStart_fits (hrun : s.ticking = true) (hslots : s.newSlots (s.headRamps g) + s.slotsUsed ≤ 16384) :
    queuedGroupStart s = (s.headRamps g).foldl (fun t r =>
      (t.startRamp r (s.queueStart r.param)).note 3 (rAddr r.param).1 (rAddr r.param).2 (s.queueStart r.param))
      (if (s.headRamps g).any fun r => g.late (s.queueStart r.param) then
        ({ s with bel := { s.bel with queue := rest } } : State).bump Attr.belLateCount 0 0
      else { s with bel := { s.bel with queue := rest } }) := by
  simp only [queuedGroupStart, hqueue, hrun, hslots, and_self, if_true]

/-- The head group waits with the tick stopped, and until the whole of it fits (R107). -/
theorem queuedGroupStart_waits (h : s.ticking = false ∨ 16384 < s.newSlots (s.headRamps g) + s.slotsUsed) :
    queuedGroupStart s = s := by
  have hno : ¬ (s.ticking = true ∧ s.newSlots (s.headRamps g) + s.slotsUsed ≤ 16384) := by
    rintro ⟨hrun, hslots⟩
    rcases h with hstop | hfull
    · simp [hrun] at hstop
    · exact absurd hslots (Nat.not_le.mpr hfull)
  simp only [queuedGroupStart, hqueue, if_neg hno]

end
end Sys2Proof.Machine

open Sys2Proof Sys2Proof.Machine

/-- Settles O16: the end of a ramp by whether there is one and its test, and the head group by whether it fits. -/
theorem rampsAndQueuedGroupsAct : Obligations.RampsAndQueuedGroupsAct := by
  unfold Obligations.RampsAndQueuedGroupsAct
  refine ⟨⟨?ramp, ?noRamp, ?notASwap, ?swap, ?noSwap⟩, ?starts, ?waits, ?empty⟩
  case ramp =>
    intro s p r g rest hp hr hsegs
    rw [exec_rampEnd_of_ne_swap hp, rampEnd_of_ramp hr hsegs]
    rfl
  case noRamp =>
    intro s p h
    cases p with
    | swap k => rfl
    | _ => rw [exec_rampEnd_of_ne_swap (by simp), rampEnd_of_no_ramp h]
  case notASwap => exact fun s k => exec_rampEnd_swap k s
  case swap =>
    intro s k r g rest hr hsegs
    rw [exec_rowSwapEnd, rampEnd_of_ramp hr hsegs, State.lagOf_swap, Nat.add_zero, Nat.one_mul]
    rfl
  case noSwap =>
    intro s k h
    rw [exec_rowSwapEnd, rampEnd_of_no_ramp h]
  case starts =>
    intro s g rest hqueue hrun hslots
    rw [exec_queuedGroupStart, queuedGroupStart_fits hqueue hrun hslots]
    rfl
  case waits =>
    intro s g rest hqueue h
    rw [exec_queuedGroupStart, queuedGroupStart_waits hqueue h]
  case empty =>
    intro s h
    rw [exec_queuedGroupStart, queuedGroupStart_of_queue_nil h]
end

/-! ### Samples of the mix

A destination's frame sample by sample, and the sum before rounding with and without a strike (R54, R57, R58, R71, R74). -/

section
namespace Sys2Proof.Machine

/-- A stateless stage works sample by sample, and counts the sum over the samples. -/
theorem mapFrame_eq (f : Nat → Int → Int × Nat) (xs : List Int) :
    mapFrame f xs = (xs.mapIdx fun i x => (f i x).1, (xs.mapIdx fun i x => (f i x).2).sum) := by
  obtain ⟨hsamples, hcount⟩ := runFrame_eq f xs 0
  simp only [Nat.zero_add] at hsamples hcount
  exact Prod.ext hsamples hcount

/-- Over the zeros of a frame only the positions are left. -/
theorem mapIdx_zeros {α : Type} (f : Nat → Int → α) (n : Nat) :
    (zeros n).mapIdx f = (List.range n).map fun i => f i 0 :=
  List.ext_getElem (by simp [zeros]) (by simp [zeros])

/-- The samples limited to W32 are those that the limit changes. -/
theorem sum_limW32 (r : Nat → Int) (l : List Nat) :
    (l.map fun i => (limW32 (r i)).2).sum = (l.filter fun i => clampW32 (r i) != r i).length := by
  induction l with
  | nil => rfl
  | cons i l ih => by_cases h : clampW32 (r i) = r i <;> simp [limW32, h, ← ih, Nat.add_comm]

variable (s : State) (rows : List (Nat × List Int)) (d b : Nat)

/-- The sample of a destination before it is limited (R57). -/
def State.mixRounded (i : Nat) : Int := roundEven (s.mixAt rows d b i).1 (s.mixAt rows d b i).2

/-- A destination's frame holds its rounded samples limited to W32, and counts those that the limit changes (R57, R58). -/
theorem State.destFrame_eq (n : Nat) : s.destFrame rows d b n =
    ((List.range n).map fun i => clampW32 (s.mixRounded rows d b i),
      ((List.range n).filter fun i => clampW32 (s.mixRounded rows d b i) != s.mixRounded rows d b i).length) := by
  rw [← sum_limW32]
  simp only [State.destFrame, mapFrame_eq, mapIdx_zeros]
  rfl

variable {s rows d b}

/-- Outside every strike a sample is mixed on the live plane alone (R54). -/
theorem State.mixAt_outside_strikes {i : Nat} (h : ∀ k ∈ s.strikes, ¬ (k.first ≤ b + i ∧ b + i < k.first + k.len)) :
    s.mixAt rows d b i = (s.sumAt rows (s.planeAt (b + i)) d b i, 19) := by
  have hnone : (s.strikes.find? fun k => decide (k.first ≤ b + i ∧ b + i < k.first + k.len)) = none := by
    simpa only [List.find?_eq_none, decide_eq_true_eq] using h
  simp only [State.mixAt, hnone]

/-- Within the one strike the sums of both planes are weighted (R71). -/
theorem State.mixAt_in_strike {i : Nat} {k : Strike} (hk : s.strikes = [k]) (hfirst : k.first ≤ b + i)
    (hlast : b + i < k.first + k.len) : s.mixAt rows d b i =
      ((weights k.law (b + i - k.first) k.len).1 * s.sumAt rows (1 - s.planeAt (b + i)) d b i +
        (weights k.law (b + i - k.first) k.len).2 * s.sumAt rows (s.planeAt (b + i)) d b i, 42) := by
  simp [State.mixAt, hk, hfirst, hlast]

end Sys2Proof.Machine

open Sys2Proof Sys2Proof.Machine

/-- Settles O60: convergent rounding is nearest with ties to even, and the frame and the mix are said sample by sample. -/
theorem mixSamplesAreRounded : Obligations.MixSamplesAreRounded := by
  unfold Obligations.MixSamplesAreRounded
  refine ⟨?rounding, ?frame, ?outside, ?striking⟩
  case rounding => exact roundEven_near
  case frame =>
    intro s rows d b n
    rw [State.destFrame_eq]
    refine ⟨by simp, fun i hi => ?_, rfl⟩
    simp [List.getD, hi, State.mixRounded]
  case outside => exact fun _ _ _ _ _ h => State.mixAt_outside_strikes h
  case striking => exact fun _ _ _ _ _ _ hk hfirst hlast => State.mixAt_in_strike hk hfirst hlast
end

/-! ### Class Z writes

A write of a trim, a polarity, a cut or a preamplifier's gain by the tick and by the change that is pending
(R114, R117, R118, R120, R140). -/

section
namespace Sys2Proof.Machine

/-! ### A change that gives way to a new one -/

section
variable {s : State} {p : ZParam}

/-- An event of the lockstep digest leaves the engine. -/
@[simp] theorem State.note_eng (typ addr elem count : Nat) : (s.note typ addr elem count).eng = s.eng := by
  unfold State.note
  split <;> rfl

/-- The step of a change leaves the engine. -/
@[simp] theorem State.stepped_eng (z : ZPend) : (s.stepped p z).eng = s.eng := by
  unfold State.stepped
  split <;> simp

/-- The list of pending changes is no part of the engine. -/
@[simp] theorem State.setZ_eng (z : Option ZPend) : (s.setZ p z).eng = s.eng := rfl

/-- A parameter whose change has been taken away has none pending. -/
theorem State.z?_setZ_none : (s.setZ p none).z? p = none := by
  simp [State.z?, State.setZ]

/-- The new value of a settled change goes out where the parameter is a preamplifier's gain (R120, R140). -/
def State.releaseIfPreamp (s : State) (p : ZParam) (v : Int) : State :=
  match p with
  | .preamp n => s.releasePreamp n v
  | _ => s

/-- The release of a settled change leaves the engine. -/
@[simp] theorem State.releaseIfPreamp_eng (v : Int) : (s.releaseIfPreamp p v).eng = s.eng := by
  cases p <;> rfl

/-- The release of a settled change leaves the pending changes. -/
@[simp] theorem State.releaseIfPreamp_bel (v : Int) : (s.releaseIfPreamp p v).bel = s.bel := by
  cases p <;> rfl

section
variable {z : ZPend} {f : Nat} (hz : s.z? p = some z) (hstep : z.stepAt = some f)
include hz hstep

/-- What the settling of a change whose step has been found comes to: the step is made unless its release is all that is
left of it, the change goes, and a preamplifier's gain is released (R117, R118, R120). -/
theorem State.settleZ_of_step :
    s.settleZ p = ((if z.release then s else s.stepped p z).setZ p none).releaseIfPreamp p z.new := by
  simp only [State.settleZ, hz, hstep, Option.isNone_some, Bool.false_eq_true, if_false]
  cases p <;> rfl

/-- After its settling a parameter whose step had been found has no change pending. -/
theorem State.z?_settleZ : (s.settleZ p).z? p = none := by
  rw [State.settleZ_of_step hz hstep, State.z?, State.releaseIfPreamp_bel]
  exact State.z?_setZ_none

end

/-- The settling of a change leaves the engine. -/
@[simp] theorem State.settleZ_eng : (s.settleZ p).eng = s.eng := by
  cases hz : s.z? p with
  | none => rw [settleZ_none hz]
  | some z =>
    cases hstep : z.stepAt with
    | none => rw [settleZ_open hz hstep]
    | some f =>
      rw [State.settleZ_of_step hz hstep, State.releaseIfPreamp_eng, State.setZ_eng]
      split <;> simp

end

/-! ### What a write does -/

section
variable {c : Ctx} {u : State} {p : ZParam} {v : Int}

/-- With the tick stopped the value applies at once (R114). -/
theorem writeZ_stopped (hstop : u.ticking = false) : writeZ c p v u = ok (zAtOnce p v u) := by
  simp [writeZ, zAtOnce, hstop]

section
variable (hnow : c.atOnce = false) (hrun : u.ticking = true)
include hnow hrun

/-- Where no change is left pending the search for a crossing starts (R115 to R118). -/
theorem writeZ_arms (hdue : c.due = none) (hnone : (u.settleZ p).z? p = none) :
    writeZ c p v u = ok (zArmed p v (u.settleZ p)) := by
  have hrun' : (u.settleZ p).ticking = true := by simpa [State.ticking] using hrun
  simp only [writeZ, zArmed, hnow, hrun, hrun', hdue, hnone, Bool.false_eq_true, not_true_eq_false, or_self, if_false]
  split <;> rfl

/-- While a change still searches the new value replaces its own, or cancels it where it is the value that applies (R117,
R118). -/
theorem writeZ_replaces {z : ZPend} (hz : u.z? p = some z) (hstep : z.stepAt = none) : writeZ c p v u =
    ok ((u.set (zKey p).1 (zKey p).2 0 v).setZ p (if v = z.old then none else some { z with new := v })) := by
  simp only [writeZ, settleZ_open hz hstep, hnow, hrun, hz, Bool.false_eq_true, not_true_eq_false, or_self, if_false]
  split <;> rfl

end

/-- With the tick running a preamplifier's gain is written as any other Class Z parameter (R120). -/
theorem writePreampGain_running (hrun : u.ticking = true) :
    writePreampGain c u = writeZ c (.preamp c.q.inst) c.arg u := by
  simp [writePreampGain, hrun]

/-- With the tick stopped a new gain of a preamplifier is stored and released (R114, R140). -/
theorem writePreampGain_released (hnow : c.atOnce = false) (hstop : u.ticking = false)
    (hnew : u.a Attr.insPreampGain c.q.inst 0 ≠ c.arg) :
    writePreampGain c u = ok ((u.set Attr.insPreampGain c.q.inst 0 c.arg).releasePreamp c.q.inst c.arg) := by
  simp [writePreampGain, hnow, hstop, hnew]

/-- With the tick stopped a preamplifier's gain that stands already is not released again. -/
theorem writePreampGain_held (hheld : u.a Attr.insPreampGain c.q.inst 0 = c.arg) :
    writePreampGain c u = writeZ c (.preamp c.q.inst) c.arg u := by
  simp [writePreampGain, hheld]

end
end Sys2Proof.Machine

open Sys2Proof Sys2Proof.Machine

/-- Settles O14: every row is one Class Z write of the parameter it names, by what is pending of it; a preamplifier's gain
differs with the tick stopped alone. -/
theorem classZWritesPerform : Obligations.ClassZWritesPerform := by
  unfold Obligations.ClassZWritesPerform
  intro running
  have hrunning : ∀ (mk : Req → Instr) (row : Row) (eff : Effect) (p : Ctx → ZParam),
      (∀ q s, exec (mk q) s = .next (serve row eff q s)) →
      (∀ c u, u.ticking = true → eff c u = writeZ c (p c) c.arg u) → running mk row p := by
    intro mk row eff p hexec heff
    refine ⟨?fresh, ?searching, ?found⟩
    case fresh =>
      refine performs_of_effect hexec fun c u hdue _ hnow _ ⟨hrun, hnone⟩ => ?_
      rw [heff c u hrun, writeZ_arms hnow hrun hdue (by rw [settleZ_none hnone, hnone]), settleZ_none hnone]
      rfl
    case searching =>
      intro z
      refine performs_of_effect hexec fun c u _ _ hnow _ ⟨hrun, hz, hstep⟩ => ?_
      rw [heff c u hrun, writeZ_replaces hnow hrun hz hstep]
      rfl
    case found =>
      intro z f
      refine performs_of_effect hexec fun c u hdue _ hnow _ ⟨hrun, hz, hstep⟩ => ?_
      rw [heff c u hrun, writeZ_arms hnow hrun hdue (State.z?_settleZ hz hstep)]
      rfl
  have hstopped : ∀ (mk : Req → Instr) (row : Row) (p : Ctx → ZParam),
      (∀ q s, exec (mk q) s = .next (serve row (fun c => writeZ c (p c) c.arg) q s)) →
      Performs mk row (fun _ u => u.ticking = false) (fun c u => (zAtOnce (p c) c.arg u, {})) :=
    fun _ _ _ hexec => performs_of_effect hexec fun _ _ _ _ _ _ hstop => writeZ_stopped hstop
  refine ⟨?trimStopped, ?trim, ?polarityStopped, ?polarity, ?cutStopped, ?cut, ?gainReleased, ?gainHeld, ?gain⟩
  case trimStopped => exact hstopped _ _ (fun c => .trim c.q.inst) fun _ _ => rfl
  case trim => exact hrunning _ _ writeTrim _ (fun _ _ => rfl) fun _ _ _ => rfl
  case polarityStopped => exact hstopped _ _ (fun c => .polarity c.q.inst) fun _ _ => rfl
  case polarity => exact hrunning _ _ writePolarity _ (fun _ _ => rfl) fun _ _ _ => rfl
  case cutStopped => exact hstopped _ _ cutParam fun _ _ => rfl
  case cut => exact hrunning _ _ writeCut _ (fun _ _ => rfl) fun _ _ _ => rfl
  case gainReleased =>
    exact performs_of_effect (fun _ _ => rfl) fun _ _ _ _ hnow _ ⟨hstop, hnew⟩ => writePreampGain_released hnow hstop hnew
  case gainHeld =>
    refine performs_of_effect (eff := writePreampGain) (fun _ _ => rfl) fun c u _ _ _ _ ⟨hstop, hheld⟩ => ?_
    rw [writePreampGain_held hheld, writeZ_stopped hstop]
    rfl
  case gain => exact hrunning _ _ writePreampGain _ (fun _ _ => rfl) fun _ _ => writePreampGain_running
end

/-! ### Steps of Class Z changes

A change by whether its step has been found, and how: at a crossing, at the end of its search, or its release
(R116, R117, R120, R140). -/

section
namespace Sys2Proof.Machine

/-- ZERO_CROSSING answers with its meaning. -/
@[simp] theorem exec_zeroCrossing (p : ZParam) (s : State) : exec (.zeroCrossing p) s = .next (zeroCrossing p s) := rfl

/-- ZC_TIMEOUT answers with its meaning. -/
@[simp] theorem exec_zcTimeout (p : ZParam) (s : State) : exec (.zcTimeout p) s = .next (zcTimeout p s) := rfl

/-- PREAMP_RELEASE answers with its meaning. -/
@[simp] theorem exec_preampRelease (n : Nat) (s : State) : exec (.preampRelease n) s = .next (preampRelease n s) := rfl

variable {s : State} {p : ZParam} {z : ZPend} {n : Nat}

/-! ### Found at a crossing, or out of time -/

/-- With no change pending there is no crossing to find. -/
theorem zeroCrossing_of_none (h : s.z? p = none) : zeroCrossing p s = s := by simp only [zeroCrossing, h]

/-- With no change pending there is no search to run out. -/
theorem zcTimeout_of_none (h : s.z? p = none) : zcTimeout p s = s := by simp only [zcTimeout, h]

/-- The step of a change found at a crossing is noted at its sample. -/
theorem State.stepped_crossing {f : Nat} (hstep : z.stepAt = some f) (htime : z.timedOut = false) :
    s.stepped p z = s.note 5 (address (zKey p).1 (zKey p).2) 0 f := by
  simp [State.stepped, hstep, htime]

/-- The step of a change whose search ran out is counted, and noted at its sample. -/
theorem State.stepped_timeout {f : Nat} (hstep : z.stepAt = some f) (htime : z.timedOut = true) :
    s.stepped p z = (s.bump Attr.belZcTimeouts 0 0).note 5 (address (zKey p).1 (zKey p).2) 0 f := by
  simp [State.stepped, hstep, htime]

section
variable (hz : s.z? p = some z)
include hz

/-- A change found at a crossing is made and done, unless its release is all that is left of it (R116, R117). -/
theorem zeroCrossing_of_pending : zeroCrossing p s =
    if z.stepAt.isSome ∧ ¬ z.timedOut ∧ ¬ z.release then (s.stepped p z).zDone p z else s := by
  simp only [zeroCrossing, hz]
  cases p <;> rfl

/-- A change whose search ran out is made and done, unless its release is all that is left of it (R117). -/
theorem zcTimeout_of_pending : zcTimeout p s =
    if z.stepAt.isSome ∧ z.timedOut ∧ ¬ z.release then (s.stepped p z).zDone p z else s := by
  simp only [zcTimeout, hz]
  cases p <;> rfl

/-- A change that still searches, or whose search ran out, is found at no crossing. -/
theorem zeroCrossing_not_found (h : z.stepAt = none ∨ z.timedOut = true) : zeroCrossing p s = s := by
  rw [zeroCrossing_of_pending hz]
  rcases h with h | h <;> simp [h]

/-- A change that still searches, or was found at a crossing, is not out of time. -/
theorem zcTimeout_not_found (h : z.stepAt = none ∨ z.timedOut = false) : zcTimeout p s = s := by
  rw [zcTimeout_of_pending hz]
  rcases h with h | h <;> simp [h]

end

/-! ### The release of a preamplifier's gain -/

/-- With no change of a preamplifier pending nothing is released. -/
theorem preampRelease_of_none (h : s.z? (.preamp n) = none) : preampRelease n s = s := by simp only [preampRelease, h]

/-- A change that still searches is not released. -/
theorem preampRelease_of_searching (hz : s.z? (.preamp n) = some z) (hstep : z.stepAt = none) : preampRelease n s = s := by
  simp only [preampRelease, hz, hstep]

/-- A change whose step has been found is released once the frame of its step has been evaluated (R120, R140). -/
theorem preampRelease_of_step {f : Nat} (hz : s.z? (.preamp n) = some z) (hstep : z.stepAt = some f) : preampRelease n s =
    if s.ticking = true ∧ s.evaluated 0 (f + 1) = false then s
    else (s.setZ (.preamp n) none).releasePreamp n z.new := by
  simp only [preampRelease, hz, hstep]

end Sys2Proof.Machine

open Sys2Proof Sys2Proof.Machine

/-- Settles O15: each event by whether a change is pending, whether its step has been found, and how. -/
theorem classZStepsAct : Obligations.ClassZStepsAct := by
  unfold Obligations.ClassZStepsAct
  refine ⟨?crossing, ?timeout, ?released, ?notYet, ?searching, ?notCrossed, ?notTimedOut, ?notReleased,
    ?noChange, ?noPreamp⟩
  case crossing =>
    intro s p z f hz hstep htime hrel
    rw [exec_zeroCrossing, zeroCrossing_of_pending hz, if_pos (by simp [hstep, htime, hrel]),
      State.stepped_crossing hstep htime]
  case timeout =>
    intro s p z f hz hstep htime hrel
    rw [exec_zcTimeout, zcTimeout_of_pending hz, if_pos (by simp [hstep, htime, hrel]),
      State.stepped_timeout hstep htime]
  case released =>
    intro s n z f hz hstep h
    have hover : ¬ (s.ticking = true ∧ s.evaluated 0 (f + 1) = false) := by
      rintro ⟨hrun, hnot⟩
      simp [hrun, hnot] at h
    rw [exec_preampRelease, preampRelease_of_step hz hstep, if_neg hover]
  case notYet =>
    intro s n z f hz hstep hrun hnot
    rw [exec_preampRelease, preampRelease_of_step hz hstep, if_pos ⟨hrun, hnot⟩]
  case searching =>
    intro s p z hz hstep
    rw [exec_zeroCrossing, exec_zcTimeout, zeroCrossing_not_found hz (.inl hstep), zcTimeout_not_found hz (.inl hstep)]
    exact ⟨rfl, rfl⟩
  case notCrossed =>
    intro s p z hz htime
    rw [exec_zeroCrossing, zeroCrossing_not_found hz (.inr htime)]
  case notTimedOut =>
    intro s p z hz htime
    rw [exec_zcTimeout, zcTimeout_not_found hz (.inr htime)]
  case notReleased =>
    intro s n z hz hstep
    rw [exec_preampRelease, preampRelease_of_searching hz hstep]
  case noChange =>
    intro s p h
    rw [exec_zeroCrossing, exec_zcTimeout, zeroCrossing_of_none h, zcTimeout_of_none h]
    exact ⟨rfl, rfl⟩
  case noPreamp =>
    intro s n h
    rw [exec_preampRelease, preampRelease_of_none h]
end

/-! ### Held outputs

Each phase of a held output by whether it has reached its length (R131, R132). -/

section
namespace Sys2Proof.Machine

/-- HOLD_TIME_EXPIRY answers with its meaning. -/
@[simp] theorem exec_holdTimeExpiry (o : OutRef) (s : State) :
    exec (.holdTimeExpiry o) s = .next (holdTimeExpiry o s) := rfl

/-- HOLD_FADE_END answers with its meaning. -/
@[simp] theorem exec_holdFadeEnd (o : OutRef) (s : State) : exec (.holdFadeEnd o) s = .next (holdFadeEnd o s) := rfl

/-- RESUME_FADE_END answers with its meaning. -/
@[simp] theorem exec_resumeFadeEnd (o : OutRef) (s : State) :
    exec (.resumeFadeEnd o) s = .next (resumeFadeEnd o s) := rfl

variable {s : State} {o : OutRef}

/-- With no hold of the output no hold time expires. -/
theorem holdTimeExpiry_of_live (h : s.holdOf o = none) : holdTimeExpiry o s = s := by simp only [holdTimeExpiry, h]

/-- With no hold of the output no hold fade ends. -/
theorem holdFadeEnd_of_live (h : s.holdOf o = none) : holdFadeEnd o s = s := by simp only [holdFadeEnd, h]

/-- With no hold of the output no resume fade ends. -/
theorem resumeFadeEnd_of_live (h : s.holdOf o = none) : resumeFadeEnd o s = s := by simp only [resumeFadeEnd, h]

section
variable {h : Hold} (hheld : s.holdOf o = some h)
include hheld

/-- An output that holds its value starts its hold fade after its hold time, phase 1 (R131). -/
theorem holdTimeExpiry_of_held : holdTimeExpiry o s =
    if h.phase = 1 ∧ h.holdFor ≤ h.pos then s.setHold o (some { h with phase := 2, pos := h.pos - h.holdFor }) else s := by
  simp only [holdTimeExpiry, hheld]

/-- An output delivers zero after its hold fade, phase 2 (R131). -/
theorem holdFadeEnd_of_held : holdFadeEnd o s =
    if h.phase = 2 ∧ s.holdFade (s.outRate o) ≤ h.pos then s.setHold o (some { h with phase := 3, value := 0 }) else s := by
  simp only [holdFadeEnd, hheld]

/-- An output is live after the 32 samples of its resume fade, phase 4 (R132). -/
theorem resumeFadeEnd_of_held : resumeFadeEnd o s =
    if h.phase = 4 ∧ 32 ≤ h.pos then s.setHold o none else s := by
  simp only [resumeFadeEnd, hheld]

end
end Sys2Proof.Machine

open Sys2Proof Sys2Proof.Machine

/-- Settles O17: each event by the phase of the hold, and in its own phase by whether that has reached its length. -/
theorem heldOutputPhasesAct : Obligations.HeldOutputPhasesAct := by
  unfold Obligations.HeldOutputPhasesAct
  refine ⟨?holds, ?fades, ?resumes, ?notHolding, ?notFading, ?notResuming, ?live⟩
  case holds =>
    intro s o h hheld hphase
    simp only [exec_holdTimeExpiry, holdTimeExpiry_of_held hheld, hphase, true_and]
  case fades =>
    intro s o h hheld hphase
    simp only [exec_holdFadeEnd, holdFadeEnd_of_held hheld, hphase, true_and]
  case resumes =>
    intro s o h hheld hphase
    simp only [exec_resumeFadeEnd, resumeFadeEnd_of_held hheld, hphase, true_and]
  case notHolding =>
    intro s o h hheld hphase
    simp only [exec_holdTimeExpiry, holdTimeExpiry_of_held hheld, hphase, false_and, if_false]
  case notFading =>
    intro s o h hheld hphase
    simp only [exec_holdFadeEnd, holdFadeEnd_of_held hheld, hphase, false_and, if_false]
  case notResuming =>
    intro s o h hheld hphase
    simp only [exec_resumeFadeEnd, resumeFadeEnd_of_held hheld, hphase, false_and, if_false]
  case live =>
    intro s o h
    rw [exec_holdTimeExpiry, exec_holdFadeEnd, exec_resumeFadeEnd, holdTimeExpiry_of_live h, holdFadeEnd_of_live h,
      resumeFadeEnd_of_live h]
    exact ⟨rfl, rfl, rfl⟩
end

/-! ### Timed changes

A timed change that falls due, the handover at a tick, the cancelling of what waits, and a request with a take-effect
time by where its due sample lies (R77, R108, R121 to R129, R137). -/

section
namespace Sys2Proof.Machine

/-- TIMED_CHANGE_DUE answers with its meaning. -/
@[simp] theorem exec_timedChangeDue (id : Nat) (s : State) : exec (.timedChangeDue id) s = .next (timedChangeDue id s) := rfl

/-- TIMED_HANDOVER answers with its meaning. -/
@[simp] theorem exec_timedHandover (s : State) : exec .timedHandover s = .next (timedHandover s) := rfl

/-! ### The effect of a change that has fallen due (R129, R137) -/

section
variable {s : State} {c : Ctx}

/-- The elements of a timed change that a change accepted later has written for the same frame (R137). -/
def State.lostKeys (s : State) (c : Ctx) : List Nat := c.keys.filter (s.overtaken c)

/-- A state in which the elements `lost` hold what they held in `s`. -/
def State.restore (s : State) (lost : List Nat) (u : State) : State :=
  lost.foldl (fun (u : State) k =>
    u.set (keyCode k) (keyInst k) (keyElem k) (s.a (keyCode k) (keyInst k) (keyElem k))) u

/-- A change all of whose elements have been written since has no effect. -/
theorem State.applyTimed_of_overtaken (hlost : s.lostKeys c ≠ []) (hall : s.lostKeys c = c.keys) : s.applyTimed c = s :=
  if_pos ⟨hlost, hall⟩

section
variable (h : s.lostKeys c ≠ [] → s.lostKeys c ≠ c.keys)
include h

/-- A change with an element left has its effect: a write keeps the elements written since, and is journalled; an action
records its own (R129, R137). -/
theorem State.applyTimed_ok {u : State} {o : Out} (heff : effectOf (rowOf c.q) c s = .ok (u, o)) : s.applyTimed c =
    if c.q.op = 5 then u else ((s.restore (s.lostKeys c) u).noteStored c).journal c := by
  have hleft : ¬ (s.lostKeys c ≠ [] ∧ s.lostKeys c = c.keys) := not_and.mpr h
  simp only [State.lostKeys] at hleft
  simp only [State.applyTimed, if_neg hleft, heff, State.restore, State.lostKeys]

/-- A change that its effect refuses counts what the refusal names. -/
theorem State.applyTimed_error {f : Fail} (heff : effectOf (rowOf c.q) c s = .error f) :
    s.applyTimed c = s.bumps f.counts := by
  have hleft : ¬ (s.lostKeys c ≠ [] ∧ s.lostKeys c = c.keys) := not_and.mpr h
  simp only [State.lostKeys] at hleft
  simp only [State.applyTimed, if_neg hleft, heff]

end
end

/-! ### A timed change by its due sample (R121, R126) -/

section
variable {s : State} {t : Timed}

/-- A timed change whose due sample is reached: in this period where the hardware holds it, before it where the supervisor
does, and by now with the tick stopped (R114, R121, R126). -/
def State.dueReached (s : State) (t : Timed) : Prop :=
  if s.ticking = true then t.due < s.reach (reqCode t.req) t.req.inst + (if t.inHardware then s.eng.cfg.n else 0)
  else t.due ≤ s.countNow

/-- A timed change that the supervisor holds past its sample (R126). -/
def State.dueMissed (s : State) (t : Timed) : Prop :=
  s.ticking = true ∧ t.inHardware = false ∧ t.due < s.reach (reqCode t.req) t.req.inst

/-- A change held past its sample is due. -/
theorem State.dueReached_of_dueMissed (h : s.dueMissed t) : s.dueReached t := by
  obtain ⟨hrun, hsup, hlate⟩ := h
  simpa [State.dueReached, hrun, hsup] using hlate

/-- The test of `timedChangeDue` for a change that waits. -/
theorem State.not_dueReached_iff : ¬ s.dueReached t ↔
    if s.ticking = true then s.reach (reqCode t.req) t.req.inst + (if t.inHardware then s.eng.cfg.n else 0) ≤ t.due
    else s.countNow < t.due := by
  unfold State.dueReached
  split
  · exact Nat.not_lt
  · exact Nat.not_le

/-- What the context of a timed change tells its effect: that it was accepted, its number, and its due sample. -/
def Ctx.ofTimed (c : Ctx) (t : Timed) (due : Option Nat) : Ctx :=
  { c with due := due, accepted := true, id := some t.id, mirrored := true }

/-- A change that does not wait has no effect. -/
theorem timedChangeDue_of_not_found {id : Nat} (h : s.bel.timed.find? (·.id == id) = none) : timedChangeDue id s = s := by
  simp only [timedChangeDue, h]

section
variable (hfind : s.bel.timed.find? (·.id == t.id) = some t)
include hfind

/-- A change whose sample is not reached waits. -/
theorem timedChangeDue_of_not_dueReached (h : ¬ s.dueReached t) : timedChangeDue t.id s = s := by
  simp only [timedChangeDue, hfind, if_pos (State.not_dueReached_iff.mp h)]

/-- A change that is due and that its checks refuse by then is withdrawn. -/
theorem timedChangeDue_of_checks_error (h : s.dueReached t) {e : Fail} (hchecks : s.checks t.req = .error e) :
    timedChangeDue t.id s = s.without t.id := by
  have hgo := State.not_dueReached_iff.not.mp (not_not.mpr h)
  simp only [timedChangeDue, hfind, if_neg hgo, hchecks]

/-- A change that is due in time applies from its due sample (R121). -/
theorem timedChangeDue_on_time (h : s.dueReached t) (hin : ¬ s.dueMissed t) {c : Ctx} (hchecks : s.checks t.req = .ok c) :
    timedChangeDue t.id s = (s.without t.id).applyTimed (c.ofTimed t (some t.due)) := by
  have hgo := State.not_dueReached_iff.not.mp (not_not.mpr h)
  have htest : ¬ (s.ticking && !t.inHardware && decide (t.due < s.reach (reqCode t.req) t.req.inst)) = true := by
    simpa [State.dueMissed, and_assoc] using hin
  simp only [timedChangeDue, hfind, if_neg hgo, hchecks, if_neg htest, Ctx.ofTimed]

/-- A change that the supervisor holds past its sample is counted late and applies as an untimed write (R126). -/
theorem timedChangeDue_late (hlate : s.dueMissed t) {c : Ctx} (hchecks : s.checks t.req = .ok c) :
    timedChangeDue t.id s = ((s.without t.id).countLate t.req).applyTimed
      (c.ofTimed t (if t.req.op = 5 then some s.eng.count else none)) := by
  have hgo := State.not_dueReached_iff.not.mp (not_not.mpr (State.dueReached_of_dueMissed hlate))
  have htest : (s.ticking && !t.inHardware && decide (t.due < s.reach (reqCode t.req) t.req.inst)) = true := by
    simpa [State.dueMissed, and_assoc] using hlate
  simp only [timedChangeDue, hfind, if_neg hgo, hchecks, if_pos htest, Ctx.ofTimed, State.checks_q hchecks]

end

/-- With the tick stopped nothing is handed over. -/
theorem timedHandover_stopped (hstop : s.ticking = false) : timedHandover s = s := by
  simp [timedHandover, hstop]

end

/-! ### A request with a take-effect time (R121 to R127) -/

section
variable {eff : Effect} {c : Ctx} {u : State} {w : WhenAt} (hw : c.q.when_ = some w)
include hw

/-- A time more than 24 h ahead is refused (R125). -/
theorem perform_too_far (hfar : u.tbNow w.tb + 86400000000000 < w.t) : perform eff c u = .error ⟨rRange, 0, []⟩ := by
  simp only [perform, hw, if_pos hfar]

section
variable (hnear : ¬ u.tbNow w.tb + 86400000000000 < w.t)
include hnear

/-- A time on a time base that is OFF is refused, after what its own checks refuse earlier. -/
theorem perform_tbOff (hoff : u.n Attr.tbState w.tb 0 = 0) :
    perform eff c u = .error (sooner ⟨rState, 0, []⟩ (eff { c with due := some 0, accepted := true } u)) := by
  simp only [perform, hw, if_neg hnear, if_pos hoff]

section
variable (hon : u.n Attr.tbState w.tb 0 ≠ 0)
include hon

/-- With the tick stopped a change whose time has come is performed now (R114, R127). -/
theorem perform_stopped_past (hstop : u.ticking = false) (hpast : u.dueOf w ≤ u.countNow) :
    perform eff c u = performNow eff c u := by
  simp [perform, hw, hnear, hon, hstop, hpast]

section
variable (hrun : u.ticking = true) (hlate : u.dueOf w < u.reach c.code c.q.inst)
include hrun hlate

/-- A change in the past is refused and counted where the policy says so (R127). -/
theorem perform_late_refused (hpolicy : u.n Attr.belLatePolicy 0 0 = 1) : perform eff c u =
    .error (sooner ⟨rState, 0, [Attr.belLateCount]⟩ (eff { c with due := some (u.dueOf w), accepted := true } u)) := by
  simp [perform, hw, hnear, hon, hrun, hlate, hpolicy]

/-- A change in the past is else counted, performed now and noted (R127). -/
theorem perform_late {t : State} {o : Out} (hpolicy : u.n Attr.belLatePolicy 0 0 ≠ 1)
    (hnow : performNow eff c (u.bump Attr.belLateCount 0 0) = .ok (t, o)) :
    perform eff c u = .ok (t.note 9 (address c.code c.q.inst) c.q.elem u.eng.count, o) := by
  simp [perform, hw, hnear, hon, hrun, hlate, hpolicy, hnow]

end

section
variable (hahead : if u.ticking = true then u.reach c.code c.q.inst ≤ u.dueOf w else u.countNow < u.dueOf w)
include hahead

omit hw hnear hon in
/-- A change ahead is neither due now nor late. -/
theorem State.ahead_not_past : ¬ (¬ u.ticking = true ∧ u.dueOf w ≤ u.countNow) ∧
    ¬ (u.ticking = true ∧ u.dueOf w < u.reach c.code c.q.inst) := by
  split at hahead
  case isTrue hrun => exact ⟨fun h => h.1 hrun, fun h => absurd hahead (Nat.not_le.mpr h.2)⟩
  case isFalse hstop => exact ⟨fun h => absurd hahead (Nat.not_lt.mpr h.2), fun h => hstop h.1⟩

/-- A change ahead beside 8,192 others is refused, after what its own checks refuse earlier (R124). -/
theorem perform_full (hfull : 8192 ≤ u.bel.timed.length) : perform eff c u =
    .error (sooner ⟨rBusy, 0, []⟩ (eff { c with due := some (u.dueOf w), accepted := true } u)) := by
  obtain ⟨hpast, hlate⟩ := State.ahead_not_past hahead
  simp only [perform, hw, if_neg hnear, if_neg hon, if_neg hpast, if_neg hlate, if_pos hfull]

section
variable (hroom : u.bel.timed.length < 8192)
include hroom

/-- A write ahead that its effect takes on the present state is filed (R121, R126). -/
theorem perform_write_ahead (hop : c.q.op ≠ 5) {x : State × Out}
    (heff : eff { c with due := some (u.dueOf w), accepted := true } u = .ok x) :
    perform eff c u = .ok ((u.file c.q (u.dueOf w)).mirrorWrite c, {}) := by
  obtain ⟨hpast, hlate⟩ := State.ahead_not_past hahead
  simp only [perform, hw, if_neg hnear, if_neg hon, if_neg hpast, if_neg hlate, if_neg (Nat.not_le.mpr hroom), if_neg hop,
    heff]

/-- A write ahead that its effect refuses on the present state is refused, unless it lacks ramp slots alone (R108). -/
theorem perform_write_ahead_error (hop : c.q.op ≠ 5) {f : Fail}
    (heff : eff { c with due := some (u.dueOf w), accepted := true } u = .error f) : perform eff c u =
      if f.code = rRampFull then .ok ((u.file c.q (u.dueOf w)).mirrorWrite c, {}) else .error f := by
  obtain ⟨hpast, hlate⟩ := State.ahead_not_past hahead
  simp only [perform, hw, if_neg hnear, if_neg hon, if_neg hpast, if_neg hlate, if_neg (Nat.not_le.mpr hroom), if_neg hop,
    heff]

/-- A strike ahead that its effect takes is filed (R69, R77). -/
theorem perform_strike_ahead (hop : c.q.op = 5) {t : State} {o : Out}
    (heff : eff { c with sched := some (u.dueOf w) } u = .ok (t, o)) :
    perform eff c u = .ok ((t.file c.q (u.dueOf w)).mirrorWrite c, o) := by
  obtain ⟨hpast, hlate⟩ := State.ahead_not_past hahead
  simp only [perform, hw, if_neg hnear, if_neg hon, if_neg hpast, if_neg hlate, if_neg (Nat.not_le.mpr hroom), if_pos hop,
    heff]

end
end
end
end
end
end Sys2Proof.Machine

open Sys2Proof Sys2Proof.Machine

/-- Settles O18: a timed change by whether it waits, is due or is late, and a request with a take-effect time by where its
due sample lies. -/
theorem timedChangesAct : Obligations.TimedChangesAct := by
  unfold Obligations.TimedChangesAct
  refine ⟨?changes, ?cancel, ?scheduling⟩
  case changes =>
    intro reached lateNow counted restored applies
    have happlies : ∀ (s v : State) (t : Timed) (c : Ctx), c.q = t.req →
        timedChangeDue t.id s = v.applyTimed c → applies s t c v := by
      intro s v t c hq hdue
      have hexec : exec (.timedChangeDue t.id) s = .next (v.applyTimed c) := by rw [exec_timedChangeDue, hdue]
      refine ⟨fun hlost hall => ?overtaken, fun hleft u o heff => ?done, fun hleft f heff => ?refused⟩
      case overtaken => rw [hexec, State.applyTimed_of_overtaken hlost hall]
      case done =>
        rw [hexec, State.applyTimed_ok hleft (hq ▸ heff), hq]
        rfl
      case refused => rw [hexec, State.applyTimed_error hleft (hq ▸ heff)]
    refine ⟨?onTime, ?late, ?withdrawn, ?waits, ?notFound, ?handover, ?stopped⟩
    case onTime =>
      exact fun s t c hfind hdue hin hchecks =>
        happlies s _ t _ (State.checks_q (c := c) hchecks) (timedChangeDue_on_time hfind hdue hin hchecks)
    case late =>
      exact fun s t c hfind hlate hchecks =>
        happlies s _ t _ (State.checks_q (c := c) hchecks) (timedChangeDue_late hfind hlate hchecks)
    case withdrawn =>
      intro s t e hfind hdue hchecks
      rw [exec_timedChangeDue, timedChangeDue_of_checks_error hfind hdue hchecks]
    case waits =>
      intro s t hfind hdue
      rw [exec_timedChangeDue, timedChangeDue_of_not_dueReached hfind hdue]
    case notFound =>
      intro s id h
      rw [exec_timedChangeDue, timedChangeDue_of_not_found h]
    case handover =>
      intro s hrun
      rw [exec_timedHandover, timedHandover, if_neg (not_not.mpr hrun)]
    case stopped =>
      intro s hstop
      rw [exec_timedHandover, timedHandover_stopped hstop]
  case cancel => exact performs_of_effect (eff := cancelTimed) (fun _ _ => rfl) fun _ _ _ _ _ _ _ => rfl
  case scheduling =>
    intro timed open_
    refine ⟨?tooFar, ?tbOff, ?past, ?lateRefused, ?late, ?ahead⟩
    case tooFar => exact fun _ _ _ _ hw hfar => perform_too_far hw hfar
    case tbOff => exact fun _ _ _ _ hw hnear hoff => perform_tbOff hw hnear hoff
    case past => exact fun _ _ _ _ hw ⟨hnear, hon⟩ hstop hpast => perform_stopped_past hw hnear hon hstop hpast
    case lateRefused =>
      exact fun _ _ _ _ hw ⟨hnear, hon⟩ hrun hlate hpolicy => perform_late_refused hw hnear hon hrun hlate hpolicy
    case late =>
      exact fun _ _ _ _ _ _ hw ⟨hnear, hon⟩ hrun hlate hpolicy hnow =>
        perform_late hw hnear hon hrun hlate hpolicy hnow
    case ahead =>
      intro eff c u w hw ⟨hnear, hon⟩ hahead
      refine ⟨fun hfull => ?full, fun hroom hop x heff => ?filed, fun hroom hop f heff hslots => ?refused,
        fun hroom hop t o heff => ?strike⟩
      case full => exact perform_full hw hnear hon hahead hfull
      case filed => exact perform_write_ahead hw hnear hon hahead hroom hop heff
      case refused =>
        rw [perform_write_ahead_error hw hnear hon hahead hroom hop heff, if_neg hslots]
      case strike => exact perform_strike_ahead hw hnear hon hahead hroom hop heff
end

/-! ### Settings of a strip

Coefficients by whether the sections they touch are stable, and bypasses, delays and keys by their ranges
(R142, R147 to R150, R156). -/

section
namespace Sys2Proof.Machine

variable {c : Ctx} {u : State}

/-- The sections of which a coefficient write holds a coefficient, five to a section (R147). -/
def Ctx.sections (c : Ctx) : List Nat :=
  (List.range ((c.q.elem + c.vals.length - 1) / 5 + 1)).drop (c.q.elem / 5)

/-- A coefficient write answers by the first section it touches that is unstable as it results (R147). -/
theorem writeCoefs_eq : writeCoefs c u =
    match c.sections.find? fun j => !(u.store c).sectionOk c.code c.q.inst j with
    | none => ok (u.store c)
    | some j => .error ⟨rRange, Nat.max c.q.elem (5 * j), []⟩ := rfl

/-- Coefficients that leave every section they touch stable are stored (R147). -/
theorem writeCoefs_stable (h : c.sections.all (fun j => (u.store c).sectionOk c.code c.q.inst j) = true) :
    writeCoefs c u = ok (u.store c) := by
  have hnone : c.sections.find? (fun j => !(u.store c).sectionOk c.code c.q.inst j) = none := by
    simpa [List.find?_eq_none] using h
  rw [writeCoefs_eq, hnone]

/-- Coefficients that leave a section unstable are refused at the first element they write of the first such (R147). -/
theorem writeCoefs_unstable (h : ¬ c.sections.all (fun j => (u.store c).sectionOk c.code c.q.inst j) = true) :
    writeCoefs c u = .error ⟨rRange, Nat.max c.q.elem
      (5 * (c.sections.find? fun j => !(u.store c).sectionOk c.code c.q.inst j).getD 0), []⟩ := by
  have hsome : (c.sections.find? fun j => !(u.store c).sectionOk c.code c.q.inst j).isSome = true := by
    simpa [List.find?_isSome] using h
  obtain ⟨j, hj⟩ := Option.isSome_iff_exists.mp hsome
  rw [writeCoefs_eq, hj, Option.getD_some]

/-- A delay of up to 2 s is stored (R142). -/
theorem writeDelay_within (h : c.arg ≤ ((2 * u.fs : Nat) : Int)) : writeDelay c u = ok (u.store c) :=
  if_neg fun hlong => Int.not_lt.mpr h hlong.2

/-- A longer delay is refused (R142). -/
theorem writeDelay_too_long (hnow : c.atOnce = false) (h : ((2 * u.fs : Nat) : Int) < c.arg) :
    writeDelay c u = refuse rRange :=
  if_pos ⟨by simp [hnow], h⟩

/-- A key that names a strip and a section is stored (R150). -/
theorem writeCompKey_of_keyOk (h : u.keyOk c.arg.toNat = true) : writeCompKey c u = ok (u.store c) :=
  if_neg fun hbad => hbad.2 h

/-- Any other key is refused (R150). -/
theorem writeCompKey_of_not_keyOk (hnow : c.atOnce = false) (h : u.keyOk c.arg.toNat = false) :
    writeCompKey c u = refuse rRange :=
  if_pos ⟨by simp [hnow], by simp [h]⟩

end Sys2Proof.Machine

open Sys2Proof Sys2Proof.Machine

/-- Settles O19: each setting by its own test, and the bypasses without one. -/
theorem stripSettingsPerform : Obligations.StripSettingsPerform := by
  unfold Obligations.StripSettingsPerform
  refine ⟨⟨?stable, ?unstable, ?sectionBypass, ?insertBypass⟩, ?delay, ?tooLong, ?key, ?badKey⟩
  case stable => exact performs_of_effect (fun _ _ => rfl) fun _ _ _ _ _ _ hstable => writeCoefs_stable hstable
  case unstable => exact refusesWith_of_effect (fun _ _ => rfl) fun _ _ _ _ _ _ hunstable => writeCoefs_unstable hunstable
  case sectionBypass => exact performs_of_effect (eff := writeSectionBypass) (fun _ _ => rfl) fun _ _ _ _ _ _ _ => rfl
  case insertBypass => exact performs_of_effect (eff := writeInsertBypass) (fun _ _ => rfl) fun _ _ _ _ _ _ _ => rfl
  case delay => exact performs_of_effect (fun _ _ => rfl) fun _ _ _ _ _ _ hwithin => writeDelay_within hwithin
  case tooLong => exact refuses_of_effect (fun _ _ => rfl) fun _ _ _ _ hnow _ hlong => writeDelay_too_long hnow hlong
  case key => exact performs_of_effect (fun _ _ => rfl) fun _ _ _ _ _ _ hkey => writeCompKey_of_keyOk hkey
  case badKey => exact refuses_of_effect (fun _ _ => rfl) fun _ _ _ _ hnow _ hkey => writeCompKey_of_not_keyOk hnow hkey
end

/-! ### Meters and detectors

Requests of loudness meters and silence detectors, and the events of loudness readings, peak holds and detectors
(R164 to R171). -/

section
namespace Sys2Proof.Machine

/-- LOUDNESS_UPDATE answers with its meaning. -/
@[simp] theorem exec_loudnessUpdate (s : State) : exec .loudnessUpdate s = .next (loudnessUpdate s) := rfl

/-- PEAK_HOLD_EXPIRY answers with its meaning. -/
@[simp] theorem exec_peakHoldExpiry (m : Nat) (s : State) : exec (.peakHoldExpiry m) s = .next (peakHoldExpiry m s) := rfl

/-- SILENT answers with its meaning. -/
@[simp] theorem exec_silent (k : Nat) (s : State) : exec (.silent k) s = .next (silent k s) := rfl

/-! ### Requests of loudness meters and detectors -/

section
variable {c : Ctx} {u : State}

/-- A meter that stands starts with a fresh stretch of blocks, its totals kept (R168). -/
theorem loudnessStart_stopped (h : u.n Attr.loudRunning c.q.inst 0 ≠ 1) : loudnessStart c u =
    ok ((u.withLoud c.q.inst { u.loudCtx c.q.inst with since := 0 }).set Attr.loudRunning c.q.inst 0 1) :=
  if_neg h

/-- A meter that runs goes on as it is (R168). -/
theorem loudnessStart_running (h : u.n Attr.loudRunning c.q.inst 0 = 1) : loudnessStart c u = ok u :=
  if_pos h

/-- A detector as a setting leaves it: its run begins anew, and a SILENT one returns to signal present (R169). -/
def State.detectorRestarted (u : State) (k : Nat) : State :=
  ({ u with mtr := { u.mtr with
      sil := Store.del u.mtr.sil k, silFound := u.mtr.silFound.filter (· != k) } } : State).setSilent k false

/-- A setting of a detector is stored and restarts it, where it is no tap or a tap that may be written (R166, R169). -/
theorem writeSilence_stored (h : c.code = Attr.silTap → u.tapOk c.arg.toNat = true) :
    writeSilence c u = ok ((u.store c).detectorRestarted c.q.inst) :=
  if_neg fun ⟨htap, _, hbad⟩ => hbad (h htap)

/-- A tap that may not be written is refused (R166). -/
theorem writeSilence_bad_tap (hnow : c.atOnce = false) (htap : c.code = Attr.silTap)
    (hbad : u.tapOk c.arg.toNat = false) : writeSilence c u = refuse rRange :=
  if_pos ⟨htap, by simp [hnow], by simp [hbad]⟩

end

/-! ### Events of peak holds and detectors -/

section
variable {s : State}

/-- What has run out of a meter's holds: the sample peak under the meter's own number, the true peak under that and 65536
(R164, R165). -/
def MeterCtx.runOut (x : MeterCtx) (m : Nat) : List Nat :=
  (if x.holdLeft = 0 ∧ 0 < x.held then [m] else []) ++ (if x.tpLeft = 0 ∧ 0 < x.tpHeld then [m + 65536] else [])

/-- The holds of a meter that have run out are noted, each once (R164). -/
theorem peakHoldExpiry_metered {m : Nat} {x : MeterCtx} (h : Store.find? s.mtr.meters m = some x) :
    peakHoldExpiry m s = { s with mtr := { s.mtr with
      peaksDone := s.mtr.peaksDone ++ (x.runOut m).filter fun k => !s.mtr.peaksDone.contains k } } := by
  simp only [peakHoldExpiry, h, MeterCtx.runOut]

/-- A meter that holds nothing has nothing run out. -/
theorem peakHoldExpiry_unmetered {m : Nat} (h : Store.find? s.mtr.meters m = none) : peakHoldExpiry m s = s := by
  simp only [peakHoldExpiry, h]

/-- A detector whose run has reached its hold turns SILENT, and the pins follow (R169, R170). -/
theorem silent_found {k : Nat} (h : s.mtr.silFound.contains k = true) : silent k s =
    (({ s with mtr := { s.mtr with silFound := s.mtr.silFound.filter (· != k) } } : State).setSilent k true).silPins :=
  if_pos h

/-- A detector whose run has not reached its hold does nothing. -/
theorem silent_not_found {k : Nat} (h : s.mtr.silFound.contains k = false) : silent k s = s :=
  if_neg (Bool.eq_false_iff.mp h)

end
end Sys2Proof.Machine

open Sys2Proof Sys2Proof.Machine

/-- Settles O21: each request by its own test, and each event by whether its condition holds. -/
theorem metersAndDetectorsAct : Obligations.MetersAndDetectorsAct := by
  unfold Obligations.MetersAndDetectorsAct
  refine ⟨⟨?start, ?startRunning, ?stop, ?reset, ?setting, ?badTap⟩, ?update, ?metered, ?unmetered, ?found, ?notFound⟩
  case start => exact performs_of_effect (fun _ _ => rfl) fun _ _ _ _ _ _ hstopped => loudnessStart_stopped hstopped
  case startRunning => exact performs_of_effect (fun _ _ => rfl) fun _ _ _ _ _ _ hrunning => loudnessStart_running hrunning
  case stop => exact performs_of_effect (eff := loudnessStop) (fun _ _ => rfl) fun _ _ _ _ _ _ _ => rfl
  case reset => exact performs_of_effect (eff := loudnessReset) (fun _ _ => rfl) fun _ _ _ _ _ _ _ => rfl
  case setting => exact performs_of_effect (fun _ _ => rfl) fun _ _ _ _ _ _ htap => writeSilence_stored htap
  case badTap =>
    exact refuses_of_effect (fun _ _ => rfl) fun _ _ _ _ hnow _ ⟨htap, hbad⟩ => writeSilence_bad_tap hnow htap hbad
  case update => exact exec_loudnessUpdate
  case metered =>
    intro s m x h
    rw [exec_peakHoldExpiry, peakHoldExpiry_metered h]
    rfl
  case unmetered =>
    intro s m h
    rw [exec_peakHoldExpiry, peakHoldExpiry_unmetered h]
  case found =>
    intro s k h
    rw [exec_silent, silent_found h]
  case notFound =>
    intro s k h
    rw [exec_silent, silent_not_found h]
end

/-! ### LOAD and UNLOAD

A load by what is staged, the free event lines and what admission answers; an unload by whether the module is named and by the
tick (R187 to R190, R248, R250, R306, R307). -/

section
namespace Sys2Proof.Machine

variable {c : Ctx} {u : State}

/-- An action that answers a ticket of its own keeps it (R250). -/
theorem underTicket_pending {t : State} {o : Nat} {a : Out} (hopens : (u.openTicket o 1).isSome = true)
    (hpending : a.result = rPending) : underTicket u o (.ok (t, a)) = .ok (t, a) := by
  obtain ⟨⟨_, _⟩, hx⟩ := Option.isSome_iff_exists.mp hopens
  unfold underTicket
  rw [hx]
  exact if_pos hpending

/-! ### A load -/

/-- The declaration of a module leaves the tick. -/
@[simp] theorem declared_ticking (m : Nat) (g : Image) (l : Nat) : (declared u m g l).ticking = u.ticking := by
  simp only [declared, State.imageAttrs, State.ticking, State.set_eng, State.setList_eng]
  rfl

/-- The answer of admission to a load: once taken, the channels are assigned and the image is recorded (R306, R508). -/
def loadRecorded (c : Ctx) (u : State) (a : Answer) : Answer :=
  a.map fun x => (x.1.assignChannels.commit (imageRecs c.q.inst (staged u c.q.inst)), x.2)

/-- A load to a slot that is declared is refused (R250). -/
theorem loadModule_of_declared (h : (u.mod? c.q.inst).isSome = true) : loadModule c u = refuse rState :=
  if_pos h

section
variable (hslot : (u.mod? c.q.inst).isNone = true)
include hslot

/-- A staged image that its checks refuse ends the load's ticket with their code (R248). -/
theorem loadModule_of_checkImage_error {e : Nat} (himage : checkImage (staged u c.q.inst) = .error e) :
    loadModule c u = underTicket u (address c.code c.q.inst) (refuse e) := by
  simp only [staged] at himage
  simp only [loadModule, Option.isNone_iff_eq_none.mp hslot, himage, Option.isSome_none, Bool.false_eq_true, if_false]

variable {g : Image} (himage : checkImage (staged u c.q.inst) = .ok g)
include himage

/-- An image that finds no run of event lines free ends the load's ticket with BUSY (R307). -/
theorem loadModule_of_no_lines (hlines : u.freeLines g.events = none) :
    loadModule c u = underTicket u (address c.code c.q.inst) (refuse rBusy) := by
  simp only [staged] at himage
  simp only [loadModule, Option.isNone_iff_eq_none.mp hslot, himage, hlines, Option.isSome_none, Bool.false_eq_true, if_false]

/-- An image that finds event lines is declared, and admission decides under the load's ticket (R187, R250). -/
theorem loadModule_of_lines {l : Nat} (hnow : c.atOnce = false) (hlines : u.freeLines g.events = some l) :
    loadModule c u = underTicket u (address c.code c.q.inst) (loadRecorded c u (admitChange u (declared u c.q.inst g l)
      (address c.code c.q.inst) [(attrKey Attr.modState c.q.inst 0, 0)])) := by
  simp only [staged] at himage
  simp only [loadModule, Option.isNone_iff_eq_none.mp hslot, himage, hlines, hnow, Option.isSome_none, Bool.false_eq_true,
    if_false, declared]
  generalize admitChange u _ _ _ = a
  cases a <;> rfl

end

/-! ### An unload -/

/-- An unload of an empty slot does nothing (R250). -/
theorem unloadModule_of_empty (h : (u.mod? c.q.inst).isNone = true) : unloadModule c u = ok u := by
  simp only [unloadModule, Option.isNone_iff_eq_none.mp h]

section
variable (hslot : (u.mod? c.q.inst).isSome = true) (hnow : c.atOnce = false)
include hslot hnow

/-- An unload of a module that an occupant or an insert names is refused (R250). -/
theorem unloadModule_of_named (hnamed : u.moduleNamed c.q.inst = true) : unloadModule c u = refuse rState := by
  obtain ⟨md, hmd⟩ := Option.isSome_iff_exists.mp hslot
  simp only [unloadModule, hmd, hnow, hnamed, Bool.false_eq_true, if_false, if_true]

/-- An unload of a module that nothing names is recorded; with the tick running it is filed behind the pending changes, and
with it stopped the module leaves at once (R250). -/
theorem unloadModule_of_free {k : Nat} {t : State} (hfree : u.moduleNamed c.q.inst = false)
    (hticket : u.openTicket (address c.code c.q.inst) 1 = some (k, t)) : unloadModule c u =
      let w := t.commit [actionRec c.code c.q.inst c.q.data]
      if u.ticking = true then
        okTicket { w with plc := { w.plc with
          plans := w.plc.plans ++ [Plan.mk [] 0 (some k) [(attrKey Attr.modState c.q.inst 0, 2)]] } } k
      else
        let x := (w.removeModule c.q.inst).freeRegions
        okTicket ((x.loadAttrs x.topo x.place).completeTicket k rOk) k := by
  obtain ⟨md, hmd⟩ := Option.isSome_iff_exists.mp hslot
  simp only [unloadModule, hmd, hnow, hfree, hticket, Bool.false_eq_true, if_false]

end
end Sys2Proof.Machine

open Sys2Proof Sys2Proof.Machine

/-- Settles O24: a load by its checks, its event lines and what admission answers, and an unload by what names the module and
by the tick. The order of moves, the event lines taken and the records are the model's choice (entries 17, 18, 22). -/
theorem loadAndUnloadPerform : Obligations.LoadAndUnloadPerform := by
  unfold Obligations.LoadAndUnloadPerform
  refine ⟨⟨?admitted, ?moved, ?behind, ?notAdmitted, ?noLines, ?badImage, ?declared⟩,
    ?stopped, ?running, ?named, ?empty⟩
  case admitted =>
    intro g l
    refine performsTicket_of_effect (fun _ _ => rfl) fun c u k t _ _ hnow _ ⟨hready, hadm, hplans⟩ hticket => ?_
    obtain ⟨hslot, himage, hlines, hopens⟩ := hready
    obtain ⟨w, hw⟩ := Option.isSome_iff_exists.mp hadm
    rw [hw, Option.getD_some] at hticket
    rw [loadModule_of_lines hslot himage hnow hlines, admitChange_ok hw (declared_ticking _ _ _) hplans]
    exact underTicket_ok hopens hticket
  case moved =>
    intro g l p r w m k t
    refine performs_of_effect (fun _ _ => rfl) fun c u _ _ hnow _ ⟨hready, hrun, hadm, horder, hplan⟩ => ?_
    obtain ⟨hslot, himage, hlines, hopens⟩ := hready
    rw [loadModule_of_lines hslot himage hnow hlines, admitChange_moved hrun hadm horder hplan]
    exact underTicket_pending hopens rfl
  case behind =>
    intro g l p w k t
    refine performs_of_effect (fun _ _ => rfl) fun c u _ _ hnow _ ⟨hready, hrun, hbehind, hadm, hplan⟩ => ?_
    obtain ⟨hslot, himage, hlines, hopens⟩ := hready
    rw [loadModule_of_lines hslot himage hnow hlines, admitChange_behind hrun hadm hbehind hplan]
    exact underTicket_pending hopens rfl
  case notAdmitted =>
    intro g l e
    refine performsTicket_of_effect (fun _ _ => rfl) fun c u k t _ _ hnow _ ⟨hready, hadm⟩ hticket => ?_
    obtain ⟨hslot, himage, hlines, -⟩ := hready
    rw [loadModule_of_lines hslot himage hnow hlines, admitChange_no hadm]
    exact underTicket_error hticket
  case noLines =>
    intro g
    refine performsTicket_of_effect (fun _ _ => rfl) fun c u k t _ _ _ _ ⟨hslot, himage, hlines⟩ hticket => ?_
    rw [loadModule_of_no_lines hslot himage hlines]
    exact underTicket_error hticket
  case badImage =>
    intro e
    refine performsTicket_of_effect (fun _ _ => rfl) fun c u k t _ _ _ _ ⟨hslot, himage⟩ hticket => ?_
    rw [loadModule_of_checkImage_error hslot himage]
    exact underTicket_error hticket
  case declared => exact refuses_of_effect (fun _ _ => rfl) fun _ _ _ _ _ _ hslot => loadModule_of_declared hslot
  case stopped =>
    refine performsTicket_of_effect (fun _ _ => rfl) fun c u k t _ _ hnow _ ⟨⟨hslot, hfree⟩, hstop⟩ hticket => ?_
    rw [unloadModule_of_free hslot hnow hfree hticket, if_neg (by simp [hstop])]
  case running =>
    refine performsTicket_of_effect (fun _ _ => rfl) fun c u k t _ _ hnow _ ⟨⟨hslot, hfree⟩, hrun⟩ hticket => ?_
    rw [unloadModule_of_free hslot hnow hfree hticket, if_pos hrun]
  case named =>
    exact refuses_of_effect (fun _ _ => rfl) fun _ _ _ _ hnow _ ⟨hslot, hnamed⟩ => unloadModule_of_named hslot hnow hnamed
  case empty => exact performs_of_effect (fun _ _ => rfl) fun _ _ _ _ _ _ hslot => unloadModule_of_empty hslot
end

/-! ### Reinstatement and defragmentation

reinstate_core by the core it names and a march under way; defragment by the policy, the fresh packing, the order of the moves
and the tick (R204, R205). -/

section
namespace Sys2Proof.Machine

variable {c : Ctx} {u : State}

/-! ### Reinstatement -/

/-- A number that is no core's is refused (R204). -/
theorem reinstateCore_of_no_core (harg : 47 < c.arg) : reinstateCore c u = refuse rRange :=
  if_pos (by omega)

section
variable (harg : c.arg ≤ 47)
include harg

/-- A core that is not retired is reinstated at once (R204). -/
theorem reinstateCore_of_not_retired (hcore : bit (u.n Attr.plcRetiredCores 0 0) c.arg.toNat = false) :
    reinstateCore c u = underTicket u (address c.code c.q.inst) (ok u) := by
  have hle : ¬ 47 < c.arg.toNat := by omega
  simp only [reinstateCore, if_neg hle, hcore, Bool.false_eq_true, not_false_eq_true, if_true]

variable (hcore : bit (u.n Attr.plcRetiredCores 0 0) c.arg.toNat = true)
include hcore

/-- A retired core waits for no other march (R204). -/
theorem reinstateCore_of_march (hmarch : u.fab.march.isSome = true) : reinstateCore c u = refuse rBusy := by
  have hle : ¬ 47 < c.arg.toNat := by omega
  simp only [reinstateCore, if_neg hle, hcore, not_true, if_false, hmarch, if_true]

/-- A retired core's group is marched destructively, and the end of the march decides (R204). -/
theorem reinstateCore_of_retired {k : Nat} {t : State} (hmarch : u.fab.march.isSome = false)
    (hticket : u.openTicket (address c.code c.q.inst) 6 = some (k, t)) : reinstateCore c u = okTicket
      { t with
        plc := { t.plc with reinstating := some (c.arg.toNat, k) }
        fab := { t.fab with march := some (March.mk (16 + c.arg.toNat) false k 0) } } k := by
  have hle : ¬ 47 < c.arg.toNat := by omega
  simp only [reinstateCore, if_neg hle, hcore, not_true, if_false, hmarch, Bool.false_eq_true, hticket]

end

/-! ### Defragmentation -/

/-- The moves from the placement to come to `q`, in an order in which every state on the way passes for the running and the
declared topology together (R189, R205). -/
def State.orderFresh (u : State) (q : Place) : Option (List PMove) :=
  (Topo.union u.runningTopo u.topo).order u.retired (2 * (u.futurePlace.movesTo q).length + 1) u.futurePlace
    (u.futurePlace.movesTo q)

/-- With a policy that allows no moves defragment is refused (R205). -/
theorem defragment_of_policy (hpolicy : u.topo.policy ≠ 0) : defragment c u = refuse rState :=
  if_pos hpolicy

section
variable (hpolicy : u.topo.policy = 0)
include hpolicy

/-- A topology that packs nowhere, or that no order of moves takes there, ends the ticket with ADMISSION (R205). -/
theorem defragment_of_nowhere (hno : u.topo.fresh u.retired = none ∨ u.freshRegions.toOption = none ∨
      ∃ q, u.topo.fresh u.retired = some q ∧ u.orderFresh q = none) :
    defragment c u = underTicket u (address c.code c.q.inst) (refuse rAdmission) := by
  cases hfresh : u.topo.fresh u.retired with
  | none => simp only [defragment, hpolicy, hfresh, ne_eq, not_true, if_false]
  | some q =>
    cases hregions : u.freshRegions with
    | error e => simp only [defragment, hpolicy, hfresh, hregions, ne_eq, not_true, if_false]
    | ok x =>
      have horder : u.orderFresh q = none := by simpa [hfresh, hregions, Except.toOption] using hno
      simp only [State.orderFresh] at horder
      simp only [defragment, hpolicy, hfresh, hregions, horder, ne_eq, not_true, if_false]

section
variable {q : Place} {w : State} {r l : List PMove} (hfresh : u.topo.fresh u.retired = some q)
  (hregions : u.freshRegions = .ok (w, r)) (horder : u.orderFresh q = some l)
include hfresh hregions horder

/-- With the tick stopped the topology and its regions move at once (R190, R205). -/
theorem defragment_of_stopped (hstop : u.ticking = false) :
    defragment c u = underTicket u (address c.code c.q.inst) (ok (w.moveAll q r)) := by
  simp only [State.orderFresh] at horder
  simp only [defragment, hpolicy, hfresh, hregions, horder, hstop, ne_eq, not_true, if_false, Bool.false_eq_true,
    not_false_eq_true, if_true]

variable (hrun : u.ticking = true)
include hrun

/-- A topology that is packed so already needs no plan (R205). -/
theorem defragment_of_no_moves (hnone : l ++ r = []) :
    defragment c u = underTicket u (address c.code c.q.inst) (ok u) := by
  simp only [State.orderFresh] at horder
  simp only [defragment, hpolicy, hfresh, hregions, horder, hrun, hnone, ne_eq, not_true, if_false, if_true]

/-- With the tick running the moves run under a plan, those of the regions last (R205). -/
theorem defragment_of_moves {k : Nat} {t : State} (hmoves : l ++ r ≠ [])
    (hplan : w.addPlan (address c.code c.q.inst) u.futurePlace (l ++ r) [] = some (k, t)) :
    defragment c u = okTicket t k := by
  simp only [State.orderFresh] at horder
  simp only [defragment, hpolicy, hfresh, hregions, horder, hrun, if_neg hmoves, hplan, ne_eq, not_true, if_false]

end
end
end Sys2Proof.Machine
end

/-! ### CORE_RETIREMENT

A condemned core by whether it may retire, what stands on it and whether a core is left for that (R200 to R203). -/

section
namespace Sys2Proof.Machine

variable {s : State} {c : Nat}

/-- CORE_RETIREMENT answers with its meaning. -/
@[simp] theorem exec_coreRetirement (c : Nat) (s : State) : exec (.coreRetirement c) s = .next (coreRetirement c s) := rfl

/-- RETIREMENT_COPY_COMPLETE answers with its meaning. -/
@[simp] theorem exec_retirementCopyComplete (c : Nat) (s : State) :
    exec (.retirementCopyComplete c) s = .next (retirementCopyComplete c s) := rfl

/-- A core that may retire is one that the test of `coreRetirement` lets through. -/
theorem retirable_iff : retirable s c ↔ ¬ (¬ (s.core c).condemned = true ∨ bit (s.n Attr.plcRetiredCores 0 0) c = true ∨
    (s.ticking = true ∧ ¬ (s.core c).halted = true) ∨ 48 ≤ c) := by
  simp only [retirable, not_or, not_and, Bool.not_eq_true, Bool.not_eq_false, Nat.not_le]
  tauto

/-- A core retires as the model's own operation retires it. -/
theorem retiredNow_eq (s : State) (c : Nat) : retiredNow s c = s.retireCore c := rfl

/-- A core that may not retire is left as it is (R200). -/
theorem coreRetirement_of_not_retirable (h : ¬ retirable s c) : coreRetirement c s = s :=
  if_pos (not_not.mp (mt retirable_iff.mpr h))

/-- The state in which the modules of a core that has been retired are held (R201). -/
def State.modulesHeld (s : State) (c : Nat) : State :=
  ((s.modsOn c).map (·.1)).foldl State.holdModule (retiredNow s c)

/-- A march condemned the core: its group stands in the map of those that failed (R292). -/
def State.marchFailedOn (s : State) (c : Nat) : Bool :=
  bit (s.n Attr.memFailMap 0x100 ((16 + c) / 32)) ((16 + c) % 32)

/-- With no core left a retirement misses a deadline, and raises the condition of a core march where one condemned the core
(R202). -/
def State.retiredWithoutSpare (v : State) (march : Bool) : State :=
  let w := v.bump Attr.engDeadlineMisses 0 0
  let w := if march then w.raise 6 else w
  (((w.logAt sevError Attr.engDeadlineMisses 0 0).raise 0).loadAttrs w.topo w.place).restoreSpares

/-- The modules go to the core that the retirement `r` names, at the end of the copies that follow, or at once with the tick
stopped (R200, R201). -/
def State.retiredTo (v : State) (r : Retire) : State :=
  let w : State := { v with plc := { v.plc with retiring := v.plc.retiring ++ [r] } }
  (if v.ticking then w.loadAttrs w.topo w.place else w.endRetirements).restoreSpares

section
variable (h : retirable s c)
include h

/-- A core with no module on it is retired, and that is all (R200). -/
theorem coreRetirement_of_empty (hmods : s.modsOn c = []) : coreRetirement c s =
    ((retiredNow s c).loadAttrs (retiredNow s c).topo (retiredNow s c).place).restoreSpares := by
  rw [retiredNow_eq]
  simp only [coreRetirement, if_neg (retirable_iff.mp h), hmods, List.map_nil, if_true]

section
variable (hmods : s.modsOn c ≠ [])
include hmods

/-- The modules of a core that is retired are held, and stay where no core is left for them (R202). -/
theorem coreRetirement_of_no_spare (hcore : (s.modulesHeld c).emptyCore = none) :
    coreRetirement c s = (s.modulesHeld c).retiredWithoutSpare (s.marchFailedOn c) := by
  have hsome : (s.modsOn c).map (·.1) ≠ [] := mt List.map_eq_nil_iff.mp hmods
  rw [State.modulesHeld, retiredNow_eq] at hcore
  simp only [coreRetirement, if_neg (retirable_iff.mp h), if_neg hsome, hcore]
  rfl

/-- The modules of a core that is retired are held, and go to the lowest empty usable core (R200, R201). -/
theorem coreRetirement_of_spare {sp : Nat} (hcore : (s.modulesHeld c).emptyCore = some sp) :
    coreRetirement c s = (s.modulesHeld c).retiredTo
      ⟨c, some sp, !(s.modulesHeld c).ticking, s.marchFailedOn c, (s.modsOn c).map (·.1)⟩ := by
  have hsome : (s.modsOn c).map (·.1) ≠ [] := mt List.map_eq_nil_iff.mp hmods
  rw [State.modulesHeld, retiredNow_eq] at hcore
  simp only [coreRetirement, if_neg (retirable_iff.mp h), if_neg hsome, hcore]
  rfl

end
end

/-! ### The copy of a retired core's modules (R201) -/

/-- The bytes of a module's program, CONST and STATE regions. -/
def State.copyBytesOf (s : State) (m : Nat) : Nat :=
  ((s.mod? m).map fun (md : Mod) => md.image.preBytes + 4 * md.image.stateWords).getD 0

/-- The retirement is one of core `c` whose copy to its spare is under way. -/
def Retire.copies (c : Nat) (r : Retire) : Bool := r.core == c && r.spare.isSome && !r.copied

/-- The copies under way of the core become complete, and their bytes are counted. -/
theorem retirementCopyComplete_eq (c : Nat) (s : State) : retirementCopyComplete c s =
    ({ s with plc := { s.plc with
        retiring := s.plc.retiring.map fun r => if r.copies c then { r with copied := true } else r } } : State).add
      Attr.tngBytes 14 0 (((s.plc.retiring.filter (·.copies c)).flatMap (·.modules)).map s.copyBytesOf).sum := rfl

/-- With no retirement of the core under way there is no copy to complete. -/
theorem retirementCopyComplete_of_none (h : ∀ r ∈ s.plc.retiring, r.core ≠ c) :
    retirementCopyComplete c s = s.add Attr.tngBytes 14 0 0 := by
  have hmiss : ∀ r ∈ s.plc.retiring, ¬ r.copies c = true := fun r hr => by simp [Retire.copies, h r hr]
  have hmap : (s.plc.retiring.map fun r => if r.copies c then { r with copied := true } else r) = s.plc.retiring :=
    (List.map_congr_left fun r hr => if_neg (hmiss r hr)).trans (List.map_id _)
  rw [retirementCopyComplete_eq, List.filter_eq_nil_iff.mpr hmiss, hmap]
  rfl

/-- The copy of the one retirement under way becomes complete, and its bytes are counted. -/
theorem retirementCopyComplete_of_one {r : Retire} (hone : s.plc.retiring = [r]) (hspare : r.spare.isSome = true)
    (hcopy : r.copied = false) : retirementCopyComplete r.core s =
      ({ s with plc := { s.plc with retiring := [{ r with copied := true }] } } : State).add Attr.tngBytes 14 0
        (r.modules.map s.copyBytesOf).sum := by
  have hcopies : r.copies r.core = true := by simp [Retire.copies, hspare, hcopy]
  simp [retirementCopyComplete_eq, hone, hcopies]

end Sys2Proof.Machine
end

/-! ### Events of the placement manager

A plan by whether its moves are done, each copy and switch by the move in flight, and the clearing of a freed region
(R185, R188, R192, R193, R196, R197, R206). -/

section
namespace Sys2Proof.Machine

/-- MOVE_PLAN_TAKES_EFFECT answers with its meaning. -/
@[simp] theorem exec_movePlanTakesEffect (s : State) :
    exec .movePlanTakesEffect s = .next (movePlanTakesEffect s) := rfl

/-- STRIP_MOVE_SWITCH answers with its meaning. -/
@[simp] theorem exec_stripMoveSwitch (n : Nat) (s : State) :
    exec (.stripMoveSwitch n) s = .next (stripMoveSwitch n s) := rfl

/-- PRE_COPY_COMPLETE answers with its meaning. -/
@[simp] theorem exec_preCopyComplete (m : Nat) (s : State) :
    exec (.preCopyComplete m) s = .next (preCopyComplete m s) := rfl

/-- REGION_COPY_COMPLETE answers with its meaning. -/
@[simp] theorem exec_regionCopyComplete (s : State) : exec .regionCopyComplete s = .next (regionCopyComplete s) := rfl

/-- ZERO_FILL_COMPLETE answers with its meaning. -/
@[simp] theorem exec_zeroFillComplete (s : State) : exec .zeroFillComplete s = .next (zeroFillComplete s) := rfl

variable {s : State}

/-! ### Plans (R188) -/

/-- A plan taken from the head takes effect: the modules it unloads leave, its swaps start and its ticket completes. -/
def State.effectTaken (s : State) (p : Plan) : State :=
  let e := (s.leaveModules p.effect).startSwaps p.effect
  (e.1.finishPlan p e.2).assignChannels

/-- The one plan, with its moves done, takes effect. -/
theorem movePlanTakesEffect_of_done {p : Plan} (hplans : s.plc.plans = [p]) (hmoves : p.moves = []) :
    movePlanTakesEffect s = (({ s with plc := { s.plc with plans := [] } } : State).effectTaken p).planAttr := by
  simp only [movePlanTakesEffect, hplans, List.length_singleton, takeEffect, hmoves, ne_eq, not_true, if_false,
    State.effectTaken]

/-- A plan with moves left to make waits, and all behind it. -/
theorem movePlanTakesEffect_of_moves {p : Plan} {rest : List Plan} (hplans : s.plc.plans = p :: rest)
    (hmoves : p.moves ≠ []) : movePlanTakesEffect s = s.planAttr := by
  simp only [movePlanTakesEffect, hplans, List.length_cons, takeEffect, if_pos hmoves]

/-- With no plan nothing takes effect. -/
theorem movePlanTakesEffect_of_none (hplans : s.plc.plans = []) : movePlanTakesEffect s = s.planAttr := by
  simp only [movePlanTakesEffect, hplans, List.length_nil, takeEffect]

/-! ### Strips (R193) -/

/-- The strip in flight switches lanes, up to 32 at a tick (R189). -/
theorem stripMoveSwitch_of_head {n : Nat} (hhead : s.headMove.bind PMove.strip? = some n) (hroom : s.plc.switched < 32) :
    stripMoveSwitch n s = (({ s with plc := { s.plc with switched := s.plc.switched + 1 } } : State).add
      Attr.tngBytes 14 0 512).switchHead :=
  if_pos ⟨hhead, hroom⟩

/-- Another strip, or one past the 32 of a tick, does not switch. -/
theorem stripMoveSwitch_idle {n : Nat} (h : s.headMove.bind PMove.strip? ≠ some n ∨ 32 ≤ s.plc.switched) :
    stripMoveSwitch n s = s :=
  if_neg fun ⟨hhead, hroom⟩ => h.elim (fun hne => hne hhead) (Nat.not_le.mpr hroom)

/-! ### Modules (R196) -/

/-- The module in flight has its pre-copy. -/
theorem preCopyComplete_of_head {m c : Nat} {md : Mod} (hhead : s.headMove = some (.module m c))
    (hcopy : s.plc.preCopied = false) (hmod : s.mod? m = some md) : preCopyComplete m s =
      ({ s with plc := { s.plc with preCopied := true } } : State).add Attr.tngBytes 15 0 md.image.preBytes := by
  simp only [preCopyComplete, hhead, hcopy, hmod, Bool.false_eq_true, not_false_eq_true, and_self, if_true, Option.map_some,
    Option.getD_some, State.tcBytes]

/-- Another module, or one that has its pre-copy, gets none. -/
theorem preCopyComplete_idle {m : Nat} (h : (∀ c, s.headMove ≠ some (.module m c)) ∨ s.plc.preCopied = true) :
    preCopyComplete m s = s := by
  unfold preCopyComplete
  split
  case h_1 x c hhead =>
    refine if_neg ?_
    rintro ⟨rfl, hcopy⟩
    exact h.elim (fun hne => hne c hhead) hcopy
  case h_2 => rfl

/-! ### Regions (R185, R197) -/

/-- The region in flight is copied to the base it moves to. -/
theorem regionCopyComplete_of_head {o : Owner} {b : Nat} {r : Region} (hhead : s.headMove = some (.region o b))
    (hregion : s.plc.regions.find? (fun x => x.owner == o) = some r) (hcopy : s.plc.copied = false) :
    regionCopyComplete s =
      let v := (s.copyRun r.base r.size b).add Attr.tngBytes 15 0 r.size
      { v with plc := { v.plc with copied := true } } := by
  simp only [regionCopyComplete, hhead, hregion, hcopy, Bool.false_eq_true, if_false, State.tcBytes]

/-- With no region in flight, or one that has its copy, nothing is copied. -/
theorem regionCopyComplete_idle (h : (∀ o b, s.headMove ≠ some (.region o b)) ∨ s.plc.copied = true) :
    regionCopyComplete s = s := by
  unfold regionCopyComplete
  split
  case h_1 o b hhead =>
    have hcopy := h.resolve_left fun hne => hne o b hhead
    split
    case h_1 => exact if_pos hcopy
    case h_2 => rfl
  case h_2 => rfl

/-- The oldest freed region is cleared. -/
theorem zeroFillComplete_of_freed {b n : Nat} {rest : List (Nat × Nat)} (hzero : s.plc.zeroing = (b, n) :: rest)
    (hlow : s.low = false) : zeroFillComplete s =
      ((({ s with plc := { s.plc with zeroing := rest } } : State).zeroRun b n).add Attr.tngBytes 15 0 n).spaceAttrs := by
  simp only [zeroFillComplete, hzero, hlow, Bool.false_eq_true, if_false, State.tcBytes]

/-- In LOW, or with no region freed, nothing is cleared. -/
theorem zeroFillComplete_idle (h : s.plc.zeroing = [] ∨ s.low = true) : zeroFillComplete s = s := by
  unfold zeroFillComplete
  split
  case h_1 => rfl
  case h_2 b n rest hzero => exact if_pos (h.resolve_left (by simp [hzero]))

end Sys2Proof.Machine

open Sys2Proof Sys2Proof.Machine

/-- Settles O26: the requests by their tests, a retirement by what stands on the core and the core left for it, and each event
by the move in flight. Which core retires, how modules are held and retargeted and how the spares are restored is the model's
choice (entry 19). -/
theorem placementRequestsAndEventsAct : Obligations.PlacementRequestsAndEventsAct := by
  unfold Obligations.PlacementRequestsAndEventsAct
  refine ⟨⟨?marched, ?notRetired, ?noCore, ?marching, ?policy, ?nowhere, ?stopped, ?noMoves, ?planned⟩,
    ⟨?bare, ?noSpare, ?spare, ?notRetirable⟩,
    ?done, ?waits, ?noPlan, ?switches, ?noSwitch, ?preCopied, ?notPreCopied, ?regionCopied, ?noRegion, ?cleared, ?notCleared,
    ?noRetirement, ?retirementCopied⟩
  case marched =>
    exact performsTicket_of_effect (fun _ _ => rfl) fun c u k t _ _ _ _ ⟨harg, hcore, hmarch⟩ hticket =>
      reinstateCore_of_retired harg hcore hmarch hticket
  case notRetired =>
    refine performsTicket_of_effect (fun _ _ => rfl) fun c u k t _ _ _ _ ⟨harg, hcore⟩ hticket => ?_
    rw [reinstateCore_of_not_retired harg hcore]
    exact underTicket_ok (Option.isSome_of_eq_some hticket) hticket
  case noCore => exact refuses_of_effect (fun _ _ => rfl) fun _ _ _ _ _ _ harg => reinstateCore_of_no_core harg
  case marching =>
    exact refuses_of_effect (fun _ _ => rfl) fun _ _ _ _ _ _ ⟨harg, hcore, hmarch⟩ =>
      reinstateCore_of_march harg hcore hmarch
  case policy => exact refuses_of_effect (fun _ _ => rfl) fun _ _ _ _ _ _ hpolicy => defragment_of_policy hpolicy
  case nowhere =>
    refine performsTicket_of_effect (fun _ _ => rfl) fun c u k t _ _ _ _ ⟨hpolicy, hno⟩ hticket => ?_
    rw [defragment_of_nowhere hpolicy hno]
    exact underTicket_error hticket
  case stopped =>
    intro q w r l
    refine performsTicket_of_effect (fun _ _ => rfl) fun c u k t _ _ _ _ ⟨hready, hstop, hopens⟩ hticket => ?_
    obtain ⟨hpolicy, hfresh, hregions, horder⟩ := hready
    rw [defragment_of_stopped hpolicy hfresh hregions horder hstop]
    exact underTicket_ok hopens hticket
  case noMoves =>
    intro q w r l
    refine performsTicket_of_effect (fun _ _ => rfl) fun c u k t _ _ _ _ ⟨hready, hrun, hnone⟩ hticket => ?_
    obtain ⟨hpolicy, hfresh, hregions, horder⟩ := hready
    rw [defragment_of_no_moves hpolicy hfresh hregions horder hrun hnone]
    exact underTicket_ok (Option.isSome_of_eq_some hticket) hticket
  case planned =>
    intro q w r l k t
    refine performs_of_effect (fun _ _ => rfl) fun c u _ _ _ _ ⟨hready, hrun, hmoves, hplan⟩ => ?_
    obtain ⟨hpolicy, hfresh, hregions, horder⟩ := hready
    exact defragment_of_moves hpolicy hfresh hregions horder hrun hmoves hplan
  case bare =>
    intro s c h hmods
    rw [exec_coreRetirement, coreRetirement_of_empty h hmods]
  case noSpare =>
    intro s c h hmods hcore
    rw [exec_coreRetirement, coreRetirement_of_no_spare h hmods hcore]
    rfl
  case spare =>
    intro s c sp h hmods hcore
    rw [exec_coreRetirement, coreRetirement_of_spare h hmods hcore]
    rfl
  case notRetirable =>
    intro s c h
    rw [exec_coreRetirement, coreRetirement_of_not_retirable h]
  case done =>
    intro s p hplans hmoves
    rw [exec_movePlanTakesEffect, movePlanTakesEffect_of_done hplans hmoves]
    rfl
  case waits =>
    intro s p rest hplans hmoves
    rw [exec_movePlanTakesEffect, movePlanTakesEffect_of_moves hplans hmoves]
  case noPlan =>
    intro s hplans
    rw [exec_movePlanTakesEffect, movePlanTakesEffect_of_none hplans]
  case switches =>
    intro s n mv hhead hstrip hroom
    rw [exec_stripMoveSwitch, stripMoveSwitch_of_head (by simp [hhead, hstrip]) hroom]
  case noSwitch =>
    intro s n h
    rw [exec_stripMoveSwitch, stripMoveSwitch_idle h]
  case preCopied =>
    intro s m c md hhead hcopy hmod
    rw [exec_preCopyComplete, preCopyComplete_of_head hhead hcopy hmod]
    rfl
  case notPreCopied =>
    intro s m h
    rw [exec_preCopyComplete, preCopyComplete_idle h]
  case regionCopied =>
    intro s o b r hhead hregion hcopy
    rw [exec_regionCopyComplete, regionCopyComplete_of_head hhead hregion hcopy]
  case noRegion =>
    intro s h
    rw [exec_regionCopyComplete, regionCopyComplete_idle h]
  case cleared =>
    intro s b n rest hzero hlow
    rw [exec_zeroFillComplete, zeroFillComplete_of_freed hzero hlow]
  case notCleared =>
    intro s h
    rw [exec_zeroFillComplete, zeroFillComplete_idle h]
  case noRetirement =>
    intro s c h
    rw [exec_retirementCopyComplete, retirementCopyComplete_of_none h]
  case retirementCopied =>
    intro s r hone hspare hcopy
    rw [exec_retirementCopyComplete, retirementCopyComplete_of_one hone hspare hcopy]
    rfl
end

/-! ### Core windows

The words of X, Y and program memory as a window shows them, and its reserved area (R208). -/

section
namespace Sys2Proof.Machine

theorem word32_window_x (s : State) {c i : Nat} (hc : c < 48) (hi : i < 0x8000) :
    s.word32 (0x10000000 + c * 0x100000 + 0x20000 + 4 * i) = ((Store.get 0 (s.core c).x i).signExtend 32).toNat := by
  have hb : (List.range 4).map (fun j => windowByte (s.core c) (0x20000 + 4 * i + j)) =
      (List.range 4).map (byteAt ((Store.get 0 (s.core c).x i).signExtend 32).toNat) :=
    List.map_congr_left fun j hj => windowByte_x hi (List.mem_range.mp hj)
  rw [State.word32, readBytes_window s 4 hc (o := 0x20000 + 4 * i) (by omega) (by omega), hb]
  exact leNat_byteAt_four _ (BitVec.isLt _)

theorem word32_window_y (s : State) {c i : Nat} (hc : c < 48) (hi : i < 0x8000) :
    s.word32 (0x10000000 + c * 0x100000 + 0x40000 + 4 * i) = ((Store.get 0 (s.core c).y i).signExtend 32).toNat := by
  have hb : (List.range 4).map (fun j => windowByte (s.core c) (0x40000 + 4 * i + j)) =
      (List.range 4).map (byteAt ((Store.get 0 (s.core c).y i).signExtend 32).toNat) :=
    List.map_congr_left fun j hj => windowByte_y hi (List.mem_range.mp hj)
  rw [State.word32, readBytes_window s 4 hc (o := 0x40000 + 4 * i) (by omega) (by omega), hb]
  exact leNat_byteAt_four _ (BitVec.isLt _)

theorem leNat_window_pm (s : State) {c i : Nat} (hc : c < 48) (hi : i < 0x4000) :
    leNat (s.readBytes (0x10000000 + c * 0x100000 + 8 * i) 8) = (Store.get 0 (s.core c).pm i).toNat := by
  have hb : (List.range 8).map (fun j => windowByte (s.core c) (8 * i + j)) =
      (List.range 8).map (byteAt (Store.get 0 (s.core c).pm i).toNat) :=
    List.map_congr_left fun j hj => windowByte_pm hi (List.mem_range.mp hj)
  rw [readBytes_window s 8 hc (o := 8 * i) (by omega) rfl, hb]
  exact leNat_byteAt_eight _ (BitVec.isLt _)

@[simp] theorem leBytes_length (n v : Nat) : (leBytes n v).length = n := by
  induction n generalizing v with
  | zero => rfl
  | succ n ih => simp [leBytes, ih]

theorem windowByte_reserved (k : CoreSt) {o : Nat} (h : 0x60000 ≤ o) : windowByte k o = 0 := by
  unfold windowByte
  rw [if_neg (by omega), if_neg (by omega), if_neg (by omega)]

theorem setWindowByte_reserved (k : CoreSt) {o : Nat} (b : Byte) (h : 0x60000 ≤ o) : setWindowByte k o b = k := by
  unfold setWindowByte
  rw [if_neg (by omega), if_neg (by omega), if_neg (by omega)]

/-- A core set to what it is leaves every core. -/
theorem core_setCore_core (s : State) (c d : Nat) : (s.setCore c (s.core c)).core d = s.core d := by
  by_cases h : c = d
  · rw [h, core_setCore]
  · exact core_setCore_ne s h

end Sys2Proof.Machine

open Sys2Proof Sys2Proof.Machine

/-- Settles O5: reads byte by byte, and writes by the memory that the offset names, with the core's other memories as they
were. -/
theorem windowShowsCoreMemory : Obligations.WindowShowsCoreMemory := by
  unfold Obligations.WindowShowsCoreMemory
  intro s c hc w
  refine ⟨fun i hi => word32_window_x s hc hi, fun i hi => word32_window_y s hc hi, fun i hi => leNat_window_pm s hc hi,
    ?reserved, ?writesX, ?writesY, ?writesPm⟩
  case reserved =>
    intro o hlow ho
    have ha := areaOf_window hc ho
    refine ⟨(readByte_at ha).trans (windowByte_reserved _ hlow), fun b d => ?_⟩
    rw [writeByte_at b ha, setWindowByte_reserved _ b hlow, core_setCore_core]
  case writesX =>
    intro i v hi t
    obtain ⟨hother, hcore⟩ := writeBytes_window s (leBytes 4 v.toNat) hc (o := 0x20000 + 4 * i) (a := w + 0x20000 + 4 * i)
      (by rw [leBytes_length]; omega) (by omega)
    obtain ⟨x, hx, hself, hne⟩ := window_write_x (s.core c) v.toNat hi
    rw [show t.core c = _ from hcore.trans hx]
    exact ⟨hself, hne, rfl, rfl, hother⟩
  case writesY =>
    intro i v hi t
    obtain ⟨hother, hcore⟩ := writeBytes_window s (leBytes 4 v.toNat) hc (o := 0x40000 + 4 * i) (a := w + 0x40000 + 4 * i)
      (by rw [leBytes_length]; omega) (by omega)
    obtain ⟨y, hy, hself, hne⟩ := window_write_y (s.core c) v.toNat hi
    rw [show t.core c = _ from hcore.trans hy]
    exact ⟨hself, hne, rfl, rfl, hother⟩
  case writesPm =>
    intro i v hi t
    obtain ⟨hother, hcore⟩ := writeBytes_window s (leBytes 8 v.toNat) hc (o := 8 * i) (a := w + 8 * i)
      (by rw [leBytes_length]; omega) rfl
    obtain ⟨pm, hpm, hself, hne⟩ := window_write_pm (s.core c) v.toNat hi
    rw [show t.core c = _ from hcore.trans hpm]
    exact ⟨hself, hne, rfl, rfl, hother⟩
end

/-! ### Input bindings and const words

A binding by its first bad element and the inserts that feed its ports; const words by the module's core and the tick (R241,
R243). -/

section
namespace Sys2Proof.Machine

variable {c : Ctx} {u : State} {md : Mod}

@[simp] theorem exec_inSrc (q : Req) (s : State) : exec (.inSrc q) s = .next (serve .inSrc writeInSrc q s) := rfl

@[simp] theorem exec_constWrite (q : Req) (s : State) : exec (.constWrite q) s = .next (serve .const writeConst q s) := rfl

/-! ### Input bindings (R241) -/

/-- The first element that an in_src write names. -/
def firstPort (c : Ctx) : Nat := if c.q.op = 4 then c.q.elem else 0

/-- The ports that an in_src write names. -/
def portsNamed (c : Ctx) : List Nat := (List.range c.vals.length).map (firstPort c + ·)

theorem writeInSrc_of_bad {r p : Nat} (h : u.inSrcBad c.q.inst (firstPort c) c.vals = some (r, p)) :
    writeInSrc c u = .error ⟨r, p, []⟩ := by
  unfold firstPort at h
  simp only [writeInSrc, h]

theorem writeInSrc_of_fed {p : Nat} (hgood : u.inSrcBad c.q.inst (firstPort c) c.vals = none)
    (hfed : (portsNamed c).find? (fun p => (insertNaming u.attrs c.q.inst p).isSome) = some p) :
    writeInSrc c u = .error ⟨rState, p, []⟩ := by
  unfold portsNamed firstPort at hfed
  unfold firstPort at hgood
  simp only [writeInSrc, hgood, hfed]

theorem writeInSrc_of_free (hgood : u.inSrcBad c.q.inst (firstPort c) c.vals = none)
    (hfree : (portsNamed c).all (fun p => (insertNaming u.attrs c.q.inst p).isNone) = true) :
    writeInSrc c u = ok (u.store c) := by
  have hnone : (portsNamed c).find? (fun p => (insertNaming u.attrs c.q.inst p).isSome) = none := by
    simpa [List.find?_eq_none] using hfree
  unfold portsNamed firstPort at hnone
  unfold firstPort at hgood
  simp only [writeInSrc, hgood, hnone]

/-! ### Const words (R243) -/

theorem writeConst_of_no_module (h : u.mod? c.q.inst = none) : writeConst c u = .error ⟨rNoObject, c.q.elem, []⟩ := by
  simp only [writeConst, h]

theorem writeConst_past_end (hmod : u.mod? c.q.inst = some md)
    (hpast : md.image.constPlaces.length < c.q.elem + c.vals.length) :
    writeConst c u = .error ⟨rNoObject, md.image.constPlaces.length, []⟩ := by
  simp only [writeConst, hmod, if_pos hpast]

/-- The words that a const write names, with their places. -/
def constNamed (c : Ctx) (md : Mod) : List ((Bool × Nat) × Int) := (md.image.constPlaces.drop c.q.elem).zip c.vals

section

variable (hmod : u.mod? c.q.inst = some md) (hwithin : c.q.elem + c.vals.length ≤ md.image.constPlaces.length)
include hmod hwithin

theorem writeConst_of_no_core (hcore : u.n Attr.plcModuleCore 0 c.q.inst = 255) : writeConst c u = ok (u.store c) := by
  simp only [writeConst, hmod, if_neg (Nat.not_lt.mpr hwithin), hcore, true_or, if_true]

/-- With the tick running the words wait in the queue of the core for the next period, where it has room. -/
theorem writeConst_of_room (hnow : c.atOnce = false) (hdue : c.due = none)
    (hcore : u.n Attr.plcModuleCore 0 c.q.inst ≠ 255) (htick : u.ticking = true)
    (hroom : (u.core (u.n Attr.plcModuleCore 0 c.q.inst)).constQ.length + (constNamed c md).length ≤ 256) :
    let k := u.n Attr.plcModuleCore 0 c.q.inst
    writeConst c u = ok ((u.store c).setCore k { u.core k with
      constQ := (u.core k).constQ ++ (constNamed c md).map fun w =>
        ConstWord.mk c.q.inst w.1.1 w.1.2 (BitVec.ofInt 24 w.2) (u.eng.count + u.eng.cfg.n) }) := by
  unfold constNamed at *
  simp only [writeConst, hmod, if_neg (Nat.not_lt.mpr hwithin), hcore, hnow, htick, hdue, State.constBlock,
    if_neg (Nat.not_lt.mpr hroom), Bool.false_eq_true, or_self, if_false, if_true]

/-- Where the queue has no room they are refused. -/
theorem writeConst_of_full (hnow : c.atOnce = false) (hcore : u.n Attr.plcModuleCore 0 c.q.inst ≠ 255)
    (htick : u.ticking = true)
    (hfull : 256 < (u.core (u.n Attr.plcModuleCore 0 c.q.inst)).constQ.length + (constNamed c md).length) :
    writeConst c u = refuse rBusy := by
  unfold constNamed at hfull
  simp only [writeConst, hmod, if_neg (Nat.not_lt.mpr hwithin), hcore, hnow, htick, if_pos hfull, Bool.false_eq_true,
    or_self, if_false, if_true]

/-- With the tick stopped the words are stored at once. -/
theorem writeConst_of_stopped (hnow : c.atOnce = false)
    (hcore : u.n Attr.plcModuleCore 0 c.q.inst ≠ 255) (htick : u.ticking = false) :
    let k := u.n Attr.plcModuleCore 0 c.q.inst
    writeConst c u = ok ((u.store c).setCore k ((constNamed c md).foldl
      (fun t w => (u.aenv k c.q.inst md).storeWord t w.1.1 w.1.2 (BitVec.ofInt 24 w.2)) ((u.store c).core k))) := by
  simp only [writeConst, hmod, if_neg (Nat.not_lt.mpr hwithin), hcore, hnow, htick, constNamed, Bool.false_eq_true,
    or_self, if_false]

end

end Sys2Proof.Machine

open Sys2Proof Sys2Proof.Machine

/-- Settles O25: each write by the first of its tests that it meets. -/
theorem modulePortAndConstWritesPerform : Obligations.ModulePortAndConstWritesPerform := by
  unfold Obligations.ModulePortAndConstWritesPerform
  refine ⟨?bound, fun r p => ?bad, fun p => ?fed, ?noModule, fun md => ?pastEnd, fun md => ?noCore, fun md => ?queued,
    fun md => ?noRoom, fun md => ?stopped⟩
  case bound =>
    refine performs_of_effect exec_inSrc fun c u _ _ _ _ ⟨hgood, hfree⟩ => ?_
    exact writeInSrc_of_free hgood hfree
  case bad => exact refusesWith_of_effect exec_inSrc fun c u _ _ _ _ h => writeInSrc_of_bad h
  case fed =>
    refine refusesWith_of_effect exec_inSrc fun c u _ _ _ _ ⟨hgood, hfed⟩ => ?_
    exact writeInSrc_of_fed hgood hfed
  case noModule => exact refusesWith_of_effect exec_constWrite fun c u _ _ _ _ h => writeConst_of_no_module h
  case pastEnd =>
    refine refusesWith_of_effect exec_constWrite fun c u _ _ _ _ ⟨hmod, hpast⟩ => ?_
    exact writeConst_past_end hmod hpast
  case noCore =>
    refine performs_of_effect exec_constWrite fun c u _ _ _ _ ⟨hmod, hwithin, hcore⟩ => ?_
    exact writeConst_of_no_core hmod hwithin hcore
  case queued =>
    refine performs_of_effect exec_constWrite fun c u hdue _ hnow _ ⟨hmod, hwithin, hcore, htick, hroom⟩ => ?_
    exact writeConst_of_room hmod hwithin hnow hdue hcore htick hroom
  case noRoom =>
    refine refuses_of_effect exec_constWrite fun c u _ _ hnow _ ⟨hmod, hwithin, hcore, htick, hfull⟩ => ?_
    exact writeConst_of_full hmod hwithin hnow hcore htick hfull
  case stopped =>
    refine performs_of_effect exec_constWrite fun c u _ _ hnow _ ⟨hmod, hwithin, hcore, htick⟩ => ?_
    exact writeConst_of_stopped hmod hwithin hnow hcore htick
end

/-! ### Remote accesses

Reads and atomic operations at their banks, and posted writes (R230, R231, R271, R272, R280). -/

section
namespace Sys2Proof.Machine

variable {s t : State} {c m a : Nat} {md : Mod} {i : Instr} {needs : Hazard}

/-- What is left alone outside fewer bytes is left alone outside more. -/
theorem State.elsewhere_mono {stored more : Nat → Prop} (h : s.elsewhere c stored t) (hmore : ∀ b, stored b → more b) :
    s.elsewhere c more t := by
  obtain ⟨hcores, hmods, hbytes, hrest⟩ := h
  exact ⟨hcores, hmods, fun b hb => hbytes b fun hs => hb (hmore b hs), hrest⟩

/-- An instruction that does nothing at the banks: its core goes on to `k`, and then comes what it does after that. -/
theorem runInstr_after {body : AEnv → CoreSt → Except Nat Ran} {r : Ran} {k : CoreSt} {f : State → State}
    (hf : s.fetches c i m md) (hb : body (s.aenv c m md) (s.regsAt c) = .ok r) (hm : s.fitsMeter c md needs r)
    (hbank : r.bank = id) (hafter : r.after = f) (hk : s.coreAfter c needs r = k) :
    ∃ u, SameRest (s.setCore c k) u ∧ u.core c = k ∧ runInstr c i needs body s = (f u).fetchBound c m md := by
  subst hafter hk
  obtain ⟨u, hu, -, he⟩ := runInstr_done hf hb hm.1
  exact ⟨u, hu, (core_of_anv hu.1 c).trans (core_setCore ..), by rw [he, hbank]; rfl⟩

/-! ### Atomic operations (R280) -/

/-- An atomic operation that is ready stores its new word, and all else is as a remote access leaves it. -/
theorem atomic_runs {j : Instr} {rb : Fin 8} {acc : Fin 4} {ix : Bool} {xr : Fin 4} {off : BitVec 18} {gates : List Gate}
    {g : BitVec 32 → BitVec 32 → BitVec 32 × Bool} {r : Ran}
    (hx : ∀ s, exec j s = runRemote c gates i rb acc ix xr off (some g) s)
    (hr : r = tookWord acc (16 + s.waitAt c a true gates) ((s.drain c).word32 a) true (s.regsAt c))
    (h : s.remoteReady c m md i a { regs := [], accs := [acc.val], flags := false } r fun e k => e.remote k rb ix xr off) :
    ∃ t, exec j s = .next t ∧
      t.core c = { s.coreAfter c { regs := [], accs := [acc.val], flags := false } r with wbuf := [] } ∧
      s.elsewhere c (fun b => s.posted c b ∨ s.wordStored a b) t ∧
      (∀ b, b < 0x400000 → ¬ s.wordStored a b → t.readByte b = (s.drain c).readByte b) ∧
      t.word32 a = (g (BitVec.ofNat 32 ((s.drain c).word32 a))
        (remoteWord (s.core c).rm ((s.core c).accReg acc.val)).1).1.toNat := by
  obtain ⟨t, ht, hcore, helse, hbytes, hword⟩ := remote_runs (f := some g) rfl hr h
  refine ⟨t, (hx s).trans ht, hcore, State.elsewhere_mono helse ?_, fun b hb hs => hbytes b hb ?_, hword g rfl⟩
  · exact fun b hb => hb.imp_right And.right
  · exact fun hstored => hs hstored.2

/-! ### Posting a write (R231) -/

/-- Core `c` posts word `v` for address `a`. -/
def State.postRemote (s : State) (c a : Nat) (v : BitVec 32) : State :=
  s.setCore c { s.core c with wbuf := (s.core c).wbuf ++ [(a, v)] }

/-- The core that posted a write is as it was, with the write behind the others. -/
@[simp] theorem core_postRemote (s : State) (c a : Nat) (v : BitVec 32) :
    (s.postRemote c a v).core c = { s.core c with wbuf := (s.core c).wbuf ++ [(a, v)] } := core_setCore ..

/-- Cores and modules that agree agree after a write is posted. -/
theorem postRemote_anv (h : t.anv = s.anv) (c a : Nat) (v : BitVec 32) :
    (t.postRemote c a v).anv = (s.postRemote c a v).anv := by
  simp only [State.postRemote, State.setCore, State.core, h]

/-- What a remote write leaves of its core's registers, where it stalls `stall` cycles. -/
def writeRan (acc : Fin 4) (stall : Nat) (k : CoreSt) : Ran :=
  { k := { k with sr := srSetSov k.sr (remoteWord k.rm (k.accReg acc.val)).2 }, cost := 1 + stall }

section write

variable {rb : Fin 8} {acc : Fin 4} {ix : Bool} {xr : Fin 4} {off : BitVec 18} {gates : List Gate}
  {e : AEnv} {k : CoreSt} {v : BitVec 32}

/-- A remote write's body, where its buffer has room: the write is posted. -/
theorem remoteWriteBody_of_room (ha : e.remote k rb ix xr off = .ok a)
    (hv : (remoteWord k.rm (k.accReg acc.val)).1 = v) (hroom : k.wbuf.length < 4) :
    remoteWriteBody c gates rb acc ix xr off s e k =
      .ok { writeRan acc 0 k with after := fun t => t.postRemote c a v } := by
  subst hv
  have hfull : decide (4 ≤ k.wbuf.length) = false := decide_eq_false (Nat.not_le.mpr hroom)
  simp only [remoteWriteBody, ha, hfull]
  rfl

/-- A remote write's body, where its buffer is full: the oldest write goes to its bank first. -/
theorem remoteWriteBody_of_full {b : Nat} {w : BitVec 32} {rest : List (Nat × BitVec 32)}
    (ha : e.remote k rb ix xr off = .ok a) (hv : (remoteWord k.rm (k.accReg acc.val)).1 = v)
    (hbuf : k.wbuf = (b, w) :: rest) (hlen : rest.length = 3) :
    remoteWriteBody c gates rb acc ix xr off s e k = .ok
      { writeRan acc (1 + (s.gateServe c [(b, false)] gates).1) k with
        stalls := 1 + (s.gateServe c [(b, false)] gates).1
        cause := 5
        after := fun t => ((t.drainOne c).gateServe c [(b, false)] gates).2.postRemote c a v } := by
  subst hv
  have hfull : decide (4 ≤ k.wbuf.length) = true := by simp [hbuf, hlen]
  have hfirst : k.postedAccesses.take 1 = [(b, false)] := by simp [CoreSt.postedAccesses, hbuf]
  simp only [remoteWriteBody, ha, hfull, hfirst]
  rfl

/-- A remote write whose buffer has room leaves its write behind those that wait. -/
theorem remoteWrite_of_room (hf : s.fetches c i m md) (ha : (s.aenv c m md).remote (s.regsAt c) rb ix xr off = .ok a)
    (hroom : (s.core c).wbuf.length < 4) (hm : s.fitsMeter c md needs (writeRan acc 0 (s.regsAt c))) :
    let t := runInstr c i needs (remoteWriteBody c gates rb acc ix xr off s) s
    t.core c = { s.coreAfter c needs (writeRan acc 0 (s.regsAt c)) with
      wbuf := (s.core c).wbuf ++ [(a, (remoteWord (s.core c).rm ((s.core c).accReg acc.val)).1)] } ∧
    s.elsewhere c (fun _ => False) t := by
  generalize hv : (remoteWord (s.core c).rm ((s.core c).accReg acc.val)).1 = v
  obtain ⟨u, hu, hcore, he⟩ := runInstr_after (k := s.coreAfter c needs (writeRan acc 0 (s.regsAt c)))
    (f := (State.postRemote · c a v)) hf (remoteWriteBody_of_room ha hv hroom) hm rfl rfl rfl
  have hposted := core_postRemote u c a v
  rw [hcore] at hposted
  dsimp only
  rw [he, fetchBound_below ((congrArg CoreSt.pc hposted).trans_lt hm.2)]
  exact ⟨hposted, elsewhere_of hu (.inr ⟨_, rfl⟩) rfl rfl rfl rfl fun _ _ => rfl⟩

/-! ### A full buffer -/

theorem wordStored_of_plc (h : t.plc = s.plc) (a b : Nat) : t.wordStored a b ↔ s.wordStored a b := by
  simp only [State.wordStored, copyAt_plc h]

theorem bankWord_of_plc (h : t.plc = s.plc) (a : Nat) : t.bankWord a ↔ s.bankWord a := by
  simp only [State.bankWord, copyAt_plc h]

section full

variable {b : Nat} {w : BitVec 32} {rest : List (Nat × BitVec 32)}

/-- The bank takes the oldest posted write of a core, and stores its word. -/
theorem drainOne_oldest (hbuf : (s.core c).wbuf = (b, w) :: rest) (hlow : b + 4 ≤ 0x400000) :
    Drained s c rest (putWord s.copyAt s.fab.mem b w) (s.drainOne c) := by
  have h := drainOne_bank (s := s) (c := c) fun e he => by
    rw [hbuf, List.take_succ_cons, List.take_zero, List.mem_singleton] at he
    rw [he]
    exact hlow
  rw [hbuf] at h
  exact h

/-- A word stored at a bank reads back from a state that shares memory. -/
theorem word32_of_putWord (hbank : s.bankWord b) (hmem : t.fab.mem = putWord s.copyAt s.fab.mem b w) :
    t.word32 b = w.toNat := by
  obtain ⟨hlow, hcopy⟩ := hbank
  have hwritten : t.fab.mem = (s.writeBytes b (leBytes 4 w.toNat)).fab.mem := by rw [hmem, writeBytes_bank s w hlow]
  rw [word32_mem hwritten hlow, (word32_writeBytes s w hlow hcopy).1]

/-- A remote write whose buffer is full stores the oldest write that waits, and leaves its own behind the others. -/
theorem remoteWrite_of_full (hf : s.fetches c i m md)
    (ha : (s.aenv c m md).remote (s.regsAt c) rb ix xr off = .ok a) (hbuf : (s.core c).wbuf = (b, w) :: rest)
    (hlen : rest.length = 3) (hbank : s.bankWord b)
    (hm : s.fitsMeter c md needs (writeRan acc (1 + (s.gateServe c [(b, false)] gates).1) (s.regsAt c))) :
    let t := runInstr c i needs (remoteWriteBody c gates rb acc ix xr off s) s
    t.core c = { s.coreAfter c needs (writeRan acc (1 + (s.gateServe c [(b, false)] gates).1) (s.regsAt c)) with
      wbuf := rest ++ [(a, (remoteWord (s.core c).rm ((s.core c).accReg acc.val)).1)] } ∧
    s.elsewhere c (s.wordStored b) t ∧ t.word32 b = w.toNat := by
  generalize hv : (remoteWord (s.core c).rm ((s.core c).accReg acc.val)).1 = v
  generalize hk : s.coreAfter c needs (writeRan acc (1 + (s.gateServe c [(b, false)] gates).1) (s.regsAt c)) = k
  have hkbuf : k.wbuf = (b, w) :: rest := by rw [← hk]; exact hbuf
  have hkpc : k.pc < md.image.sp := by rw [← hk]; exact hm.2
  obtain ⟨u, hu, hcore, he⟩ := runInstr_after
    (f := fun t => ((t.drainOne c).gateServe c [(b, false)] gates).2.postRemote c a v)
    hf (remoteWriteBody_of_full ha hv hbuf hlen) hm rfl rfl hk
  have ⟨_, hplc, _, _, humem, _, _⟩ := hu
  have hdrained := drainOne_oldest (hcore ▸ hkbuf) hbank.1
  have ⟨hleft, _, _, _, _, _, hstored, _, _⟩ := hdrained
  obtain ⟨hanv, hvplc, heng, -, -, hmem, hcru, hpend⟩ := gateServe_same c [(b, false)] gates (u.drainOne c)
  have hword : ((u.drainOne c).gateServe c [(b, false)] gates).2.fab.mem = putWord u.copyAt u.fab.mem b w :=
    hmem.trans hstored
  have hposted := core_postRemote ((u.drainOne c).gateServe c [(b, false)] gates).2 c a v
  rw [core_of_anv hanv, hleft, hcore] at hposted
  dsimp only
  rw [he, fetchBound_below ((congrArg CoreSt.pc hposted).trans_lt hkpc)]
  refine ⟨hposted, ?_, word32_of_putWord ((bankWord_of_plc hplc b).mpr hbank) hword⟩
  refine elsewhere_drained hu hdrained (.inr ⟨_, postRemote_anv hanv c a v⟩) hvplc heng hcru hpend fun x hx => ?_
  replace hx : ¬ u.wordStored b x := mt (wordStored_of_plc hplc b x).mp hx
  exact (congrArg (Store.get 0 · x) hword).trans ((get_putWord_ne hx).trans (congrArg (Store.get 0 · x) humem))

end full

end write

end Sys2Proof.Machine

open Sys2Proof Sys2Proof.Machine

/-- Settles O50: a read and the atomic operations are one remote access, and a write goes by the room in its buffer. -/
theorem remoteAccessesRun : Obligations.RemoteAccessesRun := by
  unfold Obligations.RemoteAccessesRun
  intro c others clashes rb acc ix xr off own at_ took atomic operand wrote
  refine ⟨?read, ?room, ?full, ?wrapping, ?saturating, ?swap⟩
  case read =>
    intro s m md a h
    obtain ⟨t, ht, hcore, helse, hbytes, -⟩ := remote_runs (f := none) rfl rfl h
    refine ⟨t, ht, hcore, State.elsewhere_mono helse ?_, fun b hb => hbytes b hb ?_⟩
    · rintro b (hb | ⟨hf, -⟩)
      · exact hb
      · cases hf
    · exact fun hstored => Bool.noConfusion hstored.1
  case room =>
    intro s m md a hf ha hroom hm
    exact ⟨_, rfl, remoteWrite_of_room hf ha hroom hm⟩
  case full =>
    intro s m md a b w rest hf ha hbuf hlen hbank hm
    exact ⟨_, rfl, remoteWrite_of_full hf ha hbuf hlen hbank hm⟩
  case wrapping => exact fun s m md a h => atomic_runs (g := fun old v => (old + v, false)) (fun _ => rfl) rfl h
  case saturating => exact fun s m md a h => atomic_runs (fun _ => rfl) rfl h
  case swap => exact fun s m md a h => atomic_runs (g := fun _ v => (v, false)) (fun _ => rfl) rfl h
end

/-! ### Memory under the Anvil commands

Every instruction and every event of the sequencer keeps memory canonical, by what it does beyond its core. -/

section
namespace Sys2Proof.Machine

variable {s t : State}

/-- What an attempt at an instruction's body leaves to do beyond its core: nothing. -/
def StaysOnCore (x : Except Nat Ran) : Prop := ∀ r, x = .ok r → r.bank = id ∧ r.after = id

theorem staysOnCore_ok {r : Ran} (hb : r.bank = id) (ha : r.after = id) : StaysOnCore (.ok r) :=
  fun _ h => by cases h; exact ⟨hb, ha⟩

theorem staysOnCore_error (f : Nat) : StaysOnCore (.error f) := fun _ h => by cases h

theorem StaysOnCore.ite {p : Prop} [Decidable p] {x y : Except Nat Ran} (hx : StaysOnCore x) (hy : StaysOnCore y) :
    StaysOnCore (if p then x else y) := by
  split <;> assumption

/-- An instruction whose body stays on its core keeps memory canonical. -/
theorem wf_of_staysOnCore {c : Nat} {i : Instr} {needs : Hazard} {body : AEnv → CoreSt → Except Nat Ran}
    (hb : ∀ e k, StaysOnCore (body e k)) (hs : s.memoryWf = true) : (runInstr c i needs body s).memoryWf = true :=
  wf_plain hb hs rfl

/-! ### Instructions beyond the shared forms -/

/-- A move keeps memory canonical, between whole accumulators as of a word. -/
theorem wf_execMove {c : Nat} {dst src : BitVec 6} (hs : s.memoryWf = true) (ht : execMove c dst src s = .next t) :
    t.memoryWf = true := by
  unfold execMove at ht
  split at ht
  · cases ht
    exact wf_of_staysOnCore (fun _ _ => staysOnCore_ok rfl rfl) hs
  · exact wf_move hs ht

/-- A read of a control register keeps memory canonical: CYC alone goes beyond the core, to the free values. -/
theorem wf_execMovc {c : Nat} {dst : BitVec 6} {cr : BitVec 8} (hs : s.memoryWf = true)
    (ht : execMovc c dst cr s = .next t) : t.memoryWf = true := by
  cases ht
  refine wf_runInstr (fun e k r h => ?_) hs
  split at h <;> cases h
  refine ⟨fun _ hu => hu, fun u hu => ?_⟩
  dsimp only
  split <;> exact hu

/-- A return keeps memory canonical. -/
theorem wf_execRet {c : Nat} {cond : Fin 15} (hs : s.memoryWf = true) (ht : execRet c cond s = .next t) :
    t.memoryWf = true := by
  cases ht
  refine wf_of_staysOnCore (fun _ k => .ite ?_ (staysOnCore_ok rfl rfl)) hs
  split
  · exact staysOnCore_ok rfl rfl
  · exact staysOnCore_error _

/-- A break keeps memory canonical. -/
theorem wf_execBreak {c : Nat} (hs : s.memoryWf = true) (ht : execBreak c s = .next t) : t.memoryWf = true := by
  cases ht
  refine wf_of_staysOnCore (fun _ k => ?_) hs
  split
  · exact staysOnCore_ok rfl rfl
  · exact staysOnCore_error _

/-- A wait for an event keeps memory canonical. -/
theorem wf_execEvwait {c : Nat} {j : BitVec 8} (hs : s.memoryWf = true) (ht : execEvwait c j s = .next t) :
    t.memoryWf = true := by
  cases ht
  refine wf_of_staysOnCore (fun e k => ?_) hs
  split
  · exact staysOnCore_error _
  · exact .ite (staysOnCore_ok rfl rfl) (staysOnCore_ok rfl rfl)

/-- A pulse of a module's line keeps memory canonical. -/
theorem wf_execEvpulse {c : Nat} {j : BitVec 8} (hs : s.memoryWf = true) (ht : execEvpulse c j s = .next t) :
    t.memoryWf = true := by
  cases ht
  refine wf_runInstr (fun e k r h => ?_) hs
  split at h
  case h_1 => cases h
  case h_2 l _ =>
    cases h
    refine ⟨fun _ hu => hu, fun u hu => ?_⟩
    dsimp only
    exact wf_pulse l hu

/-- A release keeps memory canonical, whether its block ends at once or drains. -/
theorem wf_execRelease {c : Nat} (hs : s.memoryWf = true) (ht : execRelease c s = .next t) : t.memoryWf = true := by
  cases ht
  refine wf_runInstr (fun e k r h => ?_) hs
  split at h <;> cases h
  · exact ⟨fun _ hu => hu, fun _ hu => wf_endModule c true hu⟩
  · exact ⟨fun _ hu => hu, fun _ hu => hu⟩

/-- Waiting at the banks keeps memory canonical. -/
theorem wf_gateServe {c : Nat} {l : List (Nat × Bool)} {gates : List Gate} (hs : s.memoryWf = true) :
    (s.gateServe c l gates).2.memoryWf = true := by
  obtain ⟨-, -, -, -, -, hmem, -, -⟩ := gateServe_same c l gates s
  exact wf_mem hmem hs

/-- A core's registers are no part of memory. -/
theorem wf_setCore {c : Nat} {k : CoreSt} (hs : s.memoryWf = true) : (s.setCore c k).memoryWf = true := hs

/-- A remote write keeps memory canonical: a full buffer gives its oldest write to the bank. -/
theorem wf_execRemoteWrite {c : Nat} {others : List (List Nat)} {clashes : List (Option Clash)} {rb : Fin 8} {acc : Fin 4}
    {ix : Bool} {xr : Fin 4} {off : BitVec 18} (hs : s.memoryWf = true)
    (ht : execRemoteWrite c others clashes rb acc ix xr off s = .next t) : t.memoryWf = true := by
  cases ht
  refine wf_runInstr (fun e k r h => ?_) hs
  unfold remoteWriteBody at h
  split at h <;> cases h
  refine ⟨fun _ hu => hu, fun u hu => ?_⟩
  dsimp only
  refine wf_setCore ?_
  split
  · exact wf_gateServe (wf_drainOne c hu)
  · exact hu

/-! ### Every instruction -/

/-- Every instruction that a word can spell keeps memory canonical. -/
theorem wf_of_encodeAnvil {i : Instr} (hi : (encodeAnvil i).isSome = true) (hs : s.memoryWf = true)
    (ht : exec i s = .next t) : t.memoryWf = true := by
  cases i with
  | nop | mul | mac | mul2 | mac2 | dmul | dmac | macrn | add | sub | addsub | addx | subx | mova | clr | neg | abs | max
  | min | cmp | cmpx | tst | rnd | scalei | scaler | norm | divs | bexp | andx | orx | xorx => exact wf_runP hs ht
  | ldi c dst imm => exact wf_move hs (show execLdi c dst imm s = .next t from ht)
  | ldx c dst addr => exact wf_move hs (show execLdx c dst addr s = .next t from ht)
  | ldy c dst addr => exact wf_move hs (show execLdy c dst addr s = .next t from ht)
  | move => exact wf_execMove hs ht
  | movc => exact wf_execMovc hs ht
  | stx | sty => exact wf_store hs ht
  | lea | addi | cmpi =>
    cases ht
    exact wf_of_staysOnCore (fun _ _ => staysOnCore_ok rfl rfl) hs
  | bra =>
    cases ht
    exact wf_of_staysOnCore (fun _ _ => .ite (staysOnCore_ok rfl rfl) (staysOnCore_ok rfl rfl)) hs
  | call =>
    cases ht
    exact wf_of_staysOnCore
      (fun _ _ => .ite (.ite (staysOnCore_error _) (staysOnCore_ok rfl rfl)) (staysOnCore_ok rfl rfl)) hs
  | ret => exact wf_execRet hs ht
  | loop | loopr | loopn => exact wf_loop hs ht
  | breakOp => exact wf_execBreak hs ht
  | evwait => exact wf_execEvwait hs ht
  | evpulse => exact wf_execEvpulse hs ht
  | release => exact wf_execRelease hs ht
  | remoteRead | atomicAddWrapping | atomicAddSaturating | atomicSwap => exact wf_remote hs ht
  | remoteWrite => exact wf_execRemoteWrite hs ht
  | _ => cases hi

/-! ### Every event of the sequencer -/

/-- Counted events keep memory canonical. -/
theorem wf_event_events {e f n : Nat} (hs : s.memoryWf = true) : ((s.event e).events f n).memoryWf = true :=
  wf_mem (by rw [State.events_fab, State.event_fab]) hs

/-- A wake keeps memory canonical. -/
theorem wf_evwaitWake {c n : Nat} (hs : s.memoryWf = true) : (evwaitWake c n s).memoryWf = true := by
  unfold evwaitWake
  dsimp only
  split
  case h_2 => exact hs
  case h_1 m l _ _ =>
    split
    case h_1 => exact hs
    case h_2 md _ =>
      split
      · exact hs
      · split
        · exact hs
        · exact wf_fetchBound c m md (wf_event_events hs)

/-- An undefined word keeps memory canonical. -/
theorem wf_undefinedInstruction {c : Nat} (hs : s.memoryWf = true) : (undefinedInstruction c s).memoryWf = true := by
  unfold undefinedInstruction
  split
  case h_1 => exact hs
  case h_2 m md _ =>
    dsimp only
    split
    · exact hs
    · obtain ⟨-, -, -, -, -, hmem, -, -⟩ := (eccTouches_same s [(s.fetchWord c md).2]).trans (tagFetch_same _ c)
      exact wf_moduleFault c m _ (wf_tagRecord _ _ _ _ _ _ _ _ _ (wf_mem hmem hs))

/-- The meter's limit keeps memory canonical. -/
theorem wf_meterLimit {c : Nat} (hs : s.memoryWf = true) : (meterLimit c s).memoryWf = true := by
  unfold meterLimit
  dsimp only
  split
  case h_1 => exact hs
  case h_2 m _ =>
    split
    case h_1 => exact hs
    case h_2 md _ =>
      split
      · exact wf_endModule c false (wf_overran c m 1 hs)
      · exact hs

/-- An overrun that is counted keeps memory canonical. -/
theorem wf_moduleOverrun {c : Nat} (hs : s.memoryWf = true) : (moduleOverrun c s).memoryWf = true := by
  unfold moduleOverrun
  dsimp only
  split
  · exact wf_mem (by rw [State.setCore_fab, State.set_fab, State.bump_fab]) hs
  · exact hs

/-- Posted writes that have drained keep memory canonical. -/
theorem wf_outputReleased {c : Nat} {gates : List Gate} (hs : s.memoryWf = true) :
    (outputReleased c gates s).memoryWf = true := by
  unfold outputReleased
  dsimp only
  split
  case h_1 => exact hs
  case h_2 m _ =>
    split
    case h_1 => exact hs
    case h_2 md _ =>
      have hserved := wf_gateServe (c := c) (l := (s.core c).postedAccesses) (gates := gates) hs
      split
      · exact hs
      · split
        · exact hserved
        · exact wf_endModule c true (wf_event_events hserved)

end Sys2Proof.Machine

open Sys2Proof Sys2Proof.Machine

/-- Settles O52: the instructions by the format of their words, and each event by its cases. -/
theorem anvilKeepsMemoryCanonical : Obligations.AnvilKeepsMemoryCanonical := by
  unfold Obligations.AnvilKeepsMemoryCanonical
  rintro i s t (hi | ⟨c, n, rfl | rfl | rfl | rfl | ⟨d, rfl⟩⟩) hs ht
  case inl => exact wf_of_encodeAnvil hi hs ht
  all_goals cases ht
  · exact wf_evwaitWake hs
  · exact wf_undefinedInstruction hs
  · exact wf_meterLimit hs
  · exact wf_moduleOverrun hs
  · exact wf_outputReleased hs
end

/-! ### Accumulators

Products, limits and the fields AE, AH and AL (R212, R213, R215). -/

section
namespace Sys2Proof.Machine

/-! ### Products and limits -/

/-- The product of two data words is at most +1.0 in magnitude (R212). -/
theorem abs_product_le (a b : Word24) : |product a b| ≤ 2 ^ 47 := by
  have hword : ∀ w : Word24, |w.toInt| ≤ 2 ^ 23 := fun w => abs_le.mpr ⟨w.le_toInt, w.toInt_lt.le⟩
  calc |product a b| = 2 * (|a.toInt| * |b.toInt|) := by rw [product, abs_mul, abs_mul]; rfl
    _ ≤ 2 * (2 ^ 23 * 2 ^ 23) := by gcongr <;> exact hword _
    _ = 2 ^ 47 := by norm_num

theorem accInt_accOf_product (a b : Word24) : accInt (accOf (product a b)) = product a b := by
  obtain ⟨hlow, hhigh⟩ := abs_le.mp (abs_product_le a b)
  exact accInt_accOf (by omega) (by omega)

theorem clampAcc_of_mem {x : Int} (hlow : -36028797018963968 ≤ x) (hhigh : x ≤ 36028797018963967) : clampAcc x = x := by
  unfold clampAcc clampInt; omega

theorem clampAcc_of_gt {x : Int} (h : 36028797018963967 < x) : clampAcc x = 36028797018963967 := by
  unfold clampAcc clampInt; omega

theorem clampAcc_of_lt {x : Int} (h : x < -36028797018963968) : clampAcc x = -36028797018963968 := by
  unfold clampAcc clampInt; omega

/-- The code of a limited sum holds it exactly. -/
theorem accInt_arFlags (x : Int) (c : Bool) : accInt (arFlags x c).1 = clampAcc x := by
  refine accInt_accOf ?_ ?_ <;> · unfold clampAcc clampInt; omega

/-- L and AOV say alike whether a sum was limited. -/
theorem arFlags_limited (x : Int) (c : Bool) :
    (arFlags x c).2.l = decide (clampAcc x ≠ x) ∧ (arFlags x c).2.aov = decide (clampAcc x ≠ x) := ⟨rfl, rfl⟩

/-! ### Fields -/

theorem CoreSt.accReg_setAcc_self (k : CoreSt) (r : Nat) (w : Word56) : (k.setAcc r w).accReg r = w :=
  Store.get_set_self ..

/-- A field of a field is a field of the whole. -/
theorem extractLsb'_of_extractLsb' {n len : Nat} (a : BitVec n) (start i m : Nat) (h : i + m ≤ len) :
    (a.extractLsb' start len).extractLsb' i m = a.extractLsb' (start + i) m := by
  ext j hj
  simp [Nat.add_assoc, show i + j < len by omega]

/-- What is joined above a field is read past it. -/
theorem extractLsb'_append_above {n len : Nat} (hi : BitVec n) (lo : BitVec len) (i m : Nat) :
    (hi ++ lo).extractLsb' (len + i) m = hi.extractLsb' i m := by
  rw [BitVec.extractLsb'_append_eq_of_le (Nat.le_add_right len i), Nat.add_sub_cancel_left]

/-- A data word as a whole accumulator: AH holds it, AL is clear, and AE holds its sign (R215). -/
theorem alignWord_fields (w : Word24) : (alignWord w).extractLsb' 24 24 = w ∧ (alignWord w).extractLsb' 0 24 = 0 ∧
    (alignWord w).extractLsb' 48 8 = if w.msb then 0xFF else 0 := by
  refine ⟨(extractLsb'_append_above _ _ 0 24).trans ?ah, BitVec.extractLsb'_append_eq_right,
    (extractLsb'_append_above _ _ 24 8).trans ?ae⟩
  case ah =>
    ext i hi
    simp [BitVec.getElem_signExtend, hi, show i < 32 by omega]
  case ae =>
    ext i hi
    have hones : (255#8)[i] = true := BitVec.getElem_allOnes i hi
    cases hm : w.msb <;> simp [BitVec.getElem_signExtend, hm, hones, show 24 + i < 32 by omega]

/-! ### Moves into accumulators -/

variable (k : CoreSt) {r : Nat} (w : Word24)

theorem CoreSt.accReg_take_whole (h : r < 4) : (k.take (4 + r) w).accReg r = alignWord w := by
  rw [CoreSt.take, if_neg (by omega), if_pos (by omega), Nat.add_sub_cancel_left, CoreSt.accReg_setAcc_self]

theorem CoreSt.accReg_take_ae (h : r < 4) :
    (k.take (8 + r) w).accReg r = w.extractLsb' 0 8 ++ (k.accReg r).extractLsb' 0 48 := by
  rw [CoreSt.take, if_neg (by omega), if_neg (by omega), if_pos (by omega), Nat.add_sub_cancel_left,
    CoreSt.accReg_setAcc_self]

theorem CoreSt.accReg_take_ah (h : r < 4) :
    (k.take (12 + r) w).accReg r = (k.accReg r).extractLsb' 48 8 ++ (w ++ (k.accReg r).extractLsb' 0 24) := by
  rw [CoreSt.take, if_neg (by omega), if_neg (by omega), if_neg (by omega), if_pos (by omega), Nat.add_sub_cancel_left,
    CoreSt.accReg_setAcc_self]

theorem CoreSt.accReg_take_al (h : r < 4) :
    (k.take (16 + r) w).accReg r = (k.accReg r).extractLsb' 24 32 ++ w := by
  rw [CoreSt.take, if_neg (by omega), if_neg (by omega), if_neg (by omega), if_neg (by omega), if_pos (by omega),
    Nat.add_sub_cancel_left, CoreSt.accReg_setAcc_self]

end Sys2Proof.Machine

open Sys2Proof Sys2Proof.Machine

/-- Settles O57: a product is at most 2^47 in magnitude, so an accumulator holds it. -/
theorem productsAreExact : Obligations.ProductsAreExact :=
  ⟨fun a b => ⟨rfl, accInt_accOf_product a b⟩, by decide, fun _ _ _ _ => rfl⟩

/-- Settles O59: the code holds the limited sum, and L and AOV say whether the limit changed it. -/
theorem accumulatorsTakeTheNearerLimit : Obligations.AccumulatorsTakeTheNearerLimit := by
  unfold Obligations.AccumulatorsTakeTheNearerLimit
  refine ⟨fun x c hlow hhigh => ?within, fun x c h => ?above, fun x c h => ?below, fun _ _ _ => ⟨rfl, rfl, rfl⟩⟩
  all_goals
    obtain ⟨hl, haov⟩ := arFlags_limited x c
    rw [accInt_arFlags, hl, haov]
  case within => simp [clampAcc_of_mem hlow hhigh]
  case above => simp [clampAcc_of_gt h, h.ne]
  case below => simp [clampAcc_of_lt h, h.ne']

/-- Settles O58: a move replaces the accumulator or one of its fields, and the fields of what it leaves are read off. -/
theorem wordsEnterAccumulators : Obligations.WordsEnterAccumulators := by
  unfold Obligations.WordsEnterAccumulators
  intro k r w
  dsimp only
  rw [CoreSt.accReg_take_whole k w r.isLt, CoreSt.accReg_take_ae k w r.isLt, CoreSt.accReg_take_ah k w r.isLt,
    CoreSt.accReg_take_al k w r.isLt]
  generalize k.accReg r.val = old
  refine ⟨alignWord_fields w, ⟨?ae, ?ahOfAe, ?alOfAe⟩, ⟨?ah, ?aeOfAh, ?alOfAh⟩, ⟨?al, ?aeOfAl, ?ahOfAl⟩⟩
  case ae => exact BitVec.extractLsb'_append_eq_left
  case ahOfAe =>
    exact (BitVec.extractLsb'_append_eq_of_add_le (by decide)).trans (extractLsb'_of_extractLsb' old 0 24 24 (by decide))
  case alOfAe =>
    exact (BitVec.extractLsb'_append_eq_of_add_le (by decide)).trans (extractLsb'_of_extractLsb' old 0 0 24 (by decide))
  case ah =>
    exact (BitVec.extractLsb'_append_eq_of_add_le (by decide)).trans BitVec.extractLsb'_append_eq_left
  case aeOfAh => exact BitVec.extractLsb'_append_eq_left
  case alOfAh =>
    exact (BitVec.extractLsb'_append_eq_of_add_le (by decide)).trans BitVec.extractLsb'_append_eq_right
  case al => exact BitVec.extractLsb'_append_eq_right
  case aeOfAl =>
    exact (extractLsb'_append_above _ _ 24 8).trans (extractLsb'_of_extractLsb' old 24 24 8 (by decide))
  case ahOfAl =>
    exact (extractLsb'_append_above _ _ 0 24).trans (extractLsb'_of_extractLsb' old 24 0 24 (by decide))
end

/-! ### Events of the sequencer

A wake, the meter's limit, an overrun and drained writes, each by its condition (R222, R232, R234 to R236). -/

section
namespace Sys2Proof.Machine

variable {s : State} {c m : Nat} {md : Mod}

/-! ### What the rows answer -/

@[simp] theorem exec_evwaitWake (c waited : Nat) (s : State) :
    exec (.evwaitWake c waited) s = .next (evwaitWake c waited s) := rfl

@[simp] theorem exec_undefinedInstruction (c : Nat) (s : State) :
    exec (.undefinedInstruction c) s = .next (undefinedInstruction c s) := rfl

@[simp] theorem exec_meterLimit (c : Nat) (s : State) : exec (.meterLimit c) s = .next (meterLimit c s) := rfl

@[simp] theorem exec_moduleOverrun (c : Nat) (s : State) : exec (.moduleOverrun c) s = .next (moduleOverrun c s) := rfl

@[simp] theorem exec_outputReleased (c : Nat) (gates : List Gate) (s : State) :
    exec (.outputReleased ⟨c, gates⟩) s = .next (outputReleased c gates s) := rfl

/-! ### Bounds of a module -/

theorem AEnv.check_of_bound_le {e : AEnv} {y : Bool} (write : Bool) {a : Nat} (h : e.bound y ≤ a) :
    e.check y write a = .error (if y then fY else fX) := by
  rw [AEnv.check, if_pos h]

/-! ### An undefined word and the meter's limit (R234, R274) -/

theorem undefinedInstruction_idle (h : s.runs c = none) : undefinedInstruction c s = s := by
  simp only [undefinedInstruction, h]

theorem meterLimit_of_reached (hrun : (s.core c).run = some m) (hmod : s.mod? m = some md)
    (h : s.limitOf md.image ≤ (s.core c).meter ∨ (s.core c).stall.isSome = true) :
    meterLimit c s = ((s.setCore c { s.core c with meter := Nat.max (s.limitOf md.image) (s.core c).meter }).overran
      c m 1).endModule c false := by
  simp only [meterLimit, hrun, hmod, if_pos h]

theorem meterLimit_idle (h : (s.core c).run = none) : meterLimit c s = s := by
  simp only [meterLimit, h]

/-! ### An overrun (R32) -/

theorem moduleOverrun_of_blockOver (h : (s.core c).blockOver = true) : moduleOverrun c s =
    let n := recentOverruns ((s.core c).overAt.headD 0) (s.core c).overAt
    ((s.bump Attr.coreOverruns c 0).set Attr.coreOverrunsRecent c 0 n).setCore c
      { s.core c with blockOver := false, condemned := (s.core c).condemned || decide (3 ≤ n) } := by
  simp only [moduleOverrun, if_pos h]

theorem moduleOverrun_idle (h : (s.core c).blockOver = false) : moduleOverrun c s = s := by
  simp only [moduleOverrun, h, Bool.false_eq_true, if_false]

/-! ### A wake from EVWAIT (R232) -/

/-- The core after a wake: its line is cleared and the cycles waited are on its meter. -/
def CoreSt.woken (k : CoreSt) (l waited : Nat) : CoreSt :=
  { k with stall := none, latch := Store.set false k.latch l false, meter := k.meter + Nat.max 1 waited }

section wake

variable {l : Nat} (waited : Nat)

theorem evwaitWake_not_latched (hstall : (s.core c).stall = some l) (hlatch : Store.get false (s.core c).latch l = false) :
    evwaitWake c waited s = s := by
  cases hrun : (s.core c).run with
  | none => simp only [evwaitWake, hrun]
  | some m =>
    cases hmod : s.mod? m with
    | none => simp only [evwaitWake, hrun, hstall, hmod]
    | some md => simp only [evwaitWake, hrun, hstall, hmod, hlatch, true_or, if_true]

theorem evwaitWake_not_stalled (hstall : (s.core c).stall = none) : evwaitWake c waited s = s := by
  cases hrun : (s.core c).run <;> simp only [evwaitWake, hrun, hstall]

section latched

variable (hrun : (s.core c).run = some m) (hmod : s.mod? m = some md) (hstall : (s.core c).stall = some l)
  (hlatch : Store.get false (s.core c).latch l = true)
include hrun hmod hstall hlatch

theorem evwaitWake_of_latched (hmeter : (s.core c).meter + Nat.max 1 waited ≤ s.limitOf md.image) :
    evwaitWake c waited s = (((s.setCore c ((s.core c).woken l waited)).event (0x090 + c)).events (0x060 + c)
      (Nat.max 1 waited - 1)).fetchBound c m md := by
  have hone : 1 ≤ Nat.max 1 waited := Nat.le_max_left 1 waited
  have hbelow : ¬ s.limitOf md.image ≤ (s.core c).meter := by omega
  simp only [evwaitWake, CoreSt.woken, hrun, hstall, hmod, hlatch, hbelow, Bool.true_eq_false, or_self, if_false,
    if_neg (Nat.not_lt.mpr hmeter)]

theorem evwaitWake_past_limit (hmeter : (s.core c).meter < s.limitOf md.image)
    (hpast : s.limitOf md.image < (s.core c).meter + Nat.max 1 waited) :
    evwaitWake c waited s = s.setCore c { s.core c with meter := s.limitOf md.image } := by
  simp only [evwaitWake, hrun, hstall, hmod, hlatch, Nat.not_le.mpr hmeter, Bool.true_eq_false, or_self, if_false,
    if_pos hpast]

/-- A wake whose next fetch stays below Sp leaves its core woken and all else as it was. -/
theorem evwaitWake_elsewhere (hmeter : (s.core c).meter + Nat.max 1 waited ≤ s.limitOf md.image)
    (hpc : (s.core c).pc < md.image.sp) :
    (evwaitWake c waited s).core c = (s.core c).woken l waited ∧ s.elsewhere c (fun _ => False) (evwaitWake c waited s) := by
  rw [evwaitWake_of_latched waited hrun hmod hstall hlatch hmeter]
  generalize hu : ((s.setCore c ((s.core c).woken l waited)).event (0x090 + c)).events (0x060 + c) (Nat.max 1 waited - 1) = u
  have hrest : SameRest (s.setCore c ((s.core c).woken l waited)) u := by
    subst hu
    refine ⟨?_, ?_, ?_, ?_, ?_, ?_, ?_⟩ <;> simp
  have hcore : u.core c = (s.core c).woken l waited := (core_of_anv hrest.1 c).trans (core_setCore ..)
  rw [fetchBound_below (by rw [hcore]; exact hpc)]
  exact ⟨hcore, elsewhere_of hrest (.inl rfl) rfl rfl rfl rfl fun _ _ => rfl⟩

end latched

end wake

/-! ### Posted writes that have drained (R235) -/

section drained

variable {gates : List Gate}

/-- Once the writes have drained the block ends, or the meter stops at its limit. -/
theorem outputReleased_of_draining (hrun : (s.core c).run = some m) (hmod : s.mod? m = some md)
    (hdrain : (s.core c).draining = true) (hmeter : (s.core c).meter < s.limitOf md.image) :
    let served := s.gateServe c (s.core c).postedAccesses gates
    let d := (s.core c).wbuf.length + served.1
    outputReleased c gates s =
      if s.limitOf md.image < (s.core c).meter + d then
        served.2.setCore c { s.core c with meter := s.limitOf md.image }
      else
        (((served.2.setCore c { s.core c with meter := (s.core c).meter + d, draining := false }).event (0x090 + c)).events
          (0x060 + c) d).endModule c true := by
  obtain ⟨-, -, heng, -⟩ := gateServe_same c (s.core c).postedAccesses gates s
  simp only [outputReleased, hrun, hmod, hdrain, limitOf_same heng]
  rw [if_neg (by simp [hmeter])]

theorem outputReleased_idle (h : (s.core c).draining = false) : outputReleased c gates s = s := by
  unfold outputReleased
  simp only [h, Bool.false_eq_true, not_false_eq_true, true_or, if_true]
  split
  · rfl
  · split <;> rfl

end drained

end Sys2Proof.Machine

open Sys2Proof Sys2Proof.Machine

/-- Settles O51: the faults by the bound that each body meets, and each event by its condition. -/
theorem sequencerEventsAct : Obligations.SequencerEventsAct := by
  unfold Obligations.SequencerEventsAct
  refine ⟨?ldx, ?sty, ?call, ?movc, ?undefined, ?notRunning, ?limit, ?noLimit, ?overrun, ?noOverrun, ?wakes, ?pastLimit,
    ?notLatched, ?notStalled, ?drains, ?notDraining⟩
  case ldx =>
    refine fun c addr dst => faults_of (fun _ => rfl) fun s e k x h => ?_
    split at h <;> cases h
    rename_i hb
    simp only [loadAbs, AEnv.check_of_bound_le false hb]
    rfl
  case sty =>
    refine fun c addr src => faults_of (fun _ => rfl) fun s e k x h => ?_
    split at h <;> cases h
    rename_i hb
    simp only [storeAbs, AEnv.check_of_bound_le true hb]
    rfl
  case call =>
    refine fun c target cond => faults_of (fun _ => rfl) fun s e k x h => ?_
    split at h <;> cases h
    rename_i hb
    rw [if_pos hb.1, if_pos hb.2]
  case movc =>
    refine fun c dst cr => faults_of (fun _ => rfl) fun s e k x h => ?_
    split at h <;> cases h
    rename_i hb
    simp only [hb]
  case undefined =>
    intro s c m md hruns hword
    obtain ⟨u, hu, hfault⟩ := undefined_fault hruns hword
    exact ⟨u, hu, by rw [exec_undefinedInstruction, hfault]⟩
  case notRunning =>
    intro s c h
    rw [exec_undefinedInstruction, undefinedInstruction_idle h]
  case limit =>
    intro s c m md hrun hmod h
    rw [exec_meterLimit, meterLimit_of_reached hrun hmod h]
  case noLimit =>
    intro s c h
    rw [exec_meterLimit, meterLimit_idle h]
  case overrun =>
    intro s c h
    rw [exec_moduleOverrun, moduleOverrun_of_blockOver h]
  case noOverrun =>
    intro s c h
    rw [exec_moduleOverrun, moduleOverrun_idle h]
  case wakes =>
    intro s c w m md l hrun hmod hstall hlatch hmeter hpc
    exact ⟨_, exec_evwaitWake c w s, evwaitWake_elsewhere w hrun hmod hstall hlatch hmeter hpc⟩
  case pastLimit =>
    intro s c w m md l hrun hmod hstall hlatch hmeter hpast
    rw [exec_evwaitWake, evwaitWake_past_limit w hrun hmod hstall hlatch hmeter hpast]
  case notLatched =>
    intro s c w l hstall hlatch
    rw [exec_evwaitWake, evwaitWake_not_latched w hstall hlatch]
  case notStalled =>
    intro s c w hstall
    rw [exec_evwaitWake, evwaitWake_not_stalled w hstall]
  case drains =>
    intro s c m md gates hrun hmod hdrain hmeter
    refine ⟨fun hfits => ?_, fun hpast => ?_⟩
    · rw [exec_outputReleased, outputReleased_of_draining hrun hmod hdrain hmeter, if_neg (Nat.not_lt.mpr hfits)]
    · rw [exec_outputReleased, outputReleased_of_draining hrun hmod hdrain hmeter, if_pos hpast]
  case notDraining =>
    intro s c gates h
    rw [exec_outputReleased, outputReleased_idle h]
end

/-! ### Words of the Anvil instructions

Each format reads back the fields that it writes, and a word that decodes is written from the fields it reads (R251, R252,
R259, R264, R271, R274). -/

section
namespace Sys2Proof.Machine

variable {c d pc op : Nat} {w : Word48} {i : Instr} {f : PFields} {mv : Moves}

/-! ### From an instruction to its word and back -/

@[simp] theorem fin4_val (r : Fin 4) : fin4 r.val = r := Fin.ext (Nat.mod_eq_of_lt r.isLt)

@[simp] theorem fin8_val (r : Fin 8) : fin8 r.val = r := Fin.ext (Nat.mod_eq_of_lt r.isLt)

/-- An instruction of format P other than SCALEI is read back from its fields. -/
theorem decodeAnvil_of_pInstr (hm : mv.ok = true) (hc : (d == c) = true)
    (hu : f.unusedZero (pUse op) = true) (hn : op ≠ 0x17) (ho : op < 32) (hi : pInstr d op f mv = some i) :
    decodeAnvil c pc (encodeP op f mv) = some i := by
  obtain rfl := eq_of_beq hc
  exact (decodeP_encode ho hn hm hu).trans hi

theorem ok_of_movesWf (h : movesWf d mv = true) : mv.ok = true := (Bool.and_eq_true_iff.mp h).2

/-- The shift of SCALEI is read back from the bits of s1 to s4 (R252). -/
theorem decodeAnvil_scalei {da : Fin 4} {k : BitVec 8} (hm : mv.ok = true) :
    decodeAnvil c pc (encodeP 0x17 ⟨da, 0, fin4 (k.toNat / 64), fin4 (k.toNat / 16), fin4 (k.toNat / 4), fin4 k.toNat,
      false, false⟩ mv) = some (.scalei c da k mv) := by
  have hread := encodeP_reads (op := 0x17) (by decide) ⟨da, 0, fin4 (k.toNat / 64), fin4 (k.toNat / 16),
    fin4 (k.toNat / 4), fin4 k.toNat, false, false⟩ mv
  rw [decodeAnvil_p hread.cls, decodeP_k hread hm ⟨rfl, rfl, rfl⟩, encodeP_k (by decide)]
  congr 2
  apply BitVec.eq_of_toNat_eq
  have := k.isLt
  simp only [fin4, BitVec.toNat_ofNat]
  omega

theorem decodeAnvil_of_immediateOf {dst src imm : Nat} (hc : (d == c) = true) (ho : op < 16) (hd : dst < 64) (hs : src < 64)
    (hm : imm < 2 ^ 24) (hi : immediateOf d op (BitVec.ofNat 6 dst) (BitVec.ofNat 6 src) imm = some i) :
    decodeAnvil c pc (encodeI op dst src imm) = some i := by
  obtain rfl := eq_of_beq hc
  exact (decodeI_encode ho hd hs hm).trans hi

theorem decodeAnvil_of_branchOf {cond t imm : Nat} (hc : (d == c) = true) (ho : op < 16) (hcond : cond < 32) (ht : t < 2 ^ 14)
    (hm : imm < 2 ^ 16) (hi : branchOf d pc op cond (BitVec.ofNat 14 t) imm = some i) :
    decodeAnvil c pc (encodeB op cond t imm) = some i := by
  obtain rfl := eq_of_beq hc
  exact (decodeB_encode ho hcond ht hm).trans hi

/-! ### From a word to its instruction and back -/

theorem encodeMove_of_decodeMove {n : Nat} {m : Option Move} (hn : n < 2 ^ 11) (h : decodeMove n = some m) : encodeMove m = n := by
  unfold decodeMove at h
  dsimp only at h
  split at h
  · split at h <;> cases h
    rename_i hzero
    exact hzero.symm
  · split at h
    · cases h
    · split at h <;> cases h
      simp only [encodeMove, fin8, beq_iff_eq]
      split <;> omega

theorem bitNat_beq_one {n : Nat} (h : n < 2) : bitNat (n == 1) = n := by
  interval_cases n <;> rfl

/-- The parallel moves read from a word are written as its two move fields (R252, R253). -/
theorem encodeMove_of_decodeMoves (h : decodeMoves w = some mv) :
    encodeMove mv.x = wordField w 11 11 ∧ encodeMove mv.y = wordField w 0 11 := by
  unfold decodeMoves at h
  split at h
  case h_2 => cases h
  case h_1 x y hx hy =>
    split at h <;> cases h
    exact ⟨encodeMove_of_decodeMove (wordField_lt w 11 11) hx, encodeMove_of_decodeMove (wordField_lt w 0 11) hy⟩

/-- A field and the bits below it are the bits below its end. -/
theorem wordField_append (w : Word48) (lo len : Nat) :
    wordField w lo len * 2 ^ lo + w.toNat % 2 ^ lo = w.toNat % 2 ^ (lo + len) := by
  rw [wordField, Nat.pow_add, Nat.mod_mul, Nat.mul_comm, Nat.add_comm]

/-- A word of format P is made up again by the fields read from it. -/
theorem encodeP_fields (hcls : wordField w 44 4 = 1) (hzero : wordField w 22 3 = 0) (hmv : decodeMoves w = some mv) :
    encodeP (wordField w 39 5) (pFields w) mv = w := by
  obtain ⟨hx, hy⟩ := encodeMove_of_decodeMoves hmv
  apply BitVec.eq_of_toNat_eq
  rw [encodeP_toNat (wordField_lt w 39 5), hx, hy]
  have hval (n : Nat) : (fin4 (wordField w n 2)).val = wordField w n 2 := Nat.mod_eq_of_lt (wordField_lt w n 2)
  simp only [pFields, bitNat_beq_one (wordField_lt w _ 1), hval]
  have hcat := wordField_append w
  refine Eq.trans ?_ (Nat.mod_eq_of_lt w.isLt)
  rw [← hcat 44 4, ← hcat 39 5, ← hcat 37 2, ← hcat 35 2, ← hcat 33 2, ← hcat 31 2, ← hcat 29 2, ← hcat 27 2, ← hcat 26 1,
    ← hcat 25 1, ← hcat 22 3, ← hcat 11 11, ← hcat 0 11, hcls, hzero, Nat.pow_zero, Nat.mod_one]
  ring

/-- A word of format I is made up again by the fields read from it. -/
theorem encodeI_fields (hcls : wordField w 44 4 = 2) (hzero : wordField w 24 4 = 0) :
    encodeI (wordField w 40 4) (wordField w 34 6) (wordField w 28 6) (wordField w 0 24) = w := by
  have hw := w.isLt
  apply BitVec.eq_of_toNat_eq
  rw [encodeI_toNat (wordField_lt w 40 4) (wordField_lt w 34 6) (wordField_lt w 28 6) (wordField_lt w 0 24)]
  unfold wordField at *
  omega

/-- A word of format B is made up again by the fields read from it. -/
theorem encodeB_fields (hcls : wordField w 44 4 = 3) (hzero : wordField w 30 5 = 0) :
    encodeB (wordField w 40 4) (wordField w 35 5) (wordField w 16 14) (wordField w 0 16) = w := by
  have hw := w.isLt
  apply BitVec.eq_of_toNat_eq
  rw [encodeB_toNat (wordField_lt w 40 4) (wordField_lt w 35 5) (wordField_lt w 16 14) (wordField_lt w 0 16)]
  unfold wordField at *
  omega

/-- A word of the Remote format is made up again by the fields read from it. -/
theorem encodeR_fields (hcls : wordField w 44 4 = 4) (hzero : wordField w 18 14 = 0) :
    encodeR (wordField w 40 4) (fin8 (wordField w 37 3)) (fin4 (wordField w 35 2)) (wordField w 34 1 == 1)
      (fin4 (wordField w 32 2)) (BitVec.ofNat 18 (wordField w 0 18)) = w := by
  have hw := w.isLt
  apply BitVec.eq_of_toNat_eq
  rw [encodeR_toNat (wordField_lt w 40 4), bitNat_beq_one (wordField_lt w 34 1), BitVec.toNat_ofNat]
  simp only [fin4, fin8]
  unfold wordField at *
  omega

/-- The fields that an operation uses, and 0 in the others. -/
def usedFields (u : PUse) (f : PFields) : PFields :=
  ⟨if u.da then f.da else 0, if u.db then f.db else 0, if u.s1 then f.s1 else 0, if u.s2 then f.s2 else 0,
   if u.s34 then f.s3 else 0, if u.s34 then f.s4 else 0, u.n1 && f.n1, u.n2 && f.n2⟩

theorem usedFields_of_unusedZero {u : PUse} (h : f.unusedZero u = true) : usedFields u f = f := by
  obtain ⟨da, db, s1, s2, s3, s4, n1, n2⟩ := f
  simp only [PFields.unusedZero, Bool.and_eq_true, Bool.or_eq_true, beq_iff_eq, Bool.not_eq_true'] at h
  obtain ⟨⟨⟨⟨⟨⟨hda, hdb⟩, hs1⟩, hs2⟩, hs34⟩, hn1⟩, hn2⟩ := h
  simp only [usedFields, PFields.mk.injEq]
  refine ⟨?_, ?_, ?_, ?_, ?_, ?_, ?_, ?_⟩ <;> grind

theorem encodeAnvil_of_pInstr (h : pInstr c op f mv = some i) :
    encodeAnvil i = some (encodeP op (usedFields (pUse op) f) mv) ∧ i.spelledAt c pc = true := by
  unfold pInstr at h
  split at h
  case h_6 | h_7 | h_11 =>
    split at h <;> cases h
    exact ⟨rfl, beq_self_eq_true c⟩
  all_goals cases h
  all_goals exact ⟨rfl, beq_self_eq_true c⟩

theorem encodeAnvil_of_immediateOf {dst src : BitVec 6} {imm : Nat} (hm : imm < 2 ^ 24)
    (h : immediateOf c op dst src imm = some i) :
    encodeAnvil i = some (encodeI op dst.toNat src.toNat imm) ∧ i.spelledAt c pc = true := by
  unfold immediateOf at h
  split at h
  case h_11 => cases h
  all_goals
    split at h <;> cases h
    rename_i hfields
    refine ⟨?_, beq_self_eq_true c⟩
  case h_8 | h_9 | h_10 =>
    obtain ⟨hsrc, hdst⟩ := hfields
    simp only [encodeAnvil, hsrc, BitVec.toNat_ofNat, Option.some.injEq, fin4, fin8]
    congr 1 <;> omega
  all_goals simp [encodeAnvil, hfields, Nat.mod_eq_of_lt, show imm % 16777216 = imm from Nat.mod_eq_of_lt hm]

theorem encodeAnvil_of_branchOf {cond imm : Nat} {t : BitVec 14} (hm : imm < 2 ^ 16)
    (h : branchOf c pc op cond t imm = some i) :
    encodeAnvil i = some (encodeB op cond t.toNat imm) ∧ i.spelledAt c pc = true := by
  unfold branchOf at h
  split at h
  case h_11 => cases h
  case h_1 | h_2 | h_3 =>
    split at h
    · split at h <;> cases h
      rename_i hfields
      exact ⟨by simp [encodeAnvil, hfields], beq_self_eq_true c⟩
    · cases h
  all_goals
    split at h <;> cases h
    rename_i hfields
    simp [encodeAnvil, Instr.spelledAt, hfields, Nat.mod_eq_of_lt, show imm % 65536 = imm from Nat.mod_eq_of_lt hm]

theorem encodeAnvil_of_remoteOf {rb : Fin 8} {acc : Fin 4} {ix : Bool} {xr : Fin 4} {off : BitVec 18}
    (h : remoteOf c op rb acc ix xr off = some i) :
    encodeAnvil i = some (encodeR op rb acc ix xr off) ∧ i.spelledAt c pc = true := by
  unfold remoteOf at h
  split at h
  all_goals cases h
  all_goals exact ⟨rfl, by simp [Instr.spelledAt]⟩

/-! ### Each format -/

/-- The shift of SCALEI stands in the fields s1 to s4 (R252). -/
theorem scaleiFields_eq (w : Word48) :
    (let n := (BitVec.ofNat 8 (wordField w 27 8)).toNat
     (⟨(pFields w).da, (pFields w).db, fin4 (n / 64), fin4 (n / 16), fin4 (n / 4), fin4 n, (pFields w).n1, (pFields w).n2⟩ :
       PFields)) = pFields w := by
  rw [BitVec.toNat_ofNat, Nat.mod_eq_of_lt (wordField_lt w 27 8)]
  dsimp only [pFields]
  congr 1 <;>
  · apply Fin.ext
    simp only [fin4, wordField]
    omega

theorem encodeAnvil_of_decodeP (hcls : wordField w 44 4 = 1) (h : decodeP c w = some i) :
    encodeAnvil i = some w ∧ i.spelledAt c pc = true := by
  unfold decodeP at h
  dsimp only at h
  split at h
  · cases h
  rename_i hzero
  split at h
  · cases h
  rename_i mv hmv
  have hword := encodeP_fields hcls (not_not.mp hzero) hmv
  split at h
  · split at h <;> cases h
    rename_i hop hunused
    obtain ⟨hdb, hn1, hn2⟩ := hunused
    have hfields := scaleiFields_eq w
    rw [hdb, hn1, hn2] at hfields
    exact ⟨by rw [encodeAnvil, hfields, ← hop, hword], beq_self_eq_true c⟩
  · split at h
    · rename_i hunused
      obtain ⟨henc, hspell⟩ := encodeAnvil_of_pInstr (pc := pc) h
      rw [usedFields_of_unusedZero hunused, hword] at henc
      exact ⟨henc, hspell⟩
    · cases h

theorem encodeAnvil_of_decodeI (hcls : wordField w 44 4 = 2) (h : decodeI c w = some i) :
    encodeAnvil i = some w ∧ i.spelledAt c pc = true := by
  by_cases hzero : wordField w 24 4 = 0
  · rw [decodeI_w rfl rfl rfl hzero rfl] at h
    have hspells := encodeAnvil_of_immediateOf (pc := pc) (wordField_lt w 0 24) h
    rwa [BitVec.toNat_ofNat, BitVec.toNat_ofNat, Nat.mod_eq_of_lt (wordField_lt w 34 6), Nat.mod_eq_of_lt (wordField_lt w 28 6),
      encodeI_fields hcls hzero] at hspells
  · exact absurd ((if_pos hzero).symm.trans h) nofun

theorem encodeAnvil_of_decodeB (hcls : wordField w 44 4 = 3) (h : decodeB c pc w = some i) :
    encodeAnvil i = some w ∧ i.spelledAt c pc = true := by
  by_cases hzero : wordField w 30 5 = 0
  · rw [decodeB_w rfl rfl rfl hzero rfl] at h
    have hspells := encodeAnvil_of_branchOf (wordField_lt w 0 16) h
    rwa [BitVec.toNat_ofNat, Nat.mod_eq_of_lt (wordField_lt w 16 14), encodeB_fields hcls hzero] at hspells
  · exact absurd ((if_pos hzero).symm.trans h) nofun

theorem encodeAnvil_of_decodeR (hcls : wordField w 44 4 = 4) (h : decodeR c w = some i) :
    encodeAnvil i = some w ∧ i.spelledAt c pc = true := by
  by_cases hzero : wordField w 18 14 = 0
  · rw [decodeR_w rfl rfl rfl rfl rfl hzero rfl] at h
    have hspells := encodeAnvil_of_remoteOf (pc := pc) h
    rwa [encodeR_fields hcls hzero] at hspells
  · exact absurd ((if_pos hzero).symm.trans h) nofun

end Sys2Proof.Machine

open Sys2Proof Sys2Proof.Machine

/-- Settles O53: each instruction by the format of its word, whose fields are read back as they were written. -/
theorem decodeInvertsEncode : Obligations.DecodeInvertsEncode := by
  unfold Obligations.DecodeInvertsEncode
  intro i c pc w hwf hc hw
  cases i with
  | nop | mul | mac | mul2 | mac2 | macrn | add | sub | addx | subx | mova | clr | neg | abs | max | min | cmp | cmpx | tst
  | rnd | scaler | norm | divs | bexp | andx | orx | xorx =>
    cases hw
    exact decodeAnvil_of_pInstr (ok_of_movesWf hwf) hc rfl (by decide) (by decide) rfl
  | dmul | dmac | addsub =>
    obtain ⟨hm, hne⟩ := Bool.and_eq_true_iff.mp hwf
    cases hw
    exact decodeAnvil_of_pInstr (ok_of_movesWf hm) hc rfl (by decide) (by decide) (if_neg (of_decide_eq_true hne))
  | scalei =>
    obtain rfl := eq_of_beq hc
    cases hw
    exact decodeAnvil_scalei (ok_of_movesWf hwf)
  | ldi d dst imm =>
    obtain ⟨-, hd⟩ := Bool.and_eq_true_iff.mp hwf
    cases hw
    exact decodeAnvil_of_immediateOf hc (by decide) dst.isLt (by decide) imm.isLt (by simp [immediateOf, hd])
  | move d dst src =>
    obtain ⟨hd, hs⟩ := Bool.and_eq_true_iff.mp hwf
    obtain ⟨-, hd⟩ := Bool.and_eq_true_iff.mp hd
    cases hw
    exact decodeAnvil_of_immediateOf hc (by decide) dst.isLt src.isLt (by decide) (by simp [immediateOf, hd, hs])
  | movc d dst a | ldx d dst a | ldy d dst a =>
    obtain ⟨-, hd⟩ := Bool.and_eq_true_iff.mp hwf
    have ha := a.isLt
    cases hw
    exact decodeAnvil_of_immediateOf hc (by decide) dst.isLt (by decide) (by omega) (by simp [immediateOf, hd, ha])
  | stx d src a | sty d src a =>
    obtain ⟨-, hs⟩ := Bool.and_eq_true_iff.mp hwf
    have ha := a.isLt
    cases hw
    exact decodeAnvil_of_immediateOf hc (by decide) (by decide) src.isLt (by omega) (by simp [immediateOf, hs, ha])
  | lea d p off =>
    have hp : 20 + p.val ≤ 27 := by omega
    have hcode : (20 + p.val) % 64 = 20 + p.val := by omega
    have hoff := off.isLt
    cases hw
    exact decodeAnvil_of_immediateOf hc (by decide) (by omega) (by decide) (by omega)
      (by simp [immediateOf, hcode, hoff, hp])
  | addi d da imm | cmpi d da imm =>
    have ha : 4 + da.val ≤ 7 := by omega
    have hcode : (4 + da.val) % 64 = 4 + da.val := by omega
    cases hw
    exact decodeAnvil_of_immediateOf hc (by decide) (by omega) (by decide) imm.isLt (by simp [immediateOf, hcode, ha])
  | bra d cond t | call d cond t =>
    have hcond := cond.isLt
    cases hw
    exact decodeAnvil_of_branchOf hc (by decide) (by omega) t.isLt (by decide) (by simp [branchOf, hcond])
  | ret d cond =>
    have hcond := cond.isLt
    cases hw
    exact decodeAnvil_of_branchOf hc (by decide) (by omega) (by decide) (by decide) (by simp [branchOf, hcond])
  | loop d t n =>
    obtain ⟨hc, ht⟩ := Bool.and_eq_true_iff.mp hc
    cases hw
    exact decodeAnvil_of_branchOf hc (by decide) (by decide) t.isLt n.isLt (by simpa [branchOf] using ht)
  | loopr d t r =>
    obtain ⟨hc, ht⟩ := Bool.and_eq_true_iff.mp hc
    obtain ⟨-, hr⟩ := Bool.and_eq_true_iff.mp hwf
    have := r.isLt
    cases hw
    exact decodeAnvil_of_branchOf hc (by decide) (by decide) t.isLt (by omega) (by simpa [branchOf, hr, r.isLt] using ht)
  | loopn d t =>
    obtain ⟨hc, ht⟩ := Bool.and_eq_true_iff.mp hc
    cases hw
    exact decodeAnvil_of_branchOf hc (by decide) (by decide) t.isLt (by decide) (by simpa [branchOf] using ht)
  | breakOp | release =>
    cases hw
    exact decodeAnvil_of_branchOf hc (by decide) (by decide) (by decide) (by decide) rfl
  | evwait d j | evpulse d j =>
    have hj := j.isLt
    cases hw
    exact decodeAnvil_of_branchOf hc (by decide) (by decide) (by decide) (by omega) (by simp [branchOf, hj])
  | remoteRead | remoteWrite | atomicAddWrapping | atomicAddSaturating | atomicSwap =>
    obtain ⟨hc, hx⟩ := Bool.and_eq_true_iff.mp hc
    obtain ⟨hc, ho⟩ := Bool.and_eq_true_iff.mp hc
    obtain rfl := eq_of_beq hc
    obtain rfl := eq_of_beq ho
    obtain rfl := eq_of_beq hx
    cases hw
    exact decodeR_encode (by decide) _ _ _ _ _
  | _ => cases hw

/-- Settles O54: by the class of the word, which its fields make up again. -/
theorem encodeInvertsDecode : Obligations.EncodeInvertsDecode := by
  unfold Obligations.EncodeInvertsDecode
  intro c pc w i h
  unfold decodeAnvil at h
  split at h
  case h_1 hcls => exact encodeAnvil_of_decodeP hcls h
  case h_2 hcls => exact encodeAnvil_of_decodeI hcls h
  case h_3 hcls => exact encodeAnvil_of_decodeB hcls h
  case h_4 hcls => exact encodeAnvil_of_decodeR hcls h
  case h_5 => cases h

/-- Settles O55: the decoder evaluated on each word. -/
theorem anvilWordsDecode : Obligations.AnvilWordsDecode :=
  ⟨rfl, rfl, rfl, rfl, rfl, rfl, rfl, rfl⟩
end

/-! ### Instructions that run

What the body of an instruction comes to is what its core goes on to; a pulse and a release reach beyond it (R254 to R270). -/

section
namespace Sys2Proof.Machine

variable {c m : Nat} {i : Instr} {md : Mod} {needs : Hazard} {body : AEnv → CoreSt → Except Nat Ran} {s : State} {e : AEnv}
  {k : CoreSt}

/-! ### Bodies that stay on the core -/

/-- An attempt at an instruction's body that comes to `r`, with nothing left to do beyond its core. -/
def ComesTo (x : Except Nat Ran) (r : Ran) : Prop :=
  ∃ q, x = .ok q ∧ q.k = r.k ∧ q.next = r.next ∧ q.cost = r.cost ∧ q.wrote = r.wrote ∧ q.bank = id ∧ q.after = id

theorem comesTo_ok (q : Ran) (hbank : q.bank = id) (hafter : q.after = id) :
    ComesTo (.ok q) { k := q.k, next := q.next, cost := q.cost, wrote := q.wrote } :=
  ⟨q, rfl, rfl, rfl, rfl, rfl, hbank, hafter⟩

/-- An instruction whose body never fails runs. -/
theorem runs_of_comesTo {f : AEnv → CoreSt → Ran} (hx : ∀ s, exec i s = .next (runInstr c i needs body s))
    (hf : ∀ e k, ComesTo (body e k) (f e k)) : Runs c i needs fun _ e k => some (f e k) :=
  runs_of_body hx fun _ e k _ h => Option.some.inj h ▸ hf e k

theorem AEnv.check_of_lt_bound {y : Bool} {a : Nat} (h : a < e.bound y) : e.check y false a = .ok () := by
  rw [AEnv.check, if_neg (Nat.not_le.mpr h)]
  rfl

theorem comesTo_storeAbs {y : Bool} {src : BitVec 6} {addr : BitVec 15} {r : Ran}
    (h : (storeAbs y src addr e k).toOption = some r) : ComesTo (storeAbs y src addr e k) r := by
  unfold storeAbs at h ⊢
  split at h <;> cases h
  exact comesTo_ok _ rfl rfl

/-! ### Pulses and releases -/

theorem running_of_runs (h : s.runs c = some (m, md)) : (s.core c).run = some m ∧ s.mod? m = some md := by
  unfold State.runs at h
  dsimp only at h
  split at h
  · cases h
  split at h
  · cases h
  split at h <;> cases h
  exact ⟨by assumption, by assumption⟩

/-- A command that runs a fetched instruction with nothing to do at the banks: its core goes on, and then comes `f`. -/
theorem exec_after {r : Ran} {f : State → State} (hx : exec i s = .next (runInstr c i needs body s)) (hf : s.fetches c i m md)
    (hm : s.fitsMeter c md needs r) (hbank : r.bank = id)
    (hb : body (s.aenv c m md) (s.regsAt c) = .ok { r with after := f }) :
    ∃ u, SameRest (s.setCore c (s.coreAfter c needs r)) u ∧ u.core c = s.coreAfter c needs r ∧
      exec i s = .next ((f u).fetchBound c m md) := by
  obtain ⟨u, hu, hcore, he⟩ := runInstr_after (r := { r with after := f }) hf hb hm hbank rfl rfl
  exact ⟨u, hu, hcore, by rw [hx, he]⟩

/-- A pulse of a module's line by its core (R270). -/
theorem evpulse_of_line {j : BitVec 8} {l : Nat} (hf : s.fetches c (.evpulse c j) m md)
    (hl : (s.aenv c m md).line j.toNat = some l) (hc : c < 48) (hm : s.fitsMeter c md noNeeds { k := s.regsAt c }) :
    ∃ t, exec (.evpulse c j) s = .next t ∧ Store.get false (t.core c).latch l = true ∧ (∀ a, t.readByte a = s.readByte a) ∧
      (∀ n, t.mod? n = s.mod? n) ∧
      ∀ d x, x ≠ l → Store.get false (t.core d).latch x = Store.get false (s.core d).latch x := by
  obtain ⟨u, hu, hcore, he⟩ := exec_after (f := (State.pulse · l)) rfl hf hm rfl (by simp only [hl])
  obtain ⟨hpc, hlatch, hmods, hbytes, hlatches⟩ := pulse_core u l c hc
  rw [fetchBound_below ((hpc.trans (congrArg CoreSt.pc hcore)).trans_lt hm.2)] at he
  refine ⟨_, he, hlatch, fun a => (hbytes a).trans (readByte_of_rest hu rfl rfl rfl a),
    fun n => (hmods n).trans (mod?_of_anv hu.1 n), fun d x hx => (hlatches d x hx).trans ?_⟩
  by_cases hd : c = d
  · subst hd
    rw [hcore]
    rfl
  · rw [core_of_anv hu.1, core_setCore_ne s hd]

/-- A release with no posted write waiting, by the last module of its core's block (R235). -/
theorem release_of_empty (hf : s.fetches c (.release c) m md) (hm : s.fitsMeter c md noNeeds { k := s.regsAt c })
    (hbuf : (s.core c).wbuf = []) (hlast : (s.core c).todo = []) (htrial : s.onTrial c = false) :
    ∃ t, exec (.release c) s = .next t ∧ (t.core c).run = none ∧ t.mod? m = some { md with released := true } ∧
      (∀ a, t.readByte a = s.readByte a) ∧ (∀ d, d ≠ c → t.core d = s.core d) ∧ ∀ n, n ≠ m → t.mod? n = s.mod? n := by
  obtain ⟨hrun, hmod⟩ := running_of_runs hf.1
  obtain ⟨u, hu, hcore, he⟩ := exec_after (r := { k := { s.regsAt c with stack := [] } }) (f := (State.endModule · c true))
    rfl hf hm rfl (if_pos hbuf)
  have hmods (n : Nat) : u.mod? n = s.mod? n := mod?_of_anv (s := s.setCore c _) hu.1 n
  have hquiet : u.onTrial c = false := by rw [State.onTrial, hu.2.2.2.1]; exact htrial
  obtain ⟨hidle, hreleased, hbytes, hcores, hothers⟩ := endModule_last (released := true) hquiet
    ((congrArg CoreSt.run hcore).trans hrun) ((congrArg CoreSt.todo hcore).trans hlast)
    ((congrArg CoreSt.wbuf hcore).trans hbuf) ((hmods m).trans hmod)
  rw [fetchBound_idle hidle] at he
  refine ⟨_, he, hidle, hreleased, fun a => (hbytes a).trans (readByte_of_rest hu rfl rfl rfl a),
    fun d hd => (hcores d hd).trans ?_, fun n hn => (hothers n hn).trans (hmods n)⟩
  rw [core_of_anv hu.1, core_setCore_ne s (Ne.symm hd)]

end Sys2Proof.Machine

open Sys2Proof Sys2Proof.Machine

/-- Settles O48: every row of the table is its arithmetic; ABS alone chooses between two values before its flags are set. -/
theorem anvilArithmeticRuns : Obligations.AnvilArithmeticRuns := by
  unfold Obligations.AnvilArithmeticRuns
  intro c mv da db s1 s2 s3 s4 n1 n2 n
  refine ⟨?nop, ?mul, ?mac, ?mul2, ?mac2, ?dmul, ?dmac, ?macrn, ?add, ?sub, ?addsub, ?addx, ?subx, ?mova, ?clr, ?neg, ?abs,
    ?max, ?min, ?cmp, ?cmpx, ?tst, ?rnd, ?scalei, ?scaler, ?norm, ?divs, ?bexp, ?andx, ?orx, ?xorx⟩
  case abs =>
    exact runsP_of fun s => congrArg (runP c (.abs c da mv) mv · s) (funext fun k => apply_ite (Arith.one k da) _ _ _)
  all_goals exact runsP_of fun _ => rfl

/-- Settles O49: each body by the choice it makes, and a pulse and a release by what they do beyond the core. -/
theorem anvilControlRuns : Obligations.AnvilControlRuns := by
  unfold Obligations.AnvilControlRuns
  intro c dst src reg imm cr j addr p off da cond target count whole moved load body jump
  refine ⟨?ldi, ?moveWhole, ?move, ?movc, ?ldx, ?ldy, ?stx, ?sty, ?lea, ?addi, ?cmpi, ?bra, ?call, ?ret, ?loop, ?loopr, ?loopn,
    ?breakOp, ?evwait, ?evpulse, ?release, ?draining⟩
  case ldi | lea | addi | cmpi => exact runs_of_comesTo (fun _ => rfl) fun e k => comesTo_ok _ rfl rfl
  case moveWhole =>
    intro hsrc hdst
    exact runs_of_comesTo (fun s => if_pos ⟨hsrc.1, hsrc.2, hdst⟩) fun e k => comesTo_ok _ rfl rfl
  case move =>
    intro hpart
    exact runs_of_comesTo (fun s => if_neg fun h => hpart ⟨⟨h.1, h.2.1⟩, h.2.2⟩) fun e k => comesTo_ok _ rfl rfl
  case movc =>
    refine fun hcyc => runs_of_body (fun _ => rfl) fun s e k r h => ?_
    obtain ⟨v, hv, rfl⟩ := Option.map_eq_some_iff.mp h
    rw [hv]
    exact comesTo_ok _ rfl (funext fun t => if_neg hcyc)
  case ldx | ldy =>
    refine runs_of_body (fun _ => rfl) fun s e k r h => ?_
    dsimp only [load] at h
    split at h <;> cases h
    rename_i hbound
    simp only [loadAbs, AEnv.check_of_lt_bound hbound]
    exact comesTo_ok _ rfl rfl
  case stx | sty => exact runs_of_body (fun _ => rfl) fun s e k r h => comesTo_storeAbs h
  case bra =>
    refine runs_of_comesTo (fun _ => rfl) fun e k => ?_
    split <;> exact comesTo_ok _ rfl rfl
  case call =>
    refine runs_of_body (fun _ => rfl) fun s e k r h => ?_
    split at h
    · split at h <;> cases h
      rename_i hcond hroom
      rw [if_pos hcond, if_neg (Nat.not_le.mpr hroom)]
      exact comesTo_ok _ rfl rfl
    · cases h
      rename_i hcond
      rw [if_neg hcond]
      exact comesTo_ok _ rfl rfl
  case ret =>
    refine runs_of_body (fun _ => rfl) fun s e k r h => ?_
    split at h
    · rename_i hcond
      rw [if_pos hcond]
      rcases hstack : k.stack with _ | ⟨_ | a, rest⟩ <;> rw [hstack] at h <;> cases h
      exact comesTo_ok _ rfl rfl
    · cases h
      rename_i hcond
      rw [if_neg hcond]
      exact comesTo_ok _ rfl rfl
  case loop | loopr | loopn => exact runs_of_body (fun _ => rfl) fun s e k r h => loopBody_of h
  case breakOp =>
    refine runs_of_body (fun _ => rfl) fun s e k r h => ?_
    rcases hstack : k.stack with _ | ⟨_ | a, rest⟩ <;> rw [hstack] at h <;> cases h
    exact comesTo_ok _ rfl rfl
  case evwait =>
    refine runs_of_body (fun _ => rfl) fun s e k r h => ?_
    obtain ⟨l, hl, rfl⟩ := Option.map_eq_some_iff.mp h
    simp only [hl]
    split <;> exact comesTo_ok _ rfl rfl
  case draining =>
    refine runs_of_body (fun _ => rfl) fun s e k r h => ?_
    split at h <;> cases h
    rename_i hbuf
    rw [if_neg hbuf]
    exact comesTo_ok _ rfl rfl
  case evpulse => exact fun s m md l hf hl hc hm => evpulse_of_line hf hl hc hm
  case release => exact fun s m md hf hm hbuf hlast htrial => release_of_empty hf hm hbuf hlast htrial
end

/-! ### What leaves memory as it is

The functions of the model that answer a state with the memory they were given, in the order of the model's files. -/

section
namespace Sys2Proof.Machine

@[simp] theorem foldl_mem {α : Type} {g : State → α → State} (h : ∀ t x, (g t x).fab.mem = t.fab.mem) (l : List α)
    (s : State) : (l.foldl g s).fab.mem = s.fab.mem := by
  induction l generalizing s with
  | nil => rfl
  | cons x l ih => rw [List.foldl_cons, ih, h]

@[simp] theorem State.ite_fab (p : Prop) [Decidable p] (s t : State) :
    (if p then s else t).fab = if p then s.fab else t.fab :=
  apply_ite State.fab p s t

@[simp] theorem Fab.ite_mem (p : Prop) [Decidable p] (s t : Fab) :
    (if p then s else t).mem = if p then s.mem else t.mem :=
  apply_ite Fab.mem p s t

/-- `t` holds the memory of `s`. -/
def SameMem (s t : State) : Prop := t.fab.mem = s.fab.mem

/-- An update that leaves the fabric leaves its memory. -/
theorem SameMem.of_fab {s t u : State} (h : SameMem s t) (hf : u.fab = t.fab) : SameMem s u :=
  (congrArg Fab.mem hf).trans h

theorem SameMem.of_set {s t : State} {code inst elem : ℕ} {v : ℤ} (h : SameMem s t) :
    SameMem s (t.set code inst elem v) :=
  h.of_fab (State.set_fab ..)

/-- What leaves memory keeps it the same. -/
theorem SameMem.of_mem {s t u : State} (h : SameMem s t) (hu : u.fab.mem = t.fab.mem) : SameMem s u := hu.trans h

/-! #### Operations on the state -/

@[simp] theorem State.fresh_mem (s : State) : s.fresh.2.fab.mem = s.fab.mem := rfl

theorem State.openTicket_mem {s t : State} {origin total k : ℕ} (h : s.openTicket origin total = some (k, t)) :
    t.fab.mem = s.fab.mem := by
  unfold State.openTicket at h
  split at h <;> cases h
  simp

@[simp] theorem State.startHold_mem (s : State) (o : OutRef) (v : ℤ) (holdFor : ℕ) :
    (s.startHold o v holdFor).fab.mem = s.fab.mem := by
  simp [State.startHold]

@[simp] theorem State.startResume_mem (s : State) (o : OutRef) (c : ℤ) : (s.startResume o c).fab.mem = s.fab.mem := by
  unfold State.startResume; split <;> simp

@[simp] theorem State.holdSap_mem (s : State) (n : ℕ) : (s.holdSap n).fab.mem = s.fab.mem := by simp [State.holdSap]

@[simp] theorem State.holdSaps_mem (s : State) : (s.holdSaps).fab.mem = s.fab.mem := by simp [State.holdSaps]

@[simp] theorem State.setRole_mem (s : State) (role standby : ℕ) :
    (s.setRole role standby).fab.mem = s.fab.mem := by
  simp [State.setRole]

@[simp] theorem State.dropRole_mem (s : State) (role : ℕ) :
    (s.dropRole role).fab.mem = s.fab.mem := by
  simp [State.dropRole]

@[simp] theorem State.raise_mem (s : State) (b : ℕ) : (s.raise b).fab.mem = s.fab.mem := by
  obtain ⟨-, -, -, -, -, h, -, -⟩ := raise_same s b
  exact h

@[simp] theorem State.fall_mem (s : State) (b : ℕ) : (s.fall b).fab.mem = s.fab.mem := by simp [State.fall]

/-! #### The commit path -/

@[simp] theorem State.appendGroup_mem (s : State) (recs : List Rec) :
    (s.appendGroup recs).fab.mem = s.fab.mem := by
  simp [State.appendGroup]

@[simp] theorem State.commit_mem (s : State) (recs : List Rec) :
    (s.commit recs).fab.mem = s.fab.mem := by
  simp [State.commit]

@[simp] theorem State.commitAttr_mem (s : State) (code inst elem : ℕ) :
    (s.commitAttr code inst elem).fab.mem = s.fab.mem := by
  simp [State.commitAttr]

@[simp] theorem State.send_mem (s : State) (typ : ℕ) (payload : List Byte) :
    (s.send typ payload).fab.mem = s.fab.mem := by
  simp [State.send]

@[simp] theorem State.mirror_mem (s : State) (body : List Byte) :
    (s.mirror body).fab.mem = s.fab.mem := by
  simp [State.mirror]

@[simp] theorem State.askSlip_mem (s : State) (code inst : ℕ) (slow : Bool) :
    (s.askSlip code inst slow).fab.mem = s.fab.mem := by
  simp [State.askSlip]

@[simp] theorem State.note_mem (s : State) (typ addr elem count : ℕ) :
    (s.note typ addr elem count).fab.mem = s.fab.mem := by
  simp [State.note]

/-! #### Memory -/

@[simp] theorem State.eccTouch_mem (s : State) (w : ℕ) : (s.eccTouch w).fab.mem = s.fab.mem := by
  unfold State.eccTouch; (repeat' split) <;> simp

@[simp] theorem State.eccTouches_mem (s : State) (l : List ℕ) :
    (s.eccTouches l).fab.mem = s.fab.mem := by
  simp [State.eccTouches]

@[simp] theorem State.eccClear_mem (s : State) (w : ℕ) : (s.eccClear w).fab.mem = s.fab.mem := by simp [State.eccClear]

@[simp] theorem State.busRead_mem (s : State) (a n : ℕ) : (s.busRead a n).2.fab.mem = s.fab.mem := by
  simp [State.busRead]

/-! #### Segments -/

@[simp] theorem State.setMod_mem (s : State) (m : ℕ) (md : Mod) :
    (s.setMod m md).fab.mem = s.fab.mem := by
  simp [State.setMod]

@[simp] theorem State.clearSegs_mem (s : State) (c : ℕ) (md : Mod) :
    (s.clearSegs c md).fab.mem = s.fab.mem := by
  simp [State.clearSegs]

@[simp] theorem State.putSegs_mem (s : State) (c m : ℕ) (md : Mod) (d : SegData) :
    (s.putSegs c m md d).fab.mem = s.fab.mem := by
  simp [State.putSegs]

@[simp] theorem packSegs_mem (c : ℕ) (l : List (ℕ × Mod × SegData)) (p x y : ℕ) (s : State) :
    (packSegs c l p x y s).fab.mem = s.fab.mem := by
  induction l generalizing p x y s with
  | nil => rfl
  | cons e l ih => rw [packSegs, ih]; simp

@[simp] theorem State.seat_mem (s : State) (c m : ℕ) (on : List ℕ) (d : SegData) :
    (s.seat c m on d).fab.mem = s.fab.mem := by
  unfold State.seat
  split
  · rfl
  · dsimp only
    split <;> simp

@[simp] theorem State.passOn_mem (s : State) (m : ℕ) (md : Mod) (a b : ℕ) :
    (s.passOn m md a b).fab.mem = s.fab.mem := by
  simp [State.passOn]

@[simp] theorem State.reseat_mem (s : State) (old : Store ℕ) : (s.reseat old).fab.mem = s.fab.mem := by
  unfold State.reseat
  refine List.foldlRecOn (motive := fun a : State × List ℕ => a.1.fab.mem = s.fab.mem) _ _ ?_ fun a ha d _ => ?_
  · exact foldl_mem (fun t e => by split <;> simp) _ _
  · dsimp only
    split
    · rw [seat_mem, ha]
    · exact ha

/-! #### The sequencer -/

@[simp] theorem State.latchOn_mem (s : State) (line c : ℕ) :
    (s.latchOn line c).fab.mem = s.fab.mem := by
  simp [State.latchOn]

@[simp] theorem State.pulse_mem (s : State) (line : ℕ) : (s.pulse line).fab.mem = s.fab.mem := by simp [State.pulse]

@[simp] theorem State.applyConsts_mem (s : State) (c m : ℕ) (md : Mod) :
    (s.applyConsts c m md).fab.mem = s.fab.mem := by
  simp [State.applyConsts]

@[simp] theorem startNext_mem (c : ℕ) (l : List ℕ) (s : State) : (startNext c l s).fab.mem = s.fab.mem := by
  induction l generalizing s with
  | nil => simp [startNext]
  | cons m l ih =>
    unfold startNext
    split
    · exact ih s
    · simp

@[simp] theorem State.overran_mem (s : State) (c m why : ℕ) :
    (s.overran c m why).fab.mem = s.fab.mem := by
  simp [State.overran]

/-! #### Serving a request -/

@[simp] theorem State.noTransport_mem (s : State) (via : ℕ) :
    (s.noTransport via).fab.mem = s.fab.mem := by
  simp [State.noTransport]

theorem State.arrive_mem {s t : State} {q : Req} (h : s.arrive q = .dropped t ∨ s.arrive q = .got t) :
    t.fab.mem = s.fab.mem := by
  unfold State.arrive at h
  dsimp only at h
  (repeat' split at h) <;> rcases h with h | h <;> cases h <;> simp

theorem State.take_mem {s t : State} {q : Req} (h : s.take q = .dropped t ∨ s.take q = .got t) :
    t.fab.mem = s.fab.mem := by
  unfold State.take at h
  split at h
  · exact State.arrive_mem h
  · split at h <;> rcases h with h | h <;> cases h
    rfl

@[simp] theorem State.writeParams_mem (s : State) : (s.writeParams).fab.mem = s.fab.mem := by simp [State.writeParams]

@[simp] theorem State.journal_mem (s : State) (c : Ctx) : (s.journal c).fab.mem = s.fab.mem := by simp [State.journal]

@[simp] theorem State.mirrorWrite_mem (s : State) (c : Ctx) :
    (s.mirrorWrite c).fab.mem = s.fab.mem := by
  simp [State.mirrorWrite]

@[simp] theorem State.file_mem (s : State) (q : Req) (due : ℕ) : (s.file q due).fab.mem = s.fab.mem := by
  unfold State.file; split <;> simp

@[simp] theorem State.noteStored_mem (s : State) (c : Ctx) :
    (s.noteStored c).fab.mem = s.fab.mem := by
  simp [State.noteStored]

@[simp] theorem State.bumps_mem (s : State) (l : List ℕ) : (s.bumps l).fab.mem = s.fab.mem := by
  induction l generalizing s with
  | nil => rfl
  | cons c l ih => simp [State.bumps, ih]

@[simp] theorem State.deliver_mem (s : State) (q : Req) (bytes : List Byte) :
    (s.deliver q bytes).fab.mem = s.fab.mem := by
  simp [State.deliver]

@[simp] theorem State.keep_mem (s : State) (q : Req) (bytes : List Byte) :
    (s.keep q bytes).fab.mem = s.fab.mem := by
  simp [State.keep]

@[simp] theorem State.putSession_mem (s : State) (k : Option Session) : (s.putSession k).fab.mem = s.fab.mem := by
  unfold State.putSession; split <;> simp

/-! #### Placement -/

@[simp] theorem State.spaceAttrs_mem (s : State) : (s.spaceAttrs).fab.mem = s.fab.mem := by simp [State.spaceAttrs]

theorem State.addRegions_mem {s t : State} (h : s.addRegions = .ok t) : t.fab.mem = s.fab.mem := by
  unfold State.addRegions at h
  dsimp only at h
  split at h
  · cases h; rfl
  · split at h <;> cases h
    simp

@[simp] theorem State.setBinding_mem (s : State) (code : ℕ) (m : Store ℕ) :
    (s.setBinding code m).fab.mem = s.fab.mem := by
  unfold State.setBinding
  rw [foldl_mem fun t e => by split <;> simp, foldl_mem fun t e => by simp]

@[simp] theorem State.loadAttrs_mem (s : State) (t : Topo) (p : Place) : (s.loadAttrs t p).fab.mem = s.fab.mem := by
  unfold State.loadAttrs
  dsimp only
  rw [foldl_mem fun t e => by rw [State.set_fab], State.set_fab, State.setList_fab, State.setList_fab,
    State.setList_fab]

@[simp] theorem State.bind_mem (s : State) (p : Place) : (s.bind p).fab.mem = s.fab.mem := by simp [State.bind]

@[simp] theorem State.dropContexts_mem (s : State) :
    (s.dropContexts).fab.mem = s.fab.mem := by
  simp [State.dropContexts]

theorem State.freshRegions_mem {s t : State} {l : List PMove} (h : s.freshRegions = .ok (t, l)) :
    t.fab.mem = s.fab.mem := by
  unfold State.freshRegions at h
  dsimp only at h
  (repeat' split at h) <;> cases h
  simp

@[simp] theorem State.planAttr_mem (s : State) : (s.planAttr).fab.mem = s.fab.mem := by simp [State.planAttr]

theorem State.addPlan_mem {s t : State} {origin k : ℕ} {p : Place} {l : List PMove} {effect : List (ℕ × ℤ)}
    (h : s.addPlan origin p l effect = some (k, t)) : t.fab.mem = s.fab.mem := by
  unfold State.addPlan at h
  split at h
  · cases h
  · cases h
    simp [State.openTicket_mem ‹_›]

@[simp] theorem State.prune_mem (s : State) : (s.prune).fab.mem = s.fab.mem := by simp [State.prune]

@[simp] theorem State.tcBytes_mem (s : State) (ch n : ℕ) :
    (s.tcBytes ch n).fab.mem = s.fab.mem := by
  simp [State.tcBytes]

/-! #### Ramps and timed changes -/

@[simp] theorem State.setNode_mem (s : State) (plane sr d w : ℕ) :
    (s.setNode plane sr d w).fab.mem = s.fab.mem := by
  simp [State.setNode]

@[simp] theorem State.commitParam_mem (s : State) (p : RParam) (v : ℤ) (ramping : Bool) :
    (s.commitParam p v ramping).fab.mem = s.fab.mem := by
  unfold State.commitParam; split <;> simp

@[simp] theorem State.startRamp_mem (s : State) (r : NewRamp) (f : ℕ) :
    (s.startRamp r f).fab.mem = s.fab.mem := by
  simp [State.startRamp]

@[simp] theorem State.startGroup_mem (s : State) (l : List NewRamp) (f : RParam → ℕ) :
    (s.startGroup l f).fab.mem = s.fab.mem := by
  simp [State.startGroup]

@[simp] theorem State.requeue_mem (s : State) (r : NewRamp) :
    (s.requeue r).fab.mem = s.fab.mem := by
  simp [State.requeue]

@[simp] theorem State.showTarget_mem (s : State) (r : NewRamp) : (s.showTarget r).fab.mem = s.fab.mem := by
  unfold State.showTarget; split <;> simp

@[simp] theorem State.belCounts_mem (s : State) : (s.belCounts).fab.mem = s.fab.mem := by simp [State.belCounts]

theorem State.acceptGroup_mem {s t : State} {l : List NewRamp} {due : Option ℕ} {steps : Bool} {a : ℕ × ℕ}
    (h : s.acceptGroup l due steps a = .ok t) : t.fab.mem = s.fab.mem := by
  unfold State.acceptGroup at h
  dsimp only at h
  (repeat' split at h) <;> cases h <;> simp

theorem writeRamps_mem {c : Ctx} {l : List (RParam × ℤ)} {s t : State} (h : writeRamps c l s = .ok t) :
    t.fab.mem = s.fab.mem := by
  unfold writeRamps at h
  dsimp only at h
  split at h
  · cases h
    simp
  · exact State.acceptGroup_mem h

@[simp] theorem State.setZ_mem (s : State) (p : ZParam) (z : Option ZPend) :
    (s.setZ p z).fab.mem = s.fab.mem := by
  simp [State.setZ]

@[simp] theorem State.releasePreamp_mem (s : State) (n : ℕ) (v : ℤ) :
    (s.releasePreamp n v).fab.mem = s.fab.mem := by
  simp [State.releasePreamp]

@[simp] theorem State.stepped_mem (s : State) (p : ZParam) (z : ZPend) :
    (s.stepped p z).fab.mem = s.fab.mem := by
  simp [State.stepped]

@[simp] theorem State.settleZ_mem (s : State) (p : ZParam) : (s.settleZ p).fab.mem = s.fab.mem := by
  unfold State.settleZ; (repeat' split) <;> simp

@[simp] theorem queuedGroupStart_mem (s : State) : (queuedGroupStart s).fab.mem = s.fab.mem := by
  unfold queuedGroupStart; split <;> simp

@[simp] theorem State.endRamp_mem (s : State) (p : RParam) (last : ℤ) :
    (s.endRamp p last).fab.mem = s.fab.mem := by
  simp [State.endRamp]

@[simp] theorem rampEnd_mem (p : RParam) (s : State) : (rampEnd p s).fab.mem = s.fab.mem := by
  unfold rampEnd; (repeat' split) <;> simp

@[simp] theorem zeroCrossing_mem (p : ZParam) (s : State) : (zeroCrossing p s).fab.mem = s.fab.mem := by
  unfold zeroCrossing; (repeat' split) <;> simp

@[simp] theorem zcTimeout_mem (p : ZParam) (s : State) : (zcTimeout p s).fab.mem = s.fab.mem := by
  unfold zcTimeout; (repeat' split) <;> simp

@[simp] theorem preampRelease_mem (n : ℕ) (s : State) : (preampRelease n s).fab.mem = s.fab.mem := by
  unfold preampRelease; (repeat' split) <;> simp

@[simp] theorem timedHandover_mem (s : State) : (timedHandover s).fab.mem = s.fab.mem := by simp [timedHandover]

@[simp] theorem State.withdrawStrike_mem (s : State) : (s.withdrawStrike).fab.mem = s.fab.mem := by
  unfold State.withdrawStrike; split <;> simp

@[simp] theorem holdTimeExpiry_mem (o : OutRef) (s : State) : (holdTimeExpiry o s).fab.mem = s.fab.mem := by
  unfold holdTimeExpiry; split <;> simp

@[simp] theorem holdFadeEnd_mem (o : OutRef) (s : State) : (holdFadeEnd o s).fab.mem = s.fab.mem := by
  unfold holdFadeEnd; split <;> simp

@[simp] theorem resumeFadeEnd_mem (o : OutRef) (s : State) : (resumeFadeEnd o s).fab.mem = s.fab.mem := by
  unfold resumeFadeEnd; split <;> simp

/-! #### References -/

@[simp] theorem State.setRef_mem (s : State) (r : ℕ) (x : RefSt) :
    (s.setRef r x).fab.mem = s.fab.mem := by
  simp [State.setRef]

@[simp] theorem State.setSteer_mem (s : State) (v : ℤ) : (s.setSteer v).fab.mem = s.fab.mem := by simp [State.setSteer]

@[simp] theorem State.journalModel_mem (s : State) :
    (s.journalModel).fab.mem = s.fab.mem := by
  simp [State.journalModel]

@[simp] theorem State.setHea_mem (s : State) (st : ℕ) : (s.setHea st).fab.mem = s.fab.mem := by simp [State.setHea]

@[simp] theorem State.bridge_mem (s : State) : (s.bridge).fab.mem = s.fab.mem := by
  unfold State.bridge; dsimp only; (repeat' split) <;> simp

@[simp] theorem State.beginSwitch_mem (s : State) (r : ℕ) :
    (s.beginSwitch r).fab.mem = s.fab.mem := by
  simp [State.beginSwitch]

@[simp] theorem State.loseReference_mem (s : State) : (s.loseReference).fab.mem = s.fab.mem := by
  unfold State.loseReference; dsimp only; (repeat' split) <;> simp

@[simp] theorem State.acquire_mem (s : State) (r : ℕ) : (s.acquire r).fab.mem = s.fab.mem := by simp [State.acquire]

@[simp] theorem State.chooseRef_mem (s : State) : (s.chooseRef).fab.mem = s.fab.mem := by
  unfold State.chooseRef; dsimp only; (repeat' split) <;> simp

@[simp] theorem State.abandon_mem (s : State) : (s.abandon).fab.mem = s.fab.mem := by
  unfold State.abandon; dsimp only; (repeat' split) <;> simp

@[simp] theorem State.lostRef_mem (s : State) (r : ℕ) : (s.lostRef r).fab.mem = s.fab.mem := by
  unfold State.lostRef; split <;> simp

@[simp] theorem State.disqualify_mem (s : State) (r : ℕ) (count : Bool) :
    (s.disqualify r count).fab.mem = s.fab.mem := by
  simp [State.disqualify]

@[simp] theorem State.recheck_mem (s : State) (r : ℕ) : (s.recheck r).fab.mem = s.fab.mem := by simp [State.recheck]

@[simp] theorem State.accountSteer_mem (s : State) (t : ℤ) :
    (s.accountSteer t).fab.mem = s.fab.mem := by
  simp [State.accountSteer]

@[simp] theorem State.loopUpdate_mem (s : State) (dt : ℤ) : (s.loopUpdate dt).fab.mem = s.fab.mem := by
  have h : (s.loopUpdate dt).fab.mem = s.fresh.2.fab.mem := State.setSteer_mem _ _
  exact h

@[simp] theorem State.lockTests_mem (s : State) (r : ℕ) (res : ℤ) :
    (s.lockTests r res).fab.mem = s.fab.mem := by
  simp [State.lockTests]

@[simp] theorem State.loopSample_mem (s : State) (r f rate : ℕ) (p dt : ℤ) :
    (s.loopSample r f rate p dt).fab.mem = s.fab.mem := by
  simp [State.loopSample]

@[simp] theorem State.phaseIn_mem (s : State) (r f rate : ℕ) (phase t : ℤ) :
    (s.phaseIn r f rate phase t).fab.mem = s.fab.mem := by
  unfold State.phaseIn; dsimp only; (repeat' split) <;> simp

@[simp] theorem phaseSample_mem (r : ℕ) (phase : Phases) (time : ℤ) (s : State) :
    (phaseSample r phase time s).fab.mem = s.fab.mem := by
  simp [phaseSample]

@[simp] theorem referenceQualified_mem (r : ℕ) (s : State) :
    (referenceQualified r s).fab.mem = s.fab.mem := by
  simp [referenceQualified]

@[simp] theorem referenceDisqualified_mem (r : ℕ) (s : State) :
    (referenceDisqualified r s).fab.mem = s.fab.mem := by
  simp [referenceDisqualified]

@[simp] theorem State.endWait_mem (s : State) (r : ℕ) : (s.endWait r).fab.mem = s.fab.mem := by simp [State.endWait]

@[simp] theorem disagree_mem (a b : ℕ) (set : Bool) (s : State) :
    (disagree a b set s).fab.mem = s.fab.mem := by
  simp [disagree]

@[simp] theorem State.walkOffset_mem (s : State) (ms : ℕ) :
    (s.walkOffset ms).fab.mem = s.fab.mem := by
  simp [State.walkOffset]

@[simp] theorem selectorRun_mem (now : ℕ) (s : State) : (selectorRun now s).fab.mem = s.fab.mem := by
  unfold selectorRun; dsimp only; (repeat' split) <;> simp

@[simp] theorem switchComplete_mem (s : State) : (switchComplete s).fab.mem = s.fab.mem := by
  unfold switchComplete; split <;> simp

@[simp] theorem holdoverSteerUpdate_mem (s : State) :
    (holdoverSteerUpdate s).fab.mem = s.fab.mem := by
  simp [holdoverSteerUpdate]

@[simp] theorem holdoverLimit_mem (s : State) : (holdoverLimit s).fab.mem = s.fab.mem := by simp [holdoverLimit]

@[simp] theorem State.hearthSecond_mem (s : State) (ts : ℤ) :
    (s.hearthSecond ts).fab.mem = s.fab.mem := by
  simp [State.hearthSecond]

@[simp] theorem State.refit_mem (s : State) : s.refit.fab.mem = s.fab.mem := by
  unfold State.refit
  dsimp only
  split
  · simp [State.fresh]
  · split <;> simp

@[simp] theorem State.useSample_mem (s : State) (x : TrainSample) :
    (s.useSample x).fab.mem = s.fab.mem := by
  simp [State.useSample]

@[simp] theorem trainingSample_mem (s : State) : (trainingSample s).fab.mem = s.fab.mem := by simp [trainingSample]

@[simp] theorem modelJournal_mem (s : State) : (modelJournal s).fab.mem = s.fab.mem := by simp [modelJournal]

@[simp] theorem hostTemperatureTimeout_mem (s : State) :
    (hostTemperatureTimeout s).fab.mem = s.fab.mem := by
  simp [hostTemperatureTimeout]

@[simp] theorem restoredModelWithholdEnd_mem (s : State) : (restoredModelWithholdEnd s).fab.mem = s.fab.mem := by
  unfold restoredModelWithholdEnd; split <;> simp

/-! #### Health -/

@[simp] theorem State.setAlert_mem (s : State) : (s.setAlert).fab.mem = s.fab.mem := by simp [State.setAlert]

@[simp] theorem State.warn_mem (s : State) (inst : ℕ) (on off : Bool) (code : ℕ) :
    (s.warn inst on off code).fab.mem = s.fab.mem := by
  simp [State.warn]

@[simp] theorem State.reading_mem (s : State) (inst : ℕ) (v : ℤ) (high : ℕ) (low : Option ℕ) :
    (s.reading inst v high low).fab.mem = s.fab.mem := by
  unfold State.reading; split <;> simp

@[simp] theorem State.tempOne_mem (s : State) (t : ℕ) (v : ℤ) :
    (s.tempOne t v).fab.mem = s.fab.mem := by
  simp [State.tempOne]

@[simp] theorem temperatureSample_mem (readings : List ℤ) (s : State) :
    (temperatureSample readings s).fab.mem = s.fab.mem := by
  simp [temperatureSample]

@[simp] theorem State.voltOne_mem (s : State) (v x : ℕ) : (s.voltOne v x).fab.mem = s.fab.mem := by simp [State.voltOne]

@[simp] theorem voltageSample_mem (readings : List ℕ) (s : State) :
    (voltageSample readings s).fab.mem = s.fab.mem := by
  simp [voltageSample]

@[simp] theorem State.processOne_mem (s : State) (x r : ℕ) (d : ℤ) :
    (s.processOne x r d).fab.mem = s.fab.mem := by
  simp [State.processOne]

@[simp] theorem processSample_mem (readings : List ℕ) (deviations : List ℤ) (s : State) :
    (processSample readings deviations s).fab.mem = s.fab.mem := by
  simp [processSample]

@[simp] theorem challengeExpiry_mem (s : State) : (challengeExpiry s).fab.mem = s.fab.mem := by simp [challengeExpiry]

@[simp] theorem unlockLockoutExpiry_mem (s : State) :
    (unlockLockoutExpiry s).fab.mem = s.fab.mem := by
  simp [unlockLockoutExpiry]

/-! #### Strikes and planes -/

@[simp] theorem State.writeIdle_mem (s : State) (sr d : ℕ) (g : ℤ) :
    (s.writeIdle sr d g).fab.mem = s.fab.mem := by
  simp [State.writeIdle]

theorem State.acceptSwaps_mem {s t : State} {l : List NewRamp} {due : Option ℕ} {steps : Bool}
    (h : s.acceptSwaps l due steps = .ok t) : t.fab.mem = s.fab.mem := by
  unfold State.acceptSwaps at h
  dsimp only at h
  split at h
  · split at h <;> cases h
    simp
  · exact State.acceptGroup_mem h

@[simp] theorem rowSwapEnd_mem (slot : ℕ) (s : State) : (rowSwapEnd slot s).fab.mem = s.fab.mem := by simp [rowSwapEnd]

@[simp] theorem State.leaveEarly_mem (s : State) (pl f : ℕ) (r : Ramp) : (s.leaveEarly pl f r).fab.mem = s.fab.mem := by
  unfold State.leaveEarly; dsimp only; (repeat' split) <;> simp

@[simp] theorem State.moveChanges_mem (s : State) (pl f : ℕ) :
    (s.moveChanges pl f).fab.mem = s.fab.mem := by
  simp [State.moveChanges]

@[simp] theorem State.startStrike_mem (s : State) (f ticket : ℕ) :
    (s.startStrike f ticket).fab.mem = s.fab.mem := by
  simp [State.startStrike]

@[simp] theorem State.leaveStrike_mem (s : State) : (s.leaveStrike).fab.mem = s.fab.mem := by simp [State.leaveStrike]

@[simp] theorem State.endStrike_mem (s : State) (ticket : ℕ) :
    (s.endStrike ticket).fab.mem = s.fab.mem := by
  simp [State.endStrike]

@[simp] theorem State.settlePast_mem (s : State) (p : PastStrike → Bool) :
    (s.settlePast p).fab.mem = s.fab.mem := by
  simp [State.settlePast]

@[simp] theorem strikeEnd_mem (s : State) : (strikeEnd s).fab.mem = s.fab.mem := by
  unfold strikeEnd; split <;> simp

@[simp] theorem State.loadRows_mem (s : State) (l : IdleLoad) (upto : ℕ) :
    (s.loadRows l upto).fab.mem = s.fab.mem := by
  simp [State.loadRows]

@[simp] theorem State.setIdlePlane_mem (s : State) (m : Store ℕ) :
    (s.setIdlePlane m).fab.mem = s.fab.mem := by
  simp [State.setIdlePlane]

@[simp] theorem State.advanceLoad_mem (s : State) : (s.advanceLoad).fab.mem = s.fab.mem := by
  unfold State.advanceLoad; split <;> simp

@[simp] theorem idleLoadComplete_mem (s : State) : (idleLoadComplete s).fab.mem = s.fab.mem := by
  unfold idleLoadComplete; split <;> simp

/-! #### Modules -/

@[simp] theorem State.assignChannels_mem (s : State) :
    (s.assignChannels).fab.mem = s.fab.mem := by
  simp [State.assignChannels]

@[simp] theorem State.imageAttrs_mem (s : State) (m : ℕ) (g : Image) :
    (s.imageAttrs m g).fab.mem = s.fab.mem := by
  simp [State.imageAttrs]

@[simp] theorem State.leaveCore_mem (s : State) (m c : ℕ) : (s.leaveCore m c).fab.mem = s.fab.mem := by
  unfold State.leaveCore; dsimp only; split <;> simp

@[simp] theorem State.abortRuns_mem (s : State) (p : Running → Bool) :
    (s.abortRuns p).fab.mem = s.fab.mem := by
  simp [State.abortRuns]

@[simp] theorem State.removeModule_mem (s : State) (m : ℕ) : (s.removeModule m).fab.mem = s.fab.mem := by
  unfold State.removeModule
  dsimp only
  rw [State.set_fab, State.set_fab]
  dsimp only
  rw [foldl_mem fun t e => by rw [State.set_fab], State.abortRuns_mem, foldl_mem fun t c => State.leaveCore_mem ..]

@[simp] theorem State.leaveModules_mem (effect : List (ℕ × ℤ)) (s : State) :
    (State.leaveModules effect s).fab.mem = s.fab.mem := by
  simp [State.leaveModules]

@[simp] theorem State.gatewayOut_mem (s : State) (c m : ℕ) (md : Mod) :
    (s.gatewayOut c m md).fab.mem = s.fab.mem := by
  simp [State.gatewayOut]

@[simp] theorem State.gatewayIn_mem (s : State) (c m : ℕ) : (s.gatewayIn c m).fab.mem = s.fab.mem := by
  unfold State.gatewayIn; split <;> simp

@[simp] theorem State.startCore_mem (s : State) (c : ℕ) : (s.startCore c).fab.mem = s.fab.mem := by
  unfold State.startCore
  dsimp only
  split <;> simp

@[simp] theorem State.retireTo_mem (s : State) (r : Retire) (spare : ℕ) : (s.retireTo r spare).fab.mem = s.fab.mem := by
  unfold State.retireTo
  dsimp only
  split
  · rw [foldl_mem fun t m => by split <;> simp]
    simp
  · simp

@[simp] theorem State.endRetirements_mem (s : State) : s.endRetirements.fab.mem = s.fab.mem := by
  unfold State.endRetirements
  dsimp only
  split
  · rfl
  · rw [loadAttrs_mem]
    dsimp only
    rw [foldl_mem fun t m => by split <;> simp, foldl_mem fun t r => by split <;> simp]

@[simp] theorem State.keepStates_mem (s : State) : (s.keepStates).fab.mem = s.fab.mem := by simp [State.keepStates]

@[simp] theorem State.countBlocks_mem (s : State) : (s.countBlocks).fab.mem = s.fab.mem := by simp [State.countBlocks]

@[simp] theorem State.openBudgets_mem (s : State) : (s.openBudgets).fab.mem = s.fab.mem := by simp [State.openBudgets]

@[simp] theorem State.startBlocks_mem (s : State) (cores : List ℕ) : (s.startBlocks cores).fab.mem = s.fab.mem := by
  unfold State.startBlocks
  dsimp only
  rw [foldl_mem fun t e => by rw [State.set_fab], foldl_mem State.startCore_mem]

/-! #### Moves -/

@[simp] theorem State.startSwaps_mem (s : State) (effect : List (ℕ × ℤ)) :
    (s.startSwaps effect).1.fab.mem = s.fab.mem := by
  unfold State.startSwaps
  extract_lets slots new t
  have ht : t.fab.mem = s.fab.mem := foldl_mem (fun u e => by simp) _ _
  clear_value t
  split
  · exact ht
  · split
    · rw [State.acceptSwaps_mem ‹_›, ht]
    · simp [ht]

@[simp] theorem preCopyComplete_mem (m : ℕ) (s : State) : (preCopyComplete m s).fab.mem = s.fab.mem := by
  unfold preCopyComplete; split <;> simp

@[simp] theorem State.holdModule_mem (s : State) (m : ℕ) : (s.holdModule m).fab.mem = s.fab.mem := by
  unfold State.holdModule; split <;> simp

@[simp] theorem State.retarget_mem (s : State) (c : ℕ) : (s.retarget c).fab.mem = s.fab.mem := by simp [State.retarget]

@[simp] theorem State.retireCore_mem (s : State) (c : ℕ) :
    (s.retireCore c).fab.mem = s.fab.mem := by
  simp [State.retireCore]

@[simp] theorem retirementCopyComplete_mem (c : ℕ) (s : State) :
    (retirementCopyComplete c s).fab.mem = s.fab.mem := by
  simp [retirementCopyComplete]

/-! #### Tongs -/

@[simp] theorem State.setChan_mem (s : State) (ch : ℕ) (c : TChan) :
    (s.setChan ch c).fab.mem = s.fab.mem := by
  simp [State.setChan]

@[simp] theorem State.putControl_mem (s : State) (n w : ℕ) :
    (s.putControl n w).fab.mem = s.fab.mem := by
  simp [State.putControl]

@[simp] theorem State.putRegister_mem (s : State) (e : ℕ × List (Option Byte)) :
    (s.putRegister e).fab.mem = s.fab.mem := by
  unfold State.putRegister; split <;> simp

@[simp] theorem State.drainBridge_mem (s : State) (pb0 : Bool) (n : ℕ) : (s.drainBridge pb0 n).fab.mem = s.fab.mem := by
  induction n generalizing s with
  | zero => rfl
  | succ n ih =>
    unfold State.drainBridge
    split
    · rfl
    · simp [ih]

@[simp] theorem State.postWrite_mem (s : State) (e : ℕ × List (Option Byte)) : (s.postWrite e).fab.mem = s.fab.mem := by
  simp [State.postWrite]

@[simp] theorem State.regWrite_mem (s : State) (a : ℕ) (d : List (Option Byte)) :
    (s.regWrite a d).fab.mem = s.fab.mem := by
  simp [State.regWrite]

@[simp] theorem State.regRead_mem (s : State) (a n : ℕ) : (s.regRead a n).2.fab.mem = s.fab.mem := by
  simp [State.regRead]

@[simp] theorem State.accessRead_mem (s : State) (a n : ℕ) : (s.accessRead a n).2.fab.mem = s.fab.mem := by
  unfold State.accessRead; split <;> simp

@[simp] theorem State.preempt_mem (s : State) (ch : ℕ) (read : Bool) : (s.preempt ch read).fab.mem = s.fab.mem := by
  unfold State.preempt; split <;> simp

@[simp] theorem State.takePace_mem (s : State) (ch : ℕ) (d : Desc) (a n : ℕ) :
    (s.takePace ch d a n).2.fab.mem = s.fab.mem := by
  unfold State.takePace
  (repeat' split) <;> simp

@[simp] theorem State.pauseChannels_mem (s : State) : s.pauseChannels.fab.mem = s.fab.mem := by
  unfold State.pauseChannels
  refine foldl_mem (fun t ch => ?_) _ _
  split <;> simp

@[simp] theorem doorbellTrigger_mem (line : ℕ) (s : State) : (doorbellTrigger line s).fab.mem = s.fab.mem := by
  unfold doorbellTrigger; dsimp only; (repeat' split) <;> simp

@[simp] theorem State.grantTongs_mem (s : State) (a : ℕ) : (s.grantTongs a).fab.mem = s.fab.mem := by
  unfold State.grantTongs; split <;> simp

@[simp] theorem State.closeMaster_mem (s : State) (m : ℕ) :
    (s.closeMaster m).fab.mem = s.fab.mem := by
  simp [State.closeMaster]

@[simp] theorem State.restartLoad_mem (s : State) : (s.restartLoad).fab.mem = s.fab.mem := by
  unfold State.restartLoad; split <;> simp

/-! #### The memory matrix -/

@[simp] theorem State.decodeError_mem (s : State) (b : Burst) :
    (s.decodeError b).fab.mem = s.fab.mem := by
  simp [State.decodeError]

@[simp] theorem State.arriveBurst_mem (s : State) (b : Burst) : (s.arriveBurst b).fab.mem = s.fab.mem := by
  unfold State.arriveBurst; (repeat' split) <;> simp

@[simp] theorem State.writeLive_mem (s : State) (p a : ℕ) (d : List (Option Byte)) :
    (s.writeLive p a d).fab.mem = s.fab.mem := by
  unfold State.writeLive
  dsimp only
  split
  · exact State.acceptGroup_mem ‹_›
  · rfl

@[simp] theorem State.readPart_mem (s : State) (o : OpenBurst) (n : ℕ) : (s.readPart o n).2.fab.mem = s.fab.mem := by
  unfold State.readPart
  dsimp only
  split <;> simp

@[simp] theorem State.touchBuffers_mem (s : State) :
    (s.touchBuffers).fab.mem = s.fab.mem := by
  simp [State.touchBuffers]

@[simp] theorem eccWriteback_mem (addr : ℕ) (s : State) :
    (eccWriteback addr s).fab.mem = s.fab.mem := by
  simp [eccWriteback]

@[simp] theorem State.startMarch_mem (s : State) (g : ℕ) (preserving : Bool) (ticket : ℕ) :
    (s.startMarch g preserving ticket).fab.mem = s.fab.mem := by
  simp [State.startMarch]

@[simp] theorem State.setFail_mem (s : State) (g : ℕ) (fails : Bool) :
    (s.setFail g fails).fab.mem = s.fab.mem := by
  simp [State.setFail]

@[simp] theorem State.marchFailed_mem (s : State) (f : MarchFail) (absorbed : Bool) :
    (s.marchFailed f absorbed).fab.mem = s.fab.mem := by
  change SameMem s _
  unfold State.marchFailed
  extract_lets g t u p v c w
  have ht : SameMem s t := .of_set (.of_mem rfl (State.setFail_mem ..))
  clear_value t
  have hu : SameMem s u := ht.of_fab (State.logAt_fab ..)
  clear_value u
  have hv : SameMem s v := by
    unfold v
    split
    · exact hu.of_mem (State.spaceAttrs_mem _)
    · exact hu
  clear_value v
  split
  · exact hv
  · split
    · split
      · exact hv
      · split
        · exact hv.of_fab rfl
        · exact hv.of_mem (State.raise_mem ..)
    · exact hv.of_mem (State.raise_mem ..)

@[simp] theorem State.marchPassed_mem (s : State) (g : ℕ) :
    (s.marchPassed g).fab.mem = s.fab.mem := by
  simp [State.marchPassed]

@[simp] theorem State.endReinstate_mem (s : State) (core : ℕ) (passed : Bool) :
    (s.endReinstate core passed).fab.mem = s.fab.mem := by
  simp [State.endReinstate]

@[simp] theorem State.marchJudged_mem (s : State) (g : ℕ) (fails : Option MarchFail) :
    (s.marchJudged g fails).fab.mem = s.fab.mem := by
  unfold State.marchJudged; split <;> simp

@[simp] theorem State.marchAnswered_mem (s : State) (ticket : ℕ) (passed : Bool) :
    (s.marchAnswered ticket passed).fab.mem = s.fab.mem := by
  unfold State.marchAnswered; split <;> simp

/-! #### Strips -/

@[simp] theorem peakHoldExpiry_mem (m : ℕ) (s : State) : (peakHoldExpiry m s).fab.mem = s.fab.mem := by
  unfold peakHoldExpiry; split <;> simp

@[simp] theorem loudnessReadings_mem (m : ℕ) (s : State) : (loudnessReadings m s).fab.mem = s.fab.mem := by
  unfold loudnessReadings; split <;> simp

@[simp] theorem loudnessUpdate_mem (s : State) : (loudnessUpdate s).fab.mem = s.fab.mem := by simp [loudnessUpdate]

@[simp] theorem State.setSilent_mem (s : State) (k : ℕ) (silent : Bool) :
    (s.setSilent k silent).fab.mem = s.fab.mem := by
  unfold State.setSilent; dsimp only; (repeat' split) <;> simp

@[simp] theorem State.silPins_mem (s : State) : (s.silPins).fab.mem = s.fab.mem := by simp [State.silPins]

@[simp] theorem silent_mem (k : ℕ) (s : State) : (silent k s).fab.mem = s.fab.mem := by simp [silent]

/-! #### Evaluation -/

@[simp] theorem State.zScan_mem (s : State) (p : ZParam) (b : ℕ) (prev : ℤ) (xs : List ℤ) :
    (s.zScan p b prev xs).fab.mem = s.fab.mem := by
  unfold State.zScan; (repeat' split) <;> simp

@[simp] theorem State.addSat_mem (s : State) (code n k : ℕ) :
    (s.addSat code n k).fab.mem = s.fab.mem := by
  simp [State.addSat]

@[simp] theorem evalBack_mem (b k : ℕ) (s : State) : (evalBack b k s).fab.mem = s.fab.mem := by simp [evalBack]

@[simp] theorem evalCrucible_mem (b : ℕ) (s : State) : (evalCrucible b s).fab.mem = s.fab.mem := by
  have gate (t : State) (l r : List ℕ) : (l.foldl (fun t k => t.set Attr.slotGated k 0 0)
      ((t.listed Attr.slotGated).foldl (fun t e => if r.contains e.1 then t else t.set Attr.slotGated e.1 0 1)
        t)).fab.mem = t.fab.mem := by
    rw [foldl_mem fun t k => by rw [State.set_fab], foldl_mem fun t e => by split <;> simp]
  unfold evalCrucible
  dsimp only
  split
  · split
    · rw [State.set_fab, State.set_fab, gate, foldl_mem fun t e => State.addSat_mem ..]
    · rw [State.set_fab, gate, foldl_mem fun t e => State.addSat_mem ..]
  · rw [State.set_fab, gate, foldl_mem fun t e => State.addSat_mem ..]

@[simp] theorem meterFrame_mem (out : Bool) (m : ℕ) (xs : List ℤ) (s : State) :
    (meterFrame out m xs s).fab.mem = s.fab.mem := by
  simp [meterFrame]

@[simp] theorem evalMeters_mem (ins : List ℕ) (outs : List ℕ) (s : State) :
    (evalMeters ins outs s).fab.mem = s.fab.mem := by
  simp [evalMeters]

@[simp] theorem evalLoudness_mem (b : ℕ) (s : State) : (evalLoudness b s).fab.mem = s.fab.mem := by simp [evalLoudness]

@[simp] theorem silenceFrame_mem (k : ℕ) (s : State) : (silenceFrame k s).fab.mem = s.fab.mem := by simp [silenceFrame]

@[simp] theorem evalSilence_mem (s : State) : (evalSilence s).fab.mem = s.fab.mem := by simp [evalSilence]

@[simp] theorem State.keepActive_mem (s : State) (ins : List ℕ) (outs : List ℕ) :
    (s.keepActive ins outs).fab.mem = s.fab.mem := by
  simp [State.keepActive]

@[simp] theorem idleSearches_mem (ins : List ℕ) (outs : List ℕ) (front : Bool) (b : ℕ) (s : State) :
    (idleSearches ins outs front b s).fab.mem = s.fab.mem := by
  simp [idleSearches]

/-! #### The journal -/

@[simp] theorem State.enterScene_mem (s : State) (b : List Byte) :
    (s.enterScene b).fab.mem = s.fab.mem := by
  simp [State.enterScene]

@[simp] theorem State.dropScene_mem (s : State) (n : ℕ) : (s.dropScene n).fab.mem = s.fab.mem := by
  unfold State.dropScene; split <;> simp

@[simp] theorem State.toRam_mem (s : State) : (s.toRam).fab.mem = s.fab.mem := by simp [State.toRam]

@[simp] theorem State.cardStats_mem (s : State) (c : CardSt) :
    (s.cardStats c).fab.mem = s.fab.mem := by
  simp [State.cardStats]

@[simp] theorem State.startCompaction_mem (s : State) (c : CardSt) (ticket : Option ℕ) (adopting : Bool) :
    (s.startCompaction c ticket adopting).fab.mem = s.fab.mem := by
  simp [State.startCompaction]

@[simp] theorem State.offIfDurable_mem (s : State) : (s.offIfDurable).fab.mem = s.fab.mem := by
  unfold State.offIfDurable; split <;> simp

@[simp] theorem State.programmed_mem (s : State) (g : JGroup) (rest : List JGroup) (t : Tape) (opens : Bool) :
    (s.programmed g rest t opens).fab.mem = s.fab.mem := by
  simp [State.programmed]

@[simp] theorem State.compactIfFull_mem (s : State) (c : CardSt) (was : ℕ) :
    (s.compactIfFull c was).fab.mem = s.fab.mem := by
  simp [State.compactIfFull]

@[simp] theorem groupDurable_mem (s : State) : (groupDurable s).fab.mem = s.fab.mem := by
  unfold groupDurable; dsimp only; (repeat' split) <;> simp

@[simp] theorem compactionComplete_mem (s : State) : (compactionComplete s).fab.mem = s.fab.mem := by
  unfold compactionComplete; (repeat' split) <;> simp

@[simp] theorem State.cardFails_mem (s : State) : (s.cardFails).fab.mem = s.fab.mem := by
  unfold State.cardFails; dsimp only; (repeat' split) <;> simp

@[simp] theorem State.mount_mem (s : State) (c : CardSt) : (s.mount c).fab.mem = s.fab.mem := by
  unfold State.mount; split <;> simp

@[simp] theorem cardDetect_mem (card : Option Card) (s : State) : (cardDetect card s).fab.mem = s.fab.mem := by
  unfold cardDetect; split <;> simp

@[simp] theorem cardIoError_mem (s : State) : (cardIoError s).fab.mem = s.fab.mem := by simp [cardIoError]

@[simp] theorem wearLevellingMove_mem (s : State) : (wearLevellingMove s).fab.mem = s.fab.mem := by
  unfold wearLevellingMove; (repeat' split) <;> simp

@[simp] theorem formatComplete_mem (s : State) : (formatComplete s).fab.mem = s.fab.mem := by
  unfold formatComplete; split <;> simp

@[simp] theorem State.scenesOf_mem (s : State) (l : List Rec) :
    (s.scenesOf l).fab.mem = s.fab.mem := by
  simp [State.scenesOf]

@[simp] theorem State.sceneEnds_mem (s : State) (n ticket result : ℕ) :
    (s.sceneEnds n ticket result).fab.mem = s.fab.mem := by
  simp [State.sceneEnds]

@[simp] theorem sceneComplete_mem (s : State) : (sceneComplete s).fab.mem = s.fab.mem := by
  unfold sceneComplete; split <;> simp

@[simp] theorem State.clearIdlePlane_mem (s : State) :
    (s.clearIdlePlane).fab.mem = s.fab.mem := by
  simp [State.clearIdlePlane]

/-! #### SAP ports -/

@[simp] theorem State.setPort_mem (s : State) (n : ℕ) (x : SapSt) :
    (s.setPort n x).fab.mem = s.fab.mem := by
  simp [State.setPort]

@[simp] theorem State.throughHold_mem (s : State) (o : OutRef) (xs : List ℤ) :
    (s.throughHold o xs).2.fab.mem = s.fab.mem := by
  unfold State.throughHold
  split <;> rfl

@[simp] theorem State.resumeOut_mem (s : State) (o : OutRef) : (s.resumeOut o).fab.mem = s.fab.mem := by
  unfold State.resumeOut; split <;> simp

@[simp] theorem State.resumePort_mem (s : State) (n : ℕ) : (s.resumePort n).fab.mem = s.fab.mem := by
  unfold State.resumePort; dsimp only; split <;> simp

@[simp] theorem State.silencePort_mem (s : State) (n : ℕ) : (s.silencePort n).fab.mem = s.fab.mem := by
  simp [State.silencePort]; (repeat' split) <;> simp

@[simp] theorem State.centrePort_mem (s : State) (n : ℕ) :
    (s.centrePort n).fab.mem = s.fab.mem := by
  simp [State.centrePort]

@[simp] theorem State.sapEval_mem (s : State) (n : ℕ) : (s.sapEval n).fab.mem = s.fab.mem := by simp [State.sapEval]

@[simp] theorem State.resumeRead_mem (s : State) (o : OutRef) (xs : List ℤ) :
    (s.resumeRead o xs).2.fab.mem = s.fab.mem := by
  unfold State.resumeRead
  split <;> simp

@[simp] theorem State.sapFault_mem (s : State) (n why : ℕ) : (s.sapFault n why).fab.mem = s.fab.mem := by
  unfold State.sapFault
  split
  · rfl
  · simp

@[simp] theorem State.slipPort_mem (s : State) (n : ℕ) (slow : Bool) :
    (s.slipPort n slow).fab.mem = s.fab.mem := by
  simp [State.slipPort]

@[simp] theorem State.slipRx_mem (s : State) (k : ℕ) (slow : Bool) :
    (s.slipRx k slow).fab.mem = s.fab.mem := by
  simp [State.slipRx]

@[simp] theorem State.slipGroup_mem (s : State) (g : ℕ) (slow : Bool) (but : Option ℕ) (butRx : Option ℕ) :
    (s.slipGroup g slow but butRx).fab.mem = s.fab.mem := by
  simp [State.slipGroup]

@[simp] theorem State.passFrame_mem (s : State) (n : ℕ) (p : ℤ × ℤ) :
    (s.passFrame n p).fab.mem = s.fab.mem := by
  simp [State.passFrame]

@[simp] theorem State.bufferFrame_mem (s : State) (n : ℕ) (p : ℤ × ℤ) (drift : ℤ) :
    (s.bufferFrame n p drift).fab.mem = s.fab.mem := by
  unfold State.bufferFrame; dsimp only; (repeat' split) <;> simp

@[simp] theorem State.sendFrame_mem (s : State) (n : ℕ) :
    (s.sendFrame n).fab.mem = s.fab.mem := by
  simp [State.sendFrame]

@[simp] theorem State.frameMet_mem (s : State) (n : ℕ) (offset : ℤ) (glitch : Bool) :
    (s.frameMet n offset glitch).fab.mem = s.fab.mem := by
  simp [State.frameMet]

@[simp] theorem sapFrame_mem (n : ℕ) (s0 s1 drift offset : ℤ) (glitch : Bool) (s : State) :
    (sapFrame n s0 s1 drift offset glitch s).fab.mem = s.fab.mem := by
  unfold sapFrame; dsimp only; (repeat' split) <;> simp

@[simp] theorem clockStopped_mem (n : ℕ) (s : State) : (clockStopped n s).fab.mem = s.fab.mem := by simp [clockStopped]

@[simp] theorem rateFault_mem (n : ℕ) (s : State) : (rateFault n s).fab.mem = s.fab.mem := by simp [rateFault]

@[simp] theorem portRecovery_mem (n : ℕ) (skew : ℤ) (s : State) : (portRecovery n skew s).fab.mem = s.fab.mem := by
  unfold portRecovery; dsimp only; (repeat' split) <;> simp

@[simp] theorem centred_mem (n : ℕ) (s : State) : (centred n s).fab.mem = s.fab.mem := by simp [centred]

@[simp] theorem State.channelIn_mem (s : State) (n ch : ℕ) (l : List ℤ) (k : ℕ) (last : ℤ) :
    (s.channelIn n ch l k last).2.fab.mem = s.fab.mem := by
  unfold State.channelIn
  dsimp only
  split
  · split <;> simp
  · rfl

@[simp] theorem State.freshIn_mem (s : State) (n : ℕ) (x : SapSt) : (s.freshIn n x).2.fab.mem = s.fab.mem := by
  simp [State.freshIn]

@[simp] theorem State.sapCapture_mem (s : State) (n : ℕ) : (s.sapCapture n).fab.mem = s.fab.mem := by
  unfold State.sapCapture
  dsimp only
  split
  · rfl
  · rfl
  · rfl
  · split <;> simp

@[simp] theorem State.sapEmit_mem (s : State) (count n : ℕ) : (s.sapEmit count n).fab.mem = s.fab.mem := by
  unfold State.sapEmit
  split
  · rfl
  · simp

@[simp] theorem State.recentrePorts_mem (s : State) :
    (s.recentrePorts).fab.mem = s.fab.mem := by
  simp [State.recentrePorts]

@[simp] theorem State.idlePorts_mem (s : State) : (s.idlePorts).fab.mem = s.fab.mem := by simp [State.idlePorts]

/-! #### Streams -/

@[simp] theorem State.setRx_mem (s : State) (k : ℕ) (x : RxSt) :
    (s.setRx k x).fab.mem = s.fab.mem := by
  simp [State.setRx]

@[simp] theorem State.rxBit_mem (s : State) (k b : ℕ) (v : Bool) :
    (s.rxBit k b v).fab.mem = s.fab.mem := by
  simp [State.rxBit]

@[simp] theorem State.rxEval_mem (s : State) (k : ℕ) : (s.rxEval k).fab.mem = s.fab.mem := by
  have hold (t : State) : ((List.range 64).foldl (fun u c => u.setHold (.rx k c) none) t).fab.mem = t.fab.mem :=
    foldl_mem (fun u c => by simp) _ _
  unfold State.rxEval
  dsimp only
  (repeat' split) <;> simp [hold]

@[simp] theorem rtpPacketReceived_mem (k : ℕ) (p : RtpPacket) (s : State) :
    (rtpPacketReceived k p s).fab.mem = s.fab.mem := by
  simp [rtpPacketReceived]

@[simp] theorem streamLost_mem (k : ℕ) (s : State) : (streamLost k s).fab.mem = s.fab.mem := by simp [streamLost]

@[simp] theorem legTimeout_mem (k leg : ℕ) (s : State) :
    (legTimeout k leg s).fab.mem = s.fab.mem := by
  simp [legTimeout]

@[simp] theorem State.holdRx_mem (s : State) (k : ℕ) (last : List ℤ) :
    (s.holdRx k last).fab.mem = s.fab.mem := by
  simp [State.holdRx]

@[simp] theorem State.resumeRx_mem (s : State) (k : ℕ) : (s.resumeRx k).fab.mem = s.fab.mem := by
  unfold State.resumeRx
  refine foldl_mem (fun t c => ?_) _ _
  split
  · split <;> simp
  · rfl

@[simp] theorem State.rxThrough_mem (s : State) (k c : ℕ) (xs : List ℤ) :
    (s.rxThrough k c xs).2.fab.mem = s.fab.mem := by
  induction xs generalizing s c with
  | nil => rfl
  | cons x xs ih => simp [State.rxThrough, ih]

@[simp] theorem State.releaseOne_mem (s : State) (k : ℕ) : (s.releaseOne k).2.fab.mem = s.fab.mem := by
  unfold State.releaseOne
  dsimp only
  split
  · simp
  · split <;> simp

@[simp] theorem State.releaseMany_mem (s : State) (k n : ℕ) : (s.releaseMany k n).2.fab.mem = s.fab.mem := by
  induction n generalizing s with
  | zero => rfl
  | succ n ih => simp [State.releaseMany, ih]

@[simp] theorem State.legGaps_mem (s : State) (k : ℕ) : (s.legGaps k).fab.mem = s.fab.mem := by simp [State.legGaps]

@[simp] theorem State.rxFault_mem (s : State) (k : ℕ) : (s.rxFault k).fab.mem = s.fab.mem := by simp [State.rxFault]

@[simp] theorem State.rxSlip_mem (s : State) (k : ℕ) : (s.rxSlip k).fab.mem = s.fab.mem := by
  unfold State.rxSlip; dsimp only; (repeat' split) <;> simp

@[simp] theorem State.setTx_mem (s : State) (k : ℕ) (x : TxSt) :
    (s.setTx k x).fab.mem = s.fab.mem := by
  simp [State.setTx]

@[simp] theorem State.slipTx_mem (s : State) (k : ℕ) (slow : Bool) :
    (s.slipTx k slow).fab.mem = s.fab.mem := by
  simp [State.slipTx]

@[simp] theorem State.makeSlip_mem (s : State) (p : PairSlip) :
    (s.makeSlip p).fab.mem = s.fab.mem := by
  simp [State.makeSlip]

@[simp] theorem State.makeSlips_mem (s : State) (count : ℕ) :
    (s.makeSlips count).fab.mem = s.fab.mem := by
  simp [State.makeSlips]

@[simp] theorem State.bufferedRx_mem (s : State) (k n : ℕ) : (s.bufferedRx k n).2.fab.mem = s.fab.mem := by
  have out (t : State) : ((List.range n).foldl (fun (r : List (List Int) × State) _ =>
      let (f, t) := r.2.rxThrough k 0 (r.2.rxs k).last
      (r.1 ++ [f], t)) (([] : List (List Int)), t)).2.fab.mem = t.fab.mem := by
    refine List.foldlRecOn (motive := fun r : List (List ℤ) × State => r.2.fab.mem = t.fab.mem) _ _ rfl
      fun r hr c _ => ?_
    simp [hr]
  unfold State.bufferedRx
  dsimp only
  split
  · rw [out]; simp
  · simp

@[simp] theorem State.rxCapture_mem (s : State) (count k : ℕ) : (s.rxCapture count k).fab.mem = s.fab.mem := by
  have keep (fs : List (List ℤ)) (t : State) : ((List.range (t.rxCh k)).foldl (fun s c =>
      { s with tmp := { s.tmp with cap := Store.put s.tmp.cap (rxWord k c) (fs.map fun f => f.getD c 0) } })
        t).fab.mem = t.fab.mem := foldl_mem (fun _ _ => by rfl) _ _
  unfold State.rxCapture
  dsimp only
  split
  · rfl
  · rw [keep, State.legGaps_mem]
    split <;> simp

@[simp] theorem State.txEval_mem (s : State) (k : ℕ) : (s.txEval k).fab.mem = s.fab.mem := by
  have stop (st : ℕ) : (if s.n Attr.txState k 0 = st then s
      else (s.setTx k TxSt.reset).set Attr.txState k 0 st).fab.mem = s.fab.mem := by
    split
    · rfl
    · rw [State.set_fab, State.setTx_mem]
  unfold State.txEval
  extract_lets dom halt
  split
  · rw [foldl_mem fun u c => by rw [State.setHold_fab]]
    exact stop 0
  · split
    · split
      · rfl
      · rw [State.log_fab]
        exact stop 3
    · split
      · exact stop 2
      · split
        · rfl
        · rw [State.set_fab, State.set_fab, State.setTx_mem]

@[simp] theorem State.txFrames_mem (s : State) (count k : ℕ) : (s.txFrames count k).2.fab.mem = s.fab.mem := by
  unfold State.txFrames
  refine List.foldlRecOn (motive := fun r : List (List ℤ) × State => r.2.fab.mem = s.fab.mem) _ _ rfl
    fun r hr c _ => ?_
  simp [hr]

@[simp] theorem State.txFault_mem (s : State) (k : ℕ) (under : Bool) :
    (s.txFault k under).fab.mem = s.fab.mem := by
  simp [State.txFault]

@[simp] theorem State.bufferedTx_mem (s : State) (k : ℕ) (fs : List (List ℤ)) :
    (s.bufferedTx k fs).fab.mem = s.fab.mem := by
  unfold State.bufferedTx; dsimp only; (repeat' split) <;> simp

@[simp] theorem State.txTick_mem (s : State) (count k : ℕ) : (s.txTick count k).fab.mem = s.fab.mem := by
  unfold State.txTick
  dsimp only
  (repeat' split) <;> simp

@[simp] theorem rtpPacketSend_mem (k : ℕ) (s : State) :
    (rtpPacketSend k s).fab.mem = s.fab.mem := by
  simp [rtpPacketSend]

@[simp] theorem State.domainStep_mem (s : State) (m : ℕ) :
    (s.domainStep m).fab.mem = s.fab.mem := by
  simp [State.domainStep]

@[simp] theorem ethernetFrameReceived_mem (p : ℕ) (f : EthFrame) (s : State) :
    (ethernetFrameReceived p f s).fab.mem = s.fab.mem := by
  simp [ethernetFrameReceived]

/-! #### Time bases -/

@[simp] theorem State.setTb_mem (s : State) (t : ℕ) (x : TbSt) :
    (s.setTb t x).fab.mem = s.fab.mem := by
  simp [State.setTb]

@[simp] theorem State.setTime_mem (s : State) (t v : ℕ) : (s.setTime t v).fab.mem = s.fab.mem := by simp [State.setTime]

@[simp] theorem State.pollOne_mem (s : State) (t lo : ℕ) :
    (s.pollOne t lo).fab.mem = s.fab.mem := by
  simp [State.pollOne]

@[simp] theorem State.pollCounters_mem (s : State) (values : List ℕ) :
    (s.pollCounters values).fab.mem = s.fab.mem := by
  simp [State.pollCounters]

@[simp] theorem counterPoll_mem (values : List ℕ) (s : State) :
    (counterPoll values s).fab.mem = s.fab.mem := by
  simp [counterPoll]

@[simp] theorem State.tbBit_mem (s : State) (t b : ℕ) (v : Bool) :
    (s.tbBit t b v).fab.mem = s.fab.mem := by
  simp [State.tbBit]

@[simp] theorem State.setTbRate_mem (s : State) (t : ℕ) (v : ℤ) : (s.setTbRate t v).fab.mem = s.fab.mem := by
  unfold State.setTbRate
  extract_lets l w
  rw [State.tbBit_mem]
  clear_value w
  rw [State.set_fab]

@[simp] theorem State.servo_mem (s : State) (t : ℕ) (theta dt : ℤ) :
    (s.servo t theta dt).fab.mem = s.fab.mem := by
  simp [State.servo]

@[simp] theorem State.recordStep_mem (s : State) (t old code : ℕ) :
    (s.recordStep t old code).fab.mem = s.fab.mem := by
  simp [State.recordStep]

@[simp] theorem State.stepTb_mem (s : State) (t : ℕ) (theta : ℤ) (code : ℕ) :
    (s.stepTb t theta code).fab.mem = s.fab.mem := by
  simp [State.stepTb]

@[simp] theorem State.sourceLost_mem (s : State) (t : ℕ) :
    (s.sourceLost t).fab.mem = s.fab.mem := by
  simp [State.sourceLost]

@[simp] theorem State.stepWaiting_mem (s : State) : (s.stepWaiting).fab.mem = s.fab.mem := by simp [State.stepWaiting]

@[simp] theorem State.setPtp_mem (s : State) (pp : ℕ) (x : PtpSt) :
    (s.setPtp pp x).fab.mem = s.fab.mem := by
  simp [State.setPtp]

@[simp] theorem State.leaveSlave_mem (s : State) (pp st : ℕ) :
    (s.leaveSlave pp st).fab.mem = s.fab.mem := by
  simp [State.leaveSlave]

@[simp] theorem State.dropMasters_mem (s : State) (pp st : ℕ) :
    (s.dropMasters pp st).fab.mem = s.fab.mem := by
  simp [State.dropMasters]

@[simp] theorem State.ptpEval_mem (s : State) (pp : ℕ) : (s.ptpEval pp).fab.mem = s.fab.mem := by simp [State.ptpEval]

@[simp] theorem State.loadProfile_mem (s : State) (pp : ℕ) :
    (s.loadProfile pp).fab.mem = s.fab.mem := by
  simp [State.loadProfile]

@[simp] theorem State.newGrandmaster_mem (s : State) (pp : ℕ) :
    (s.newGrandmaster pp).fab.mem = s.fab.mem := by
  simp [State.newGrandmaster]

@[simp] theorem announceReceived_mem (pp : ℕ) (a : Announce) (s : State) :
    (announceReceived pp a s).fab.mem = s.fab.mem := by
  unfold announceReceived; dsimp only; (repeat' split) <;> simp

@[simp] theorem announceReceiptTimeout_mem (pp : ℕ) (s : State) :
    (announceReceiptTimeout pp s).fab.mem = s.fab.mem := by
  simp [announceReceiptTimeout]

@[simp] theorem delayReq_mem (pp : ℕ) (s : State) : (delayReq pp s).fab.mem = s.fab.mem := by simp [delayReq]

@[simp] theorem sourceReady_mem (t : ℕ) (s : State) : (sourceReady t s).fab.mem = s.fab.mem := by simp [sourceReady]

@[simp] theorem State.eventIn_mem (s : State) (t : ℕ) (master : ℤ) (lo time : ℕ) :
    (s.eventIn t master lo time).fab.mem = s.fab.mem := by
  simp [State.eventIn]

@[simp] theorem State.sourceEvent_mem (s : State) (t : ℕ) (master : ℤ) (lo time : ℕ) :
    (s.sourceEvent t master lo time).fab.mem = s.fab.mem := by
  change SameMem s _
  unfold State.sourceEvent
  split
  · rfl
  · extract_lets +onlyGivenNames x theta dt u ready
    have hu : SameMem s u := .of_mem rfl (State.eventIn_mem ..)
    clear_value ready u theta dt
    split
    · exact hu.of_mem (State.stepTb_mem ..)
    · split
      · split
        · exact hu.of_mem (State.stepTb_mem ..)
        · split
          · exact (SameMem.of_set hu).of_fab (State.logAt_fab ..)
          · exact hu
      · exact hu.of_mem (State.servo_mem ..)
      · split
        · exact hu
        · split
          · extract_lets v w
            have hv : SameMem s v := (SameMem.of_set hu).of_mem (State.tbBit_mem ..)
            clear_value v
            have hw : SameMem s w := .of_set hv
            clear_value w
            exact hw.of_mem (State.servo_mem ..)
          · exact hu.of_mem (State.tbBit_mem ..)
      · exact hu

@[simp] theorem State.delayMeasured_mem (s : State) (pp : ℕ) (delay : Option ℤ) :
    (s.delayMeasured pp delay).fab.mem = s.fab.mem := by
  unfold State.delayMeasured; split <;> simp

@[simp] theorem State.slaveFrom_mem (s : State) (pp : ℕ) :
    (s.slaveFrom pp).fab.mem = s.fab.mem := by
  simp [State.slaveFrom]

@[simp] theorem syncReceived_mem (pp t1 hearthTime : ℕ) (latched : List ℕ) (delay : Option ℤ) (logInt : ℤ) (s : State) :
    (syncReceived pp t1 hearthTime latched delay logInt s).fab.mem = s.fab.mem := by
  simp [syncReceived]

@[simp] theorem State.evalUsers_mem (s : State) : (s.evalUsers).fab.mem = s.fab.mem := by simp [State.evalUsers]

@[simp] theorem linkChange_mem (p : ℕ) (up : Bool) (s : State) :
    (linkChange p up s).fab.mem = s.fab.mem := by
  simp [linkChange]

/-! #### The engine -/

@[simp] theorem State.clearRefs_mem (s : State) : s.clearRefs.fab.mem = s.fab.mem := by
  unfold State.clearRefs
  refine List.foldlRecOn (motive := fun a : List ℕ × State => a.2.fab.mem = s.fab.mem) _ _
    (foldl_mem (fun t c => by simp) _ _) fun a ha c _ => ?_
  dsimp only
  split
  · exact ha
  · simp [ha]

@[simp] theorem State.clampDelays_mem (s : State) : s.clampDelays.fab.mem = s.fab.mem :=
  foldl_mem (fun t code => foldl_mem (fun u e => by simp) _ _) _ _

@[simp] theorem State.repack_mem (s : State) : (s.repack).fab.mem = s.fab.mem := by simp [State.repack]

@[simp] theorem State.dropLines_mem (s : State) : (s.dropLines).fab.mem = s.fab.mem := by simp [State.dropLines]

@[simp] theorem State.clearFrames_mem (s : State) : (s.clearFrames).fab.mem = s.fab.mem := by simp [State.clearFrames]

@[simp] theorem State.seedTags_mem (s : State) : (s.seedTags).fab.mem = s.fab.mem := by simp [State.seedTags]

@[simp] theorem State.restartSilence_mem (s : State) :
    (s.restartSilence).fab.mem = s.fab.mem := by
  simp [State.restartSilence]

@[simp] theorem State.startTick_mem (s : State) : (s.startTick).fab.mem = s.fab.mem := by simp [State.startTick]

@[simp] theorem State.jump_mem (s : State) : s.jump.fab.mem = s.fab.mem := by
  unfold State.jump
  dsimp only
  rw [foldl_mem fun t z => by split <;> simp, foldl_mem fun t r => by simp, foldl_mem fun t p => by simp]

@[simp] theorem State.settleStrike_mem (s : State) : (s.settleStrike).fab.mem = s.fab.mem := by
  unfold State.settleStrike; dsimp only; split <;> simp

@[simp] theorem State.startExit_mem (s : State) (target : ℕ) (ticket : Option ℕ) :
    (s.startExit target ticket).fab.mem = s.fab.mem := by
  simp [State.startExit]

@[simp] theorem deadlineMiss_mem (outs : List ℕ) (s : State) :
    (deadlineMiss outs s).fab.mem = s.fab.mem := by
  simp [deadlineMiss]

/-! #### The pair -/

@[simp] theorem State.skewIn_mem (s : State) (f : TFrame) : (s.skewIn f).fab.mem = s.fab.mem := by
  change SameMem s _
  unfold State.skewIn
  split
  · rfl
  · extract_lets v wide t
    have ht : SameMem s t := .of_set rfl
    clear_value t wide v
    split
    · exact ht
    · exact ht.of_fab rfl

@[simp] theorem State.tetherIn_mem (s : State) (typ now lane : ℕ) (b : List Byte) :
    (s.tetherIn typ now lane b).2.fab.mem = s.fab.mem := by
  unfold State.tetherIn
  dsimp only
  (repeat' split) <;> simp

theorem State.tetherIn_mem_of_eq {s t : State} {typ now lane : ℕ} {b : List Byte} {f : Option TFrame}
    (h : s.tetherIn typ now lane b = (f, t)) : t.fab.mem = s.fab.mem := by
  rw [← State.tetherIn_mem s typ now lane b, h]

@[simp] theorem State.holdFrom_mem (s : State) (count : ℕ) :
    (s.holdFrom count).fab.mem = s.fab.mem := by
  simp [State.holdFrom]

@[simp] theorem State.resumeOutputs_mem (s : State) (count : ℕ) : (s.resumeOutputs count).fab.mem = s.fab.mem := by
  unfold State.resumeOutputs; split <;> simp

@[simp] theorem State.becomeActive_mem (s : State) (epoch : ℕ) :
    (s.becomeActive epoch).fab.mem = s.fab.mem := by
  simp [State.becomeActive]

@[simp] theorem State.takeOver_mem (s : State) (held : Option ℕ) : (s.takeOver held).fab.mem = s.fab.mem := by
  unfold State.takeOver
  cases held <;> simp

@[simp] theorem State.release_mem (s : State) (hold : ℕ) :
    (s.release hold).fab.mem = s.fab.mem := by
  simp [State.release]

@[simp] theorem State.yieldTo_mem (s : State) (role : ℕ) :
    (s.yieldTo role).fab.mem = s.fab.mem := by
  simp [State.yieldTo]

@[simp] theorem State.askEnrol_mem (s : State) (off : ℕ) :
    (s.askEnrol off).fab.mem = s.fab.mem := by
  simp [State.askEnrol]

@[simp] theorem State.hear_mem (s : State) (t : Token) (told : Bool) :
    (s.hear t told).fab.mem = s.fab.mem := by
  simp [State.hear]

@[simp] theorem State.sendRenewal_mem (s : State) (now : ℕ) :
    (s.sendRenewal now).fab.mem = s.fab.mem := by
  simp [State.sendRenewal]

@[simp] theorem renewInterval_mem (now : ℕ) (s : State) :
    (renewInterval now s).fab.mem = s.fab.mem := by
  simp [renewInterval]

@[simp] theorem tetherRelease_mem (now lane : ℕ) (frame : List Byte) (s : State) :
    (tetherRelease now lane frame s).fab.mem = s.fab.mem := by
  unfold tetherRelease
  split
  next h => exact State.tetherIn_mem_of_eq h
  next h =>
    rw [← State.tetherIn_mem_of_eq h]
    dsimp only
    (repeat' split) <;> simp

@[simp] theorem leaseLapse_mem (now : ℕ) (s : State) : (leaseLapse now s).fab.mem = s.fab.mem := by simp [leaseLapse]

@[simp] theorem leaseExpiry_mem (now : ℕ) (s : State) : (leaseExpiry now s).fab.mem = s.fab.mem := by
  unfold leaseExpiry; split <;> simp

@[simp] theorem State.givenUp_mem (s : State) : (s.givenUp).fab.mem = s.fab.mem := by simp [State.givenUp]

@[simp] theorem State.warmAgain_mem (s : State) : (s.warmAgain).fab.mem = s.fab.mem := by simp [State.warmAgain]

@[simp] theorem giveUp_mem (s : State) : (giveUp s).fab.mem = s.fab.mem := by simp [giveUp]

@[simp] theorem laneChange_mem (lane : ℕ) (up : Bool) (s : State) :
    (laneChange lane up s).fab.mem = s.fab.mem := by
  simp [laneChange]

@[simp] theorem State.pairEnabled_mem (s : State) : (s.pairEnabled).fab.mem = s.fab.mem := by simp [State.pairEnabled]

/-! #### Weld -/

@[simp] theorem State.sendWeld_mem (s : State) (frame : ℕ) :
    (s.sendWeld frame).fab.mem = s.fab.mem := by
  simp [State.sendWeld]

@[simp] theorem State.weldMargins_mem (s : State) (l : List (ℕ × ℤ)) : (s.weldMargins l).fab.mem = s.fab.mem := by
  unfold State.weldMargins; split <;> simp

@[simp] theorem State.hearMember_mem (s : State) (m : ℕ) :
    (s.hearMember m).fab.mem = s.fab.mem := by
  simp [State.hearMember]

@[simp] theorem State.countEntries_mem (s : State) (f : WeldFrag) :
    (s.countEntries f).fab.mem = s.fab.mem := by
  simp [State.countEntries]

@[simp] theorem State.keepParts_mem (s : State) (f : WeldFrag) (mine : List Part) :
    (s.keepParts f mine).fab.mem = s.fab.mem := by
  simp [State.keepParts]

@[simp] theorem weldFragmentReceived_mem (p : ℕ) (f : WeldFrag) (s : State) :
    (weldFragmentReceived p f s).fab.mem = s.fab.mem := by
  simp [weldFragmentReceived]

@[simp] theorem State.weldPart_mem (s : State) (d index frame m : ℕ) :
    (s.weldPart d index frame m).2.2.fab.mem = s.fab.mem := by
  unfold State.weldPart
  dsimp only
  split
  · rw [State.throughHold_mem]
    split
    · split <;> simp
    · rfl
  · simp

@[simp] theorem State.weldTotal_mem (s : State) (d index frame : ℕ) :
    (s.weldTotal d index frame).2.fab.mem = s.fab.mem := by
  have parts (own : List ℤ) (n : ℕ) : ((s.weldPeers d).foldl (fun (a : List Int × List Nat × Nat × State) m =>
      let p := a.2.2.2.weldPart d index frame m
      ((List.range n).map (fun i => a.1.getD i 0 + p.2.1.getD i 0),
       if p.1 then a.2.1 else m :: a.2.1, if p.1 then a.2.2.1 + 2 ^ m else a.2.2.1, p.2.2))
        (own, [], 0, s)).2.2.2.fab.mem = s.fab.mem := by
    refine List.foldlRecOn (motive := fun a : List ℤ × List ℕ × ℕ × State => a.2.2.2.fab.mem = s.fab.mem) _ _ rfl
      fun a ha m _ => ?_
    simp [ha]
  unfold State.weldTotal
  dsimp only
  rw [State.set_fab, State.addSat_mem, parts]

@[simp] theorem State.sumWelds_mem (s : State) (frame : ℕ) : (s.sumWelds frame).2.fab.mem = s.fab.mem := by
  unfold State.sumWelds
  refine List.foldlRecOn (motive := fun a : List ℕ × State => a.2.fab.mem = s.fab.mem) _ _ rfl fun a ha e _ => ?_
  simp [ha]

@[simp] theorem State.dropParts_mem (s : State) (frame : ℕ) :
    (s.dropParts frame).fab.mem = s.fab.mem := by
  simp [State.dropParts]

@[simp] theorem weldDeadline_mem (s : State) : (weldDeadline s).fab.mem = s.fab.mem := by
  unfold weldDeadline
  split
  · rfl
  · simp [foldl_mem fun (t : State) m => show (t.bump Attr.weldMissing 0xFFFF m).fab.mem = _ by simp]

@[simp] theorem State.weldTick_mem (s : State) (count : ℕ) :
    (s.weldTick count).fab.mem = s.fab.mem := by
  simp [State.weldTick]

@[simp] theorem memberAbsent_mem (m : ℕ) (s : State) : (memberAbsent m s).fab.mem = s.fab.mem := by simp [memberAbsent]

/-! #### Lockstep -/

@[simp] theorem State.sendObject_mem (s : State) (typ : ℕ) (b : List Byte) :
    (s.sendObject typ b).fab.mem = s.fab.mem := by
  simp [State.sendObject]

@[simp] theorem State.closeDigest_mem (s : State) (count : ℕ) :
    (s.closeDigest count).fab.mem = s.fab.mem := by
  simp [State.closeDigest]

@[simp] theorem State.judgeState_mem (s : State) : (s.judgeState).fab.mem = s.fab.mem := by simp [State.judgeState]

@[simp] theorem State.judge_mem (s : State) (count : ℕ) : (s.judge count).fab.mem = s.fab.mem := by
  have records (l : List (ℕ × ℕ × ℕ)) : (l.foldl (fun (s : State) (e : Nat × Nat × Nat) =>
      let code := e.1 / 2 ^ 24 * 256 + e.1 % 256
      s.set code (e.1 / 256 % 65536) e.2.1 (e.2.2 : Int)) s).fab.mem = s.fab.mem :=
    foldl_mem (fun t e => by rw [State.set_fab]) _ _
  unfold State.judge
  split
  · rfl
  · extract_lets push got u v
    have hu : u.fab.mem = s.fab.mem := by
      unfold u
      generalize got = g
      split
      · rw [State.bump_fab]
      · extract_lets w x
        have hw : w.fab.mem = s.fab.mem := records _
        clear_value w
        have hx : x.fab.mem = s.fab.mem := by unfold x; rw [State.set_fab, State.bump_fab]; exact hw
        clear_value x
        split
        · rw [State.set_fab]; exact hw
        · split
          · rw [State.logAt_fab, hx]
          · exact hx
    have hv : v.fab.mem = s.fab.mem := by
      unfold v
      split
      · exact hu
      · rw [State.set_fab, hu]
    rw [State.judgeState_mem, hv]

@[simp] theorem digestFrame_mem (now lane : ℕ) (frame : List Byte) (s : State) :
    (digestFrame now lane frame s).fab.mem = s.fab.mem := by
  unfold digestFrame
  split
  next h => exact State.tetherIn_mem_of_eq h
  next h =>
    rw [← State.tetherIn_mem_of_eq h]
    split <;> rfl

@[simp] theorem State.sendAdopt_mem (s : State) (count : ℕ) : (s.sendAdopt count).fab.mem = s.fab.mem := by
  unfold State.sendAdopt; dsimp only; (repeat' split) <;> simp

@[simp] theorem State.startTrial_mem (s : State) (m : ℕ) (words : List ℕ) :
    (s.startTrial m words).fab.mem = s.fab.mem := by
  unfold State.startTrial; split <;> simp

@[simp] theorem State.adoptItem_mem (s : State) (b : List Byte) :
    (s.adoptItem b).fab.mem = s.fab.mem := by
  simp [State.adoptItem]

@[simp] theorem State.adoptPart_mem (s : State) (f : TFrame) :
    (s.adoptPart f).fab.mem = s.fab.mem := by
  simp [State.adoptPart]

@[simp] theorem adoptFrame_mem (now lane : ℕ) (frame : List Byte) (s : State) :
    (adoptFrame now lane frame s).fab.mem = s.fab.mem := by
  unfold adoptFrame
  split
  next h => exact State.tetherIn_mem_of_eq h
  next h =>
    rw [← State.tetherIn_mem_of_eq h]
    split <;> simp

@[simp] theorem convergenceExpiry_mem (s : State) :
    (convergenceExpiry s).fab.mem = s.fab.mem := by
  simp [convergenceExpiry]

/-! #### Writes -/

@[simp] theorem State.storeAny_mem (s : State) (c : Ctx) :
    (s.storeAny c).fab.mem = s.fab.mem := by
  simp [State.storeAny]

@[simp] theorem State.afterWrite_mem (s : State) (c : Ctx) :
    (s.afterWrite c).fab.mem = s.fab.mem := by
  simp [State.afterWrite]

/-! #### YUGAL -/

@[simp] theorem State.enqueue_mem (s : State) (q : Req) : (s.enqueue q).fab.mem = s.fab.mem := by simp [State.enqueue]

@[simp] theorem State.frameArrives_mem (s : State) (via peer : ℕ) (bytes : List Byte) :
    (s.frameArrives via peer bytes).fab.mem = s.fab.mem := by
  unfold State.frameArrives
  split
  · rfl
  · split
    · simp
    · split
      · simp
      · split
        · rfl
        · exact State.arrive_mem (.inl ‹_›)
        · rw [State.enqueue_mem, State.arrive_mem (.inr ‹_›)]

@[simp] theorem State.spiFrame_mem (s : State) (bytes : List Byte) :
    (s.spiFrame bytes).fab.mem = s.fab.mem := by
  simp [State.spiFrame]

@[simp] theorem yugalFrameArrival_mem (via peer : ℕ) (bytes : List Byte) (s : State) :
    (yugalFrameArrival via peer bytes s).fab.mem = s.fab.mem := by
  simp [yugalFrameArrival]

@[simp] theorem keptReplyExpiry_mem (s : State) : (keptReplyExpiry s).fab.mem = s.fab.mem := by simp [keptReplyExpiry]

@[simp] theorem writeFrame_mem (bytes : List Byte) (s : State) :
    (writeFrame bytes s).fab.mem = s.fab.mem := by
  simp [writeFrame]

@[simp] theorem readState_mem (s : State) : (readState s).fab.mem = s.fab.mem := by simp [readState]

@[simp] theorem readReply_mem (wanted : ℕ) (s : State) : (readReply wanted s).fab.mem = s.fab.mem := by simp [readReply]

@[simp] theorem spiBadCommand_mem (command : Byte) (s : State) :
    (spiBadCommand command s).fab.mem = s.fab.mem := by
  simp [spiBadCommand]

@[simp] theorem State.closeSessions_mem (s : State) (p : Session → Bool) :
    (s.closeSessions p).fab.mem = s.fab.mem := by
  simp [State.closeSessions]

@[simp] theorem sessionTimeout_mem (id : ℕ) (s : State) :
    (sessionTimeout id s).fab.mem = s.fab.mem := by
  simp [sessionTimeout]

/-! #### Commands -/

@[simp] theorem State.without_mem (s : State) (id : ℕ) : (s.without id).fab.mem = s.fab.mem := by simp [State.without]

@[simp] theorem State.countLate_mem (s : State) (q : Req) :
    (s.countLate q).fab.mem = s.fab.mem := by
  simp [State.countLate]

@[simp] theorem State.restoreModel_mem (s : State) (p : List Byte) : (s.restoreModel p).fab.mem = s.fab.mem := by
  have fold (l : List ℕ) (code : ℕ) (g : ℕ → ℤ) (t : State) :
      SameMem t (l.foldl (fun t i => t.set code 0 i (g i)) t) := foldl_mem (fun t i => by rw [State.set_fab]) _ _
  change SameMem s _
  unfold State.restoreModel
  extract_lets at_ t u v
  have ht : SameMem s t := fold ..
  clear_value t
  have hu : SameMem s u := (fold _ _ _ _).trans (SameMem.of_set ht)
  clear_value u
  have hv : SameMem s v := .of_set (.of_set hu)
  clear_value v
  exact hv.of_fab rfl

@[simp] theorem State.serveEnrol_mem (s : State) (off : ℕ) :
    (s.serveEnrol off).fab.mem = s.fab.mem := by
  simp [State.serveEnrol]

@[simp] theorem State.enrolData_mem (s : State) (off : ℕ) (data : List Byte) :
    (s.enrolData off data).fab.mem = s.fab.mem := by
  simp [State.enrolData]

@[simp] theorem enrolFrame_mem (now lane : ℕ) (frame : List Byte) (s : State) :
    (enrolFrame now lane frame s).fab.mem = s.fab.mem := by
  unfold enrolFrame
  split
  next h => exact State.tetherIn_mem_of_eq h
  next h =>
    rw [← State.tetherIn_mem_of_eq h]
    dsimp only
    (repeat' split) <;> simp

@[simp] theorem State.clearStrike_mem (s : State) : (s.clearStrike).fab.mem = s.fab.mem := by simp [State.clearStrike]

@[simp] theorem State.clearReplicated_mem (s : State) :
    (s.clearReplicated).fab.mem = s.fab.mem := by
  simp [State.clearReplicated]

@[simp] theorem State.takeRunning_mem (s : State) (r : Rec) : (s.takeRunning r).fab.mem = s.fab.mem := by
  unfold State.takeRunning
  dsimp only
  split
  · split <;> simp
  · rfl
  · rfl
  · rfl
  · split
    · simp [State.openTicket_mem ‹_›]
    · rfl
  · rfl

@[simp] theorem State.freshImage_mem (t : State) : (t.freshImage).fab.mem = t.fab.mem := by
  unfold State.freshImage; split <;> simp

/-! #### The block tick -/

@[simp] theorem State.emitFrames_mem (s : State) : (s.emitFrames).fab.mem = s.fab.mem := by simp [State.emitFrames]

@[simp] theorem State.recentreRx_mem (s : State) (k : ℕ) :
    (s.recentreRx k).fab.mem = s.fab.mem := by
  simp [State.recentreRx]

@[simp] theorem State.captureFrames_mem (s : State) (count : ℕ) :
    (s.captureFrames count).fab.mem = s.fab.mem := by
  simp [State.captureFrames]

@[simp] theorem State.noteUse_mem (s : State) (i v : ℕ) : (s.noteUse i v).fab.mem = s.fab.mem := by simp [State.noteUse]

@[simp] theorem State.noteUses_mem (s : State) : s.noteUses.fab.mem = s.fab.mem :=
  foldl_mem (fun _ _ => State.noteUse_mem ..) _ s.fresh.2

@[simp] theorem State.dropSteps_mem (s : State) : (s.dropSteps).fab.mem = s.fab.mem := by simp [State.dropSteps]

@[simp] theorem State.laneEvents_mem (s : State) : s.laneEvents.fab.mem = s.fab.mem := by
  unfold State.laneEvents
  dsimp only
  rw [State.events_fab, foldl_mem fun t i => by simp]
  rfl

@[simp] theorem State.openPeriod_mem (s : State) (count : ℕ) :
    (s.openPeriod count).fab.mem = s.fab.mem := by
  simp [State.openPeriod]

@[simp] theorem State.countTick_mem (s : State) : s.countTick.fab.mem = s.fab.mem := by
  unfold State.countTick
  dsimp only
  rw [State.set_fab, State.laneEvents_mem, State.noteUses_mem, State.event_fab]

@[simp] theorem State.stopBringUp_mem (s : State) : (s.stopBringUp).fab.mem = s.fab.mem := by simp [State.stopBringUp]

@[simp] theorem State.enterRun_mem (s : State) (count : ℕ) :
    (s.enterRun count).fab.mem = s.fab.mem := by
  simp [State.enterRun]

/-! #### Power -/

@[simp] theorem State.noteSlot_mem (s : State) (b : BootIn) (k : ℕ) :
    (s.noteSlot b k).fab.mem = s.fab.mem := by
  simp [State.noteSlot]

@[simp] theorem State.enterRecovery_mem (s : State) (b : BootIn) :
    (s.enterRecovery b).fab.mem = s.fab.mem := by
  simp [State.enterRecovery]

@[simp] theorem State.startMarchFail_mem (s : State) (f : MarchFail) :
    (s.startMarchFail f).fab.mem = s.fab.mem := by
  simp [State.startMarchFail]

@[simp] theorem State.agreeParams_mem (s : State) : (s.agreeParams).fab.mem = s.fab.mem := by simp [State.agreeParams]

@[simp] theorem syncWaitExpiry_mem (s : State) : (syncWaitExpiry s).fab.mem = s.fab.mem := by simp [syncWaitExpiry]

@[simp] theorem installComplete_mem (s : State) : (installComplete s).fab.mem = s.fab.mem := by
  unfold installComplete; split <;> simp

end Sys2Proof.Machine
end

/-! ### What keeps memory canonical

The functions of the model that write memory, those that call one of them, and the effects of the rows. -/

section
namespace Sys2Proof.Machine

@[simp] theorem Memory.ite_wf (p : Prop) [Decidable p] (m n : Store Byte) :
    Memory.wf (if p then m else n) = if p then Memory.wf m else Memory.wf n := apply_ite Memory.wf p m n

theorem foldl_wf {α : Type} {g : State → α → State} (h : ∀ t x, Memory.wf t.fab.mem = true → Memory.wf
    (g t x).fab.mem = true) (l : List α) {s : State} (hs : Memory.wf s.fab.mem = true) :
    Memory.wf (l.foldl g s).fab.mem = true := by
  induction l generalizing s with
  | nil => exact hs
  | cons x l ih => exact ih (h s x hs)

/-- The state that an answer leaves holds canonical memory. -/
def Answer.Wf : Answer → Prop
  | .ok (t, _) => Memory.wf t.fab.mem = true
  | .error _ => True

@[simp] theorem Answer.ok_wf (t : State) (o : Out) : Answer.Wf (.ok (t, o)) ↔ Memory.wf t.fab.mem = true := Iff.rfl

@[simp] theorem Answer.error_wf (f : Fail) : Answer.Wf (.error f) := trivial

/-! #### Serving a request -/

@[simp] theorem ok_wf (t : State) : (ok t).Wf ↔ Memory.wf t.fab.mem = true := Iff.rfl

@[simp] theorem refuse_wf (e : ℕ) : (refuse e).Wf := trivial

@[simp] theorem okTicket_wf (t : State) (k : ℕ) : (okTicket t k).Wf ↔ Memory.wf t.fab.mem = true := Iff.rfl

/-! #### Memory -/

@[simp] theorem State.writeBytes_wf {s : State} (a : ℕ) (l : List Byte) (hs : Memory.wf s.fab.mem = true) :
    Memory.wf (s.writeBytes a l).fab.mem = true := wf_writeBytes a l hs

@[simp] theorem State.busStrobed_wf {s : State} (m : Master) (a : ℕ) (l : List (Option Byte))
    (hs : Memory.wf s.fab.mem = true) :
    Memory.wf (s.busStrobed m a l).fab.mem = true := wf_busStrobed m a l hs

/-! #### The sequencer -/

@[simp] theorem State.drain_wf {s : State} (c : ℕ) (hs : Memory.wf s.fab.mem = true) :
    Memory.wf (s.drain c).fab.mem = true := wf_drain c hs

@[simp] theorem State.endModule_wf {s : State} (c : ℕ) (r : Bool) (hs : Memory.wf s.fab.mem = true) :
    Memory.wf (s.endModule c r).fab.mem = true := wf_endModule c r hs

/-! #### The memory matrix -/

@[simp] theorem State.flipByte_wf {s : State} (a m : ℕ) (hs : Memory.wf s.fab.mem = true) :
    Memory.wf (s.flipByte a m).fab.mem = true := wf_flipByte a m hs

/-! #### Placement -/

@[simp] theorem clearRun_wf {m : Store Byte} (b n : ℕ) (h : Memory.wf m = true) : Memory.wf (clearRun m b n) = true :=
  wf_clearRun b n h

@[simp] theorem copyBytes_wf {m : Store Byte} (b n t : ℕ) (h : Memory.wf m = true) :
    Memory.wf (copyBytes m b n t) = true :=
  wf_copyBytes b n t h

/-- What an answer with canonical memory leaves. -/
theorem Answer.Wf.of_eq {r : Answer} {t : State} {o : Out} (hr : r.Wf) (h : r = .ok (t, o)) :
    Memory.wf t.fab.mem = true := by
  subst h
  exact hr

/-- An effect that keeps memory canonical. -/
def Effect.Wf (eff : Effect) : Prop := ∀ c s, Memory.wf s.fab.mem = true → (eff c s).Wf

/-- What an admission leaves holds the memory it was asked on. -/
def Admit.Keeps (s : State) : Admit → Prop
  | .no _ => True
  | .inc _ u => u.fab.mem = s.fab.mem
  | .plan _ _ u => u.fab.mem = s.fab.mem

theorem State.admitsFresh_keeps (s : State) (t : Topo) : (s.admitsFresh t).Keeps s := by
  unfold State.admitsFresh
  split
  · trivial
  · split
    · trivial
    · split
      · trivial
      · exact State.freshRegions_mem ‹_›

theorem State.admits_keeps (s : State) : s.admits.Keeps s := by
  unfold State.admits
  dsimp only
  split
  · trivial
  · split
    · trivial
    · split
      · trivial
      · split
        · split
          · split
            · exact State.addRegions_mem ‹_›
            · split
              · trivial
              · exact State.admitsFresh_keeps s _
          · exact State.admitsFresh_keeps s _
        · exact State.admitsFresh_keeps s _

/-! #### Memory -/

@[simp] theorem State.busWrite_wf {s : State} (m : Master) (a : ℕ) (data : List Byte)
    (hs : Memory.wf s.fab.mem = true) :
    Memory.wf (s.busWrite m a data).fab.mem = true := by
  simp [State.busWrite, hs]

/-! #### Serving a request -/

theorem performNow_wf {eff : Effect} (he : Effect.Wf eff) (c : Ctx) {s : State} (hs : Memory.wf s.fab.mem = true) :
    (performNow eff c s).Wf := by
  unfold performNow
  split
  · trivial
  next t o h => simpa using (he c s hs).of_eq h

theorem perform_wf {eff : Effect} (he : Effect.Wf eff) (c : Ctx) {s : State} (hs : Memory.wf s.fab.mem = true) :
    (perform eff c s).Wf := by
  unfold perform
  dsimp only
  split
  · exact performNow_wf he c hs
  · split
    · trivial
    · split
      · trivial
      · split
        · exact performNow_wf he c hs
        · split
          · split
            · trivial
            · split
              next t o h =>
                have hb : Memory.wf (s.bump Attr.belLateCount 0 0).fab.mem = true := by simpa using hs
                simpa using (performNow_wf he c hb).of_eq h
              · trivial
          · split
            · trivial
            · split
              · split
                next t o h => simpa using (he _ s hs).of_eq h
                · trivial
              · split
                · simpa using hs
                · split
                  · simpa using hs
                  · trivial

theorem State.operate_wf {eff : Effect} (he : Effect.Wf eff) (q : Req) {s : State} (hs : Memory.wf s.fab.mem = true) :
    (s.operate eff q).Wf := by
  unfold State.operate
  split
  · trivial
  · split
    · trivial
    · exact perform_wf he _ hs

theorem State.answer_wf {eff : Effect} (he : Effect.Wf eff) (q : Req) (k : Option Session) {s : State}
    (hs : Memory.wf s.fab.mem = true) : Memory.wf (s.answer eff q k).fab.mem = true := by
  unfold State.answer
  dsimp only
  split
  next t o h => simpa using (State.operate_wf he q (by simpa using hs)).of_eq h
  · simpa using hs

theorem serve_wf {eff : Effect} (he : Effect.Wf eff) (row : Row) (q : Req) {s : State}
    (hs : Memory.wf s.fab.mem = true) : Memory.wf (serve row eff q s).fab.mem = true := by
  unfold serve
  split
  · exact hs
  · split
    · exact hs
    next t h => rwa [State.take_mem (.inl h)]
    next t h =>
      have ht : Memory.wf t.fab.mem = true := by rwa [State.take_mem (.inr h)]
      split
      · simpa using ht
      · simpa using ht
      · exact State.answer_wf he q _ ht

/-! #### Placement -/

@[simp] theorem State.zeroRun_wf {s : State} (b n : ℕ) (hs : Memory.wf s.fab.mem = true) :
    Memory.wf (s.zeroRun b n).fab.mem = true := by
  simp [State.zeroRun, hs]

@[simp] theorem State.copyRun_wf {s : State} (b n to_ : ℕ) (hs : Memory.wf s.fab.mem = true) :
    Memory.wf (s.copyRun b n to_).fab.mem = true := by
  simp [State.copyRun, hs]

@[simp] theorem State.freeRun_wf {s : State} (b n : ℕ) (hs : Memory.wf s.fab.mem = true) :
    Memory.wf (s.freeRun b n).fab.mem = true := by
  simp [State.freeRun, hs]

@[simp] theorem State.freeRegions_wf {s : State} (hs : Memory.wf s.fab.mem = true) :
    Memory.wf s.freeRegions.fab.mem = true := by
  unfold State.freeRegions
  dsimp only
  split
  · exact hs
  · rw [State.spaceAttrs_mem]
    exact foldl_wf (fun t r ht => State.freeRun_wf _ _ ht) _ hs

@[simp] theorem State.makeMove_wf {s : State} (mv : PMove) (hs : Memory.wf s.fab.mem = true) :
    Memory.wf (s.makeMove mv).fab.mem = true := by
  unfold State.makeMove; (repeat' split) <;> simp [hs]

@[simp] theorem State.moveAll_wf {s : State} (q : Place) (l : List PMove) (hs : Memory.wf s.fab.mem = true) :
    Memory.wf (s.moveAll q l).fab.mem = true :=
  foldl_wf (fun t m ht => State.makeMove_wf m ht) _ (by simpa using hs)

theorem admitChange_wf {s t : State} (origin : ℕ) (effect : List (ℕ × ℤ)) (ht : Memory.wf t.fab.mem = true) :
    (admitChange s t origin effect).Wf := by
  unfold admitChange
  dsimp only
  split
  · trivial
  next p u h =>
    have hut : u.fab.mem = t.fab.mem := by simpa [h, Admit.Keeps] using State.admits_keeps t
    have hu : Memory.wf u.fab.mem = true := by rwa [hut]
    split
    · simp [hu]
    · split
      · simp [hu]
      · split
        · trivial
        · simp [State.addPlan_mem ‹_›, hu]
  next q l u h =>
    have hut : u.fab.mem = t.fab.mem := by simpa [h, Admit.Keeps] using State.admits_keeps t
    have hu : Memory.wf u.fab.mem = true := by rwa [hut]
    split
    · simp [hu]
    · split
      · trivial
      · split
        · trivial
        · split
          · trivial
          · simp [State.addPlan_mem ‹_›, hu]

@[simp] theorem admitWrite_wf (c : Ctx) {s : State} (hs : Memory.wf s.fab.mem = true) : (admitWrite c s).Wf := by
  have ht : Memory.wf (s.store c).fab.mem = true := by simpa using hs
  unfold admitWrite
  dsimp only
  split
  · exact ht
  · split
    · split
      next t o h => exact (admitChange_wf _ _ ht).of_eq h
      · trivial
    · exact admitChange_wf _ _ ht

@[simp] theorem State.finishPlan_wf {s : State} (pl : Plan) (result : ℕ) (hs : Memory.wf s.fab.mem = true) :
    Memory.wf (s.finishPlan pl result).fab.mem = true := by
  simp [State.finishPlan, hs]

@[simp] theorem State.finishPlans_wf {s : State} {leave : List (ℕ × ℤ) → State → State}
    (hl : ∀ e t, (leave e t).fab.mem = t.fab.mem) (hs : Memory.wf s.fab.mem = true) :
    Memory.wf (s.finishPlans leave).fab.mem = true := by
  unfold State.finishPlans
  split
  · exact hs
  · dsimp only
    rw [State.planAttr_mem]
    refine foldl_wf (fun t p ht => State.finishPlan_wf _ _ (by rwa [hl])) _ ?_
    exact foldl_wf (fun t m ht => State.makeMove_wf m ht) _ hs

@[simp] theorem State.switchHead_wf {s : State} (hs : Memory.wf s.fab.mem = true) :
    Memory.wf s.switchHead.fab.mem = true := by
  unfold State.switchHead
  split
  · exact hs
  · dsimp only
    rw [State.planAttr_mem, State.loadAttrs_mem, foldl_mem fun t p => by split <;> simp]
    exact State.makeMove_wf _ hs

/-! #### Ramps and timed changes -/

@[simp] theorem writeFader_wf (c : Ctx) {s : State} (hs : Memory.wf s.fab.mem = true) : (writeFader c s).Wf := by
  unfold writeFader
  dsimp only
  split
  next t h => simpa [writeRamps_mem h] using hs
  · trivial

@[simp] theorem writeZ_wf (c : Ctx) (p : ZParam) (v : ℤ) {s : State} (hs : Memory.wf s.fab.mem = true) :
    (writeZ c p v s).Wf := by
  unfold writeZ; dsimp only; (repeat' split) <;> simp [hs]

@[simp] theorem writeTrim_wf (c : Ctx) {s : State} (hs : Memory.wf s.fab.mem = true) :
    (writeTrim c s).Wf := by
  simp [writeTrim, hs]

@[simp] theorem writePolarity_wf (c : Ctx) {s : State} (hs : Memory.wf s.fab.mem = true) :
    (writePolarity c s).Wf := by
  simp [writePolarity, hs]

@[simp] theorem writeCut_wf (c : Ctx) {s : State} (hs : Memory.wf s.fab.mem = true) :
    (writeCut c s).Wf := by
  simp [writeCut, hs]

@[simp] theorem writePreampGain_wf (c : Ctx) {s : State} (hs : Memory.wf s.fab.mem = true) :
    (writePreampGain c s).Wf := by
  unfold writePreampGain; dsimp only; split <;> simp [hs]

@[simp] theorem cancelTimed_wf (c : Ctx) {s : State} (hs : Memory.wf s.fab.mem = true) :
    (cancelTimed c s).Wf := by
  simp [cancelTimed, hs]

/-! #### References -/

@[simp] theorem clearWtr_wf (c : Ctx) {s : State} (hs : Memory.wf s.fab.mem = true) :
    (clearWtr c s).Wf := by
  simp [clearWtr, hs]

@[simp] theorem modelReset_wf (_c : Ctx) {s : State} (hs : Memory.wf s.fab.mem = true) :
    (modelReset _c s).Wf := by
  simp [modelReset, hs]

/-! #### Health -/

@[simp] theorem clearConditions_wf (_c : Ctx) {s : State} (hs : Memory.wf s.fab.mem = true) :
    (clearConditions _c s).Wf := by
  unfold clearConditions; split <;> simp [hs]

@[simp] theorem writeControl_wf (c : Ctx) {s : State} (hs : Memory.wf s.fab.mem = true) : (writeControl c s).Wf := by
  unfold writeControl; split <;> simp [hs]

@[simp] theorem clearMask_wf (c : Ctx) {s : State} (hs : Memory.wf s.fab.mem = true) :
    (clearMask c s).Wf := by
  simp [clearMask, hs]

@[simp] theorem tagClear_wf (_c : Ctx) {s : State} (hs : Memory.wf s.fab.mem = true) :
    (tagClear _c s).Wf := by
  simp [tagClear, hs]

@[simp] theorem issueChallenge_wf (_c : Ctx) {s : State} (hs : Memory.wf s.fab.mem = true) :
    (issueChallenge _c s).Wf := by
  unfold issueChallenge; split <;> simp [hs]

@[simp] theorem State.unlockFails_wf {s : State} (hs : Memory.wf s.fab.mem = true) :
    (s.unlockFails).Wf := by
  simp [State.unlockFails, hs]

@[simp] theorem unlock_wf (c : Ctx) {s : State} (hs : Memory.wf s.fab.mem = true) : (unlock c s).Wf := by
  unfold unlock; dsimp only; (repeat' split) <;> simp [hs]

@[simp] theorem lock_wf (_c : Ctx) {s : State} (hs : Memory.wf s.fab.mem = true) : (lock _c s).Wf := by simp [lock, hs]

@[simp] theorem tmuxSelect_wf (c : Ctx) {s : State} (hs : Memory.wf s.fab.mem = true) : (tmuxSelect c s).Wf := by
  unfold tmuxSelect; split <;> simp [hs]

/-! #### Strikes and planes -/

@[simp] theorem writeGain_wf (c : Ctx) {s : State} (hs : Memory.wf s.fab.mem = true) : (writeGain c s).Wf := by
  unfold writeGain
  dsimp only
  split
  next t h => simpa [writeRamps_mem h] using hs
  · trivial

@[simp] theorem writeIdleGain_wf (c : Ctx) {s : State} (hs : Memory.wf s.fab.mem = true) : (writeIdleGain c s).Wf := by
  unfold writeIdleGain; split <;> simp [hs]

@[simp] theorem bindSlot_wf (c : Ctx) (slot w : ℕ) {s : State} (hs : Memory.wf s.fab.mem = true) :
    (bindSlot c slot w s).Wf := by
  have bound (l : List (ℕ × ℕ)) :
      Memory.wf (l.foldl (fun t e => t.set Attr.slotOccupant e.1 0 (e.2 : Int)) s).fab.mem = true := by
    rwa [foldl_mem fun t e => by rw [State.set_fab]]
  unfold bindSlot
  dsimp only
  split
  · trivial
  · split
    · exact hs
    · split
      · trivial
      · split
        · exact bound _
        · split
          · trivial
          · split
            · simpa using bound _
            · split
              · split
                next t h => simpa [State.acceptSwaps_mem h] using hs
                · trivial
              · split
                next t h => simpa [State.addPlan_mem h] using bound _
                · trivial
          · exact admitChange_wf _ _ (bound _)

@[simp] theorem writeOccupant_wf (c : Ctx) {s : State} (hs : Memory.wf s.fab.mem = true) : (writeOccupant c s).Wf := by
  unfold writeOccupant; dsimp only; (repeat' split) <;> simp [hs]

@[simp] theorem doStrike_wf (c : Ctx) {s : State} (hs : Memory.wf s.fab.mem = true) : (doStrike c s).Wf := by
  unfold doStrike
  split
  · simpa using hs
  · split
    · split <;> simpa using hs
    · split
      · trivial
      · split
        · trivial
        next t h =>
          have ht : Memory.wf t.fab.mem = true := by rwa [State.openTicket_mem h]
          split
          · simpa using ht
          · split <;> simpa using ht

@[simp] theorem cancelStrike_wf (_c : Ctx) {s : State} (hs : Memory.wf s.fab.mem = true) : (cancelStrike _c s).Wf := by
  unfold cancelStrike; split <;> simp [hs]

@[simp] theorem startLoad_wf (kind origin : ℕ) (words : Store ℕ) (scene total : ℕ) {s : State}
    (hs : Memory.wf s.fab.mem = true) : (startLoad kind origin words scene total s).Wf := by
  unfold startLoad
  split
  · trivial
  next h => simpa [State.openTicket_mem h] using hs

@[simp] theorem copyLiveToIdle_wf (c : Ctx) {s : State} (hs : Memory.wf s.fab.mem = true) :
    (copyLiveToIdle c s).Wf := by
  unfold copyLiveToIdle; (repeat' split) <;> simp [hs]

@[simp] theorem clearIdle_wf (c : Ctx) {s : State} (hs : Memory.wf s.fab.mem = true) : (clearIdle c s).Wf := by
  unfold clearIdle; (repeat' split) <;> simp [hs]

/-! #### Modules -/

theorem underTicket_wf (origin : ℕ) {s : State} {a : Answer} (hs : Memory.wf s.fab.mem = true) (ha : a.Wf) :
    (underTicket s origin a).Wf := by
  unfold underTicket
  split
  · trivial
  next h =>
    split
    · simpa [State.openTicket_mem h] using hs
    · split
      · exact ha
      · split
        · trivial
        next h => simpa [State.openTicket_mem h] using ha

@[simp] theorem loadModule_wf (c : Ctx) {s : State} (hs : Memory.wf s.fab.mem = true) : (loadModule c s).Wf := by
  unfold loadModule
  dsimp only
  split
  · trivial
  · split
    · exact underTicket_wf _ hs trivial
    · split
      · exact underTicket_wf _ hs trivial
      next g _ _ l _ =>
        have ht : Memory.wf ((s.setMod c.q.inst (Mod.new g (if g.events = 0 then none else some l))).imageAttrs
            c.q.inst g).fab.mem = true := by simpa using hs
        split
        · exact ht
        · refine underTicket_wf _ hs ?_
          split
          next u o h => simpa using (admitChange_wf _ _ ht).of_eq h
          · trivial

@[simp] theorem unloadModule_wf (c : Ctx) {s : State} (hs : Memory.wf s.fab.mem = true) : (unloadModule c s).Wf := by
  unfold unloadModule
  dsimp only
  split
  · exact hs
  · split
    · simpa using hs
    · split
      · trivial
      · split
        · trivial
        next t h =>
          have ht : Memory.wf t.fab.mem = true := by rwa [State.openTicket_mem h]
          split <;> simp [ht]

@[simp] theorem writeInSrc_wf (c : Ctx) {s : State} (hs : Memory.wf s.fab.mem = true) : (writeInSrc c s).Wf := by
  unfold writeInSrc; dsimp only; (repeat' split) <;> simp [hs]

@[simp] theorem writeConst_wf (c : Ctx) {s : State} (hs : Memory.wf s.fab.mem = true) : (writeConst c s).Wf := by
  unfold writeConst; dsimp only; (repeat' split) <;> simp [hs]

@[simp] theorem State.stopCore_wf (c : ℕ) {s : State} (hs : Memory.wf s.fab.mem = true) :
    Memory.wf (s.stopCore c).fab.mem = true := by
  unfold State.stopCore
  dsimp only
  split
  · exact hs
  · rw [foldl_mem fun t r => by split <;> simp]
    simp [hs]

@[simp] theorem State.moduleSwitch_wf {s : State} (hs : Memory.wf s.fab.mem = true) :
    Memory.wf (s.moduleSwitch).fab.mem = true := by
  unfold State.moduleSwitch; split <;> simp [hs]

@[simp] theorem State.regionSwitch_wf {s : State} (lines : Bool) (hs : Memory.wf s.fab.mem = true) :
    Memory.wf (s.regionSwitch lines).fab.mem = true := by
  unfold State.regionSwitch; (repeat' split) <;> simp [hs]

@[simp] theorem State.endShadow_wf {s : State} (hs : Memory.wf s.fab.mem = true) :
    Memory.wf (s.endShadow).fab.mem = true := by
  unfold State.endShadow; dsimp only; (repeat' split) <;> simp [hs]

@[simp] theorem State.endBlocks_wf {s : State} (hs : Memory.wf s.fab.mem = true) :
    Memory.wf s.endBlocks.fab.mem = true := by
  unfold State.endBlocks
  dsimp only
  rw [foldl_mem fun t e => by simp, State.keepStates_mem, State.countBlocks_mem]
  exact foldl_wf (fun t c ht => State.stopCore_wf c ht) _ (State.endShadow_wf hs)

@[simp] theorem offsetTick_wf {s : State} (hs : Memory.wf s.fab.mem = true) :
    Memory.wf (offsetTick s).fab.mem = true := by
  unfold offsetTick
  split
  · exact hs
  · rw [State.startBlocks_mem, State.openBudgets_mem]
    refine State.regionSwitch_wf _ (State.moduleSwitch_wf ?_)
    rw [State.endRetirements_mem]
    exact State.endBlocks_wf hs

/-! #### Moves -/

@[simp] theorem takeEffect_wf (n : ℕ) {s : State} (hs : Memory.wf s.fab.mem = true) :
    Memory.wf (takeEffect n s).fab.mem = true := by
  induction n generalizing s with
  | zero => exact hs
  | succ n ih =>
    unfold takeEffect
    split
    · exact hs
    · split
      · exact hs
      · exact ih (by simp [hs])

@[simp] theorem movePlanTakesEffect_wf {s : State} (hs : Memory.wf s.fab.mem = true) :
    Memory.wf (movePlanTakesEffect s).fab.mem = true := by
  simp [movePlanTakesEffect, hs]

@[simp] theorem stripMoveSwitch_wf (strip : ℕ) {s : State} (hs : Memory.wf s.fab.mem = true) :
    Memory.wf (stripMoveSwitch strip s).fab.mem = true := by
  simp [stripMoveSwitch, hs]

@[simp] theorem regionCopyComplete_wf {s : State} (hs : Memory.wf s.fab.mem = true) :
    Memory.wf (regionCopyComplete s).fab.mem = true := by
  unfold regionCopyComplete; (repeat' split) <;> simp [hs]

@[simp] theorem zeroFillComplete_wf {s : State} (hs : Memory.wf s.fab.mem = true) :
    Memory.wf (zeroFillComplete s).fab.mem = true := by
  unfold zeroFillComplete; split <;> simp [hs]

@[simp] theorem State.restoreSpares_wf {s : State} (hs : Memory.wf s.fab.mem = true) :
    Memory.wf s.restoreSpares.fab.mem = true := by
  unfold State.restoreSpares
  dsimp only
  split
  · exact hs
  · split
    · simpa using hs
    · split
      next u l _ h =>
        have hu : Memory.wf u.fab.mem = true := by rwa [State.freshRegions_mem h]
        split
        · simp [hu]
        · split
          · simpa using hs
          · simpa using hu
      · simpa using hs

@[simp] theorem coreRetirement_wf (c : ℕ) {s : State} (hs : Memory.wf s.fab.mem = true) :
    Memory.wf (coreRetirement c s).fab.mem = true := by
  unfold coreRetirement; dsimp only; (repeat' split) <;> simp [hs]

@[simp] theorem reinstateCore_wf (c : Ctx) {s : State} (hs : Memory.wf s.fab.mem = true) : (reinstateCore c s).Wf := by
  unfold reinstateCore
  dsimp only
  split
  · trivial
  · split
    · exact underTicket_wf _ hs hs
    · split
      · trivial
      · split
        · trivial
        next h => simpa [State.openTicket_mem h] using hs

@[simp] theorem defragment_wf (c : Ctx) {s : State} (hs : Memory.wf s.fab.mem = true) : (defragment c s).Wf := by
  unfold defragment
  dsimp only
  split
  · trivial
  · split
    next u l _ h =>
      have hu : Memory.wf u.fab.mem = true := by rwa [State.freshRegions_mem h]
      split
      · exact underTicket_wf _ hs trivial
      · split
        · exact underTicket_wf _ hs (State.moveAll_wf _ _ hu)
        · split
          · exact underTicket_wf _ hs hs
          · split
            · trivial
            next h => simpa [State.addPlan_mem h] using hu
    · exact underTicket_wf _ hs trivial

/-! #### Tongs -/

@[simp] theorem State.accessWrite_wf {s : State} (m : Master) (a : ℕ) (d : List (Option Byte))
    (hs : Memory.wf s.fab.mem = true) :
    Memory.wf (s.accessWrite m a d).fab.mem = true := by
  simp [State.accessWrite, hs]

@[simp] theorem State.resumePlans_wf {s : State} (hs : Memory.wf s.fab.mem = true) :
    Memory.wf (s.resumePlans).fab.mem = true := by
  simp [State.resumePlans, hs]

@[simp] theorem State.descError_wf {s : State} (ch code : ℕ) (hs : Memory.wf s.fab.mem = true) :
    Memory.wf (s.descError ch code).fab.mem = true := by
  simp [State.descError, hs]

@[simp] theorem State.issue_wf {s : State} (ch : ℕ) (read : Bool) (r : Running) (b : TBurst)
    (hs : Memory.wf s.fab.mem = true) :
    Memory.wf (s.issue ch read r b).fab.mem = true := by
  unfold State.issue; dsimp only; split <;> simp [hs]

@[simp] theorem State.issueOn_wf {s : State} (read : Bool) (hs : Memory.wf s.fab.mem = true) :
    Memory.wf (s.issueOn read).fab.mem = true := by
  unfold State.issueOn; (repeat' split) <;> simp [hs]

@[simp] theorem State.issueTongs_wf {s : State} (hs : Memory.wf s.fab.mem = true) :
    Memory.wf (s.issueTongs).fab.mem = true := by
  simp [State.issueTongs, hs]

@[simp] theorem State.arriveRead_wf {s : State} (o : OpenBurst) (hs : Memory.wf s.fab.mem = true) :
    Memory.wf (s.arriveRead o).fab.mem = true := by
  unfold State.arriveRead; (repeat' split) <;> simp [hs]

@[simp] theorem State.startDesc_wf {s : State} (ch : ℕ) (d : Desc) (hs : Memory.wf s.fab.mem = true) :
    Memory.wf (s.startDesc ch d).fab.mem = true := by
  unfold State.startDesc; split <;> simp [hs]

@[simp] theorem descriptorTake_wf (ch addr : ℕ) {s : State} (hs : Memory.wf s.fab.mem = true) :
    Memory.wf (descriptorTake ch addr s).fab.mem = true := by
  unfold descriptorTake; split <;> simp [hs]

@[simp] theorem descriptorComplete_wf (ch : ℕ) {s : State} (hs : Memory.wf s.fab.mem = true) :
    Memory.wf (descriptorComplete ch s).fab.mem = true := by
  unfold descriptorComplete; (repeat' split) <;> simp [hs]

@[simp] theorem paceRequest_wf (line : ℕ) (room : Option ℕ) {s : State} (hs : Memory.wf s.fab.mem = true) :
    Memory.wf (paceRequest line room s).fab.mem = true := by
  simp [paceRequest, hs]

@[simp] theorem State.tongsReset_wf {s : State} (hs : Memory.wf s.fab.mem = true) :
    Memory.wf (s.tongsReset).fab.mem = true := by
  simp [State.tongsReset, hs]

/-! #### The memory matrix -/

@[simp] theorem State.flipBytes_wf (n a m : ℕ) {s : State} (hs : Memory.wf s.fab.mem = true) :
    Memory.wf (s.flipBytes n a m).fab.mem = true := by
  induction n generalizing s a m with
  | zero => exact hs
  | succ n ih =>
    unfold State.flipBytes
    refine ih _ _ ?_
    split
    · exact hs
    · exact State.flipByte_wf _ _ hs

@[simp] theorem State.upsetWord_wf {s : State} (e : ℕ × ℕ) (hs : Memory.wf s.fab.mem = true) :
    Memory.wf (s.upsetWord e).fab.mem = true := by
  simp [State.upsetWord, hs]

@[simp] theorem State.writePart_wf {s : State} (o : OpenBurst) (d : List (Option Byte))
    (hs : Memory.wf s.fab.mem = true) :
    Memory.wf (s.writePart o d).fab.mem = true := by
  unfold State.writePart; (repeat' split) <;> simp [hs]

@[simp] theorem State.runBeats_wf {s : State} (o : OpenBurst) (beats : ℕ) (hs : Memory.wf s.fab.mem = true) :
    Memory.wf (s.runBeats o beats).fab.mem = true := by
  simp [State.runBeats, hs]

@[simp] theorem State.runOpen_wf (p : OpenBurst → Bool) (beats : ℕ) {s : State} (hs : Memory.wf s.fab.mem = true) :
    Memory.wf (s.runOpen p beats).fab.mem = true :=
  foldl_wf (fun _ o ht => State.runBeats_wf o beats ht) _ hs

@[simp] theorem State.atomicAt_wf {s : State} (a : ℕ) (kind : BurstKind) (v : ℕ) (hs : Memory.wf s.fab.mem = true) :
    Memory.wf (s.atomicAt a kind v).fab.mem = true := by
  simp [State.atomicAt, hs]

@[simp] theorem State.runBurst_wf {s : State} (t beats : ℕ) (b : Burst) (hs : Memory.wf s.fab.mem = true) :
    Memory.wf (s.runBurst t beats b).fab.mem = true := by
  simp [State.runBurst, hs]

@[simp] theorem State.passTime_wf {s : State} (cycles : ℕ) (hs : Memory.wf s.fab.mem = true) :
    Memory.wf (s.passTime cycles).fab.mem = true := by
  unfold State.passTime; dsimp only; split <;> simp [hs]

@[simp] theorem State.passPeriod_wf {s : State} (hs : Memory.wf s.fab.mem = true) :
    Memory.wf (s.passPeriod).fab.mem = true := by
  simp [State.passPeriod, hs]

@[simp] theorem State.runWinner_wf {s : State} (t beats : ℕ) (c : Cand) (hs : Memory.wf s.fab.mem = true) :
    Memory.wf (s.runWinner t beats c).fab.mem = true := by
  unfold State.runWinner; split <;> simp [hs]

@[simp] theorem State.beforeGrant_wf (t cycles : ℕ) (arrivals : List Burst) (upsets : List (ℕ × ℕ)) {s : State}
    (hs : Memory.wf s.fab.mem = true) : Memory.wf (s.beforeGrant t cycles arrivals upsets).fab.mem = true := by
  have hup : Memory.wf (upsets.foldl State.upsetWord s).fab.mem = true :=
    foldl_wf (fun t e ht => State.upsetWord_wf e ht) _ hs
  unfold State.beforeGrant
  dsimp only
  refine State.issueTongs_wf ?_
  rw [foldl_mem State.arriveBurst_mem]
  exact State.runOpen_wf _ _ (State.passTime_wf _ hup)

@[simp] theorem State.grantTo_wf {s : State} (t beats : ℕ) (c : Cand) (hs : Memory.wf s.fab.mem = true) :
    Memory.wf (s.grantTo t beats c).fab.mem = true := by
  simp [State.grantTo, hs]

@[simp] theorem matrixBurstGrant_wf (t cycles : ℕ) (arrivals : List Burst) (upsets : List (ℕ × ℕ))
    (beats : ℕ) {s : State} (hs : Memory.wf s.fab.mem = true) :
    Memory.wf (matrixBurstGrant t cycles arrivals upsets beats s).fab.mem = true := by
  unfold matrixBurstGrant
  dsimp only
  split <;> simp [hs]

@[simp] theorem marchRun_wf (c : Ctx) {s : State} (hs : Memory.wf s.fab.mem = true) : (marchRun c s).Wf := by
  unfold marchRun
  dsimp only
  split
  · trivial
  · split
    · trivial
    · split
      · trivial
      · split
        · trivial
        next h => simpa [State.openTicket_mem h] using hs

@[simp] theorem State.zeroGroup_wf {s : State} (g : ℕ) (hs : Memory.wf s.fab.mem = true) :
    Memory.wf (s.zeroGroup g).fab.mem = true := by
  simp [State.zeroGroup, hs]

@[simp] theorem State.marchOver_wf {s : State} (m : March) (hs : Memory.wf s.fab.mem = true) :
    Memory.wf (s.marchOver m).fab.mem = true := by
  simp [State.marchOver, hs]

@[simp] theorem marchComplete_wf (reads : List MarchRead) {s : State} (hs : Memory.wf s.fab.mem = true) :
    Memory.wf (marchComplete reads s).fab.mem = true := by
  unfold marchComplete; split <;> simp [hs]

/-! #### Strips -/

@[simp] theorem writeCoefs_wf (c : Ctx) {s : State} (hs : Memory.wf s.fab.mem = true) : (writeCoefs c s).Wf := by
  unfold writeCoefs; dsimp only; split <;> simp [hs]

@[simp] theorem writeSectionBypass_wf (c : Ctx) {s : State} (hs : Memory.wf s.fab.mem = true) :
    (writeSectionBypass c s).Wf := by
  simp [writeSectionBypass, hs]

@[simp] theorem writeDelayEnable_wf (c : Ctx) {s : State} (hs : Memory.wf s.fab.mem = true) :
    (writeDelayEnable c s).Wf := by
  simp [writeDelayEnable, hs]

@[simp] theorem writeDelay_wf (c : Ctx) {s : State} (hs : Memory.wf s.fab.mem = true) : (writeDelay c s).Wf := by
  unfold writeDelay; split <;> simp [hs]

@[simp] theorem writeCompKey_wf (c : Ctx) {s : State} (hs : Memory.wf s.fab.mem = true) : (writeCompKey c s).Wf := by
  unfold writeCompKey; split <;> simp [hs]

@[simp] theorem writeStripMap_wf (c : Ctx) {s : State} (hs : Memory.wf s.fab.mem = true) : (writeStripMap c s).Wf := by
  unfold writeStripMap; split <;> simp [hs]

@[simp] theorem writeInsert_wf (c : Ctx) {s : State} (hs : Memory.wf s.fab.mem = true) : (writeInsert c s).Wf := by
  unfold writeInsert; split <;> simp [hs]

@[simp] theorem writeInsertBypass_wf (c : Ctx) {s : State} (hs : Memory.wf s.fab.mem = true) :
    (writeInsertBypass c s).Wf := by
  simp [writeInsertBypass, hs]

@[simp] theorem loudnessStart_wf (c : Ctx) {s : State} (hs : Memory.wf s.fab.mem = true) : (loudnessStart c s).Wf := by
  unfold loudnessStart; dsimp only; split <;> simp [hs]

@[simp] theorem loudnessStop_wf (c : Ctx) {s : State} (hs : Memory.wf s.fab.mem = true) :
    (loudnessStop c s).Wf := by
  simp [loudnessStop, hs]

@[simp] theorem loudnessReset_wf (c : Ctx) {s : State} (hs : Memory.wf s.fab.mem = true) :
    (loudnessReset c s).Wf := by
  simp [loudnessReset, hs]

@[simp] theorem writeSilence_wf (c : Ctx) {s : State} (hs : Memory.wf s.fab.mem = true) : (writeSilence c s).Wf := by
  unfold writeSilence; split <;> simp [hs]

/-! #### Evaluation -/

@[simp] theorem State.fillLine_wf {s : State} (base w at_ : ℕ) (xs : List ℤ) (hs : Memory.wf s.fab.mem = true) :
    Memory.wf (s.fillLine base w at_ xs).fab.mem = true := by
  simp [State.fillLine, hs]

@[simp] theorem State.delayStage_wf (o : Owner) (n old new : ℕ) (x : StripCtx) (xs : List ℤ) {s : State}
    (hs : Memory.wf s.fab.mem = true) : Memory.wf (s.delayStage o n old new x xs).1.fab.mem = true := by
  unfold State.delayStage
  split
  · exact hs
  · exact State.fillLine_wf _ _ _ _ (by simpa using hs)

@[simp] theorem evalFront_wf (b k : ℕ) {s : State} (hs : Memory.wf s.fab.mem = true) :
    Memory.wf (evalFront b k s).fab.mem = true := by
  unfold evalFront
  dsimp only
  rw [State.set_fab, State.set_fab, State.addSat_mem]
  dsimp only
  split
  · exact State.delayStage_wf _ _ _ _ _ _ (by simpa using hs)
  · simpa using hs

@[simp] theorem evalOut_wf (inputs : Store (List ℤ)) (b d : ℕ) (x0 : List ℤ) {s : State}
    (hs : Memory.wf s.fab.mem = true) : Memory.wf (evalOut inputs b d x0 s).fab.mem = true := by
  unfold evalOut
  dsimp only
  rw [State.set_fab, State.set_fab, State.addSat_mem, State.addSat_mem]
  dsimp only
  split
  · exact State.delayStage_wf _ _ _ _ _ _ (by simpa using hs)
  · simpa using hs

@[simp] theorem finishPeriod_wf (b : ℕ) {s : State} (hs : Memory.wf s.fab.mem = true) :
    Memory.wf (finishPeriod b s).fab.mem = true := by
  unfold finishPeriod
  dsimp only
  split
  · simpa using hs
  · simp only [idleSearches_mem, evalSilence_mem, evalLoudness_mem, evalMeters_mem, evalCrucible_mem]
    refine foldl_wf (fun t d ht => ?_) _ ?_
    · split <;> exact evalOut_wf _ _ _ _ ht
    · rwa [foldl_mem fun t k => by simp, State.keepActive_mem]

@[simp] theorem startPeriod_wf (b : ℕ) {s : State} (hs : Memory.wf s.fab.mem = true) :
    Memory.wf (startPeriod b s).fab.mem = true := by
  unfold startPeriod
  dsimp only
  rw [idleSearches_mem]
  exact foldl_wf (fun t k ht => evalFront_wf b k ht) _ hs

/-! #### The journal -/

@[simp] theorem compact_wf (c : Ctx) {s : State} (hs : Memory.wf s.fab.mem = true) : (compact c s).Wf := by
  unfold compact
  split
  · trivial
  · split
    · trivial
    · split
      · trivial
      · split
        · trivial
        next h => simpa [State.openTicket_mem h] using hs

@[simp] theorem formatCard_wf (c : Ctx) {s : State} (hs : Memory.wf s.fab.mem = true) : (formatCard c s).Wf := by
  unfold formatCard
  split
  · trivial
  · split
    · trivial
    · split
      · trivial
      · split
        · trivial
        · split
          · trivial
          next h => simpa [State.openTicket_mem h] using hs

@[simp] theorem adoptCard_wf (c : Ctx) {s : State} (hs : Memory.wf s.fab.mem = true) : (adoptCard c s).Wf := by
  unfold adoptCard
  dsimp only
  split
  · trivial
  · split
    · trivial
    · split
      · trivial
      · split
        · trivial
        · split
          · trivial
          next h =>
            simp only [okTicket_wf, State.startCompaction_mem, State.scenesOf_mem, State.mount_mem]
            rwa [foldl_mem fun t e => by simp, State.openTicket_mem h]

@[simp] theorem save_wf (c : Ctx) {s : State} (hs : Memory.wf s.fab.mem = true) : (save c s).Wf := by
  unfold save
  dsimp only
  split
  · exact hs
  · split
    · trivial
    · split
      · trivial
      · split
        · trivial
        · split
          · trivial
          · split
            · trivial
            · split
              · trivial
              next h =>
                split <;> simpa [State.openTicket_mem h] using hs

@[simp] theorem stage_wf (c : Ctx) {s : State} (hs : Memory.wf s.fab.mem = true) : (stage c s).Wf := by
  unfold stage
  dsimp only
  split
  · split
    · simpa using hs
    · trivial
  · split
    · trivial
    · split
      · trivial
      · split
        · simpa using hs
        · split
          · trivial
          · split
            · split
              next t o h => simpa using (startLoad_wf _ _ _ _ _ hs).of_eq h
              · trivial
            · split
              · trivial
              next h => simpa [State.openTicket_mem h] using hs

@[simp] theorem deleteScene_wf (c : Ctx) {s : State} (hs : Memory.wf s.fab.mem = true) :
    (deleteScene c s).Wf := by
  simp [deleteScene, hs]

/-! #### SAP ports -/

@[simp] theorem writeSapSetting_wf (c : Ctx) {s : State} (hs : Memory.wf s.fab.mem = true) :
    (writeSapSetting c s).Wf := by
  unfold writeSapSetting; dsimp only; split <;> simp [hs]

/-! #### Streams -/

@[simp] theorem writeStream_wf (c : Ctx) {s : State} (hs : Memory.wf s.fab.mem = true) : (writeStream c s).Wf := by
  unfold writeStream; dsimp only; (repeat' split) <;> simp [hs]

/-! #### Time bases -/

@[simp] theorem writeTimeBaseEnable_wf (c : Ctx) {s : State} (hs : Memory.wf s.fab.mem = true) :
    (writeTimeBaseEnable c s).Wf := by
  unfold writeTimeBaseEnable; dsimp only; (repeat' split) <;> simp [hs]

@[simp] theorem writeSource_wf (c : Ctx) {s : State} (hs : Memory.wf s.fab.mem = true) :
    (writeSource c s).Wf := by
  simp [writeSource, hs]

@[simp] theorem restep_wf (c : Ctx) {s : State} (hs : Memory.wf s.fab.mem = true) : (restep c s).Wf := by
  unfold restep; dsimp only; (repeat' split) <;> simp [hs]

@[simp] theorem writeRate_wf (c : Ctx) {s : State} (hs : Memory.wf s.fab.mem = true) : (writeRate c s).Wf := by
  unfold writeRate; dsimp only; (repeat' split) <;> simp [hs]

@[simp] theorem writeTimeBase_wf (c : Ctx) {s : State} (hs : Memory.wf s.fab.mem = true) : (writeTimeBase c s).Wf := by
  unfold writeTimeBase; dsimp only; (repeat' split) <;> simp [hs]

/-! #### The engine -/

theorem State.admitAll_wf {s t : State} (h : s.admitAll = .ok t) (hs : Memory.wf s.fab.mem = true) :
    Memory.wf t.fab.mem = true := by
  unfold State.admitAll at h
  dsimp only at h
  split at h
  · cases h
  · split at h
    · split at h
      · cases h
      · split at h
        next u l hu =>
          cases h
          have hu : Memory.wf u.fab.mem = true := by rwa [State.freshRegions_mem hu, State.dropLines_mem]
          simp [hu]
        · cases h
    · cases h

@[simp] theorem State.clearAudio_wf {s : State} (hs : Memory.wf s.fab.mem = true) :
    Memory.wf s.clearAudio.fab.mem = true := by
  unfold State.clearAudio
  dsimp only
  rw [foldl_mem fun t e => by split <;> simp]
  exact foldl_wf (fun t r ht => State.zeroRun_wf _ _ ht) _ hs

theorem State.enterFresh_wf {s t : State} (h : s.enterFresh = .ok t) (hs : Memory.wf s.fab.mem = true) :
    Memory.wf t.fab.mem = true := by
  unfold State.enterFresh at h
  dsimp only at h
  split at h
  · cases h
  next u hu =>
    have hu : Memory.wf u.fab.mem = true := State.admitAll_wf hu (by simpa using hs)
    cases h
    split
    · exact State.clearAudio_wf hu
    · exact hu

@[simp] theorem State.idleCore_wf (c : ℕ) {s : State} (hs : Memory.wf s.fab.mem = true) :
    Memory.wf (s.idleCore c).fab.mem = true := by
  unfold State.idleCore
  dsimp only
  rw [State.setCore_fab, foldl_mem fun t w => by split <;> simp]
  exact State.drain_wf c hs

@[simp] theorem State.stopTick_wf (target : ℕ) {s : State} (hs : Memory.wf s.fab.mem = true) :
    Memory.wf (s.stopTick target).fab.mem = true := by
  have idle (t : State) (ht : Memory.wf t.fab.mem = true) (l : List ℕ) :
      Memory.wf (l.foldl State.idleCore t).fab.mem = true :=
    foldl_wf (fun t c ht => State.idleCore_wf c ht) _ ht
  unfold State.stopTick
  dsimp only
  rw [foldl_mem State.txEval_mem]
  simp only [State.silPins_mem, State.stepWaiting_mem, State.idlePorts_mem, State.set_fab, State.endRetirements_mem]
  refine State.finishPlans_wf State.leaveModules_mem (idle _ ?_ _)
  simpa using hs

@[simp] theorem atOnceTicket_wf (result : ℕ) {s : State} (hs : Memory.wf s.fab.mem = true) :
    (atOnceTicket s result).Wf := by
  unfold atOnceTicket
  split
  · trivial
  next h => simpa [State.openTicket_mem h] using hs

@[simp] theorem wentTo_wf {s : State} (target : ℕ) (hs : Memory.wf s.fab.mem = true) :
    (wentTo s target).Wf := by
  simp [wentTo, hs]

@[simp] theorem go_wf (c : Ctx) {s : State} (hs : Memory.wf s.fab.mem = true) : (go c s).Wf := by
  have refused := atOnceTicket_wf rState hs
  unfold go
  dsimp only
  split
  · trivial
  · split
    · exact hs
    · split
      · trivial
      · split
        · trivial
        · split
          · exact wentTo_wf _ hs
          · split
            · trivial
            · split
              · split
                · exact refused
                · split
                  · rw [← State.startTick_mem] at hs
                    generalize s.startTick = u at hs ⊢
                    exact wentTo_wf 1 hs
                  · split
                    next t h =>
                      have ht := State.enterFresh_wf h hs
                      rw [← State.startTick_mem] at ht
                      generalize t.startTick = u at ht ⊢
                      exact wentTo_wf 1 ht
                    · exact atOnceTicket_wf _ hs
              · split
                · split
                  · trivial
                  next h => simpa [State.openTicket_mem h] using hs
                · exact wentTo_wf _ (by simpa using hs)

@[simp] theorem fadeComplete_wf {s : State} (hs : Memory.wf s.fab.mem = true) :
    Memory.wf (fadeComplete s).fab.mem = true := by
  simp [fadeComplete, hs]

/-! #### The pair -/

@[simp] theorem State.beginEnrol_wf {s : State} (hs : Memory.wf s.fab.mem = true) :
    Memory.wf (s.beginEnrol).fab.mem = true := by
  simp [State.beginEnrol, hs]

@[simp] theorem State.settle_wf {s : State} (t : Token) (hs : Memory.wf s.fab.mem = true) :
    Memory.wf (s.settle t).fab.mem = true := by
  simp [State.settle, hs]

@[simp] theorem hello_wf (now lane : ℕ) (frame : List Byte) {s : State} (hs : Memory.wf s.fab.mem = true) :
    Memory.wf (hello now lane frame s).fab.mem = true := by
  unfold hello
  split
  next h => rwa [State.tetherIn_mem_of_eq h]
  next h =>
    rw [← State.tetherIn_mem_of_eq h] at hs
    dsimp only
    split <;> simp [hs]

@[simp] theorem renew_wf (now lane : ℕ) (frame : List Byte) {s : State} (hs : Memory.wf s.fab.mem = true) :
    Memory.wf (renew now lane frame s).fab.mem = true := by
  unfold renew
  split
  next h => rwa [State.tetherIn_mem_of_eq h]
  next h =>
    rw [← State.tetherIn_mem_of_eq h] at hs
    dsimp only
    split <;> simp [hs]

@[simp] theorem ack_wf (now lane : ℕ) (frame : List Byte) {s : State} (hs : Memory.wf s.fab.mem = true) :
    Memory.wf (ack now lane frame s).fab.mem = true := by
  unfold ack
  split
  next h => rwa [State.tetherIn_mem_of_eq h]
  next h =>
    rw [← State.tetherIn_mem_of_eq h] at hs
    dsimp only
    split <;> simp [hs]

@[simp] theorem takeFrame_wf (now lane : ℕ) (frame : List Byte) {s : State} (hs : Memory.wf s.fab.mem = true) :
    Memory.wf (takeFrame now lane frame s).fab.mem = true := by
  unfold takeFrame
  split
  next h => rwa [State.tetherIn_mem_of_eq h]
  next h =>
    rw [← State.tetherIn_mem_of_eq h] at hs
    dsimp only
    split
    · simp [hs]
    · rw [State.send_mem]
      split <;> simp [hs]

@[simp] theorem grant_wf (now lane : ℕ) (frame : List Byte) {s : State} (hs : Memory.wf s.fab.mem = true) :
    Memory.wf (grant now lane frame s).fab.mem = true := by
  unfold grant
  split
  next h => rwa [State.tetherIn_mem_of_eq h]
  next h =>
    rw [← State.tetherIn_mem_of_eq h] at hs
    dsimp only
    split <;> simp [hs]

@[simp] theorem switchover_wf (_c : Ctx) {s : State} (hs : Memory.wf s.fab.mem = true) : (switchover _c s).Wf := by
  unfold switchover; split <;> simp [hs]

@[simp] theorem rejoin_wf (_c : Ctx) {s : State} (hs : Memory.wf s.fab.mem = true) : (rejoin _c s).Wf := by
  unfold rejoin; split <;> simp [hs]

@[simp] theorem forceActive_wf (_c : Ctx) {s : State} (hs : Memory.wf s.fab.mem = true) : (forceActive _c s).Wf := by
  unfold forceActive; split <;> simp [hs]

@[simp] theorem writePairEnable_wf (c : Ctx) {s : State} (hs : Memory.wf s.fab.mem = true) :
    (writePairEnable c s).Wf := by
  unfold writePairEnable; dsimp only; (repeat' split) <;> simp [hs]

/-! #### Weld -/

@[simp] theorem writeBinding_wf (c : Ctx) {s : State} (hs : Memory.wf s.fab.mem = true) : (writeBinding c s).Wf := by
  unfold writeBinding; dsimp only; (repeat' split) <;> simp [hs]

/-! #### Lockstep -/

@[simp] theorem State.adoptStrips_wf (b : ℕ) {s : State} (hs : Memory.wf s.fab.mem = true) :
    Memory.wf (s.adoptStrips b).fab.mem = true := by
  have strip (t u : State) (k : ℕ) (tmp : Tmp) (hu : Memory.wf u.fab.mem = true) :
      Memory.wf ({ t with tmp := tmp, fab := (evalFront b k u).fab } : State).fab.mem = true := by
    dsimp only
    exact evalFront_wf b k (s := u) hu
  unfold State.adoptStrips
  refine foldl_wf (fun t e ht => ?_) _ hs
  dsimp only
  split
  · exact ht
  · exact strip t _ e.1 _ ht

/-! #### Writes -/

@[simp] theorem writeValue_wf (c : Ctx) {s : State} (hs : Memory.wf s.fab.mem = true) : (writeValue c s).Wf := by
  unfold writeValue; (repeat' split) <;> simp [hs]

@[simp] theorem clearCounts_wf (c : Ctx) {s : State} (hs : Memory.wf s.fab.mem = true) : (clearCounts c s).Wf := by
  unfold clearCounts
  dsimp only
  rw [ok_wf]
  split
  · dsimp only
    rwa [foldl_mem fun t k => by rw [State.clearAttr_fab]]
  · dsimp only
    rwa [foldl_mem fun t k => by rw [State.clearAttr_fab]]

/-! #### YUGAL -/

@[simp] theorem openSession_wf (c : Ctx) {s : State} (hs : Memory.wf s.fab.mem = true) : (openSession c s).Wf := by
  unfold openSession; dsimp only; (repeat' split) <;> simp [hs]

@[simp] theorem closeSession_wf (c : Ctx) {s : State} (hs : Memory.wf s.fab.mem = true) : (closeSession c s).Wf := by
  unfold closeSession; dsimp only; split <;> simp [hs]

@[simp] theorem writeKey_wf (c : Ctx) {s : State} (hs : Memory.wf s.fab.mem = true) : (writeKey c s).Wf := by
  unfold writeKey; split <;> simp [hs]

@[simp] theorem keyErase_wf (c : Ctx) {s : State} (hs : Memory.wf s.fab.mem = true) :
    (keyErase c s).Wf := by
  simp [keyErase, hs]

@[simp] theorem writeNode_wf (c : Ctx) {s : State} (hs : Memory.wf s.fab.mem = true) :
    (writeNode c s).Wf := by
  simp [writeNode, hs]

/-! #### Commands -/

theorem effectOf_wf (row : Row) : Effect.Wf (effectOf row) := by
  intro c s hs
  cases row <;> simp [effectOf, hs]

@[simp] theorem State.applyTimed_wf (c : Ctx) {s : State} (hs : Memory.wf s.fab.mem = true) :
    Memory.wf (s.applyTimed c).fab.mem = true := by
  unfold State.applyTimed
  dsimp only
  split
  · exact hs
  · split
    next u o h =>
      have hu := (effectOf_wf _ c s hs).of_eq h
      split
      · exact hu
      · rwa [State.journal_mem, State.noteStored_mem, foldl_mem fun t k => by rw [State.set_fab]]
    · simpa using hs

@[simp] theorem timedChangeDue_wf (id : ℕ) {s : State} (hs : Memory.wf s.fab.mem = true) :
    Memory.wf (timedChangeDue id s).fab.mem = true := by
  unfold timedChangeDue; (repeat' split) <;> simp [hs]

@[simp] theorem State.performMirror_wf (q : Req) {s : State} (hs : Memory.wf s.fab.mem = true) :
    Memory.wf (s.performMirror q).fab.mem = true := by
  unfold State.performMirror
  dsimp only
  split
  · exact hs
  · split
    · exact hs
    · split
      next h => exact (perform_wf (effectOf_wf _) _ hs).of_eq h
      · simpa using hs

@[simp] theorem State.applyMirror_wf {s : State} (r : MirrorRec) (hs : Memory.wf s.fab.mem = true) :
    Memory.wf (s.applyMirror r).fab.mem = true := by
  simp [State.applyMirror, hs]

@[simp] theorem State.applyMirrors_wf (count : ℕ) {s : State} (hs : Memory.wf s.fab.mem = true) :
    Memory.wf (s.applyMirrors count).fab.mem = true := by
  unfold State.applyMirrors
  refine foldl_wf (fun t r ht => State.applyMirror_wf r ?_) _ hs
  split
  · simpa using ht
  · exact ht

@[simp] theorem State.takeMirror_wf {s : State} (r : MirrorRec) (hs : Memory.wf s.fab.mem = true) :
    Memory.wf (s.takeMirror r).fab.mem = true := by
  simp [State.takeMirror, hs]

@[simp] theorem mirrorFrame_wf (now lane : ℕ) (frame : List Byte) {s : State} (hs : Memory.wf s.fab.mem = true) :
    Memory.wf (mirrorFrame now lane frame s).fab.mem = true := by
  unfold mirrorFrame
  dsimp only
  split
  next h => rwa [State.tetherIn_mem_of_eq h]
  next h =>
    rw [← State.tetherIn_mem_of_eq h] at hs
    (repeat' split) <;> simp [hs]

@[simp] theorem State.replayReq_wf (q : Req) {s : State} (hs : Memory.wf s.fab.mem = true) :
    Memory.wf (s.replayReq q).fab.mem = true := by
  unfold State.replayReq
  split
  · exact hs
  · split
    next h => exact (effectOf_wf _ _ s hs).of_eq h
    · exact hs

@[simp] theorem State.restoreImage_wf (m : ℕ) (b : List Byte) {s : State} (hs : Memory.wf s.fab.mem = true) :
    Memory.wf (s.restoreImage m b).fab.mem = true := by
  unfold State.restoreImage
  split
  · dsimp only
    split <;> exact hs
  · dsimp only
    split
    · split
      next h =>
        refine Answer.Wf.of_eq (loadModule_wf _ ?_) h
        exact hs
      · exact hs
    · exact hs

@[simp] theorem applyRecs_wf (o : Option (ℕ × List Byte)) (l : List Rec) {s : State} (hs : Memory.wf s.fab.mem = true) :
    Memory.wf (applyRecs o l s).fab.mem = true := by
  induction l generalizing o s with
  | nil =>
    cases o with
    | none => exact hs
    | some e => exact State.restoreImage_wf e.1 e.2 hs
  | cons r l ih =>
    cases o
    all_goals
      rw [applyRecs.eq_def]
      dsimp only
      split <;> exact ih _ (by simp [hs])

@[simp] theorem State.applyQueued_wf {s : State} (r : MirrorRec) (hs : Memory.wf s.fab.mem = true) :
    Memory.wf (s.applyQueued r).fab.mem = true := by
  simp [State.applyQueued, hs]

@[simp] theorem State.startWarm_wf {t : State} (recs : List Rec) (sE : ℕ) (hs : Memory.wf t.fab.mem = true) :
    Memory.wf (t.startWarm recs sE).fab.mem = true := by
  simp [State.startWarm, hs]

@[simp] theorem State.enrolled_wf (recs : List Rec) (queued : List MirrorRec) (sE : ℕ) {s : State}
    (hs : Memory.wf s.fab.mem = true) : Memory.wf (s.enrolled recs queued sE).fab.mem = true := by
  unfold State.enrolled
  split
  · simpa using hs
  next t h =>
    have ht : Memory.wf t.fab.mem = true := State.enterFresh_wf h (by simp [hs])
    rw [State.freshImage_mem]
    exact foldl_wf (fun t r ht => State.applyQueued_wf r ht) _ (State.startWarm_wf _ _ ht)

@[simp] theorem enrolmentComplete_wf {s : State} (hs : Memory.wf s.fab.mem = true) :
    Memory.wf (enrolmentComplete s).fab.mem = true := by
  unfold enrolmentComplete; split <;> simp [hs]

/-! #### The block tick -/

@[simp] theorem State.takeSnapshot_wf {s : State} (hs : Memory.wf s.fab.mem = true) :
    Memory.wf (s.takeSnapshot).fab.mem = true := by
  simp [State.takeSnapshot, hs]

@[simp] theorem State.closePeriod_wf {s : State} (count : ℕ) (hs : Memory.wf s.fab.mem = true) :
    Memory.wf (s.closePeriod count).fab.mem = true := by
  simp [State.closePeriod, hs]

@[simp] theorem State.endPeriod_wf (count : ℕ) (latch : List ℕ) {s : State} (hs : Memory.wf s.fab.mem = true) :
    Memory.wf (s.endPeriod count latch).fab.mem = true := by
  have passed : Memory.wf (if s.eng.frames = 0 then s else s.passPeriod).fab.mem = true := by
    split
    · exact hs
    · exact State.passPeriod_wf hs
  have started (t : State) (ht : Memory.wf t.fab.mem = true) : Memory.wf (if t.eng.frames = 0 ∧ t.eng.fade = 1 then
      { t with eng := { t.eng with fadeAt := count } } else t).fab.mem = true := by
    split <;> exact ht
  unfold State.endPeriod
  dsimp only
  refine State.takeSnapshot_wf ?_
  rw [State.emitFrames_mem]
  refine State.closePeriod_wf _ ?_
  refine started _ ?_
  rwa [State.resumeOutputs_mem, State.makeSlips_mem, foldl_mem fun t e => by split <;> simp, State.pollCounters_mem]

@[simp] theorem State.evalPeriod_wf {s : State} (count : ℕ) (hs : Memory.wf s.fab.mem = true) :
    Memory.wf (s.evalPeriod count).fab.mem = true := by
  simp [State.evalPeriod, hs]

@[simp] theorem State.sendPeriod_wf {s : State} (count last : ℕ) (hs : Memory.wf s.fab.mem = true) :
    Memory.wf (s.sendPeriod count last).fab.mem = true := by
  simp [State.sendPeriod, hs]

@[simp] theorem State.tick_wf (count : ℕ) (latch : List ℕ) {s : State} (hs : Memory.wf s.fab.mem = true) :
    Memory.wf (s.tick count latch).fab.mem = true := by
  have ht : Memory.wf ((((s.endPeriod count latch).openPeriod count).evalPeriod count).sendPeriod count
      s.eng.count).countTick.fab.mem = true := by
    rw [State.countTick_mem]
    refine State.sendPeriod_wf _ _ (State.evalPeriod_wf _ ?_)
    rw [State.openPeriod_mem]
    exact State.endPeriod_wf _ _ hs
  unfold State.tick
  dsimp only
  split
  · exact State.applyMirrors_wf _ ht
  · exact ht

@[simp] theorem blockTick_wf (count : ℕ) (latch : List ℕ) {s : State} (hs : Memory.wf s.fab.mem = true) :
    Memory.wf (blockTick count latch s).fab.mem = true := by
  simp [blockTick, hs]

@[simp] theorem watchdogExpiry_wf {s : State} (hs : Memory.wf s.fab.mem = true) :
    Memory.wf (watchdogExpiry s).fab.mem = true := by
  simp [watchdogExpiry, hs]

/-! #### Power -/

@[simp] theorem State.applyParams_wf {s : State} (hs : Memory.wf s.fab.mem = true) :
    Memory.wf s.applyParams.fab.mem = true := by
  unfold State.applyParams
  split
  · exact hs
  · refine foldl_wf (fun t e ht => ?_) _ hs
    dsimp only
    split
    · exact State.replayReq_wf _ ht
    · exact ht

@[simp] theorem State.startFirmware_wf {s : State} (b : BootIn) (hs : Memory.wf s.fab.mem = true) :
    Memory.wf (s.startFirmware b).fab.mem = true := by
  simp [State.startFirmware, hs]

@[simp] theorem State.replay_wf (c : CardSt) (x : Super) {s : State} (hs : Memory.wf s.fab.mem = true) :
    Memory.wf (s.replay c x).fab.mem = true := by
  unfold State.replay
  simp [hs]

@[simp] theorem State.findCard_wf {s : State} (hs : Memory.wf s.fab.mem = true) :
    Memory.wf (s.findCard).fab.mem = true := by
  unfold State.findCard; (repeat' split) <;> simp [hs]

@[simp] theorem State.lastState_wf {s : State} (hs : Memory.wf s.fab.mem = true) :
    Memory.wf s.lastState.fab.mem = true := by
  unfold State.lastState
  dsimp only
  split
  · simpa using hs
  · split
    · simpa using hs
    next h =>
      have ht := State.enterFresh_wf h hs
      split <;> simpa using ht

@[simp] theorem deepMemoryFillComplete_wf {s : State} (hs : Memory.wf s.fab.mem = true) :
    Memory.wf (deepMemoryFillComplete s).fab.mem = true := by
  simp [deepMemoryFillComplete, hs]

@[simp] theorem State.cold_wf (s : State) : Memory.wf s.cold.fab.mem = true := rfl

@[simp] theorem State.boot_wf (s : State) (cause : ℕ) (b : BootIn) : Memory.wf (s.boot cause b).fab.mem = true := by
  unfold State.boot; dsimp only; (repeat' split) <;> simp

@[simp] theorem powerOnReset_wf (b : BootIn) {s : State} (hs : Memory.wf s.fab.mem = true) :
    Memory.wf (powerOnReset b s).fab.mem = true := by
  simp [powerOnReset, hs]

@[simp] theorem pornPulse_wf (ns : ℕ) (b : BootIn) {s : State} (hs : Memory.wf s.fab.mem = true) :
    Memory.wf (pornPulse ns b s).fab.mem = true := by
  simp [pornPulse, hs]

@[simp] theorem wake_wf (b : BootIn) {s : State} (hs : Memory.wf s.fab.mem = true) :
    Memory.wf (wake b s).fab.mem = true := by
  simp [wake, hs]

@[simp] theorem restart_wf (c : Ctx) {s : State} (hs : Memory.wf s.fab.mem = true) : (restart c s).Wf := by
  unfold restart; split <;> simp [hs]

@[simp] theorem restartDurableWaitExpiry_wf (b : BootIn) {s : State} (hs : Memory.wf s.fab.mem = true) :
    Memory.wf (restartDurableWaitExpiry b s).fab.mem = true := by
  simp [restartDurableWaitExpiry, hs]

@[simp] theorem enterLow_wf (c : Ctx) {s : State} (hs : Memory.wf s.fab.mem = true) : (enterLow c s).Wf := by
  unfold enterLow; (repeat' split) <;> simp [hs]

@[simp] theorem wakeFromLow_wf (_c : Ctx) {s : State} (hs : Memory.wf s.fab.mem = true) :
    (wakeFromLow _c s).Wf := by
  simp [wakeFromLow, hs]

@[simp] theorem enterOff_wf (c : Ctx) {s : State} (hs : Memory.wf s.fab.mem = true) : (enterOff c s).Wf := by
  unfold enterOff
  split
  · trivial
  · split
    · trivial
    · split
      · trivial
      next h => simpa [State.openTicket_mem h] using hs

@[simp] theorem install_wf (c : Ctx) {s : State} (hs : Memory.wf s.fab.mem = true) : (install c s).Wf := by
  unfold install
  split
  · trivial
  · split
    · trivial
    · split
      · trivial
      next h => simpa [State.openTicket_mem h] using hs

@[simp] theorem activate_wf (_c : Ctx) {s : State} (hs : Memory.wf s.fab.mem = true) : (activate _c s).Wf := by
  unfold activate; dsimp only; split <;> simp [hs]

@[simp] theorem confirm_wf (_c : Ctx) {s : State} (hs : Memory.wf s.fab.mem = true) : (confirm _c s).Wf := by
  unfold confirm; dsimp only; split <;> simp [hs]

@[simp] theorem runImage_wf (_c : Ctx) {s : State} (hs : Memory.wf s.fab.mem = true) : (runImage _c s).Wf := by
  unfold runImage; dsimp only; (repeat' split) <;> simp [hs]

/-! #### Reads -/

@[simp] theorem readValue_wf (c : Ctx) {s : State} (hs : Memory.wf s.fab.mem = true) : (readValue c s).Wf := by
  unfold readValue; dsimp only; (repeat' split) <;> simp [hs]

@[simp] theorem readArray_wf (c : Ctx) {s : State} (hs : Memory.wf s.fab.mem = true) : (readArray c s).Wf := by
  unfold readArray; dsimp only; (repeat' split) <;> simp [hs]

@[simp] theorem ticketRead_wf (c : Ctx) {s : State} (hs : Memory.wf s.fab.mem = true) : (ticketRead c s).Wf := by
  unfold ticketRead; dsimp only; (repeat' split) <;> simp [hs]

end Sys2Proof.Machine
end

/-! ### Every command keeps memory canonical -/

section
namespace Sys2Proof.Machine

variable {s t : State}

/-- A command whose next state is canonical. -/
theorem wf_of_next {u : State} (hu : u.memoryWf = true)
    (ht : (Host.Outcome.next u : Host.Outcome State Fault Refusal) = .next t) : t.memoryWf = true := by
  cases ht
  exact hu

/-- A request that is served keeps memory canonical where its row's effect does. -/
theorem wf_of_served {row : Row} {eff : Effect} {q : Req} (he : Effect.Wf eff) (hs : s.memoryWf = true)
    (ht : (Host.Outcome.next (serve row eff q s) : Host.Outcome State Fault Refusal) = .next t) :
    t.memoryWf = true :=
  wf_of_next (serve_wf he row q hs) ht

/-- Every command keeps memory canonical: instructions by `wf_of_encodeAnvil`, requests by their effects, events by what
each of them does. -/
theorem wf_exec {i : Instr} (hs : s.memoryWf = true) (ht : exec i s = .next t) : t.memoryWf = true := by
  by_cases hi : (encodeAnvil i).isSome = true
  · exact wf_of_encodeAnvil hi hs ht
  have hmem : Memory.wf s.fab.mem = true := hs
  cases i with
  | nop | mul | mac | mul2 | mac2 | dmul | dmac | macrn | add | sub | addsub | addx | subx | mova | clr | neg | abs | max
  | min | cmp | cmpx | tst | rnd | scalei | scaler | norm | divs | bexp | andx | orx | xorx | ldi | ldx | ldy | move | movc
  | stx | sty | lea | addi | cmpi | bra | call | ret | loop | loopr | loopn | breakOp | evwait | evpulse | release
  | remoteRead | atomicAddWrapping | atomicAddSaturating | atomicSwap | remoteWrite =>
    exact absurd rfl hi
  | goAction | clearCounts | gain | idleGain | occupant | strike | cancelStrike | copyLiveToIdle | clearIdle
  | fader | trim | polarity | cut | preampGain | cancelTimed | coef | sectionBypass | delayEnable | delay | compKey
  | insertWrite | insertBypass | loudnessStart | loudnessStop | loudnessReset | silenceDetectorSetting | stripMap
  | defragment | reinstateCore | loadModule | unloadModule | inSrc | constWrite | marchRun | clearWtr | modelReset
  | timeBaseEnable | sourceWrite | restep | rateWrite | timeBase | sapSetting | streamEnable | binding | readAttr
  | readArray | ticketRead | writeAttr | openSession | closeSession | keyWrite | keyErase | nodeId | switchover
  | rejoin | forceActive | pairEnable | compact | format | adoptCard | save | stage | deleteScene | enterLow
  | wakeFromLow | restart | install | activate | confirm | runImage | clearConditions | control
  | clearMask | tagClear | issueChallenge | unlock | lock | tmuxSelect =>
    exact wf_of_served (fun c u hu => by simp [hu]) hs ht
  | enterOff q =>
    have h : State.memoryWf (serve .enterOff enterOff q s) = true := serve_wf (fun c u hu => by simp [hu]) _ q hs
    exact wf_of_next (by rwa [State.memoryWf, State.offIfDurable_mem]) ht
  | evwaitWake => cases ht; exact wf_evwaitWake hs
  | undefinedInstruction => cases ht; exact wf_undefinedInstruction hs
  | meterLimit => cases ht; exact wf_meterLimit hs
  | moduleOverrun => cases ht; exact wf_moduleOverrun hs
  | outputReleased => cases ht; exact wf_outputReleased hs
  | rampEnd p =>
    refine wf_of_next ?_ ht
    cases p <;> simp [State.memoryWf, hmem]
  | _ =>
    refine wf_of_next ?_ ht
    simp [State.memoryWf, hmem]

end Sys2Proof.Machine

open Sys2Proof Sys2Proof.Machine

/-- Settles O4: a step with no command waiting leaves the state, and every command keeps memory canonical. -/
theorem stepKeepsMemoryCanonical : Obligations.StepKeepsMemoryCanonical := by
  unfold Obligations.StepKeepsMemoryCanonical
  intro s t hs ht
  unfold step at ht
  split at ht
  · cases ht
    exact hs
  next c rest _ => exact wf_exec (s := { s with pending := rest }) hs ht
end

/-! ### The state after reset -/

section
namespace Sys2Proof.Machine

@[simp] theorem windowByte_reset (o : Nat) : windowByte CoreSt.reset o = 0 := by
  have word (w i : Nat) (hw : w = 0) : byteAt w i = 0 := by simp [hw, byteAt, byteOf]
  unfold windowByte
  split
  · exact word _ _ rfl
  · split
    · exact word _ _ rfl
    · split
      · exact word _ _ rfl
      · rfl

@[simp] theorem State.core_reset (c : Nat) : State.reset.core c = CoreSt.reset := rfl

@[simp] theorem State.byteAt_planeOf_reset (p k i : Nat) :
    byteAt (Store.get 0 (State.reset.planeOf p) k) i = 0 := by
  have hp : State.reset.planeOf p = [] := by unfold State.planeOf; split <;> rfl
  rw [hp]
  simp [Store.get, Store.find?, byteAt, byteOf]

theorem State.readByte_reset (a : Nat) : State.reset.readByte a = 0 := by
  unfold State.readByte
  split
  · rfl
  · rfl
  · rfl
  · simp
  · split
    · simp
    · rfl
  · rfl

/-- The key of bring_up_step is the key of nothing else. -/
theorem attrKey_ne_bringUpStep {code inst elem : Nat} (hc : code ≠ Attr.powBringUpStep) (hi : inst < 65536)
    (he : elem < 4294967296) : attrKey code inst elem ≠ attrKey Attr.powBringUpStep 0 0 := by
  unfold attrKey Attr.powBringUpStep at *
  omega

/-- Attributes other than bring_up_step stand at their defaults after reset. -/
theorem State.a_reset_of_ne {code inst elem : Nat} (h : attrKey code inst elem ≠ attrKey Attr.powBringUpStep 0 0) :
    State.reset.a code inst elem = dfltAt code inst elem := by
  have hfind : Store.find? State.reset.attrs (attrKey code inst elem) = none := if_neg (Ne.symm h)
  simp [State.a, attrIn, hfind]

end Sys2Proof.Machine

open Sys2Proof Sys2Proof.Machine

/-- Settles O3: every part is a finite check of the reset state. -/
theorem resetIsCanonical : Obligations.ResetIsCanonical := by
  unfold Obligations.ResetIsCanonical
  refine ⟨rfl, rfl, rfl, ?_⟩
  decide

/-- Settles O2: memory reads 0 at every address by its area, and the dictionary holds bring_up_step alone. -/
theorem resetLeavesTheDefaults : Obligations.ResetLeavesTheDefaults := by
  unfold Obligations.ResetLeavesTheDefaults
  refine ⟨rfl, State.readByte_reset, State.core_reset, fun _ => rfl, rfl, rfl, rfl, rfl, rfl, rfl, rfl, rfl, rfl, rfl,
    fun code inst elem hne _ hi he => ?_⟩
  exact State.a_reset_of_ne (attrKey_ne_bringUpStep hne hi he)
end

/-! ### The memory matrix

Bursts with no target, grants and their beats, the winner, write-backs and marches (R276, R278, R285, R289, R291, R292,
R299). -/

section
namespace Sys2Proof.Machine

/-! #### Commands -/

/-- MATRIX_BURST_GRANT answers with its meaning. -/
theorem exec_matrixBurstGrant (t cycles : ℕ) (arrivals : List Burst) (upsets : List (ℕ × ℕ)) (beats : ℕ) (s : State) :
    exec (.matrixBurstGrant t cycles arrivals upsets beats) s =
      .next (matrixBurstGrant t cycles arrivals upsets beats s) := rfl

/-- ECC_WRITEBACK answers with its meaning. -/
theorem exec_eccWriteback (addr : ℕ) (s : State) : exec (.eccWriteback addr) s = .next (eccWriteback addr s) := rfl

/-- MARCH_COMPLETE answers with its meaning. -/
theorem exec_marchComplete (reads : List MarchRead) (s : State) :
    exec (.marchComplete reads) s = .next (marchComplete reads s) := rfl

/-! #### Bursts -/

variable {s : State}

/-- A burst with no target ends in a decode error (R276). -/
theorem arriveBurst_of_no_target {b : Burst} (htongs : b.master ≠ 1) (hmaster : b.master ≤ 4)
    (htarget : targetOf b.addr = none) : s.arriveBurst b = s.decodeError b := by
  have hown : ¬ (b.master = 1 ∨ 4 < b.master) := by omega
  simp only [State.arriveBurst, if_neg hown, htarget]

/-- A target with no candidate grants nothing (R299). -/
theorem matrixBurstGrant_of_no_winner {t cycles beats : ℕ} {arrivals : List Burst} {upsets : List (ℕ × ℕ)}
    (h : winner (Store.get 0 (s.beforeGrant t cycles arrivals upsets).fab.rr t)
      ((s.beforeGrant t cycles arrivals upsets).candidates t) = none) :
    matrixBurstGrant t cycles arrivals upsets beats s = s.beforeGrant t cycles arrivals upsets := by
  unfold matrixBurstGrant
  generalize s.beforeGrant t cycles arrivals upsets = u at h ⊢
  simp only [h]

/-- A target grants the winner's burst (R299). -/
theorem matrixBurstGrant_of_winner {t cycles beats : ℕ} {arrivals : List Burst} {upsets : List (ℕ × ℕ)} {c : Cand}
    (h : winner (Store.get 0 (s.beforeGrant t cycles arrivals upsets).fab.rr t)
      ((s.beforeGrant t cycles arrivals upsets).candidates t) = some c) :
    matrixBurstGrant t cycles arrivals upsets beats s = (s.beforeGrant t cycles arrivals upsets).grantTo t beats c := by
  unfold matrixBurstGrant
  generalize s.beforeGrant t cycles arrivals upsets = u at h ⊢
  simp only [h]

/-- The winner's burst leaves its queue as it runs. -/
theorem runWinner_burst {t beats : ℕ} {c : Cand} {b : Burst} (h : c.burst = some b) :
    s.runWinner t beats c = s.runBurst t beats b := by
  simp only [State.runWinner, h]

/-- A granted read or write runs its beats (R299). -/
theorem runBurst_of_beats {t beats : ℕ} {b : Burst} (h : b.kind = .write ∨ b.kind = .read) :
    s.runBurst t beats b = ({ s with fab := { s.fab with
      waiting := s.fab.waiting.erase b, readData := [], error := false } } : State).runBeats (openedBurst b t)
        (Nat.max 1 beats) :=
  if_pos h.symm

/-- A granted atomic operation runs whole (R280). -/
theorem runBurst_of_atomic {t beats : ℕ} {b : Burst} (hw : b.kind ≠ .write) (hr : b.kind ≠ .read) :
    s.runBurst t beats b = ({ s with fab := { s.fab with
      waiting := s.fab.waiting.erase b, readData := [], error := false } } : State).atomicAt b.addr b.kind
        (leNat b.data) :=
  if_neg (not_or_intro hr hw)

/-- A write whose beats are all granted writes its bytes (R278). -/
theorem runBeats_write {o : OpenBurst} {beats : ℕ} (hw : o.write = true) (htongs : o.master ≠ 1) (hdata : o.data ≠ [])
    (hroom : o.addr % 32 + o.data.length ≤ 32 * beats) : s.runBeats o beats = s.writePart o o.data := by
  have hall : Nat.min o.data.length (32 * beats - o.addr % 32) = o.data.length := Nat.min_eq_left (by omega)
  have hsome : o.data.length ≠ 0 := by simpa using hdata
  simp only [State.runBeats, hw, if_true, hall, if_neg hsome, if_neg htongs, List.take_length]

/-- A read whose beats are all granted brings its bytes to its master (R278). -/
theorem runBeats_read {o : OpenBurst} {beats : ℕ} (hr : o.write = false) (htongs : o.master ≠ 1) (hlen : o.len ≠ 0)
    (hroom : o.addr % 32 + o.len ≤ 32 * beats) : s.runBeats o beats =
      { (s.readPart o o.len).2 with fab := { (s.readPart o o.len).2.fab with
        readData := o.got ++ (s.readPart o o.len).1 } } := by
  have hall : Nat.min o.len (32 * beats - o.addr % 32) = o.len := Nat.min_eq_left (by omega)
  simp only [State.runBeats, hr, Bool.false_eq_true, if_false, hall, if_neg hlen, if_neg htongs, lt_irrefl]

/-- Outside the planes a master other than Tongs writes through its access (R278). -/
theorem writePart_of_not_plane {o : OpenBurst} {d : List (Option Byte)} (htongs : o.master ≠ 1)
    (hplane : ∀ p off, areaOf o.addr ≠ .plane p off) : s.writePart o d = s.accessWrite (masterOf o.master) o.addr d := by
  unfold State.writePart
  rw [if_neg htongs]
  split
  next p off h => exact absurd h (hplane p off)
  · rfl

/-! #### Arbitration -/

/-- A level of a candidate is at most the top of the list. -/
theorem qos_le_top {l : List Cand} {d : Cand} (h : d ∈ l) (q : ℕ) : d.qos ≤ l.foldl (fun q c => Nat.max q c.qos) q := by
  have start (l : List Cand) (q : ℕ) : q ≤ l.foldl (fun q c => Nat.max q c.qos) q :=
    List.foldlRecOn (motive := (q ≤ ·)) l _ (le_refl q) fun _ hb c _ => hb.trans (Nat.le_max_left _ c.qos)
  induction l generalizing q with
  | nil => cases h
  | cons c l ih =>
    rcases List.mem_cons.mp h with rfl | h
    · exact (Nat.le_max_right q d.qos).trans (start l _)
    · exact ih h _

/-- The winner is a candidate of the highest level (R299). -/
theorem winner_is_top {p : ℕ} {l : List Cand} {c : Cand} (h : winner p l = some c) : c ∈ l ∧ ∀ d ∈ l, d.qos ≤ c.qos := by
  obtain ⟨i, -, hi⟩ := List.exists_of_findSome?_eq_some h
  obtain ⟨hmem, htop⟩ := List.mem_filter.mp (List.mem_of_find?_eq_some hi)
  exact ⟨hmem, fun d hd => (qos_le_top hd 0).trans_eq (beq_iff_eq.mp htop).symm⟩

/-! #### Marches -/

/-- A march that may run opens its ticket and starts (R291). -/
theorem marchRun_ok {c : Ctx} {k : ℕ} {t : State} (hgroup : c.arg.toNat % 256 ≤ 91) (hmode : c.arg.toNat < 512)
    (hidle : s.fab.march = none) (hallowed : s.marchRefusal (c.arg.toNat % 256) (bit c.arg.toNat 8) = none)
    (hticket : s.openTicket (address Attr.memRun 0x100) 6 = some (k, t)) :
    marchRun c s = okTicket (t.startMarch (c.arg.toNat % 256) (bit c.arg.toNat 8) k) k := by
  have hrange : ¬ (91 < c.arg.toNat % 256 ∨ 512 ≤ c.arg.toNat) := by omega
  simp [marchRun, if_neg hrange, hidle, hallowed, hticket]

/-- A march of a group or a mode that there is not is refused (R291). -/
theorem marchRun_range {c : Ctx} (h : 91 < c.arg.toNat % 256 ∨ 512 ≤ c.arg.toNat) : marchRun c s = refuse rRange :=
  if_pos h

/-- One march runs at a time (R291). -/
theorem marchRun_busy {c : Ctx} (hgroup : c.arg.toNat % 256 ≤ 91) (hmode : c.arg.toNat < 512)
    (hruns : s.fab.march.isSome = true) : marchRun c s = refuse rBusy := by
  have hrange : ¬ (91 < c.arg.toNat % 256 ∨ 512 ≤ c.arg.toNat) := by omega
  simp only [marchRun, if_neg hrange, if_pos hruns]

/-- A group that may not be marched is refused (R291). -/
theorem marchRun_refused {c : Ctx} {e : ℕ} (hgroup : c.arg.toNat % 256 ≤ 91) (hmode : c.arg.toNat < 512)
    (hidle : s.fab.march = none) (h : s.marchRefusal (c.arg.toNat % 256) (bit c.arg.toNat 8) = some e) :
    marchRun c s = refuse e := by
  have hrange : ¬ (91 < c.arg.toNat % 256 ∨ 512 ≤ c.arg.toNat) := by omega
  simp [marchRun, if_neg hrange, hidle, h]

/-- With no march its end does nothing. -/
theorem marchComplete_idle {l : List MarchRead} (h : s.fab.march = none) : marchComplete l s = s := by
  simp only [marchComplete, h]

/-- The end of a march leaves its group, judges it and answers its ticket (R292). -/
theorem marchComplete_ends {l : List MarchRead} {m : March} (h : s.fab.march = some m) : marchComplete l s =
    ((s.marchOver m).marchJudged m.group (firstFailure m.group l)).marchAnswered m.ticket
      (firstFailure m.group l).isNone := by
  simp only [marchComplete, h]

/-- Without a reinstatement a march's ticket completes. -/
theorem marchAnswered_of_request {k : ℕ} {p : Bool} (h : s.plc.reinstating = none) :
    s.marchAnswered k p = s.completeTicket k rOk := by
  simp only [State.marchAnswered, h]

/-- The march of a reinstatement ends it, and its ticket says whether it passed (R204). -/
theorem marchAnswered_of_reinstatement {k : ℕ} {p : Bool} {core n : ℕ} (h : s.plc.reinstating = some (core, n)) :
    s.marchAnswered k p = (s.endReinstate core p).completeTicket k (if p then rOk else rState) := by
  simp only [State.marchAnswered, h]

/-- Once a read is found, one stays found. -/
theorem foldl_earlierRead_isSome (l : List MarchRead) (r : MarchRead) :
    (l.foldl earlierRead (some r)).isSome = true := by
  induction l generalizing r with
  | nil => rfl
  | cons x l ih =>
    rw [List.foldl_cons, earlierRead]
    split <;> exact ih _

/-- No read is found in none. -/
theorem foldl_earlierRead_eq_none {l : List MarchRead} : l.foldl earlierRead none = none ↔ l = [] := by
  cases l with
  | nil => simp
  | cons r l => simpa [earlierRead] using Option.isSome_iff_ne_none.mp (foldl_earlierRead_isSome l r)

/-- A march passes where no read differed (R292). -/
theorem firstFailure_eq_none {g : ℕ} {l : List MarchRead} : firstFailure g l = none ↔ ∀ r ∈ l, r.diff = 0 := by
  simp [firstFailure, foldl_earlierRead_eq_none]

end Sys2Proof.Machine

open Sys2Proof Sys2Proof.Machine

/-- Settles O46: a burst by its target, its kind and its beats, the winner by its level, a march by what allows it and by
what its reads found. -/
theorem fabricActs : Obligations.FabricActs := by
  unfold Obligations.FabricActs
  refine ⟨?noTarget, ?noGrant, ?grant, ?before, ?granted, ?beats, ?atomic, ?write, ?read, ?access, ?wins, ?writeback,
    ?march, ?range, ?busy, ?refused, ?noMarch, ?ends, ?leaves, ?passed, ?failed, ?answered, ?reinstated, ?firstRead⟩
  case noTarget => exact fun s b htongs hmaster htarget => arriveBurst_of_no_target htongs hmaster htarget
  case noGrant =>
    intro s t cycles arrivals upsets beats h
    rw [exec_matrixBurstGrant, matrixBurstGrant_of_no_winner h]
  case grant =>
    intro s t cycles arrivals upsets beats c h
    rw [exec_matrixBurstGrant, matrixBurstGrant_of_winner h]
  case before => exact fun _ _ _ _ _ => rfl
  case granted => exact fun _ _ _ _ => rfl
  case beats => exact fun s t beats c b hb hk => (runWinner_burst hb).trans (runBurst_of_beats hk)
  case atomic => exact fun s t beats c b hb hw hr => (runWinner_burst hb).trans (runBurst_of_atomic hw hr)
  case write => exact fun s o beats hw htongs hdata hroom => runBeats_write hw htongs hdata hroom
  case read => exact fun s o beats hr htongs hlen hroom => runBeats_read hr htongs hlen hroom
  case access => exact fun s o d htongs hplane => writePart_of_not_plane htongs hplane
  case wins => exact fun p l c h => winner_is_top h
  case writeback =>
    intro s addr
    rw [exec_eccWriteback, eccWriteback]
  case march =>
    refine performsTicket_of_effect (fun _ _ => rfl) fun c u k t _ _ _ _ ⟨hgroup, hmode, hidle, hallowed⟩ hticket => ?_
    exact marchRun_ok hgroup hmode hidle hallowed hticket
  case range => exact refuses_of_effect (fun _ _ => rfl) fun _ _ _ _ _ _ h => marchRun_range h
  case busy =>
    exact refuses_of_effect (fun _ _ => rfl) fun _ _ _ _ _ _ ⟨hgroup, hmode, hruns⟩ => marchRun_busy hgroup hmode hruns
  case refused =>
    intro e
    refine refuses_of_effect (fun _ _ => rfl) fun _ _ _ _ _ _ ⟨hgroup, hmode, hidle, h⟩ => ?_
    exact marchRun_refused hgroup hmode hidle h
  case noMarch =>
    intro s l h
    rw [exec_marchComplete, marchComplete_idle h]
  case ends =>
    intro s l m h
    rw [exec_marchComplete, marchComplete_ends h]
  case leaves =>
    intro s m
    simp only [State.marchOver]
  case passed => exact fun _ _ => rfl
  case failed => exact fun _ _ _ => rfl
  case answered => exact fun s k p h => marchAnswered_of_request h
  case reinstated => exact fun s k p core n h => marchAnswered_of_reinstatement h
  case firstRead => exact fun g l => firstFailure_eq_none
end

/-! ### Tongs

Triggers, the descriptors that channels take and complete, requests of peripherals and the reset (R308, R309, R311, R321,
R322, R324 to R326, R329, R331). -/

section
namespace Sys2Proof.Machine

/-! #### Commands -/

/-- DOORBELL_TRIGGER answers with its meaning. -/
theorem exec_doorbellTrigger (line : ℕ) (s : State) : exec (.doorbellTrigger line) s = .next (doorbellTrigger line s) :=
  rfl

/-- DESCRIPTOR_TAKE answers with its meaning. -/
theorem exec_descriptorTake (ch addr : ℕ) (s : State) :
    exec (.descriptorTake ch addr) s = .next (descriptorTake ch addr s) := rfl

/-- DESCRIPTOR_COMPLETE answers with its meaning. -/
theorem exec_descriptorComplete (ch : ℕ) (s : State) :
    exec (.descriptorComplete ch) s = .next (descriptorComplete ch s) := rfl

/-- PACE_REQUEST answers with its meaning. -/
theorem exec_paceRequest (line : ℕ) (room : Option ℕ) (s : State) :
    exec (.paceRequest ⟨line, room⟩) s = .next (paceRequest line room s) := rfl

/-- TONGS_RESET answers with the reset, after the beats that were still accepted (R303). -/
theorem exec_tongsReset (beats : ℕ) (s : State) :
    exec (.tongsReset beats) s = .next (s.runOpen (·.master == 1) beats).tongsReset := rfl

variable {s : State} {ch addr : ℕ}

/-! #### Channels -/

/-- A channel reads as it was set. -/
@[simp] theorem State.chan_setChan (s : State) (ch : ℕ) (c : TChan) : (s.setChan ch c).chan ch = c :=
  Store.get_set_self _ _ _ _

/-- A channel of the supervisor or the placement manager takes the address its owner names (R306). -/
theorem slotTaken_of_owner (hlo : 12 ≤ ch) (hhi : ch < 16) : s.slotTaken ch addr = some (addr, none) := by
  rw [State.slotTaken, if_neg (by omega), if_pos hhi]

/-- A module's channel takes the slot that has waited longest (R321). -/
theorem slotTaken_of_queue {a m : ℕ} {rest : List (ℕ × ℕ)} (hch : ch < 12) (hqueue : (s.chan ch).queue = (a, m) :: rest) :
    s.slotTaken ch addr = some (a, some m) := by
  rw [State.slotTaken, if_pos hch, hqueue]
  rfl

/-- There is nothing to take beyond the sixteen channels and for a module's channel with an empty queue. -/
theorem slotTaken_eq_none (h : 16 ≤ ch ∨ (ch < 12 ∧ (s.chan ch).queue = [])) : s.slotTaken ch addr = none := by
  rcases h with hch | ⟨hch, hqueue⟩
  · rw [State.slotTaken, if_neg (by omega), if_neg (by omega)]
  · rw [State.slotTaken, if_pos hch, hqueue]
    rfl

/-! #### Triggers -/

/-- A line without a pulse triggers nothing. -/
theorem doorbellTrigger_of_no_pulse {line : ℕ} (h : s.tng.pulses.contains line = false) : doorbellTrigger line s = s := by
  rw [doorbellTrigger, h, if_pos Bool.false_ne_true]

/-- A pulse is used up, and queues the slot of its line's module where the channel has room (R321, R322). -/
theorem doorbellTrigger_of_pulse {line : ℕ} (h : s.tng.pulses.contains line = true) : doorbellTrigger line s =
    (let u : State := { s with tng := { s.tng with pulses := s.tng.pulses.erase line } }
     match s.triggerOf line with
     | none => u
     | some x =>
       let ch := u.n Attr.tngModuleChannel 0xFFFF x.1
       if 16 ≤ (u.chan ch).queue.length then u.bump Attr.tngQueueDrops ch 0
       else u.setChan ch { u.chan ch with queue := (u.chan ch).queue ++ [(x.2, x.1)] }) := by
  rw [doorbellTrigger, h, if_neg (not_not_intro rfl)]
  cases s.triggerOf line <;> rfl

/-! #### Descriptors that a channel takes -/

/-- A channel that runs a descriptor, is clock-stopped in LOW or has nothing to take takes nothing. -/
theorem descriptorTake_of_not_ready (h : (s.chan ch).run.isSome = true ∨ s.low = true ∨ s.slotTaken ch addr = none) :
    descriptorTake ch addr s = s := by
  rcases h with hruns | hlow | hnone
  · exact if_pos (.inl hruns)
  · exact if_pos (.inr hlow)
  · simp only [descriptorTake, hnone, ite_self]

section
variable {a : ℕ} {m : Option ℕ} (hslot : s.slotTaken ch addr = some (a, m)) (hfree : (s.chan ch).run = none)
  (hlow : s.low = false)
include hslot hfree hlow

/-- A free channel waits while the memory of its descriptor cannot be reached. -/
theorem descriptorTake_of_unusable (huse : s.usable a = false) : descriptorTake ch addr s = s := by
  simp [descriptorTake, hslot, hfree, hlow, huse]

/-- A free channel takes its descriptor: an error where it cannot be fetched, an idle trigger where it is not owned, and
a start where it is (R311, R321, R329). -/
theorem descriptorTake_of_usable (huse : s.usable a = true) : descriptorTake ch addr s =
    (let u := s.setChan ch { s.chan ch with queue := (s.chan ch).queue.drop 1 }
     if areaOf a = .hole then (u.bump Attr.memDecodeErrors 0x300 1).descError ch 8
     else if a % 64 ≠ 0 then u.descError ch 3
     else
       let r := (u.grantTongs a).accessRead a 64
       let d : Desc := ⟨r.1, m⟩
       if (bit d.ctrl 31) = false then r.2.bump Attr.tngIdleTriggers ch 0
       else (r.2.accessWrite (tongsMaster ch) a ((leBytes 4 (d.ctrl - 2 ^ 31)).map some)).startDesc ch d) := by
  simp only [descriptorTake, hslot, hfree, hlow, huse, Option.isSome_none, Bool.false_eq_true, or_self, not_true,
    if_false, Bool.not_eq_true]

end

/-- A descriptor that fails a check ends in that error (R329). -/
theorem startDesc_of_error {d : Desc} {e : ℕ} (h : s.checkDesc d ch = .error e) : s.startDesc ch d = s.descError ch e := by
  simp only [State.startDesc, h]

/-- A descriptor that passes its checks runs from its first element (R317, R320). -/
theorem startDesc_of_ok_run {d : Desc} {a b : Side} {k x : Option ℕ} (h : s.checkDesc d ch = .ok (a, b, k, x)) :
    ((s.startDesc ch d).chan ch).run = some ⟨d, a, b, k, x, d.traversal a b, 0, 0, [], none, none, none⟩ := by
  simp only [State.startDesc, h, State.chan_setChan]

/-! #### Descriptors that are complete -/

/-- A channel without a descriptor completes none. -/
theorem descriptorComplete_of_idle (h : (s.chan ch).run = none) : descriptorComplete ch s = s := by
  simp only [descriptorComplete, h]

section
variable {r : Running} (hrun : (s.chan ch).run = some r)
include hrun

/-- A descriptor waits for its elements, its writes and the memory of its marker and of the next descriptor (R324). -/
theorem descriptorComplete_of_not_done (h : r.k < r.desc.count ∨ s.writeOut ch = true ∨
    ([r.marker, r.next].filterMap id).all s.usable = false) : descriptorComplete ch s = s := by
  simp only [descriptorComplete, hrun, Bool.not_eq_true, if_pos h]

/-- A descriptor that is done writes its marker, pulses its line, counts and goes on to the next (R324). -/
theorem descriptorComplete_of_done (hk : r.desc.count ≤ r.k) (hout : s.writeOut ch = false)
    (huse : ([r.marker, r.next].filterMap id).all s.usable = true) : descriptorComplete ch s =
    (let u := match r.marker with
       | some a => (s.grantTongs a).accessWrite (tongsMaster ch) a ((leBytes 4 (r.desc.f 48 4)).map some)
       | none => s
     let u := if r.desc.doneEn then u.pulse (r.desc.f 37 1) else u
     let u := (u.bump Attr.tngDescriptors ch 0).setChan ch { u.chan ch with run := none, preempted := false }
     match r.next with
     | some a => (((u.grantTongs a).accessRead a 64).2).startDesc ch ⟨((u.grantTongs a).accessRead a 64).1, r.desc.module⟩
     | none => u.resumePlans) := by
  have hdone : ¬ (r.k < r.desc.count ∨ s.writeOut ch = true ∨ ¬ ([r.marker, r.next].filterMap id).all s.usable = true) := by
    simp only [hout, huse, not_true, Bool.false_eq_true, or_false, Nat.not_lt, hk]
  rw [descriptorComplete, hrun]
  exact if_neg hdone

end

/-! #### Pacing and reset -/

/-- A request of one of the five peripherals replaces the one that stood, or withdraws it, and the paths issue (R325,
R326). -/
theorem paceRequest_eq (s : State) (line : ℕ) (room : Option ℕ) : paceRequest line room s =
    (let others := s.tng.pace.filter fun (e : ℕ × Option ℕ) => e.1 != line
     let pace := if room = some 0 then others else others ++ [(line, room)]
     if 1 ≤ line ∧ line ≤ 5 then ({ s with tng := { s.tng with pace := pace } } : State).issueTongs else s) := by
  by_cases hline : 1 ≤ line ∧ line ≤ 5
  · rw [paceRequest, if_neg (by omega)]
    simp only [if_pos hline]
    split <;> simp only [List.append_nil]
  · rw [paceRequest, if_pos (by omega)]
    exact (if_neg hline).symm

/-- The bursts that a reset leaves open are those of the other masters (R303). -/
theorem closeMaster_opened (s : State) (m : ℕ) : (s.closeMaster m).fab.opened = s.fab.opened.filter (·.master != m) := by
  simp only [State.closeMaster, State.add_fab]

/-- The bursts that a reset leaves waiting are those of the other masters (R303). -/
theorem closeMaster_waiting (s : State) (m : ℕ) :
    (s.closeMaster m).fab.waiting = s.fab.waiting.filter (·.master != m) := by
  simp only [State.closeMaster, State.add_fab]

/-- A reset of Tongs loses what Tongs has issued (R303, R331). -/
theorem closeMaster_tongs_issued (s : State) : (s.closeMaster 1).tng.issued = [] := by
  simp only [State.closeMaster, State.add_tng, if_true]

end Sys2Proof.Machine

open Sys2Proof Sys2Proof.Machine

/-- Settles O47: a trigger by its pulse and the room it finds, a channel by what it runs and what it may take, and a
descriptor by its checks and by what its completion waits for. -/
theorem tongsActs : Obligations.TongsActs := by
  unfold Obligations.TongsActs
  refine ⟨?noPulse, ?pulse, ?notReady, ?unusable, ?takes, ?slot, ?failed, ?starts, ?idle, ?waits, ?done, ?paced, ?resets,
    ?closes⟩
  case noPulse =>
    intro s line h
    rw [exec_doorbellTrigger, doorbellTrigger_of_no_pulse h]
  case pulse =>
    intro s line h
    exact (exec_doorbellTrigger line s).trans (congrArg Host.Outcome.next (doorbellTrigger_of_pulse h))
  case notReady =>
    intro s ch addr h
    rw [exec_descriptorTake, descriptorTake_of_not_ready (h.imp_right (Or.imp_right slotTaken_eq_none))]
  case unusable =>
    intro s ch addr a m hslot hfree hlow huse
    rw [exec_descriptorTake, descriptorTake_of_unusable hslot hfree hlow huse]
  case takes =>
    intro s ch addr a m hslot hfree hlow huse
    rw [exec_descriptorTake, descriptorTake_of_usable hslot hfree hlow huse]
  case slot => exact fun s ch addr => ⟨slotTaken_of_owner, fun a m rest => slotTaken_of_queue⟩
  case failed => exact fun s ch d e => startDesc_of_error
  case starts => exact fun s ch d a b k x => startDesc_of_ok_run
  case idle =>
    intro s ch h
    rw [exec_descriptorComplete, descriptorComplete_of_idle h]
  case waits =>
    intro s ch r hrun h
    rw [exec_descriptorComplete, descriptorComplete_of_not_done hrun h]
  case done =>
    intro s ch r hrun hk hout huse
    exact (exec_descriptorComplete ch s).trans (congrArg Host.Outcome.next (descriptorComplete_of_done hrun hk hout huse))
  case paced =>
    intro s line room
    rw [exec_paceRequest, paceRequest_eq]
  case resets => exact fun s beats => exec_tongsReset beats s
  case closes =>
    intro s m
    refine ⟨closeMaster_opened s m, closeMaster_waiting s m, ?_⟩
    rintro rfl
    exact closeMaster_tongs_issued s
end

/-! ### Hearth

References and their waits, disagreements, the selector and its switches; the steer, the limits and the model of HOLDOVER
(R338, R339, R342, R343, R345, R346, R354, R355, R357 to R360, R362). -/

section
namespace Sys2Proof.Machine

variable {s : State}

/-! #### Commands -/

/-- PHASE_SAMPLE answers with its meaning. -/
theorem exec_phaseSample (r : ℕ) (phase : Phases) (t : ℤ) (s : State) :
    exec (.phaseSample r phase t) s = .next (phaseSample r phase t s) := rfl

/-- REFERENCE_QUALIFIED answers with its meaning. -/
theorem exec_referenceQualified (r : ℕ) (s : State) :
    exec (.referenceQualified r) s = .next (referenceQualified r s) := rfl

/-- REFERENCE_DISQUALIFIED answers with its meaning. -/
theorem exec_referenceDisqualified (r : ℕ) (s : State) :
    exec (.referenceDisqualified r) s = .next (referenceDisqualified r s) := rfl

/-- WTR_EXPIRY ends the wait of its reference (R339). -/
theorem exec_wtrExpiry (r : ℕ) (s : State) : exec (.wtrExpiry r) s = .next (s.endWait r) := rfl

/-- DISAGREE answers with its meaning. -/
theorem exec_disagree (a b : ℕ) (on : Bool) (s : State) : exec (.disagree a b on) s = .next (disagree a b on s) := rfl

/-- SELECTOR_RUN answers with its meaning. -/
theorem exec_selectorRun (now : ℕ) (s : State) : exec (.selectorRun now) s = .next (selectorRun now s) := rfl

/-- SWITCH_COMPLETE answers with its meaning. -/
theorem exec_switchComplete (s : State) : exec .switchComplete s = .next (switchComplete s) := rfl

/-- HOLDOVER_STEER_UPDATE answers with its meaning. -/
theorem exec_holdoverSteerUpdate (s : State) : exec .holdoverSteerUpdate s = .next (holdoverSteerUpdate s) := rfl

/-- HOLDOVER_LIMIT answers with its meaning. -/
theorem exec_holdoverLimit (s : State) : exec .holdoverLimit s = .next (holdoverLimit s) := rfl

/-- TRAINING_SAMPLE answers with its meaning. -/
theorem exec_trainingSample (s : State) : exec .trainingSample s = .next (trainingSample s) := rfl

/-- MODEL_JOURNAL answers with its meaning. -/
theorem exec_modelJournal (s : State) : exec .modelJournal s = .next (modelJournal s) := rfl

/-- HOST_TEMPERATURE_TIMEOUT answers with its meaning. -/
theorem exec_hostTemperatureTimeout (s : State) : exec .hostTemperatureTimeout s = .next (hostTemperatureTimeout s) := rfl

/-- RESTORED_MODEL_WITHHOLD_END answers with its meaning. -/
theorem exec_restoredModelWithholdEnd (s : State) :
    exec .restoredModelWithholdEnd s = .next (restoredModelWithholdEnd s) := rfl

/-! #### References (R336, R338, R339) -/

section
variable {r : ℕ}

/-- The reference `r` has what its qualification takes: it is valid and enabled and not qualified yet, and a master has been
announced four times (R338, R339). -/
def State.mayQualify (s : State) (r : ℕ) : Prop :=
  r < 8 ∧ (s.ref r).qualified = false ∧ s.refValid r = true ∧ s.n Attr.refEnable r 0 = 1 ∧
    (r < 4 ∨ 4 ≤ (Store.get PtpSt.reset s.tbs.ptp (r - 4)).announces)

/-- What REFERENCE_QUALIFIED tests for is that the reference may not be qualified. -/
theorem not_mayQualify_iff : ¬ s.mayQualify r ↔
    8 ≤ r ∨ (s.ref r).qualified = true ∨ ¬ s.refValid r = true ∨ s.n Attr.refEnable r 0 ≠ 1 ∨
      ¬ (decide (r < 4) || decide (4 ≤ (Store.get PtpSt.reset s.tbs.ptp (r - 4)).announces)) = true := by
  simp only [State.mayQualify, not_and_or, not_lt, Bool.not_eq_false, Bool.or_eq_true, decide_eq_true_eq, ne_eq]

/-- A valid reference is qualified, and one that returns waits for its restore time (R338, R339). -/
theorem referenceQualified_of_mayQualify (h : s.mayQualify r) : referenceQualified r s =
    (s.setRef r { s.ref r with
      qualified := true, ever := true
      waitEnd := if (s.ref r).ever = true ∧ s.n Attr.refWtrTime r 0 ≠ 0 then
          some (s.hea.now + 1000 * s.n Attr.refWtrTime r 0) else none }).chooseRef :=
  if_neg fun hbad => not_mayQualify_iff.mpr hbad h

/-- Any other reference stays as it is. -/
theorem referenceQualified_of_not_mayQualify (h : ¬ s.mayQualify r) : referenceQualified r s = s :=
  if_pos (not_mayQualify_iff.mp h)

/-- A reference whose edges stop loses its window and its qualification (R338). -/
theorem referenceDisqualified_of_present (hr : r < 8) (hpresent : (s.ref r).present = true) :
    referenceDisqualified r s =
      (s.setRef r { s.ref r with present := false, window := [] }).disqualify r true :=
  if_neg (not_or_intro (not_le.mpr hr) (not_not_intro hpresent))

/-- A reference whose edges have stopped before stays as it is. -/
theorem referenceDisqualified_of_absent (h : ¬ (r < 8 ∧ (s.ref r).present = true)) : referenceDisqualified r s = s :=
  if_pos ((not_and_or.mp h).imp_left not_lt.mp)

/-- The end of a wait lets the selector run; without one there is nothing to end (R339). -/
theorem endWait_eq : s.endWait r = if (s.ref r).waitEnd = none then s
    else (s.setRef r { s.ref r with waitEnd := none }).chooseRef := by
  simp only [State.endWait, Option.isNone_iff_eq_none]

/-- A phase sample of a pin counts at its active edge, and a sample of none is no sample (R334, R336). -/
theorem phaseSample_eq {rise fall t : ℤ} : phaseSample r ⟨rise, fall⟩ t s =
    if r < 4 then s.phaseIn r (s.n Attr.refNominalHz r 0) (pinRate (s.n Attr.refNominalHz r 0))
      (if s.n Attr.refEdge r 0 = 0 then rise else fall) t else s := by
  simp only [phaseSample, ← not_lt, ite_not]

end

/-! #### Disagreements (R343) -/

section
variable {a b : ℕ} {on : Bool}

/-- Whether two references disagree, or agree, is news: they are qualified and of equal rank, and what holds of them now
has not been noted (R343). -/
def State.newOfPair (s : State) (a b : ℕ) (on : Bool) : Prop :=
  (s.ref a).qualified = true ∧ (s.ref b).qualified = true ∧ s.rank a = s.rank b ∧ s.disagrees a b ≠ on ∧ s.agree a b ≠ on

/-- What DISAGREE tests for is that there are no two references or nothing new of them. -/
theorem not_newOfPair_iff : ¬ (a ≠ b ∧ (a < 8 ∧ b < 8) ∧ s.newOfPair a b on) ↔
    ¬ (a != b && decide (a < 8 ∧ b < 8) && (s.ref a).qualified && (s.ref b).qualified && s.rank a == s.rank b) = true ∨
      s.disagrees a b = on ∨ s.agree a b = on := by
  simp only [State.newOfPair, Bool.and_eq_true, bne_iff_ne, beq_iff_eq, decide_eq_true_eq]
  tauto

/-- There is no pair to disagree. -/
theorem disagree_of_no_pair (h : a = b ∨ 8 ≤ a ∨ 8 ≤ b) : disagree a b on s = s :=
  if_pos (not_newOfPair_iff.mp fun ⟨hne, ⟨ha, hb⟩, _⟩ => by omega)

/-- What is noted of a pair already is not noted again. -/
theorem disagree_of_not_new (h : ¬ s.newOfPair a b on) : disagree a b on s = s :=
  if_pos (not_newOfPair_iff.mp fun ⟨_, _, hnew⟩ => h hnew)

/-- News of a pair is noted under the lower reference: a new disagreement is logged, and ends a clean run of the reference
followed; a new agreement removes the pair (R343, R357). -/
theorem disagree_of_new (hlt : a < b) (hb : b < 8) (h : s.newOfPair a b on) : disagree a b on s =
    if on then ({ s with hea := { s.hea with
      disagree := s.hea.disagree ++ [(a, b)]
      clean := if s.current = some a ∨ s.current = some b then 0 else s.hea.clean } } : State).logAt sevWarning
        Attr.refStatus a 0
    else { s with hea := { s.hea with disagree := s.hea.disagree.erase (a, b) } } := by
  have hmin : Nat.min a b = a := Nat.min_eq_left hlt.le
  have hmax : Nat.max a b = b := Nat.max_eq_right hlt.le
  have hnone := mt not_newOfPair_iff.mpr (not_not_intro ⟨hlt.ne, ⟨hlt.trans hb, hb⟩, h⟩)
  simp only [disagree, if_neg hnone, hmin, hmax]

end

/-! #### The selector and its switches (R342, R345, R349) -/

section
variable {now : ℕ}

/-- The walk of the absorbed offset leaves the state of Hearth (R349). -/
theorem walkOffset_heaSt (s : State) (ms : ℕ) : (s.walkOffset ms).heaSt = s.heaSt := by
  unfold State.walkOffset
  dsimp only
  split
  · rfl
  · exact State.n_set_ne s _ (by decide)

/-- The state in which a selector run at `now` selects: the offset has walked and the time is noted (R342, R349). -/
def State.walkedTo (s : State) (now : ℕ) : State :=
  { s.walkOffset (now - s.hea.now) with hea := { (s.walkOffset (now - s.hea.now)).hea with now := now } }

theorem walkedTo_heaSt (s : State) (now : ℕ) : (s.walkedTo now).heaSt = s.heaSt := walkOffset_heaSt s _

/-- A selector run that is behind does nothing. -/
theorem selectorRun_behind (h : now < s.hea.now) : selectorRun now s = s := if_pos h

/-- The state with the time that HOLDOVER has lasted, where it lasts (R354). -/
def State.holdoverNoted (s : State) (now : ℕ) : State :=
  match s.heaSt, s.hea.holdSince with
  | 3, some t => s.set Attr.heaHoldoverElapsed 0 0 (((now - t) / 1000 : ℕ) : ℤ)
  | _, _ => s

/-- In HOLDOVER the time since it began is noted. -/
theorem holdoverNoted_since {t : ℕ} (hst : s.heaSt = 3) (hsince : s.hea.holdSince = some t) :
    s.holdoverNoted now = s.set Attr.heaHoldoverElapsed 0 0 (((now - t) / 1000 : ℕ) : ℤ) := by
  simp only [State.holdoverNoted, hst, hsince]

/-- In no other state is there a time to note. -/
theorem holdoverNoted_of_none (h : s.heaSt ≠ 3 ∨ s.hea.holdSince = none) : s.holdoverNoted now = s := by
  unfold State.holdoverNoted
  split
  next hst hsince => simp [hst, hsince] at h
  · rfl

/-- A selector run walks the offset, notes the times and selects (R342). -/
theorem selectorRun_of_le (h : s.hea.now ≤ now) :
    selectorRun now s = ((s.walkedTo now).holdoverNoted now).chooseRef := if_neg h.not_gt

end

/-- A switch of which 16 samples are in absorbs their mean and closes the loop on the new reference (R345). -/
theorem switchComplete_of_sampled {k : Switch} (hk : s.hea.switch = some k) (h : 16 ≤ k.samples.length) :
    switchComplete s =
      ((({ ((s.set Attr.heaAbsorbedOffset 0 0 (clampS32 (divNear k.samples.sum 320))).set Attr.heaCurrent 0 0 k.to_).set
          Attr.heaSwitching 0 0 0 with
        hea := { s.hea with switch := none, lostAt := none, inLock := 0, outLock := 0, clean := 0, walk := 0 } } : State).bump
        Attr.heaSwitches 0 0).logAt sevNotice Attr.heaSwitches 0 0).chooseRef := by
  simp only [switchComplete, hk, if_neg h.not_gt, State.set_hea]

/-- A switch goes on until 16 samples are in, and without one there is nothing to complete (R345). -/
theorem switchComplete_of_unsampled (h : ∀ k, s.hea.switch = some k → k.samples.length < 16) : switchComplete s = s := by
  unfold switchComplete
  split
  · rfl
  next k hk => exact if_pos (h k hk)

/-! #### Holdover (R346, R354, R355, R359) -/

/-- The steer follows the model: in HOLDOVER, and while a switch is bridged by a valid model (R346, R359). -/
def State.steersByModel (s : State) : Prop :=
  s.heaSt = 3 ∨ (∃ k, s.hea.switch = some k ∧ k.bridge = true) ∧ s.modelValid = true

/-- What HOLDOVER_STEER_UPDATE tests for is that the steer follows the model. -/
theorem steersByModel_iff :
    s.steersByModel ↔ s.heaSt = 3 ∨ s.hea.switch.any (·.bridge) = true ∧ s.modelValid = true := by
  cases hk : s.hea.switch <;> simp [State.steersByModel, hk]

/-- The steer that follows the model is set to it. -/
theorem holdoverSteerUpdate_of_steersByModel (h : s.steersByModel) :
    holdoverSteerUpdate s = s.setSteer (-(s.yHat + s.hea.bias)) :=
  if_pos (steersByModel_iff.mp h)

/-- Any other steer stands. -/
theorem holdoverSteerUpdate_of_not_steersByModel (h : ¬ s.steersByModel) : holdoverSteerUpdate s = s :=
  if_neg fun hmodel => h (steersByModel_iff.mpr hmodel)

/-- Beyond the limit of time or of temperature, as the selector leaves it, HOLDOVER is LOST; else it goes on (R354, R355). -/
theorem holdoverLimit_eq : holdoverLimit s =
    if s.chooseRef.heaSt = 3 ∧ (s.chooseRef.n Attr.heaHoldoverLimit 0 0 ≤ s.chooseRef.n Attr.heaHoldoverElapsed 0 0 ∨
        s.chooseRef.outOfRange = true) then
      ((({ s.chooseRef with hea := { s.chooseRef.hea with holdSince := none } } : State).setHea 4).logAt sevError
        Attr.heaState 0 0).raise 2
    else s.chooseRef := rfl

/-! #### The model (R357, R358, R360, R362) -/

/-- Sixteen seconds end a training sample, which is used where the conditions have held for 76 s (R357). -/
theorem trainingSample_eq : trainingSample s =
    if s.hea.acc.length < 16 then s
    else if s.hea.clean < 76 then { s with hea := { s.hea with acc := [] } }
    else ({ s with hea := { s.hea with acc := [] } } : State).useSample
      ⟨(s.hea.acc.map (·.y)).sum, (s.hea.acc.map (·.t)).sum, (s.hea.acc.map (·.age)).sum⟩ := rfl

/-- The model is journalled once an hour of training has joined it since its last record (R360). -/
theorem modelJournal_eq : modelJournal s =
    if s.hea.written + 3600 ≤ s.n Attr.heaModelHistory 0 0 then
      { s.commit [s.modelRec] with hea := { s.hea with written := s.n Attr.heaModelHistory 0 0 } } else s := rfl

/-- A host temperature that is overdue is noted where it is the model's sensor (R362). -/
theorem hostTemperatureTimeout_eq : hostTemperatureTimeout s =
    if s.n Attr.heaModelSensor 0 0 = 8 then { s with hea := { s.hea with stale := true } } else s := rfl

/-- A restored model is withheld until Hearth has been LOCKED for 300 s (R360). -/
theorem restoredModelWithholdEnd_locked {t : ℕ} (h : s.hea.lockedSince = some t) : restoredModelWithholdEnd s =
    if s.heaSt = 2 ∧ t + 300000 ≤ s.hea.now then { s with hea := { s.hea with restored := false } } else s := by
  simp only [restoredModelWithholdEnd, h]

/-- Where Hearth is not LOCKED it stays withheld. -/
theorem restoredModelWithholdEnd_unlocked (h : s.hea.lockedSince = none) : restoredModelWithholdEnd s = s := by
  simp only [restoredModelWithholdEnd, h]

end Sys2Proof.Machine

open Sys2Proof Sys2Proof.Machine

/-- Settles O37: each event by whether its condition stands, and each request by its effect. -/
theorem hearthEventsAct : Obligations.HearthEventsAct := by
  unfold Obligations.HearthEventsAct
  refine ⟨⟨?qualified, ?disqualified, ?expiry, ?clearWtr, ?pair, ?noPair, ?phase, ?behind, ?selects, ?sampled, ?unsampled⟩,
    ?steer, ?limit, ?training, ?journal, ?modelReset, ?hostTemperature, ?locked, ?unlocked⟩
  case qualified =>
    intro s r
    rw [exec_referenceQualified]
    split
    next h => rw [referenceQualified_of_mayQualify h]
    next h => rw [referenceQualified_of_not_mayQualify h]
  case disqualified =>
    intro s r
    rw [exec_referenceDisqualified]
    split
    next h =>
      obtain ⟨hr, hpresent⟩ := h
      rw [referenceDisqualified_of_present hr hpresent]
    next h => rw [referenceDisqualified_of_absent h]
  case expiry =>
    intro s r
    rw [exec_wtrExpiry, endWait_eq]
  case clearWtr =>
    exact performs_of_effect (eff := clearWtr) (fun _ _ => rfl) fun _ _ _ _ _ _ _ => by rw [clearWtr, endWait_eq, ok]
  case pair =>
    intro s a b on hlt hb
    rw [exec_disagree]
    split
    next h => rw [disagree_of_new hlt hb h]
    next h => rw [disagree_of_not_new h]
  case noPair =>
    intro s a b on h
    rw [exec_disagree, disagree_of_no_pair h]
  case phase =>
    intro s r rise fall t
    rw [exec_phaseSample, phaseSample_eq]
  case behind =>
    intro s now h
    rw [exec_selectorRun, selectorRun_behind h]
  case selects =>
    intro s now hnow
    rw [exec_selectorRun, selectorRun_of_le hnow, ← walkedTo_heaSt s now, ← State.walkedTo]
    dsimp only
    split
    next hst =>
      split
      next t hsince => rw [holdoverNoted_since hst hsince]
      next hnone => rw [holdoverNoted_of_none (.inr hnone)]
    next hst => rw [holdoverNoted_of_none (.inl hst)]
  case sampled =>
    intro s k hk h
    rw [exec_switchComplete, switchComplete_of_sampled hk h]
  case unsampled =>
    intro s h
    rw [exec_switchComplete, switchComplete_of_unsampled h]
  case steer =>
    intro s
    rw [exec_holdoverSteerUpdate]
    split
    next h => rw [holdoverSteerUpdate_of_steersByModel h]
    next h => rw [holdoverSteerUpdate_of_not_steersByModel h]
  case limit =>
    intro s
    rw [exec_holdoverLimit, holdoverLimit_eq]
  case training =>
    intro s
    rw [exec_trainingSample, trainingSample_eq]
  case journal =>
    intro s
    rw [exec_modelJournal, modelJournal_eq]
  case modelReset =>
    exact performs_of_effect (eff := modelReset) (fun _ _ => rfl) fun _ _ _ _ _ _ _ => rfl
  case hostTemperature =>
    intro s
    rw [exec_hostTemperatureTimeout, hostTemperatureTimeout_eq]
  case locked =>
    intro s t h
    rw [exec_restoredModelWithholdEnd, restoredModelWithholdEnd_locked h]
  case unlocked =>
    intro s h
    rw [exec_restoredModelWithholdEnd, restoredModelWithholdEnd_unlocked h]
end

/-! ### A step

The front command runs, and every command answers a next state. -/

section
namespace Sys2Proof.Machine

/-- MOVE answers a next state both where it copies a whole accumulator and where it copies a word (R215). -/
theorem execMove_goesOn (c : ℕ) (dst src : BitVec 6) (s : State) : ∃ t, execMove c dst src s = .next t := by
  unfold execMove
  split
  · exact ⟨_, rfl⟩
  · exact ⟨_, rfl⟩

/-- Every command answers a next state: the arms of all but MOVE do so without a case split. -/
theorem exec_goesOn (i : Instr) (s : State) : ∃ t, exec i s = .next t := by
  cases i with
  | move c dst src => exact execMove_goesOn c dst src s
  | _ => exact ⟨_, rfl⟩

/-- A step on a queue that is not empty runs its front command with the rest waiting. -/
theorem step_cons (s : State) (i : Instr) (rest : List Instr) :
    step { s with pending := i :: rest } = exec i { s with pending := rest } := rfl

/-- A step on an empty queue idles. -/
theorem step_nil {s : State} (h : s.pending = []) : step s = .next s := by
  simp only [step, h]

end Sys2Proof.Machine

open Sys2Proof Sys2Proof.Machine

/-- Settles O1: every arm of `exec` answers a next state, and a step is `exec` of the front command. -/
theorem stepRunsTheFrontCommand : Obligations.StepRunsTheFrontCommand :=
  ⟨exec_goesOn, step_cons, fun _ => step_nil⟩
end

/-! ### Counters and conditions

Control words, the clears of counters and tags, and the latches of conditions (R554 to R556, R563, R569). -/

section
namespace Sys2Proof.Machine

variable {s : State} {c : Ctx}

/-- A control word that names a listed event is stored (R555). -/
theorem writeControl_of_ok (h : controlOk c.q.inst c.arg.toNat = true) : writeControl c s = ok (s.store c) := if_pos h

/-- Any other control word is refused (R555). -/
theorem writeControl_of_bad (h : controlOk c.q.inst c.arg.toNat = false) : writeControl c s = refuse rRange :=
  if_neg (ne_true_of_eq_false h)

/-- The latches that clear_conditions clears are those of bits 0, 1 and 6 (R554). -/
theorem clearConditions_of_march (h : s.hlt.fatalMarch = false) : clearConditions c s =
    ok ((s.set Attr.diaLatched 0 0 ((s.n Attr.diaLatched 0 0 &&& 0xFFBC : ℕ) : ℤ)).set Attr.diaPresent 0 0
      ((s.n Attr.diaPresent 0 0 &&& 0xFFBC : ℕ) : ℤ)) :=
  if_neg (ne_true_of_eq_false h)

/-- After a march failure that stopped bring-up clear_conditions is refused (R554). -/
theorem clearConditions_of_fatalMarch (h : s.hlt.fatalMarch = true) : clearConditions c s = refuse rState := if_pos h

end Sys2Proof.Machine

open Sys2Proof Sys2Proof.Machine

/-- Settles O34: a control word by `controlOk`, clear_conditions by the march failure, the two clears without a test. -/
theorem countersAndConditionsPerform : Obligations.CountersAndConditionsPerform := by
  unfold Obligations.CountersAndConditionsPerform
  refine ⟨⟨?stored, ?range, ?clearMask, ?tagClear⟩, ?cleared, ?fatal⟩
  case stored => exact performs_of_effect (eff := writeControl) (fun _ _ => rfl) fun _ _ _ _ _ _ h => writeControl_of_ok h
  case range => exact refuses_of_effect (eff := writeControl) (fun _ _ => rfl) fun _ _ _ _ _ _ h => writeControl_of_bad h
  case clearMask => exact performs_of_effect (eff := clearMask) (fun _ _ => rfl) fun _ _ _ _ _ _ _ => rfl
  case tagClear => exact performs_of_effect (eff := tagClear) (fun _ _ => rfl) fun _ _ _ _ _ _ _ => rfl
  case cleared =>
    exact performs_of_effect (eff := clearConditions) (fun _ _ => rfl) fun _ _ _ _ _ _ h => clearConditions_of_march h
  case fatal =>
    exact refuses_of_effect (eff := clearConditions) (fun _ _ => rfl) fun _ _ _ _ _ _ h => clearConditions_of_fatalMarch h
end

/-! ### Development access

Challenges, unlocks and their lockout, lock and TMUX (R564 to R566, R570). -/

section
namespace Sys2Proof.Machine

variable {s : State} {c : Ctx}

/-- In a lockout no challenge is issued (R564). -/
theorem issueChallenge_of_lockout (h : s.hlt.lockout = true) : issueChallenge c s = refuse rBusy := if_pos h

/-- A challenge is 32 fresh bytes, which stand in place of the last (R564). -/
theorem issueChallenge_of_open (h : s.hlt.lockout = false) :
    issueChallenge c s =
      (let b := (List.range 32).map fun i => (Config.randomBytes s.free 32).getD i 0
       .ok ({ s with free := s.free + 1, hlt := { s.hlt with challenge := some b } }, { data := b })) :=
  if_neg (ne_true_of_eq_false h)

/-- An unlock is signed over the challenge `ch` by the key of the fuse hash (R565). -/
def unlockSigned (c : Ctx) (ch : List Byte) : Prop :=
  sha256 (c.q.data.take 64) = Config.devKeyHash ∧ ecdsaVerify (c.q.data.take 64)
    (sha256 ([0x5A, 0x42, 0x44, 0x41].map byteOf ++ ch ++ leBytes 8 Config.uid)) (c.q.data.drop 64) = true

/-- Without a fused key every unlock is a failure (R565). -/
theorem unlock_of_no_key (h : Config.devKeyHash.all (· == 0) = true) : unlock c s = s.unlockFails := if_pos h

/-- With a fused key and no challenge an unlock is refused (R565). -/
theorem unlock_of_no_challenge (h : Config.devKeyHash.all (· == 0) = false) (hch : s.hlt.challenge = none) :
    unlock c s = refuse rState := by
  simp only [unlock, h, hch, Bool.false_eq_true, if_false]

/-- An unlock that is signed over the challenge unlocks (R565). -/
theorem unlock_of_signed {ch : List Byte} (h : Config.devKeyHash.all (· == 0) = false)
    (hch : s.hlt.challenge = some ch) (hsig : unlockSigned c ch) : unlock c s =
      ok ((({ s with hlt := { s.hlt with challenge := none, fails := 0 } } : State).set Attr.devUnlocked 0 0 1).logAt
        sevNotice Attr.devUnlocked 0 0) := by
  unfold unlockSigned at hsig
  simp only [unlock, h, hch, Bool.false_eq_true, if_false, if_pos hsig]

/-- An unlock that is not signed so is a failure (R565). -/
theorem unlock_of_unsigned {ch : List Byte} (h : Config.devKeyHash.all (· == 0) = false)
    (hch : s.hlt.challenge = some ch) (hsig : ¬ unlockSigned c ch) : unlock c s = s.unlockFails := by
  unfold unlockSigned at hsig
  simp only [unlock, h, hch, Bool.false_eq_true, if_false, if_neg hsig]

/-- TMUX is chosen while development access is unlocked (R566). -/
theorem tmuxSelect_of_unlocked (h : s.n Attr.devUnlocked 0 0 ≠ 0) : tmuxSelect c s = ok (s.store c) :=
  if_neg fun hlocked => h hlocked.1

/-- TMUX is refused while development access is locked (R566). -/
theorem tmuxSelect_of_locked (h : s.n Attr.devUnlocked 0 0 = 0) (hnow : c.atOnce = false) :
    tmuxSelect c s = refuse rState :=
  if_pos ⟨h, by simp [hnow]⟩

/-- UNLOCK_LOCKOUT_EXPIRY ends a lockout with the count of failures, and does nothing without one (R565). -/
theorem exec_unlockLockoutExpiry (s : State) : exec .unlockLockoutExpiry s =
    .next (if s.hlt.lockout then { s with hlt := { s.hlt with lockout := false, fails := 0 } } else s) := rfl

end Sys2Proof.Machine

open Sys2Proof Sys2Proof.Machine

/-- Settles O35: a challenge by the lockout, an unlock by the fused key, the challenge and the signature, TMUX by the lock. -/
theorem developmentAccessPerforms : Obligations.DevelopmentAccessPerforms := by
  unfold Obligations.DevelopmentAccessPerforms
  refine ⟨?issued, ?lockout, ?unlock, ?noChallenge, ?lock, ?unlocked, ?locked, ?expiry, ?lockoutEnds, ?noLockout⟩
  case issued =>
    exact performs_of_effect (eff := issueChallenge) (fun _ _ => rfl) fun _ _ _ _ _ _ h => issueChallenge_of_open h
  case lockout =>
    exact refuses_of_effect (eff := issueChallenge) (fun _ _ => rfl) fun _ _ _ _ _ _ h => issueChallenge_of_lockout h
  case unlock =>
    refine fun ch => answers_of_effect (eff := unlock) (fun _ _ => rfl) fun c u _ _ _ _ hch => ?_
    cases hkey : Config.devKeyHash.all (· == 0) with
    | true => rw [unlock_of_no_key hkey, if_neg (by simp)]; rfl
    | false =>
      simp only [Bool.and_eq_true, beq_iff_eq, true_and]
      split
      next hsig => exact unlock_of_signed hkey hch hsig
      next hsig => exact unlock_of_unsigned hkey hch hsig
  case noChallenge =>
    refine answers_of_effect (eff := unlock) (fun _ _ => rfl) fun c u _ _ _ _ hch => ?_
    cases hkey : Config.devKeyHash.all (· == 0) with
    | true => exact unlock_of_no_key hkey
    | false => exact unlock_of_no_challenge hkey hch
  case lock => exact performs_of_effect (eff := lock) (fun _ _ => rfl) fun _ _ _ _ _ _ _ => rfl
  case unlocked =>
    exact performs_of_effect (eff := tmuxSelect) (fun _ _ => rfl) fun _ _ _ _ _ _ h => tmuxSelect_of_unlocked h
  case locked =>
    exact refuses_of_effect (eff := tmuxSelect) (fun _ _ => rfl) fun _ _ _ _ hnow _ h => tmuxSelect_of_locked h hnow
  case expiry => exact fun _ => rfl
  case lockoutEnds =>
    intro s h
    rw [exec_unlockLockoutExpiry, if_pos h]
  case noLockout =>
    intro s h
    rw [exec_unlockLockoutExpiry, if_neg (ne_true_of_eq_false h)]
end

/-! ### Monitors

Samples of temperature, supply and process sensors, and the conditions that four in a row raise (R548 to R552). -/

section
namespace Sys2Proof.Machine

variable {s : State}

/-- A process deviation beyond 5 % is stored and logged the first time (R551). -/
theorem processOne_of_new {x r : ℕ} {d : ℤ} (hd : 500 < d.natAbs) (hx : s.hlt.px.contains x = false) :
    s.processOne x r d = ({ (s.set Attr.pxReading (0x20 + x) 0 r).set Attr.pxDeviation (0x20 + x) 0 d with
      hlt := { s.hlt with px := x :: s.hlt.px } } : State).logAt sevWarning Attr.pxDeviation (0x20 + x) 0 :=
  if_pos ⟨hd, ne_true_of_eq_false hx⟩

/-- A sample that hits lengthens its run, which four samples fill. -/
theorem runOf_hit (m : Store ℕ) (k : ℕ) : Store.get 0 (runOf m k true) k = Nat.min 4 (Store.get 0 m k + 1) :=
  Store.get_set_self _ _ _ _

/-- A sample that misses ends its run. -/
theorem runOf_miss (m : Store ℕ) (k : ℕ) : Store.get 0 (runOf m k false) k = 0 :=
  Store.get_set_self _ _ _ _

end Sys2Proof.Machine

open Sys2Proof Sys2Proof.Machine

/-- Settles O36: the samples are folds over their sensors, a hot run by whether the sample reaches 105 °C. -/
theorem monitorSamplesAct : Obligations.MonitorSamplesAct := by
  unfold Obligations.MonitorSamplesAct
  refine ⟨?voltage, ?temperature, ?alert, ?process, ?deviation, ?hot, ?cooler⟩
  case voltage => exact fun _ _ => rfl
  case temperature => exact fun _ _ => rfl
  case alert => exact fun _ => rfl
  case process => exact fun _ _ _ => rfl
  case deviation => exact fun _ _ _ _ => processOne_of_new
  case hot =>
    intro s t v h
    rw [tempOne_hot, decide_eq_true h, runOf_hit]
  case cooler =>
    intro s t v h
    rw [tempOne_hot, decide_eq_false h.not_ge, runOf_miss]
end

/-! ### Sessions, keys and the SPI host port

A session by its key and the room for it, a key by the shape of its write, the port by its commands (R456, R457, R461,
R462, R466). -/

section
namespace Sys2Proof.Machine

variable {s : State} {c : Ctx}

/-- A session opens with a key that is present, under a new identifier and a key of its own (R457). -/
theorem openSession_of_key {key : List Byte} (hslot : c.arg.toNat ≤ 7)
    (hkey : Store.find? s.yug.keys c.arg.toNat = some key) (hroom : s.yug.sessions.length < 16) :
    openSession c s =
      (let dev := (List.range 16).map fun i => (Config.randomBytes s.free 16).getD i 0
       let w : State := { s with free := s.free + 1 }
       let id := w.freeSession 17 s.yug.nextSession
       .ok ({ w with yug := { w.yug with
           sessions := w.yug.sessions ++ [Session.mk id c.arg.toNat (hmac key ([0x59, 0x47, 0x53, 0x31].map byteOf ++
             c.q.data.drop 1 ++ dev ++ leBytes 2 id)) none 0]
           nextSession := id + 1 } }, { data := leBytes 2 id ++ dev })) := by
  simp only [openSession, State.fresh, if_neg hslot.not_gt, hkey, if_neg hroom.not_ge]

/-- A slot that does not exist is refused (R457). -/
theorem openSession_of_bad_slot (hslot : 7 < c.arg.toNat) : openSession c s = refuse rRange := if_pos hslot

/-- A slot that holds no key is refused (R457). -/
theorem openSession_of_no_key (hslot : c.arg.toNat ≤ 7) (hkey : Store.find? s.yug.keys c.arg.toNat = none) :
    openSession c s = refuse rState := by
  simp only [openSession, if_neg hslot.not_gt, hkey]

/-- A session that is open closes (R457). -/
theorem closeSession_of_open (h : s.yug.sessions.any (·.id == c.arg.toNat) = true) :
    closeSession c s = ok (s.closeSessions (·.id == c.arg.toNat)) := if_pos h

/-- A key is written in one write of all its bytes (R456). -/
theorem writeKey_of_whole (helem : c.q.elem = 0) (hcount : c.q.count = 32) :
    writeKey c s = ok { s with yug := { s.yug with keys := Store.put s.yug.keys c.q.inst c.q.data } } :=
  if_neg (by simp [helem, hcount])

/-- A write of a part of a key is refused (R456). -/
theorem writeKey_of_part (h : c.q.elem ≠ 0 ∨ c.q.count ≠ 32) : writeKey c s = refuse rRange := if_pos h

section
variable (hpwr : s.pow.pwrOff = false)
include hpwr

/-- READ_STATE reads whether a reply waits, whether a request runs, and the length of the reply (R461). -/
theorem readState_of_on : readState s = { s with yug := { s.yug with
    miso := [byteOf 0xFF, byteOf (b2n s.yug.spiReady + 2 * b2n s.yug.spiBusy), 0] ++ leBytes 2 s.yug.spiReply.length } } :=
  if_neg (ne_true_of_eq_false hpwr)

/-- READ_REPLY reads the held reply, and zeros beyond it (R462). -/
theorem readReply_of_on (n : ℕ) : readReply n s = { s with yug := { s.yug with
    miso := byteOf 0xFF :: (List.range n).map fun i => s.yug.spiReply.getD i 0 } } :=
  if_neg (ne_true_of_eq_false hpwr)

/-- A frame that comes while a request runs is an overrun (R461). -/
theorem spiFrame_of_busy (b : List Byte) (hbusy : s.yug.spiBusy = true) :
    s.spiFrame b = ({ s with yug := { s.yug with miso := [0] } } : State).bump Attr.yugSpiOverruns 0 0 := by
  simp [State.spiFrame, hpwr, hbusy]

/-- Any other frame arrives, and drops the held reply (R461, R462). -/
theorem spiFrame_of_idle (b : List Byte) (hbusy : s.yug.spiBusy = false) : s.spiFrame b =
    ({ s with yug := { s.yug with miso := [0], spiReply := [], spiReady := false } } : State).frameArrives 0 0 b := by
  simp [State.spiFrame, hpwr, hbusy]

/-- A command that the port does not define is counted (R461). -/
theorem spiBadCommand_of_undefined {k : Byte} (h : k.toNat = 0 ∨ 3 < k.toNat) :
    spiBadCommand k s = ({ s with yug := { s.yug with miso := [0] } } : State).bump Attr.yugBadFrames 0 0 := by
  have hdefined : ¬ (1 ≤ k.toNat ∧ k.toNat ≤ 3) := by omega
  simp only [spiBadCommand, hpwr, Bool.false_eq_true, hdefined, or_self, if_false]

end

end Sys2Proof.Machine

open Sys2Proof Sys2Proof.Machine

/-- Settles O9: sessions and keys by their tests, each command of the SPI port while the block is on. -/
theorem sessionsAndHostPortAct : Obligations.SessionsAndHostPortAct := by
  unfold Obligations.SessionsAndHostPortAct
  refine ⟨?opens, ?badSlot, ?noKey, ?closes, ?timeout, ?key, ?part, ?erase, ?node, ?state, ?reply, ?busy, ?idle, ?bad⟩
  case opens =>
    exact fun key => performs_of_effect (eff := openSession) (fun _ _ => rfl) fun _ _ _ _ _ _ ⟨hslot, hkey, hroom⟩ =>
      openSession_of_key hslot hkey hroom
  case badSlot =>
    exact refuses_of_effect (eff := openSession) (fun _ _ => rfl) fun _ _ _ _ _ _ h => openSession_of_bad_slot h
  case noKey =>
    exact refuses_of_effect (eff := openSession) (fun _ _ => rfl) fun _ _ _ _ _ _ ⟨hslot, hkey⟩ =>
      openSession_of_no_key hslot hkey
  case closes =>
    exact performs_of_effect (eff := closeSession) (fun _ _ => rfl) fun _ _ _ _ _ _ h => closeSession_of_open h
  case timeout => exact fun _ _ => rfl
  case key =>
    exact performs_of_effect (eff := writeKey) (fun _ _ => rfl) fun _ _ _ _ _ _ ⟨helem, hcount⟩ =>
      writeKey_of_whole helem hcount
  case part => exact refuses_of_effect (eff := writeKey) (fun _ _ => rfl) fun _ _ _ _ _ _ h => writeKey_of_part h
  case erase => exact performs_of_effect (eff := keyErase) (fun _ _ => rfl) fun _ _ _ _ _ _ _ => rfl
  case node => exact performs_of_effect (eff := writeNode) (fun _ _ => rfl) fun _ _ _ _ _ _ _ => rfl
  case state => exact fun s h => congrArg Host.Outcome.next (readState_of_on h)
  case reply => exact fun s n h => congrArg Host.Outcome.next (readReply_of_on h n)
  case busy => exact fun s b h hbusy => congrArg Host.Outcome.next (spiFrame_of_busy h b hbusy)
  case idle => exact fun s b h hbusy => congrArg Host.Outcome.next (spiFrame_of_idle h b hbusy)
  case bad => exact fun s k h hk => congrArg Host.Outcome.next (spiBadCommand_of_undefined h hk)
end

/-! ### Requests in their order

Frames that arrive, the request at the head of the queue, repeats and refusals (R434, R438, R441, R445, R448, R449). -/

section
namespace Sys2Proof.Machine

/-! #### Arrival -/

section
variable {s : State} {via peer : ℕ} {b : List Byte}

/-- YUGAL_FRAME_ARRIVAL answers with its meaning. -/
theorem exec_yugalFrameArrival (via peer : ℕ) (b : List Byte) (s : State) :
    exec (.yugalFrameArrival via peer b) s = .next (yugalFrameArrival via peer b s) := rfl

/-- A frame on a transport other than the SPI port arrives there (R445). -/
theorem yugalFrameArrival_of_pos (h : 1 ≤ via) : yugalFrameArrival via peer b s = s.frameArrives via peer b :=
  if_neg (Nat.one_le_iff_ne_zero.mp h)

/-- Nothing arrives on a transport that does not exist, nor in OFF. -/
theorem frameArrives_of_closed (h : 4 < via ∨ s.pow.pwrOff = true) : s.frameArrives via peer b = s := if_pos h

section
variable (hvia : via ≤ 4) (hpwr : s.pow.pwrOff = false)
include hvia hpwr

theorem not_closed : ¬ (4 < via ∨ s.pow.pwrOff = true) := not_or_intro hvia.not_gt (ne_true_of_eq_false hpwr)

/-- A frame on a transport that does not carry Yugal does not arrive (R466). -/
theorem frameArrives_of_no_transport (hon : s.transportOn via = false) :
    s.frameArrives via peer b = s.noTransport via := by
  simp only [State.frameArrives, if_neg (not_closed hvia hpwr), hon, Bool.false_eq_true, not_false_eq_true, if_true]

variable (hon : s.transportOn via = true)
include hon

/-- A frame that is not well formed is a bad frame (R434). -/
theorem frameArrives_of_malformed (hparse : parseFrame via peer b = none) :
    s.frameArrives via peer b = (s.bump Attr.yugRxFrames 0 via).bump Attr.yugBadFrames 0 via := by
  simp only [State.frameArrives, if_neg (not_closed hvia hpwr), hon, not_true_eq_false, if_false, hparse]

/-- A request that is for this node joins the queue, or is dropped by it (R445). -/
theorem frameArrives_of_got {q : Req} {t : State} (hparse : parseFrame via peer b = some q) (hgot : s.arrive q = .got t) :
    s.frameArrives via peer b = t.enqueue q := by
  simp only [State.frameArrives, if_neg (not_closed hvia hpwr), hon, not_true_eq_false, if_false, hparse, hgot]

end

/-- A request joins a queue that has room (R445). -/
theorem enqueue_of_room {q : Req} (h : s.yug.queue.length < 32) : s.enqueue q =
    { s with yug := { s.yug with queue := s.yug.queue ++ [q], spiBusy := s.yug.spiBusy || q.via == 0 } } :=
  if_neg h.not_ge

/-- A full queue drops a request (R445). -/
theorem enqueue_of_full {q : Req} (h : 32 ≤ s.yug.queue.length) : s.enqueue q = s.bump Attr.yugQueueDrops 0 0 := if_pos h

end

/-! #### Serving -/

section
variable {row : Row} {eff : Effect} {s v : State} {q : Req}

/-- A request of another row is not served (entry 10). -/
theorem serve_of_other_row (h : rowOf q ≠ row) : serve row eff q s = s := if_pos h

/-- A request behind the head of the queue is not taken (R441). -/
theorem take_behind_head {r : Req} {rest : List Req} (hqueue : s.yug.queue = r :: rest) (hne : r ≠ q) : s.take q = .no := by
  simp only [State.take, hqueue, if_neg hne]

/-- A request that is not taken is not served. -/
theorem serve_of_not_taken (h : s.take q = .no) : serve row eff q s = s := by
  simp only [serve, h, ite_self]

section
variable (hrow : rowOf q = row) (htake : s.take q = .got v)
include hrow htake

/-- A repeat is answered with the kept reply (R448). -/
theorem serve_of_dup {b : List Byte} (h : v.auth q = .dup b) :
    serve row eff q s = (v.bump Attr.yugDupRequests 0 0).deliver q b := by
  simp only [serve, hrow, htake, h, ne_eq, not_true_eq_false, if_false]

/-- A request that fails authentication is answered with AUTH (R458). -/
theorem serve_of_auth_fail (h : v.auth q = .fail) : serve row eff q s =
    (let t := v.bump Attr.sesAuthFailures 0xFFFF 0
     let b := replyFrame t (t.n Attr.yugNodeId 0 0) q rAuth {} none
     (t.deliver q b).keep q b) := by
  simp only [serve, hrow, htake, h, ne_eq, not_true_eq_false, if_false]

/-- A request that passes authentication is answered as its operation goes (R441). -/
theorem serve_of_pass {k : Option Session} (h : v.auth q = .pass k) : serve row eff q s = v.answer eff q k := by
  simp only [serve, hrow, htake, h, ne_eq, not_true_eq_false, if_false]

end

/-- An operation that is refused leaves the counters it names and its reply (R439). -/
theorem answer_of_error {k : Option Session} {f : Fail} (h : (v.opened k).operate eff q = .error f) :
    v.answer eff q k = v.repliedRefusal q k f := by
  rw [State.opened] at h
  simp only [State.answer, h, State.repliedRefusal, State.opened]

/-- An operation that the checks of its frame refuse is refused (R439). -/
theorem operate_of_checks_error {f : Fail} (h : s.checks q = .error f) : s.operate eff q = .error f := by
  simp only [State.operate, h]

/-- An operation that a check which all operations share refuses is refused (R439). -/
theorem operate_of_shared {c : Ctx} {e : ℕ} (hchecks : s.checks q = .ok c) (h : s.shared c = some e) :
    s.operate eff q = .error (s.sharedFail eff c e) := by
  simp only [State.operate, hchecks, h]

end

end Sys2Proof.Machine

open Sys2Proof Sys2Proof.Machine

/-- Settles O7: a frame by its transport, its form and the room of the queue; a request by its row, its place in the queue,
its authentication and its checks. -/
theorem requestsAreServedInOrder : Obligations.RequestsAreServedInOrder := by
  unfold Obligations.RequestsAreServedInOrder
  refine ⟨?malformed, ?queued, ?dropped, ?noTransport, ?closed, ?spi, ?behind, ?otherRow, ?dup, ?authFail, ?checks, ?shared,
    ?expiry⟩
  case malformed =>
    intro s via peer b hpos hvia hon hpwr hparse
    rw [exec_yugalFrameArrival, yugalFrameArrival_of_pos hpos, frameArrives_of_malformed hvia hpwr hon hparse]
  case queued =>
    intro s via peer b q t hpos hvia hon hpwr hparse hgot hroom
    rw [exec_yugalFrameArrival, yugalFrameArrival_of_pos hpos, frameArrives_of_got hvia hpwr hon hparse hgot,
      enqueue_of_room hroom]
  case dropped =>
    intro s via peer b q t hpos hvia hon hpwr hparse hgot hfull
    rw [exec_yugalFrameArrival, yugalFrameArrival_of_pos hpos, frameArrives_of_got hvia hpwr hon hparse hgot,
      enqueue_of_full hfull]
  case noTransport =>
    intro s via peer b hpos hvia hon hpwr
    rw [exec_yugalFrameArrival, yugalFrameArrival_of_pos hpos, frameArrives_of_no_transport hvia hpwr hon]
  case closed =>
    intro s via peer b h
    have hpos : 1 ≤ via := h.elim (fun hvia => by omega) And.left
    rw [exec_yugalFrameArrival, yugalFrameArrival_of_pos hpos, frameArrives_of_closed (h.imp_right And.right)]
  case spi => exact fun _ _ _ => rfl
  case behind => exact fun row eff s q r rest hqueue hne => serve_of_not_taken (take_behind_head hqueue hne)
  case otherRow => exact fun row eff s q => serve_of_other_row
  case dup => exact fun row eff s q v b hrow htake => serve_of_dup hrow htake
  case authFail => exact fun row eff s q v hrow htake => serve_of_auth_fail hrow htake
  case checks =>
    intro row eff s q v k f hrow htake hauth hchecks
    rw [serve_of_pass hrow htake hauth, answer_of_error (operate_of_checks_error hchecks)]
  case shared =>
    intro row eff s q v k c e hrow htake hauth hchecks hshared
    rw [serve_of_pass hrow htake hauth, answer_of_error (operate_of_shared hchecks hshared)]
  case expiry => exact fun _ => rfl
end

/-! ### Reads and writes

What READ, READ_ARRAY, TICKET_READ and WRITE answer (R441, R446, R447, R450, R452). -/

section
namespace Sys2Proof.Machine

variable {c : Ctx} {u : State}

/-- A value that fits the reply is read (R441, R446). -/
theorem readValue_of_fits (hty : c.row.ty ≠ 11)
    (hfits : (encodeVal c.row.ty (u.value c.code c.q.inst 0)).length ≤ roomFor c.q false) :
    readValue c u = .ok (u, { data := encodeVal c.row.ty (u.value c.code c.q.inst 0) }) := by
  simp only [readValue, if_neg hty, if_neg hfits.not_gt]

/-- Elements that all fit are read without a token (R447). -/
theorem readArray_of_fits {e n : ℕ} (hfrom : c.q.token.getD (c.q.elem, c.q.count) = (e, n)) (hn : n ≠ 0)
    (hfits : n * elemBytes c.code c.q.inst c.row.ty ≤ roomFor c.q false) :
    readArray c u = .ok (u, { elem := e, count := n, data := u.elemsRead c.row c.code c.q.inst e n }) := by
  simp only [readArray, hfrom, if_pos hfits, if_neg hn, lt_irrefl, if_false]

/-- Elements of which a part fits are read with a token for the rest (R447). -/
theorem readArray_of_part {e n k : ℕ} (hfrom : c.q.token.getD (c.q.elem, c.q.count) = (e, n))
    (hlong : roomFor c.q false < n * elemBytes c.code c.q.inst c.row.ty)
    (hk : roomFor c.q true / elemBytes c.code c.q.inst c.row.ty = k) (hpos : 0 < k) (hpart : k < n) :
    readArray c u = .ok (u, { elem := e, count := k, token := some ((e + k) % 2 ^ 32, n - k)
                              data := u.elemsRead c.row c.code c.q.inst e k }) := by
  simp only [readArray, hfrom, if_neg hlong.not_ge, hk, if_neg hpos.ne', if_pos hpart]

section
variable (htoken : c.q.token = none) (hcount : c.q.count = 1) (hroom : 8 ≤ roomFor c.q false)
include htoken hcount hroom

/-- A ticket that is in its slot is read with its progress, its total and its result (R450). -/
theorem ticketRead_of_held (hstate : u.n Attr.tktState (c.q.elem % 16) 0 ≠ 0)
    (hword : u.n Attr.tktTicket (c.q.elem % 16) 0 = c.q.elem) :
    ticketRead c u =
      (let x := Store.get TicketAux.none u.yug.aux (c.q.elem % 16)
       .ok (u, { elem := c.q.elem, count := 1, result := u.n Attr.tktResult (c.q.elem % 16) 0
                 data := leBytes 4 x.progress ++ leBytes 4 x.total })) := by
  have hheld : ¬ (u.n Attr.tktState (c.q.elem % 16) 0 = 0 ∨ u.n Attr.tktTicket (c.q.elem % 16) 0 ≠ c.q.elem) :=
    not_or_intro hstate (not_not_intro hword)
  simp only [ticketRead, htoken, hcount, Option.getD_none, ne_eq, not_true_eq_false, if_false, if_neg hroom.not_gt,
    if_neg hheld]

/-- A ticket that another has taken the slot of is STALE (R450). -/
theorem ticketRead_of_stale (hword : u.n Attr.tktTicket (c.q.elem % 16) 0 ≠ c.q.elem) :
    ticketRead c u = .error ⟨rStale, c.q.elem, []⟩ := by
  simp only [ticketRead, htoken, hcount, Option.getD_none, ne_eq, not_true_eq_false, if_false, if_neg hroom.not_gt,
    hword, not_false_eq_true, or_true, if_true]

end

section
variable (hspare : c.code ≠ Attr.plcSpareCores) (hin : c.code ≠ Attr.insCompKeyCoef) (hout : c.code ≠ Attr.outsCompKeyCoef)
  (hnow : c.atOnce = false)
include hspare hin hout hnow

/-- A write that the rule of its code allows stores its values (R441). -/
theorem writeValue_of_allowed (h : u.writeBad c = none) : writeValue c u = ok ((u.storeAny c).afterWrite c) := by
  simp only [writeValue, if_neg hspare, if_neg (not_or_intro hin hout), hnow, h, Bool.false_eq_true, if_false]

/-- A write that the rule of its code refuses is refused (R441). -/
theorem writeValue_of_bad {f : Fail} (h : u.writeBad c = some f) : writeValue c u = .error f := by
  simp only [writeValue, if_neg hspare, if_neg (not_or_intro hin hout), hnow, h, Bool.false_eq_true, if_false]

end

end Sys2Proof.Machine

open Sys2Proof Sys2Proof.Machine

/-- Settles O8: a read by the room for its values, a ticket read by the word in the slot, a write by the rule of its
code. -/
theorem readsAndWritesPerform : Obligations.ReadsAndWritesPerform := by
  unfold Obligations.ReadsAndWritesPerform
  refine ⟨?read, ?array, ?part, ?ticket, ?stale, ?write, ?bad, ?clear⟩
  case read =>
    exact performs_of_effect (eff := readValue) (fun _ _ => rfl) fun _ _ _ _ _ _ ⟨hty, hfits⟩ => readValue_of_fits hty hfits
  case array =>
    exact performs_of_effect (eff := readArray) (fun _ _ => rfl) fun _ _ _ _ _ _ ⟨htoken, hcount, hfits⟩ =>
      readArray_of_fits (by rw [htoken, Option.getD_none]) hcount hfits
  case part =>
    exact fun e n => performs_of_effect (eff := readArray) (fun _ _ => rfl) fun _ _ _ _ _ _ ⟨hfrom, hlong, hpos, hpart⟩ =>
      readArray_of_part hfrom hlong rfl hpos hpart
  case ticket =>
    exact performs_of_effect (eff := ticketRead) (fun _ _ => rfl)
      fun _ _ _ _ _ _ ⟨htoken, hcount, hroom, hstate, hword⟩ => ticketRead_of_held htoken hcount hroom hstate hword
  case stale =>
    exact refusesWith_of_effect (eff := ticketRead) (fun _ _ => rfl) fun _ _ _ _ _ _ ⟨htoken, hcount, hroom, hword⟩ =>
      ticketRead_of_stale htoken hcount hroom hword
  case write =>
    exact performs_of_effect (eff := writeValue) (fun _ _ => rfl) fun _ _ _ _ hnow _ ⟨hspare, hin, hout, h⟩ =>
      writeValue_of_allowed hspare hin hout hnow h
  case bad =>
    exact fun f => refusesWith_of_effect (eff := writeValue) (fun _ _ => rfl) fun _ _ _ _ hnow _ ⟨hspare, hin, hout, h⟩ =>
      writeValue_of_bad hspare hin hout hnow h
  case clear => exact performs_of_effect (eff := clearCounts) (fun _ _ => rfl) fun _ _ _ _ _ _ _ => rfl
end

/-! ### Addresses of attributes and rows of requests -/

section
namespace Sys2Proof.Machine

/-- Attributes of different numbers in their classes have different keys, whatever their instances. -/
theorem attrKey_ne_of_attr {code inst elem c i e : ℕ} (h : code % 256 ≠ c % 256) (helem : elem < 4294967296)
    (he : e < 4294967296) : attrKey code inst elem ≠ attrKey c i e := by
  unfold attrKey
  omega

/-- A row that is found stands in the list, at the code that is looked up. -/
theorem findRow_some {l : List (ℕ × ℕ × ℕ × Row)} {code inst : ℕ} {r : Row} (h : findRow l code inst = some r) :
    ∃ e ∈ l, e.1 = code ∧ e.2.2.2 = r := by
  obtain ⟨e, hfind, hr⟩ := Option.map_eq_some_iff.mp h
  have hcode := List.find?_some hfind
  simp only [Bool.and_eq_true, beq_iff_eq] at hcode
  exact ⟨e, List.mem_of_find?_eq_some hfind, hcode.1, hr⟩

/-- What the checks let through names a row of the dictionary whose access allows it (R439). -/
theorem State.checks_row {s : State} {q : Req} {c : Ctx} (h : s.checks q = .ok c) :
    rowAt (reqCode q) q.inst = some c.row ∧ s.accessBad q c.row = none := by
  unfold State.checks at h
  split at h
  · cases h
  · split at h
    · cases h
    next r hrow =>
      split at h
      · cases h
      next hnone =>
        cases h
        simp only [Option.or_eq_none_iff] at hnone
        exact ⟨hrow, hnone.2.1⟩

end Sys2Proof.Machine
end

/-! ### Time bases

Their requests, their counters and source events, and the PTP instances that feed them (R363 to R377, R401). -/

section
namespace Sys2Proof.Machine

/-! #### Requests -/

section
variable {c : Ctx} {u : State}

/-- A domain that is enabled names time base `t` (R366). -/
def State.tbNamed (u : State) (t : ℕ) : Bool :=
  (List.range 16).any fun m => u.n Attr.mdEnable m 0 == 1 && u.n Attr.mdTimeBase m 0 == t

/-- A time base is not disabled while a domain names it (R366). -/
theorem writeTimeBaseEnable_of_named (harg : c.arg = 0) (hnamed : u.tbNamed c.q.inst = true) (hnow : c.atOnce = false) :
    writeTimeBaseEnable c u = refuse rState :=
  if_pos ⟨harg, hnamed, ne_true_of_eq_false hnow⟩

/-- Any other write of tb_enable goes by the value that stands (R366). -/
theorem writeTimeBaseEnable_of_allowed (h : c.arg = 0 → u.tbNamed c.q.inst = false) : writeTimeBaseEnable c u =
    if u.a Attr.tbEnable c.q.inst 0 = c.arg then ok u
    else if c.arg = 1 then ok ((((u.store c).setTb c.q.inst TbSt.reset).set Attr.tbState c.q.inst 0 1).setTbRate c.q.inst 0)
    else ok (((((u.store c).setTb c.q.inst TbSt.reset).set Attr.tbState c.q.inst 0 0).set Attr.tbOffset c.q.inst 0 0).set
      Attr.tbStatus c.q.inst 0 0) :=
  if_neg fun ⟨harg, hnamed, _⟩ => ne_true_of_eq_false (h harg) hnamed

/-- A time base may step on request: it does not feed MD0 in RUN, and is neither off nor about to step (R369). -/
def State.mayRestep (u : State) (t : ℕ) : Prop := u.tbFeeds t = false ∧ u.tbState t ≠ 0 ∧ u.tbState t ≠ 2

/-- A time base that may not step is refused (R369). -/
theorem restep_of_barred (h : u.tbFeeds c.q.inst = true ∨ u.tbState c.q.inst = 0 ∨ u.tbState c.q.inst = 2) :
    restep c u = refuse rState := if_pos h

section
variable (hmay : u.mayRestep c.q.inst)
include hmay

theorem not_barred : ¬ (u.tbFeeds c.q.inst = true ∨ u.tbState c.q.inst = 0 ∨ u.tbState c.q.inst = 2) := by
  obtain ⟨hfeeds, hoff, hwaits⟩ := hmay
  exact not_or_intro (ne_true_of_eq_false hfeeds) (not_or_intro hoff hwaits)

/-- A restep to the source waits for its next event (R369). -/
theorem restep_to_source (harg : c.arg.toNat = 0) (hsrc : u.n Attr.tbSource c.q.inst 0 ≠ 0)
    (hslave : u.inSlave (u.n Attr.tbSource c.q.inst 0 - 1) = true) :
    restep c u = ok (u.setTb c.q.inst { u.tbSt c.q.inst with restep := true }) := by
  have hready : ¬ (u.n Attr.tbSource c.q.inst 0 = 0 ∨ ¬ u.inSlave (u.n Attr.tbSource c.q.inst 0 - 1) = true) :=
    not_or_intro hsrc (not_not_intro hslave)
  simp only [restep, if_neg (not_barred hmay), if_pos harg, if_neg hready]

/-- A restep to the source is refused without a source in SLAVE (R369). -/
theorem restep_to_source_refused (harg : c.arg.toNat = 0)
    (h : u.n Attr.tbSource c.q.inst 0 = 0 ∨ u.inSlave (u.n Attr.tbSource c.q.inst 0 - 1) = false) :
    restep c u = refuse rState := by
  simp only [restep, if_neg (not_barred hmay), if_pos harg, if_pos (h.imp_right ne_true_of_eq_false)]

/-- A restep to a time is taken at once by a time base without a source (R369). -/
theorem restep_to_time (harg : c.arg.toNat ≠ 0) (hsrc : u.n Attr.tbSource c.q.inst 0 = 0) :
    restep c u = ok (((u.setTime c.q.inst c.arg.toNat).set Attr.tbState c.q.inst 0 1).recordStep c.q.inst
      (u.tbNow c.q.inst) Attr.tbRestep) := by
  simp only [restep, if_neg (not_barred hmay), if_neg harg, if_neg (not_not_intro hsrc)]

/-- A restep to a time is refused to a time base with a source (R369). -/
theorem restep_to_time_refused (harg : c.arg.toNat ≠ 0) (hsrc : u.n Attr.tbSource c.q.inst 0 ≠ 0) :
    restep c u = refuse rState := by
  simp only [restep, if_neg (not_barred hmay), if_neg harg, if_pos hsrc]

end

/-- A rate beyond max_rate is refused (R377). -/
theorem writeRate_of_beyond (h : u.rateLimit c.q.inst < (c.arg.natAbs : ℤ)) : writeRate c u = refuse rRange := if_pos h

/-- A rate is refused where a source drives the time base (R377). -/
theorem writeRate_of_sourced (h : (c.arg.natAbs : ℤ) ≤ u.rateLimit c.q.inst) (hsrc : u.n Attr.tbSource c.q.inst 0 ≠ 0)
    (hnow : c.atOnce = false) : writeRate c u = refuse rState := by
  simp only [writeRate, if_neg h.not_gt, if_pos (And.intro hsrc (ne_true_of_eq_false hnow))]

/-- Any other rate is set (R377). -/
theorem writeRate_of_free (h : (c.arg.natAbs : ℤ) ≤ u.rateLimit c.q.inst) (hsrc : u.n Attr.tbSource c.q.inst 0 = 0) :
    writeRate c u = ok (u.setTbRate c.q.inst c.arg) := by
  simp only [writeRate, if_neg h.not_gt, if_neg (not_and.mpr fun hsourced => absurd hsrc hsourced)]

/-- In RUN and HALT MD0's time base is not written (R376). -/
theorem writeTimeBase_md0_running (hcode : c.code = Attr.mdTimeBase) (hinst : c.q.inst = 0) (heng : u.engState ≠ 0)
    (hnow : c.atOnce = false) : writeTimeBase c u = refuse rState := by
  have hrate : ¬ (c.q.inst = 0 ∧ c.code = Attr.mdRate) := fun h => by simp [hcode] at h
  simp only [writeTimeBase, if_neg hrate, if_pos (And.intro hinst (And.intro heng (ne_true_of_eq_false hnow)))]

/-- Any other write of a time base or rate moves what follows from it, where it changes (R371, R376). -/
theorem writeTimeBase_of_allowed (h : c.q.inst ≠ 0 ∨ c.code = Attr.mdTimeBase ∧ u.engState = 0) : writeTimeBase c u =
    ok (if u.a c.code c.q.inst 0 = c.arg then u.store c
      else if c.q.inst = 0 then (u.store c).evalUsers else (u.store c).domainStep c.q.inst) := by
  have hrate : ¬ (c.q.inst = 0 ∧ c.code = Attr.mdRate) := by
    rintro ⟨hinst, hcode⟩
    rcases h with h | ⟨h, -⟩
    · exact h hinst
    · simp [hcode] at h
  have hrun : ¬ (c.q.inst = 0 ∧ u.engState ≠ 0 ∧ ¬ c.atOnce = true) := by
    rintro ⟨hinst, heng, -⟩
    exact h.elim (fun h => h hinst) fun h => heng h.2
  simp only [writeTimeBase, if_neg hrate, if_neg hrun, beq_iff_eq]

end

/-! #### MD0 (R376) -/

section
variable {q : Req} {s : State} {c : Ctx}

/-- A request is of the row of time bases by a write of a domain's time base or rate. -/
theorem write_of_rowOf_timeBase (h : rowOf q = .timeBase) :
    (q.op = 2 ∨ q.op = 4) ∧ (reqCode q = Attr.mdTimeBase ∨ reqCode q = Attr.mdRate) := by
  have hwrites : ∀ e ∈ writeRows, e.2.2.2 = .timeBase → e.1 = Attr.mdTimeBase ∨ e.1 = Attr.mdRate := by decide
  have hexecs : ∀ e ∈ execRows, e.2.2.2 ≠ .timeBase := by decide
  unfold rowOf at h
  split at h
  · cases h
  split at h
  · split at h <;> cases h
  split at h
  next hop =>
    refine ⟨hop, ?_⟩
    cases hfind : findRow writeRows (reqCode q) q.inst with
    | none => rw [hfind] at h; cases h
    | some r =>
      obtain ⟨e, he, hcode, hr⟩ := findRow_some hfind
      rw [hfind] at h
      exact hcode ▸ hwrites e he (hr.trans h)
  next =>
    exfalso
    split at h
    · split at h
      · split at h <;> cases h
      · split at h
        next r hfind =>
          obtain ⟨e, he, -, hr⟩ := findRow_some hfind
          exact hexecs e he (hr.trans h)
        next => split at h <;> cases h
    · cases h

/-- MD0's rate is read only (R376). -/
theorem rowAt_md0Rate : rowAt Attr.mdRate 0 = some ⟨3, 0, .fix 0, 1, .scalar, .r, 1, .rng 0 5⟩ := rfl

/-- MD0's time base is written in CONFIG (R376). -/
theorem rowAt_md0TimeBase : rowAt Attr.mdTimeBase 0 = some ⟨2, 0, .fix 0, 1, .scalar, .rwc, 0, .rng 0 7⟩ := rfl

/-- A write of what is read only is refused with ACCESS (R439). -/
theorem accessBad_of_readOnly {r : ARow} (hr : r.acc = .r) (hop : q.op = 2 ∨ q.op = 4) :
    s.accessBad q r = some ⟨rAccess, 0, []⟩ := by
  have hwrite : q.op ≠ 1 ∧ q.op ≠ 3 := by omega
  simp only [State.accessBad, hr, failIf, hwrite.1, hwrite.2, ne_eq, not_false_eq_true, and_self, decide_true,
    Bool.true_or, if_true]

/-- A write of MD0's rate is refused with ACCESS (R376, R439). -/
theorem checks_md0Rate (hformed : q.formed = true) (hop : q.op = 2) (hinst : q.inst = 0) (hcode : reqCode q = Attr.mdRate) :
    s.checks q = .error ⟨rAccess, 0, []⟩ := by
  have hkind : ¬ (¬ q.formed = true ∨ q.op = 0 ∨ 5 < q.op) := by simp [hformed, hop]
  have haddress : s.addressBad q ⟨3, 0, .fix 0, 1, .scalar, .r, 1, .rng 0 5⟩ = none := by
    simp [State.addressBad, State.instOk, hinst, isArray, hop]
  simp only [State.checks, if_neg hkind, hcode, hinst, rowAt_md0Rate, haddress, Option.none_or,
    accessBad_of_readOnly (r := ⟨3, 0, .fix 0, 1, .scalar, .r, 1, .rng 0 5⟩) rfl (.inl hop), Option.some_or]

section
variable (hrow : rowOf q = .timeBase) (hchecks : s.checks q = .ok c) (hinst : q.inst = 0)
include hrow hchecks hinst

/-- What the checks let through of MD0's row is a write of its time base. -/
theorem md0TimeBase_of_checks : reqCode q = Attr.mdTimeBase ∧ c.row.acc = .rwc := by
  obtain ⟨hop, hcode⟩ := write_of_rowOf_timeBase hrow
  obtain ⟨hat, hacc⟩ := State.checks_row hchecks
  rcases hcode with hcode | hcode
  · rw [hcode, hinst, rowAt_md0TimeBase] at hat
    exact ⟨hcode, by rw [← Option.some.inj hat]⟩
  · rw [hcode, hinst, rowAt_md0Rate] at hat
    rw [accessBad_of_readOnly (by rw [← Option.some.inj hat]) hop] at hacc
    cases hacc

variable (heng : s.engState ≠ 0)
include heng

/-- In RUN and HALT the checks that all operations share refuse a write of MD0's time base (R376, R439). -/
theorem shared_md0TimeBase : s.shared c = some rState := by
  obtain ⟨hop, -⟩ := write_of_rowOf_timeBase hrow
  obtain ⟨-, hacc⟩ := md0TimeBase_of_checks hrow hchecks hinst
  have hwrite : (c.q.op == 2 || c.q.op == 4) = true := by simpa [State.checks_q hchecks] using hop
  have hconfig : (c.q.op == 2 || c.q.op == 4) = true ∧ c.row.acc = .rwc ∧ (s.engState ≠ 0 ∨ c.q.when_.isSome = true) :=
    ⟨hwrite, hacc, .inl heng⟩
  unfold State.shared
  split
  · rfl
  · exact if_pos hconfig

/-- Without a take-effect time such a write is refused with STATE and counts nothing. -/
theorem sharedFail_md0TimeBase (hwhen : q.when_ = none) : s.sharedFail writeTimeBase c rState = ⟨rState, 0, []⟩ := by
  obtain ⟨-, -, hnow, -, hcode⟩ := State.checks_fresh hchecks
  have hq := State.checks_q hchecks
  have hrefused : writeTimeBase c s = refuse rState :=
    writeTimeBase_md0_running (hcode.trans (md0TimeBase_of_checks hrow hchecks hinst).1) (hq ▸ hinst) heng hnow
  have hfills : ¬ (rState = rNoBillet ∧ s.n Attr.jrnJournalState 0 0 = 1) := fun h => absurd h.1 (by decide)
  simp only [State.sharedFail, perform, hq, hwhen, performNow, hrefused, refuse, sooner, lt_irrefl,
    if_neg hfills, ite_self]

end

end

/-! #### Counters and PTP instances (R364, R366, R372, R401) -/

section
variable {s : State} {t pp : ℕ}

/-- A counter that is off is not read (R364). -/
theorem pollOne_of_off {lo : ℕ} (h : s.tbState t = 0) : s.pollOne t lo = s := if_pos h

/-- A counter that runs is extended, and carries where its word has wrapped (R364). -/
theorem pollOne_of_on {lo : ℕ} (h : s.tbState t ≠ 0) (hlo : lo < 2 ^ 32) : s.pollOne t lo = s.setTb t { s.tbSt t with
    hi := ((s.tbSt t).hi + b2n (decide (lo < (s.tbSt t).lastLo))) % 2 ^ 32, lastLo := lo } := by
  have hword : lo % 4294967296 = lo := Nat.mod_eq_of_lt hlo
  unfold State.pollOne
  rw [if_neg h]
  by_cases hwrap : lo < (s.tbSt t).lastLo <;> simp [hword, hwrap, b2n]

/-- A PTP clock that does not run hears no Announce (R377). -/
theorem announceReceived_of_off {a : Announce} (h : s.ptpOn pp = false) : announceReceived pp a s = s :=
  if_pos (ne_true_of_eq_false h)

/-- An interval within bounds is not a bad one. -/
theorem not_bad_interval {x lo hi : ℤ} (hlo : lo ≤ x) (hhi : x ≤ hi) : ¬ (x < lo ∨ hi < x) :=
  not_or_intro hlo.not_gt hhi.not_gt

section
variable {a : Announce} (hon : s.ptpOn pp = true)
include hon

/-- An Announce of a bad interval is counted (R372). -/
theorem announceReceived_of_bad_interval (h : a.logInterval < -3 ∨ 3 < a.logInterval) :
    announceReceived pp a s = s.bump Attr.ptpBadMessages (0x100 + pp) 0 := by
  simp only [announceReceived, hon, not_true_eq_false, if_false, if_pos h]

variable (hlo : -3 ≤ a.logInterval) (hhi : a.logInterval ≤ 3)
include hlo hhi

/-- An Announce that has gone too far is dropped (R372). -/
theorem announceReceived_of_far (h : 255 ≤ a.steps) : announceReceived pp a s = s := by
  simp only [announceReceived, hon, not_true_eq_false, if_false, if_neg (not_bad_interval hlo hhi), if_pos h]

/-- The state in which PTP clock `pp` has heard `a` and follows `m`: its Announces count on from one master and grandmaster, and
its reference has the class and accuracy of `m` (R366, R372). -/
def State.following (s : State) (pp : ℕ) (a m : Announce) : State :=
  (((s.setPtp pp { s.ptp pp with
    masters := s.heardMasters pp a, follows := some m.sender
    announces := if (s.ptp pp).follows = some m.sender ∧ s.n Attr.ptpGrandmaster (0x100 + pp) 0 = m.grandmaster then
      (s.ptp pp).announces + b2n (m.sender == a.sender) else b2n (m.sender == a.sender) }).set Attr.ptpGrandmaster
    (0x100 + pp) 0 m.grandmaster).set Attr.refPtpClass (4 + pp) 0 m.clockClass).set Attr.refPtpAccuracy (4 + pp) 0 m.accuracy

/-- An Announce that is heard has the PTP clock follow the best master, from the start where master or grandmaster change
(R366, R372). -/
theorem announceReceived_of_heard {m : Announce} (hsteps : a.steps < 255)
    (hbest : bestMaster (s.heardMasters pp a) = some m) : announceReceived pp a s =
      ((if (s.ptp pp).follows ≠ some m.sender then (s.following pp a m).leaveSlave pp 8
        else if s.n Attr.ptpGrandmaster (0x100 + pp) 0 = m.grandmaster then s.following pp a m
        else (s.following pp a m).newGrandmaster pp).recheck (4 + pp)).chooseRef := by
  simp only [announceReceived, hon, not_true_eq_false, if_false, if_neg (not_bad_interval hlo hhi), if_neg hsteps.not_ge,
    hbest, State.following, Bool.and_eq_true, beq_iff_eq]
  by_cases hsame : (s.ptp pp).follows = some m.sender
  · simp only [hsame, true_and, not_true_eq_false, if_false, ne_eq]
  · simp only [hsame, not_false_eq_true, if_true, ne_eq]

end

/-- A PTP clock that runs and follows a master. -/
theorem not_following_iff : (¬ s.ptpOn pp = true ∨ (s.ptp pp).follows.isNone = true) ↔
    ¬ (s.ptpOn pp = true ∧ (s.ptp pp).follows ≠ none) := by
  rw [not_and_or, ne_eq, not_not, Option.isNone_iff_eq_none]

/-- A PTP clock that runs forgets its masters when their Announces stop (R366). -/
theorem announceReceiptTimeout_eq : announceReceiptTimeout pp s =
    if s.ptpOn pp = true ∧ (s.ptp pp).follows ≠ none then s.dropMasters pp 4 else s := by
  simp only [announceReceiptTimeout, not_following_iff, ite_not]

/-- A PTP clock that runs asks its master for a delay (R372). -/
theorem delayReq_eq : delayReq pp s =
    if s.ptpOn pp = true ∧ (s.ptp pp).follows ≠ none then
      (s.setPtp pp { s.ptp pp with reqSeq := ((s.ptp pp).reqSeq + 1) % 65536, reqOpen := true }).bump Attr.portTxFrames pp 0
    else s := by
  simp only [delayReq, not_following_iff, ite_not]

/-- A PTP clock that does not run takes no Sync (R377). -/
theorem syncReceived_of_off {t1 ht : ℕ} {l : List ℕ} {d : Option ℤ} {li : ℤ} (h : s.ptpOn pp = false) :
    syncReceived pp t1 ht l d li s = s := if_pos (ne_true_of_eq_false h)

section
variable {t1 ht : ℕ} {l : List ℕ} {d : Option ℤ} {li : ℤ} (hon : s.ptpOn pp = true)
include hon

/-- A Sync of a bad interval is counted (R372). -/
theorem syncReceived_of_bad_interval (h : li < -7 ∨ 1 < li) :
    syncReceived pp t1 ht l d li s = s.bump Attr.ptpBadMessages (0x100 + pp) 0 := by
  simp only [syncReceived, hon, not_true_eq_false, if_false, if_pos h]

/-- A Sync of no master that the PTP clock follows is dropped (R372). -/
theorem syncReceived_of_no_master (hlo : -7 ≤ li) (hhi : li ≤ 1) (h : (s.ptp pp).follows = none) :
    syncReceived pp t1 ht l d li s = s := by
  simp only [syncReceived, hon, not_true_eq_false, if_false, if_neg (not_bad_interval hlo hhi), h, Option.isNone_none, if_true]

/-- A Sync of the master is a sample of the reference of the PTP clock and, once the path delay is known, an event of every time
base that follows it (R335, R366, R372, R373). -/
theorem syncReceived_of_master (hlo : -7 ≤ li) (hhi : li ≤ 1) (h : (s.ptp pp).follows ≠ none) :
    syncReceived pp t1 ht l d li s =
      (let u := ((s.set Attr.ptpSyncInterval (0x100 + pp) 0 li).delayMeasured pp d).slaveFrom pp
       let master := (t1 : ℤ) + ((u.ptp pp).delay.getD 0) + u.a Attr.ptpAsymmetry (0x100 + pp) 0
       let w := u.phaseIn (4 + pp) 0 (syncRate li) (((ht : ℤ) - master) * 20) ht
       if (u.ptp pp).delay = none then w
       else (w.followers pp).foldl (fun x t => x.sourceEvent t master (l.getD t 0) ht) w) := by
  simp only [syncReceived, hon, not_true_eq_false, if_false, if_neg (not_bad_interval hlo hhi), Option.isNone_iff_eq_none, if_neg h]

end

/-- A link acts on the PTP clock of its port (R401). -/
theorem linkChange_eq (p : ℕ) (up : Bool) : linkChange p up s =
    if p < 4 then (s.set Attr.portLink p 0 (b2i up)).ptpEval p else s := by
  simp only [linkChange, ← not_lt, ite_not]

end

/-! #### Source events (R366 to R369) -/

section
variable {s : State} {t lo time : ℕ} {m : ℤ}

/-- A status bit of a time base leaves its state and whether it feeds MD0. -/
theorem tbBit_tbState (b : ℕ) (v : Bool) : (s.tbBit t b v).tbState t = s.tbState t :=
  tbBit_n s t b v (attrKey_ne_of_attr (by decide) (by decide) (by decide))

theorem tbBit_tbFeeds (b : ℕ) (v : Bool) (t' : ℕ) : (s.tbBit t b v).tbFeeds t' = s.tbFeeds t' := by
  have hmd0 : (s.tbBit t b v).md0Tb = s.md0Tb :=
    tbBit_n s t b v (attrKey_ne_of_attr (by decide) (by decide) (by decide))
  have heng : (s.tbBit t b v).engState = s.engState :=
    tbBit_n s t b v (attrKey_ne_of_attr (by decide) (by decide) (by decide))
  rw [State.tbFeeds, State.tbFeeds, hmd0, heng]

/-- A source that is ready sets the status bit; a free time base that feeds MD0 in RUN waits to step (R366). -/
theorem sourceReady_of_ready (ht : t < 8) (hon : s.tbState t ≠ 0) (hready : s.sourceIsReady t = true) : sourceReady t s =
    if s.tbState t = 1 ∧ s.tbFeeds t = true then
      ((s.tbBit t 0 true).set Attr.tbState t 0 2).logAt sevNotice Attr.tbState t 0 else s.tbBit t 0 true := by
  have hstands : ¬ (8 ≤ t ∨ s.tbState t = 0 ∨ ¬ s.sourceIsReady t = true) :=
    not_or_intro ht.not_ge (not_or_intro hon (not_not_intro hready))
  simp only [sourceReady, if_neg hstands, tbBit_tbState, tbBit_tbFeeds]

/-- A source that is not ready changes nothing. -/
theorem sourceReady_of_not_ready (h : 8 ≤ t ∨ s.tbState t = 0 ∨ s.sourceIsReady t = false) : sourceReady t s = s :=
  if_pos (h.imp_right (Or.imp_right ne_true_of_eq_false))

/-- A source event notes its time and the offset, and leaves every other value. -/
theorem eventIn_n {code inst : ℕ} (h : code % 256 ≠ Attr.tbOffset % 256) :
    (s.eventIn t m lo time).n code inst 0 = s.n code inst 0 :=
  State.n_set_ne _ _ (attrKey_ne_of_attr h.symm (by decide) (by decide))

theorem eventIn_tbState : (s.eventIn t m lo time).tbState t = s.tbState t := eventIn_n (by decide)

theorem eventIn_tbFeeds : (s.eventIn t m lo time).tbFeeds t = s.tbFeeds t := by
  have hmd0 : (s.eventIn t m lo time).md0Tb = s.md0Tb := eventIn_n (by decide)
  have heng : (s.eventIn t m lo time).engState = s.engState := eventIn_n (by decide)
  rw [State.tbFeeds, State.tbFeeds, hmd0, heng]

/-- A time base that is off takes no source event (R366). -/
theorem sourceEvent_of_off (h : s.tbState t = 0) : s.sourceEvent t m lo time = s := if_pos h

/-- A time base that is to step to its source does so at the event (R369). -/
theorem sourceEvent_of_restep (hon : s.tbState t ≠ 0) (h : (s.tbSt t).restep = true) : s.sourceEvent t m lo time =
    (s.eventIn t m lo time).stepTb t (s.extend t lo - m) Attr.tbRestep := by
  simp only [State.sourceEvent, if_neg hon, h, if_true]

/-- The first event of a ready free time base steps it, or has it wait where it feeds MD0 in RUN (R366). -/
theorem sourceEvent_of_free (hfree : s.tbState t = 1) (h : (s.tbSt t).restep = false) : s.sourceEvent t m lo time =
    if bit (s.n Attr.tbStatus t 0) 0 = false then s.eventIn t m lo time
    else if s.tbFeeds t = false then (s.eventIn t m lo time).stepTb t (s.extend t lo - m) Attr.tbState
    else ((s.eventIn t m lo time).set Attr.tbState t 0 2).logAt sevNotice Attr.tbState t 0 := by
  have hstatus : (s.eventIn t m lo time).n Attr.tbStatus t 0 = s.n Attr.tbStatus t 0 := eventIn_n (by decide)
  simp only [State.sourceEvent, h, Bool.false_eq_true, if_false, eventIn_tbState, eventIn_tbFeeds, hfree, hstatus]
  cases bit (s.n Attr.tbStatus t 0) 0 <;> cases s.tbFeeds t <;> simp

/-- An event of a synchronised time base runs its servo over the time since the last (R368). -/
theorem sourceEvent_of_sync {u : ℕ} (hsync : s.tbState t = 3) (h : (s.tbSt t).restep = false)
    (hlast : (s.tbSt t).lastEvent = some u) : s.sourceEvent t m lo time =
      (s.eventIn t m lo time).servo t (s.extend t lo - m) ((time : ℤ) - u) := by
  simp only [State.sourceEvent, h, Bool.false_eq_true, if_false, eventIn_tbState, hsync, OfNat.ofNat_ne_zero, hlast]

/-- An event beyond the capture limit leaves a time base that holds in HOLD, with its status bit set (R370). -/
theorem sourceEvent_beyond_capture (hhold : s.tbState t = 4) (h : (s.tbSt t).restep = false)
    (hready : bit (s.n Attr.tbStatus t 0) 0 = true)
    (hbeyond : s.n Attr.tbCaptureLimit t 0 < (s.extend t lo - m).natAbs) :
    s.sourceEvent t m lo time = (s.eventIn t m lo time).tbBit t 1 true := by
  have hstatus : (s.eventIn t m lo time).n Attr.tbStatus t 0 = s.n Attr.tbStatus t 0 := eventIn_n (by decide)
  have hlimit : (s.eventIn t m lo time).n Attr.tbCaptureLimit t 0 = s.n Attr.tbCaptureLimit t 0 := eventIn_n (by decide)
  simp only [State.sourceEvent, h, Bool.false_eq_true, if_false, eventIn_tbState, hhold, OfNat.ofNat_ne_zero, hstatus, hready,
    not_true_eq_false, hlimit, if_neg hbeyond.not_ge]

end

end Sys2Proof.Machine

open Sys2Proof Sys2Proof.Machine

/-- Settles O38: each request by the tests of its effect, MD0's by the checks of its row; each event by the state of its time
base, counter or PTP clock. -/
theorem timeBasesAct : Obligations.TimeBasesAct := by
  unfold Obligations.TimeBasesAct
  refine ⟨⟨?held, ?enabled, ?disabled, ?named, ?source, ?toSource, ?toTime, ?notTo, ?barred, ?rate, ?beyond, ?sourced,
      ?same, ?domain, ?md0, ?md0Running, ?md0Rate⟩,
    ?poll, ?pollOn, ?pollOff, ?deaf, ?badAnnounce, ?far, ?heard, ?timeout, ?delayReq, ?ready, ?notReady, ?noSync, ?badSync,
    ?noMaster, ?sync, ?off, ?restep, ?free, ?servo, ?beyondCapture, ?link⟩
  case held =>
    exact performs_of_effect (eff := writeTimeBaseEnable) (fun _ _ => rfl) fun c u _ _ _ _ ⟨hsame, hallowed⟩ => by
      rw [writeTimeBaseEnable_of_allowed hallowed, if_pos hsame, ok]
  case enabled =>
    refine performs_of_effect (eff := writeTimeBaseEnable) (fun _ _ => rfl) fun c u _ _ _ _ ⟨harg, hnew⟩ => ?_
    have hallowed : c.arg = 0 → u.tbNamed c.q.inst = false := fun h => by omega
    rw [writeTimeBaseEnable_of_allowed hallowed, if_neg (harg ▸ hnew), if_pos harg, ok]
  case disabled =>
    refine performs_of_effect (eff := writeTimeBaseEnable) (fun _ _ => rfl) fun c u _ _ _ _ ⟨harg, hfree, hnew⟩ => ?_
    have hone : c.arg ≠ 1 := by omega
    rw [writeTimeBaseEnable_of_allowed fun _ => hfree, if_neg (harg ▸ hnew), if_neg hone, ok]
  case named =>
    exact refuses_of_effect (eff := writeTimeBaseEnable) (fun _ _ => rfl) fun _ _ _ _ hnow _ ⟨harg, hnamed⟩ =>
      writeTimeBaseEnable_of_named harg hnamed hnow
  case source => exact performs_of_effect (eff := writeSource) (fun _ _ => rfl) fun _ _ _ _ _ _ _ => rfl
  case toSource =>
    exact performs_of_effect (eff := restep) (fun _ _ => rfl)
      fun _ _ _ _ _ _ ⟨hfeeds, hoff, hwaits, harg, hsrc, hslave⟩ => restep_to_source ⟨hfeeds, hoff, hwaits⟩ harg hsrc hslave
  case toTime =>
    exact performs_of_effect (eff := restep) (fun _ _ => rfl) fun _ _ _ _ _ _ ⟨hfeeds, hoff, hwaits, harg, hsrc⟩ =>
      restep_to_time ⟨hfeeds, hoff, hwaits⟩ harg hsrc
  case notTo =>
    refine refuses_of_effect (eff := restep) (fun _ _ => rfl) fun c u _ _ _ _ ⟨hfeeds, hoff, hwaits, h⟩ => ?_
    have hmay : u.mayRestep c.q.inst := ⟨hfeeds, hoff, hwaits⟩
    rcases h with ⟨harg, hno⟩ | ⟨harg, hsrc⟩
    · exact restep_to_source_refused hmay harg hno
    · exact restep_to_time_refused hmay harg hsrc
  case barred => exact refuses_of_effect (eff := restep) (fun _ _ => rfl) fun _ _ _ _ _ _ h => restep_of_barred h
  case rate =>
    exact performs_of_effect (eff := writeRate) (fun _ _ => rfl) fun _ _ _ _ _ _ ⟨h, hsrc⟩ => writeRate_of_free h hsrc
  case beyond => exact refuses_of_effect (eff := writeRate) (fun _ _ => rfl) fun _ _ _ _ _ _ h => writeRate_of_beyond h
  case sourced =>
    exact refuses_of_effect (eff := writeRate) (fun _ _ => rfl) fun _ _ _ _ hnow _ ⟨h, hsrc⟩ =>
      writeRate_of_sourced h hsrc hnow
  case same =>
    exact performs_of_effect (eff := writeTimeBase) (fun _ _ => rfl) fun c u _ _ _ _ ⟨hallowed, hsame⟩ => by
      rw [writeTimeBase_of_allowed hallowed, if_pos hsame, ok]
  case domain =>
    exact performs_of_effect (eff := writeTimeBase) (fun _ _ => rfl) fun c u _ _ _ _ ⟨hinst, hnew⟩ => by
      rw [writeTimeBase_of_allowed (.inl hinst), if_neg hnew, if_neg hinst, ok]
  case md0 =>
    exact performs_of_effect (eff := writeTimeBase) (fun _ _ => rfl) fun c u _ _ _ _ ⟨hinst, hcode, heng, hnew⟩ => by
      rw [writeTimeBase_of_allowed (.inr ⟨hcode, heng⟩), if_neg hnew, if_pos hinst, ok]
  case md0Running =>
    intro s q v k c hrow htake hauth hchecks hinst heng
    refine ⟨congrArg Host.Outcome.next ?_, sharedFail_md0TimeBase hrow hchecks hinst heng⟩
    exact (serve_of_pass hrow htake hauth).trans
      (answer_of_error (operate_of_shared hchecks (shared_md0TimeBase hrow hchecks hinst heng)))
  case md0Rate =>
    intro s q v k hrow htake hauth hformed hop hinst hcode
    refine congrArg Host.Outcome.next ?_
    exact (serve_of_pass hrow htake hauth).trans
      (answer_of_error (operate_of_checks_error (checks_md0Rate hformed hop hinst hcode)))
  case poll => exact fun _ _ => rfl
  case pollOn => exact fun s t lo => pollOne_of_on
  case pollOff => exact fun s t lo => pollOne_of_off
  case deaf => exact fun s pp a h => congrArg Host.Outcome.next (announceReceived_of_off h)
  case badAnnounce => exact fun s pp a hon h => congrArg Host.Outcome.next (announceReceived_of_bad_interval hon h)
  case far => exact fun s pp a hon hlo hhi h => congrArg Host.Outcome.next (announceReceived_of_far hon hlo hhi h)
  case heard =>
    exact fun s pp a m hon hlo hhi hsteps hbest =>
      congrArg Host.Outcome.next (announceReceived_of_heard hon hlo hhi hsteps hbest)
  case timeout => exact fun s pp => congrArg Host.Outcome.next announceReceiptTimeout_eq
  case delayReq => exact fun s pp => congrArg Host.Outcome.next delayReq_eq
  case ready => exact fun s t ht hon h => congrArg Host.Outcome.next (sourceReady_of_ready ht hon h)
  case notReady => exact fun s t h => congrArg Host.Outcome.next (sourceReady_of_not_ready h)
  case noSync => exact fun s pp t1 ht l d li h => congrArg Host.Outcome.next (syncReceived_of_off h)
  case badSync => exact fun s pp t1 ht l d li hon h => congrArg Host.Outcome.next (syncReceived_of_bad_interval hon h)
  case noMaster =>
    exact fun s pp t1 ht l d li hon hlo hhi h => congrArg Host.Outcome.next (syncReceived_of_no_master hon hlo hhi h)
  case sync =>
    exact fun s pp t1 ht l d li hon hlo hhi h => congrArg Host.Outcome.next (syncReceived_of_master hon hlo hhi h)
  case off => exact fun s t m lo time => sourceEvent_of_off
  case restep => exact fun s t m lo time => sourceEvent_of_restep
  case free => exact fun s t m lo time => sourceEvent_of_free
  case servo => exact fun s t m lo time u => sourceEvent_of_sync
  case beyondCapture => exact fun s t m lo time => sourceEvent_beyond_capture
  case link => exact fun s p up => congrArg Host.Outcome.next (linkChange_eq p up)
end

/-! ### Serial audio ports

Slots, frames, slips, faults and recovery (R382, R386 to R391). -/

section
namespace Sys2Proof.Machine

/-! #### Slots (R382) -/

/-- A number within the range of its bits is read back from them. -/
theorem signed_toBits {bits : ℕ} {x : ℤ} (hlo : -((2 ^ bits : ℕ) : ℤ) ≤ 2 * x) (hhi : 2 * x < ((2 ^ bits : ℕ) : ℤ)) :
    signed bits (toBits bits x) = x := by
  unfold signed toBits
  generalize 2 ^ bits = p at hlo hhi
  obtain hneg | hpos := lt_or_ge x 0
  · have hmod : x % (p : ℤ) = x + p := by
      rw [← Int.add_emod_right, Int.emod_eq_of_lt (by omega) (by omega)]
    rw [hmod, Nat.mod_eq_of_lt (by omega)]
    dsimp only
    split <;> omega
  · rw [Int.emod_eq_of_lt hpos (by omega), Nat.mod_eq_of_lt (by omega)]
    dsimp only
    split <;> omega

/-- A slot of 24 bits carries S24 as it is, both ways. -/
theorem slotIn_slotOut_24 {x : ℤ} (hlo : -8388608 ≤ x) (hhi : x ≤ 8388607) : slotIn 24 (slotOut 24 x) = x := by
  simp only [slotIn, slotOut, Nat.reduceEqDiff, if_false, if_true]
  exact signed_toBits (by norm_num; omega) (by norm_num; omega)

/-- A slot of 16 bits holds the upper 16. -/
theorem slotIn_16 {x : ℤ} (hlo : -32768 ≤ x) (hhi : x ≤ 32767) : slotIn 16 x = x * 256 := by
  simp only [slotIn, if_true]
  rw [signed_toBits (by norm_num; omega) (by norm_num; omega)]

/-- A slot of 32 bits holds the sample in its upper 24. -/
theorem slotIn_32 {x : ℤ} (hlo : -2147483648 ≤ x) (hhi : x ≤ 2147483647) : slotIn 32 x = x / 256 := by
  have hupper : toBits 32 x / 256 = toBits 24 (x / 256) := by
    simp only [toBits]
    norm_num
    omega
  simp only [slotIn, Nat.reduceEqDiff, if_false, hupper]
  exact signed_toBits (by norm_num; omega) (by norm_num; omega)

/-- What leaves in a slot of 16 bits is cut to them. -/
theorem slotOut_16 (x : ℤ) : slotOut 16 x % 256 = 0 ∧ slotOut 16 x ≤ x ∧ x < slotOut 16 x + 256 := by
  simp only [slotOut, if_true]
  omega

/-! #### Frames (R386, R389, R391) -/

section
variable {s : State} {n : ℕ} {a b d o : ℤ} {g : Bool}

/-- A frame met leaves the state of its port. -/
theorem frameMet_sapSt : (s.frameMet n o g).sapSt n = s.sapSt n := by
  have hrate (v : ℤ) : (s.set Attr.sapRateOffset n 0 v).sapSt n = s.sapSt n :=
    State.n_set_ne s v (attrKey_ne_of_attr (by decide) (by decide) (by decide))
  have hglitch (t : State) : (t.bump Attr.sapWsGlitches n 0).sapSt n = t.sapSt n :=
    State.n_bump_ne t (attrKey_ne_of_attr (by decide) (by decide) (by decide))
  have hsent (t : State) (x : SapSt) : ((t.setPort n x).sendFrame n).sapSt n = t.sapSt n := rfl
  unfold State.frameMet
  dsimp only
  rw [hsent]
  split
  · rw [hglitch, hrate]
  · rw [hrate]

/-- A frame met by a port that is its own master is never off, and has no rate offset (R389). -/
theorem frameMet_of_master (h : s.sapSlave n = false) : s.frameMet n o g =
    ((s.set Attr.sapRateOffset n 0 0).setPort n { s.port n with
      good := (s.port n).good + 1, near := (s.port n).near + 1, far := 0 }).sendFrame n := by
  simp only [State.frameMet, h, Bool.false_and, Bool.false_eq_true, if_false]
  rfl

section
variable (h : s.sapSlave n = true)
include h

/-- A frame met by a slave counts towards its recovery, and as near or far by its rate (R389, R390). -/
theorem frameMet_of_slave : s.frameMet n o false =
    ((s.set Attr.sapRateOffset n 0 (clampInt (-2147483648) 2147483647 o)).setPort n { s.port n with
      good := (s.port n).good + 1
      near := if 100000000 + o < 50 * o.natAbs then 0 else (s.port n).near + 1
      far := if 100000000 + o < 50 * o.natAbs then (s.port n).far + 1 else 0 }).sendFrame n := by
  simp only [State.frameMet, h, Bool.true_and, Bool.false_or, Bool.false_eq_true, if_false, if_true, decide_eq_true_eq]
  rfl

/-- A glitch of a slave is counted and starts its recovery anew (R391). -/
theorem frameMet_of_glitch : s.frameMet n o true =
    (((s.set Attr.sapRateOffset n 0 (clampInt (-2147483648) 2147483647 o)).bump Attr.sapWsGlitches n 0).setPort n
      { s.port n with good := 0, near := 0, far := (s.port n).far + 1 }).sendFrame n := by
  have hport (v : ℤ) : ((s.set Attr.sapRateOffset n 0 v).bump Attr.sapWsGlitches n 0).port n = s.port n := by
    simp only [State.port, State.bump_sap, State.set_sap]
  simp only [State.frameMet, h, Bool.true_and, Bool.true_or, if_true, hport]

end

/-- A port that is off, or does not exist, meets no frame (R386). -/
theorem sapFrame_of_off (h : 32 ≤ n ∨ s.sapSt n = 0) : sapFrame n a b d o g s = s := if_pos h

/-- The samples of a frame as its port takes them: a glitched frame of a slave repeats the last (R391). -/
def State.frameGot (s : State) (n : ℕ) (a b : ℤ) (g : Bool) : ℤ × ℤ :=
  if s.sapSlave n = true ∧ g = true then (s.port n).last else (slotIn (s.n Attr.sapSlot n 0) a, slotIn (s.n Attr.sapSlot n 0) b)

section
variable (hn : n < 32)
include hn

/-- A centring port keeps the last two samples (R388). -/
theorem sapFrame_of_centring (h : s.sapSt n = 1) : sapFrame n a b d o g s =
    (let u := s.frameMet n o g
     u.setPort n { u.port n with
       rx := ((u.port n).rx ++ [s.frameGot n a b g]).drop ((u.port n).rx.length + 1 - 2), last := s.frameGot n a b g }) := by
  simp only [sapFrame, h, not_or_intro hn.not_ge one_ne_zero, if_false, frameMet_sapSt, Bool.and_eq_true, State.frameGot]

/-- A running port takes the frame into its buffer (R386). -/
theorem sapFrame_of_running (h : s.sapSt n = 2) :
    sapFrame n a b d o g s = (s.frameMet n o g).bufferFrame n (s.frameGot n a b g) d := by
  simp only [sapFrame, h, not_or_intro hn.not_ge two_ne_zero, if_false, frameMet_sapSt, Bool.and_eq_true, State.frameGot]

/-- A faulted or mismatched port meets the frame and takes nothing of it (R389). -/
theorem sapFrame_of_faulted (h : s.sapSt n = 3 ∨ s.sapSt n = 4) : sapFrame n a b d o g s = s.frameMet n o g := by
  rcases h with h | h <;>
    simp only [sapFrame, h, not_or_intro hn.not_ge (OfNat.ofNat_ne_zero _), if_false, frameMet_sapSt]

end

end

/-! #### Slips (R387) -/

section
variable {s : State} {n : ℕ} {p : ℤ × ℤ} {d : ℤ}

/-- A port without a slip buffer, and any port while the tick stands, passes its frames (R385, R386). -/
theorem bufferFrame_of_unbuffered (h : s.sapBuffered n = false ∨ s.ticking = false) :
    s.bufferFrame n p d = s.passFrame n p := by
  unfold State.bufferFrame
  split
  · rfl
  next hbuffered =>
    exact if_pos (ne_true_of_eq_false (h.resolve_left (mt ne_true_of_eq_false hbuffered)))

/-- The distance of a port, where it has been set. -/
theorem distance_set (x : ℤ) : (s.set Attr.sapDistance n 0 x).a Attr.sapDistance n 0 = x := State.a_set_self s _ _ _ _

/-- A frame that passes leaves the distance. -/
theorem passFrame_distance : (s.passFrame n p).a Attr.sapDistance n 0 = s.a Attr.sapDistance n 0 := rfl

/-- A slow slip takes the distance up by a frame, a fast one down (R387). -/
theorem slipPort_distance (slow : Bool) : (s.slipPort n slow).a Attr.sapDistance n 0 =
    if slow then s.a Attr.sapDistance n 0 + 256 else s.a Attr.sapDistance n 0 - 256 := by
  cases slow with
  | true =>
    exact (State.a_bump_ne _ (attrKey_ne_of_attr (by decide) (by decide) (by decide))).trans (State.a_set_self ..)
  | false =>
    exact (State.a_bump_ne _ (attrKey_ne_of_attr (by decide) (by decide) (by decide))).trans (State.a_set_self ..)

/-- The distance of a port does not decide whether the engine is of a pair. -/
theorem paired_set_distance (x : ℤ) : (s.set Attr.sapDistance n 0 x).paired = s.paired := by
  have hrole : (s.set Attr.sapDistance n 0 x).role = s.role :=
    State.n_set_ne s x (attrKey_ne_of_attr (by decide) (by decide) (by decide))
  rw [State.paired, State.paired, hrole]

section
variable (hbuffered : s.sapBuffered n = true) (htick : s.ticking = true) (hgroup : s.sapGroupOf n = 0xFF)
include hbuffered htick hgroup

/-- Within its bounds a buffered port takes the frame and its distance moves (R386). -/
theorem bufferFrame_within {x : ℤ} (hx : x = s.a Attr.sapDistance n 0 + d) (hlo : 128 ≤ x) (hhi : x ≤ 896) :
    s.bufferFrame n p d = (s.set Attr.sapDistance n 0 x).passFrame n p := by
  have hslip : slipOf x = none := by rw [slipOf, if_neg hlo.not_gt, if_neg hhi.not_gt]
  simp only [State.bufferFrame, hbuffered, htick, hgroup, ← hx, beq_self_eq_true, Bool.true_or, if_true, hslip,
    not_true_eq_false, if_false, passFrame_distance, distance_set]
  rw [if_neg (by omega), if_neg (by omega)]

/-- Below 0.5 a buffered port of no pair slips slow before it takes the frame, and faults below 0 (R387). -/
theorem bufferFrame_slow {x : ℤ} (hpair : s.paired = false) (hx : x = s.a Attr.sapDistance n 0 + d)
    (hlo : x < 128) : s.bufferFrame n p d =
      (let w := ((s.set Attr.sapDistance n 0 x).slipPort n true).passFrame n p
       if x < -256 then w.sapFault n 1 else w) := by
  simp only [State.bufferFrame, hbuffered, htick, hgroup, ← hx, beq_self_eq_true, Bool.true_or, if_true,
    (slipOf_slow x).mpr hlo, not_true_eq_false, if_false, paired_set_distance, hpair, Bool.false_eq_true,
    passFrame_distance, slipPort_distance, distance_set]
  rw [if_neg (show ¬ 1024 < x + 256 by omega)]
  exact if_congr (by omega) rfl rfl

/-- Above 3.5 a buffered port of no pair slips fast once it has taken the frame, and faults above 4 (R387). -/
theorem bufferFrame_fast {x : ℤ} (hpair : s.paired = false) (hx : x = s.a Attr.sapDistance n 0 + d)
    (hhi : 896 < x) : s.bufferFrame n p d =
      (let w := ((s.set Attr.sapDistance n 0 x).passFrame n p).slipPort n false
       if 1280 < x then w.sapFault n 3 else w) := by
  simp only [State.bufferFrame, hbuffered, htick, hgroup, ← hx, beq_self_eq_true, Bool.true_or, if_true,
    (slipOf_fast x).mpr hhi, not_true_eq_false, if_false, paired_set_distance, hpair, Bool.false_eq_true,
    passFrame_distance, slipPort_distance, distance_set]
  rw [if_neg (show ¬ x - 256 < 0 by omega)]
  exact if_congr (by omega) rfl rfl

end

end

/-! #### Faults and recovery (R389, R390, R394) -/

section
variable {s : State} {n : ℕ} {k : ℤ}

/-- Only a port that centres or runs faults (R389). -/
theorem sapFault_of_idle {why : ℕ} (hcentring : s.sapSt n ≠ 1) (hrunning : s.sapSt n ≠ 2) : s.sapFault n why = s :=
  if_pos ⟨hcentring, hrunning⟩

/-- A slave whose clock stops faults, and its recovery starts anew (R389). -/
theorem clockStopped_of_slave (h : s.sapSlave n = true) (hon : (s.sapFault n 2).sapSt n ≠ 0) : clockStopped n s =
    (s.sapFault n 2).setPort n { (s.sapFault n 2).port n with good := 0, near := 0, far := 0 } := by
  simp only [clockStopped, h, not_true_eq_false, if_false, if_neg hon]

/-- A clock that stops is nothing to a port that is its own master or is off (R389). -/
theorem clockStopped_of_idle (h : s.sapSlave n = false ∨ s.sapSt n = 0) : clockStopped n s = s := by
  unfold clockStopped
  split
  · rfl
  next hslave =>
    have hoff : s.sapSt n = 0 := h.resolve_left (mt ne_true_of_eq_false hslave)
    have hfault : s.sapFault n 2 = s := sapFault_of_idle (by simp [hoff]) (by simp [hoff])
    rw [hfault]
    exact if_pos hoff

/-- The clock of a faulted port has been good for long enough (R390). -/
def State.clockRecovered (s : State) (n : ℕ) : Prop :=
  if (s.port n).fault = 4 then 64 ≤ (s.port n).near else 16 ≤ (s.port n).good

/-- What PORT_RECOVERY tests for is that a faulted port has recovered. -/
theorem not_recovered_iff : (s.sapSt n ≠ 3 ∨ ¬ (if (s.port n).fault = 4 then decide (64 ≤ (s.port n).near)
      else decide (16 ≤ (s.port n).good)) = true) ↔ s.sapSt n ≠ 3 ∨ ¬ s.clockRecovered n := by
  unfold State.clockRecovered
  split <;> rw [decide_eq_true_eq]

/-- A port that has not recovered stays as it is (R390). -/
theorem portRecovery_of_not_recovered (h : s.sapSt n ≠ 3 ∨ ¬ s.clockRecovered n) : portRecovery n k s = s :=
  if_pos (not_recovered_iff.mpr h)

section
variable (hfaulted : s.sapSt n = 3) (hgood : s.clockRecovered n)
include hfaulted hgood

theorem not_unrecovered : ¬ (s.sapSt n ≠ 3 ∨ ¬ (if (s.port n).fault = 4 then decide (64 ≤ (s.port n).near)
      else decide (16 ≤ (s.port n).good)) = true) :=
  mt not_recovered_iff.mp (not_or_intro (not_not_intro hfaulted) (not_not_intro hgood))

/-- A recovered port without a group that runs centres (R390). -/
theorem portRecovery_alone (h : s.sapGroupOf n = 0xFF ∨ s.groupRef (s.sapGroupOf n) = none) :
    portRecovery n k s = s.centrePort n := by
  have href : (if s.sapGroupOf n = 0xFF then none else s.groupRef (s.sapGroupOf n)) = none := by
    rcases h with h | h
    · exact if_pos h
    · rw [h, ite_self]
  simp only [portRecovery, if_neg (not_unrecovered hfaulted hgood), href]

/-- A recovered port joins its group at the distance of the reference and its skew, where that is within bounds (R394). -/
theorem portRecovery_in_group {r : ℕ} {d : ℤ} (hgroup : s.sapGroupOf n ≠ 0xFF) (href : s.groupRef (s.sapGroupOf n) = some r)
    (hd : d = (if r < 0x1000 then s.a Attr.sapDistance r 0 else s.a Attr.rxDistance (r - 0x1000) 0) + k) :
    portRecovery n k s =
      (if d < 128 ∨ 896 < d then
         if (s.port n).warned = true then s
         else (s.setPort n { s.port n with warned := true }).logAt sevWarning Attr.sapState n 0
       else ((((s.setPort n { s.port n with
           rx := []
           tx := List.replicate (if s.sapBuffered n then ((1024 - d) / 256).toNat else 0) (0, 0)
           fault := 0, warned := false, fresh := true }).set Attr.sapDistance n 0 d).set Attr.sapState n 0 2).resumePort n)) := by
  simp only [portRecovery, if_neg (not_unrecovered hfaulted hgood), if_neg hgroup, href, ← hd]

end

end

end Sys2Proof.Machine

open Sys2Proof Sys2Proof.Machine

/-- Settles O39: a frame by the state of its port, a slip by the distance it leaves, a fault and a recovery by their tests. -/
theorem portFramesAct : Obligations.PortFramesAct := by
  unfold Obligations.PortFramesAct
  refine ⟨⟨?slot24, ?slot16, ?slot32, ?out16⟩, ?off, ?centring, ?running, ?faulted, ?master, ?slave, ?glitch, ?passes, ?within,
    ?slow, ?fast, ?slipSlow, ?slipFast, ?asksSlow, ?asksFast, ?noFault, ?stopped, ?notStopped, ?far, ?notFar, ?alone, ?group,
    ?unrecovered, ?centred, ?notCentring⟩
  case slot24 => exact fun _ => slotIn_slotOut_24
  case slot16 => exact fun _ => slotIn_16
  case slot32 => exact fun _ => slotIn_32
  case out16 => exact slotOut_16
  case off => exact fun s n a b d o g h => congrArg Host.Outcome.next (sapFrame_of_off h)
  case centring => exact fun s n a b d o g hn h => congrArg Host.Outcome.next (sapFrame_of_centring hn h)
  case running => exact fun s n a b d o g hn h => congrArg Host.Outcome.next (sapFrame_of_running hn h)
  case faulted => exact fun s n a b d o g hn h => congrArg Host.Outcome.next (sapFrame_of_faulted hn h)
  case master => exact fun s n o g => frameMet_of_master
  case slave => exact fun s n o => frameMet_of_slave
  case glitch => exact fun s n o => frameMet_of_glitch
  case passes => exact fun s n p d => bufferFrame_of_unbuffered
  case within =>
    exact fun s n p d _ hbuffered htick hgroup hlo hhi => bufferFrame_within hbuffered htick hgroup rfl hlo hhi
  case slow =>
    exact fun s n p d x _ hbuffered htick hgroup hpair hx hlo => bufferFrame_slow hbuffered htick hgroup hpair hx hlo
  case fast =>
    exact fun s n p d x _ hbuffered htick hgroup hpair hx hhi => bufferFrame_fast hbuffered htick hgroup hpair hx hhi
  case slipSlow => exact fun _ _ => rfl
  case slipFast => exact fun _ _ => rfl
  case asksSlow => exact slipOf_slow
  case asksFast => exact slipOf_fast
  case noFault => exact fun s n why => sapFault_of_idle
  case stopped => exact fun s n h hon => congrArg Host.Outcome.next (clockStopped_of_slave h hon)
  case notStopped => exact fun s n h => congrArg Host.Outcome.next (clockStopped_of_idle h)
  case far => exact fun s n h => congrArg Host.Outcome.next (if_pos h)
  case notFar => exact fun s n h => congrArg Host.Outcome.next (if_neg h.not_ge)
  case alone => exact fun s n k hfaulted hgood h => congrArg Host.Outcome.next (portRecovery_alone hfaulted hgood h)
  case group =>
    exact fun s n k r d hfaulted hgood hgroup href hd =>
      congrArg Host.Outcome.next (portRecovery_in_group hfaulted hgood hgroup href hd)
  case unrecovered => exact fun s n k h => congrArg Host.Outcome.next (portRecovery_of_not_recovered h)
  case centred => exact fun s n h => congrArg Host.Outcome.next (if_pos h)
  case notCentring => exact fun s n h => congrArg Host.Outcome.next (if_neg h)
end

/-! ### Requests of ports, streams and Weld bindings

Enabled or refused by their domain, their settings and the admission of ports (R384, R392, R417, R419, R428). -/

section
namespace Sys2Proof.Machine

variable {c : Ctx} {u : State}

/-! #### Ports -/

/-- A setting of a port that its rule refuses (R384, R392). -/
theorem writeSapSetting_of_bad (hbad : u.sapBad c.code c.q.inst c.arg.toNat = true) (hnow : c.atOnce = false) :
    writeSapSetting c u = refuse rState := if_pos ⟨hbad, ne_true_of_eq_false hnow⟩

/-- Any other setting of a port is stored and has the port looked at again; a running port whose domain changes centres
again (R384). -/
theorem writeSapSetting_of_allowed (hbad : u.sapBad c.code c.q.inst c.arg.toNat = false) : writeSapSetting c u =
    (let w := (u.store c).sapEval c.q.inst
     ok (if c.code = Attr.sapDomain ∧ u.n c.code c.q.inst 0 ≠ c.arg.toNat ∧ (w.sapSt c.q.inst = 2 ∨ w.sapSt c.q.inst = 3) then
       w.centrePort c.q.inst else w)) :=
  if_neg fun h => ne_true_of_eq_false hbad h.1

/-! #### Streams -/

/-- The attributes of the kind of stream that a write is of. -/
def Ctx.streamAttrs (c : Ctx) : StreamAttrs := if c.code / 256 = 0x61 then rxAttrs else txAttrs

/-- A setting of a stream may be written: it is the enable or the stream is disabled, a receive stream keeps the domain of its
group, and a stream is enabled in a domain that is (R392, R417). -/
def State.streamWritable (u : State) (c : Ctx) : Prop :=
  (c.code = c.streamAttrs.enable ∨ u.n c.streamAttrs.enable c.q.inst 0 ≠ 1) ∧
  (c.code / 256 = 0x61 → c.code = c.streamAttrs.domain → u.rxGroupOf c.q.inst = 0xFF ∨
    (u.groupDomains (u.rxGroupOf c.q.inst) none (some c.q.inst)).any (· != c.arg.toNat) = false) ∧
  (c.code = c.streamAttrs.enable → c.arg.toNat = 1 → u.n Attr.mdEnable (u.n c.streamAttrs.domain c.q.inst 0) 0 = 1)

/-- The settings of an enabled stream stand still (R417). -/
theorem writeStream_of_enabled (hnow : c.atOnce = false) (hcode : c.code ≠ c.streamAttrs.enable)
    (hon : u.n c.streamAttrs.enable c.q.inst 0 = 1) : writeStream c u = refuse rState := by
  simp only [Ctx.streamAttrs] at hcode hon
  simp only [writeStream, hnow, Bool.false_eq_true, if_false, decide_eq_true_eq, if_pos (And.intro hcode hon)]

section
variable (hnow : c.atOnce = false) (hwritable : u.streamWritable c)
include hnow hwritable

/-- What may be written of a stream goes by the size of its packets and the admission of the ports (R417, R430). -/
theorem writeStream_of_writable : writeStream c u =
    if 1460 < (u.store c).payload c.streamAttrs c.q.inst then refuse rRange
    else if c.code = c.streamAttrs.enable ∧ ¬ (u.store c).netAdmits = true then refuse rAdmission
    else ok (if c.code / 256 = 0x61 then (u.store c).rxEval c.q.inst else (u.store c).txEval c.q.inst) := by
  obtain ⟨hfixed, hgroup, hdomain⟩ := hwritable
  have hstill : ¬ (c.code ≠ c.streamAttrs.enable ∧ u.n c.streamAttrs.enable c.q.inst 0 = 1) :=
    fun ⟨hcode, hon⟩ => hfixed.elim hcode (· hon)
  have hother : ¬ (c.code = c.streamAttrs.domain ∧ c.code / 256 = 0x61 ∧ u.rxGroupOf c.q.inst ≠ 0xFF ∧
      (u.groupDomains (u.rxGroupOf c.q.inst) none (some c.q.inst)).any (· != c.arg.toNat) = true) :=
    fun ⟨hcode, hrx, hmember, hany⟩ => (hgroup hrx hcode).elim hmember (ne_true_of_eq_false · hany)
  have hdisabled : ¬ (c.code = c.streamAttrs.enable ∧ c.arg.toNat = 1 ∧
      u.n Attr.mdEnable (u.n c.streamAttrs.domain c.q.inst 0) 0 ≠ 1) :=
    fun ⟨hcode, harg, hoff⟩ => hoff (hdomain hcode harg)
  unfold Ctx.streamAttrs at hstill hother hdisabled ⊢
  simp only [writeStream, hnow, Bool.false_eq_true, if_false, decide_eq_true_eq, if_neg hstill, if_neg hother,
    if_neg hdisabled]

variable (hpayload : (u.store c).payload c.streamAttrs c.q.inst ≤ 1460)
include hpayload

/-- A setting that is admitted is stored and has the stream looked at again (R417). -/
theorem writeStream_of_admitted (hadmits : c.code = c.streamAttrs.enable → (u.store c).netAdmits = true) : writeStream c u =
    ok (if c.code / 256 = 0x61 then (u.store c).rxEval c.q.inst else (u.store c).txEval c.q.inst) := by
  rw [writeStream_of_writable hnow hwritable, if_neg hpayload.not_gt, if_neg fun h => h.2 (hadmits h.1)]

/-- An enable that the ports do not admit is refused (R430). -/
theorem writeStream_of_not_admitted (hcode : c.code = c.streamAttrs.enable) (hno : (u.store c).netAdmits = false) :
    writeStream c u = refuse rAdmission := by
  rw [writeStream_of_writable hnow hwritable, if_neg hpayload.not_gt, if_pos ⟨hcode, ne_true_of_eq_false hno⟩]

end

/-- A write of class 0x61 is of a receive stream. -/
theorem streamAttrs_of_rx (h : c.code / 256 = 0x61) : c.streamAttrs = rxAttrs := if_pos h

/-- Any other is of a transmit stream. -/
theorem streamAttrs_of_tx (h : c.code / 256 ≠ 0x61) : c.streamAttrs = txAttrs := if_neg h

/-! #### Weld bindings -/

/-- A binding with reserved bits set is refused (R419). -/
theorem writeBinding_of_reserved (hcode : c.code = Attr.weldBinding) (hbits : c.arg.toNat / 4096 % 2 ^ 18 ≠ 0) :
    writeBinding c u = refuse rRange := if_pos ⟨hcode, hbits⟩

/-- A binding may be made: no reserved bit is set, no other destination has its index, and one that sums returns no row
(R48, R419). -/
def State.mayBind (u : State) (c : Ctx) : Prop :=
  c.arg.toNat / 4096 % 2 ^ 18 = 0 ∧
  (∀ b, b = 31 ∨ b = 30 → bit c.arg.toNat b = true →
    ((u.welds b).any fun e => e.1 != c.q.inst && e.2 == c.arg.toNat % 4096) = false) ∧
  (weldRole c.arg = true → u.slotOf (2 * 2 ^ 28 + c.q.inst) = none)

/-- A binding that may be made, or contributors, go by the admission of the ports (R428). -/
theorem writeBinding_of_allowed (hnow : c.atOnce = false) (h : c.code = Attr.weldBinding → u.mayBind c) :
    writeBinding c u = if (u.store c).netAdmits = true then ok (u.store c) else refuse rAdmission := by
  simp only [writeBinding, hnow, Bool.false_eq_true, or_false]
  rw [if_neg, if_neg, if_neg]
  · rintro ⟨hcode, hsums, hreturns⟩
    obtain ⟨-, -, hnone⟩ := h hcode
    rw [hnone hsums] at hreturns
    cases hreturns
  · rintro ⟨hcode, htwin⟩
    obtain ⟨-, hother, -⟩ := h hcode
    simp only [Bool.or_eq_true, Bool.and_eq_true] at htwin
    rcases htwin with ⟨hbit, hany⟩ | ⟨hbit, hany⟩
    · exact ne_true_of_eq_false (hother 31 (.inl rfl) hbit) hany
    · exact ne_true_of_eq_false (hother 30 (.inr rfl) hbit) hany
  · exact fun ⟨hcode, hbits⟩ => hbits (h hcode).1

end Sys2Proof.Machine

open Sys2Proof Sys2Proof.Machine

/-- Settles O40: a port by its rule and its domain, a stream by what may be written of it and admission, a binding by its bits
and admission. -/
theorem mediaRequestsPerform : Obligations.MediaRequestsPerform := by
  unfold Obligations.MediaRequestsPerform
  refine ⟨?port, ?portMoves, ?portBad, ?rx, ?tx, ?rxFixed, ?rxRefused, ?contributors, ?binding, ?reserved, ?notAdmitted⟩
  case port =>
    refine performs_of_effect (eff := writeSapSetting) (fun _ _ => rfl) fun c u _ _ _ _ ⟨hbad, hstays⟩ => ?_
    rw [writeSapSetting_of_allowed hbad]
    dsimp only
    rw [if_neg fun h => hstays.elim (· h.1) h.2.1, ok]
  case portMoves =>
    refine performs_of_effect (eff := writeSapSetting) (fun _ _ => rfl) fun c u _ _ _ _ ⟨hbad, hcode, hmoves⟩ => ?_
    simp only [writeSapSetting_of_allowed hbad, hcode, hcode ▸ hmoves, ne_eq, not_false_eq_true, true_and, ok]
  case portBad =>
    exact refuses_of_effect (eff := writeSapSetting) (fun _ _ => rfl) fun _ _ _ _ hnow _ h => writeSapSetting_of_bad h hnow
  case rx =>
    refine performs_of_effect (eff := writeStream) (fun _ _ => rfl)
      fun c u _ _ hnow _ ⟨hrx, hfixed, hgroup, hdomain, hpayload, hadmits⟩ => ?_
    have hattrs := streamAttrs_of_rx hrx
    rw [writeStream_of_admitted hnow ⟨hattrs ▸ hfixed, fun _ => hattrs ▸ hgroup, hattrs ▸ hdomain⟩ (hattrs ▸ hpayload)
      (hattrs ▸ hadmits), if_pos hrx, ok]
  case tx =>
    refine performs_of_effect (eff := writeStream) (fun _ _ => rfl)
      fun c u _ _ hnow _ ⟨htx, hfixed, hdomain, hpayload, hadmits⟩ => ?_
    have hattrs := streamAttrs_of_tx htx
    rw [writeStream_of_admitted hnow ⟨hattrs ▸ hfixed, fun hrx => absurd hrx htx, hattrs ▸ hdomain⟩ (hattrs ▸ hpayload)
      (hattrs ▸ hadmits), if_neg htx, ok]
  case rxFixed =>
    refine refuses_of_effect (eff := writeStream) (fun _ _ => rfl) fun c u _ _ hnow _ ⟨hcode, hon⟩ => ?_
    have hattrs := streamAttrs_of_rx (c := c) (by rw [hcode]; decide)
    exact writeStream_of_enabled hnow (by simp [hattrs, hcode, rxAttrs]) (hattrs ▸ hon)
  case rxRefused =>
    refine refuses_of_effect (eff := writeStream) (fun _ _ => rfl)
      fun c u _ _ hnow _ ⟨hcode, harg, hdomain, hpayload, hno⟩ => ?_
    have hattrs := streamAttrs_of_rx (c := c) (by rw [hcode]; decide)
    have hwritable : u.streamWritable c :=
      ⟨.inl (hattrs ▸ hcode), fun _ h => by simp [hattrs, hcode, rxAttrs] at h, fun _ _ => hattrs ▸ hdomain⟩
    exact writeStream_of_not_admitted hnow hwritable (hattrs ▸ hpayload) (hattrs ▸ hcode) hno
  case contributors =>
    exact performs_of_effect (eff := writeBinding) (fun _ _ => rfl) fun c u _ _ hnow _ ⟨hcode, hadmits⟩ => by
      rw [writeBinding_of_allowed hnow fun h => absurd h hcode, if_pos hadmits, ok]
  case binding =>
    refine performs_of_effect (eff := writeBinding) (fun _ _ => rfl)
      fun c u _ _ hnow _ ⟨_, hbits, hother, hreturns, hadmits⟩ => ?_
    rw [writeBinding_of_allowed hnow fun _ => ⟨hbits, hother, hreturns⟩, if_pos hadmits, ok]
  case reserved =>
    exact refuses_of_effect (eff := writeBinding) (fun _ _ => rfl) fun _ _ _ _ _ _ ⟨hcode, hbits⟩ =>
      writeBinding_of_reserved hcode hbits
  case notAdmitted =>
    refine refuses_of_effect (eff := writeBinding) (fun _ _ => rfl) fun c u _ _ hnow _ ⟨hcode, hno⟩ => ?_
    rw [writeBinding_of_allowed hnow fun h => by simp [hcode] at h, if_neg (ne_true_of_eq_false hno)]
end

/-! ### Media packets and Weld fragments

Receive and transmit streams, frames at the ports, fragments and their deadline (R400, R404, R408 to R413, R420, R424 to
R426). -/

section
namespace Sys2Proof.Machine

/-! #### Receive streams (R408 to R413) -/

section
variable {s : State} {k : ℕ} {p : RtpPacket}

/-- The port of leg `leg` of a receive stream is up (R409). -/
def State.legUp (s : State) (k leg : ℕ) : Prop := ((legPorts (s.n Attr.rxPort k 0))[leg]?).any s.portUp = true

/-- A packet has the shape of its stream: its packet time and its channels (R404, R408). -/
def State.packetShaped (s : State) (k : ℕ) (p : RtpPacket) : Prop := p.wellFormed = true ∧
  p.samples.length = s.packetLen rxAttrs k ∧ p.samples.any (·.length != s.rxCh k) = false

/-- The count of the stream's domain at which a packet arrives (R410). -/
def State.packetRel (s : State) (k : ℕ) (p : RtpPacket) : ℕ := countAt (s.domRate (s.n Attr.rxDomain k 0)) p.arrival

/-- How far ahead of its arrival a packet is due (R410). -/
def State.packetDiff (s : State) (k : ℕ) (p : RtpPacket) : ℤ :=
  signed 32 (toBits 32 ((p.ts : ℤ) + s.linkOffset k - s.packetRel k p))

/-- A stream that is off, and a leg whose port is down, take no packet (R409). -/
theorem rtpPacketReceived_of_deaf (h : 512 ≤ k ∨ s.n Attr.rxState k 0 = 0 ∨ ¬ s.legUp k p.leg) :
    rtpPacketReceived k p s = s := if_pos h

/-- A value that is set leaves the streams. -/
theorem rxs_set (code inst elem : ℕ) (v : ℤ) : (s.set code inst elem v).rxs k = s.rxs k := rfl

/-- What RTP_PACKET_RECEIVED tests for is that the shape is wrong. -/
theorem not_misshapen (hshape : s.packetShaped k p) : ¬ (¬ p.wellFormed = true ∨ p.samples.length ≠ s.packetLen rxAttrs k ∨
    p.samples.any (·.length != s.rxCh k) = true) := by
  obtain ⟨hformed, hlen, hch⟩ := hshape
  exact not_or_intro (not_not_intro hformed) (not_or_intro (not_not_intro hlen) (ne_true_of_eq_false hch))

section
variable (hk : k < 512) (hon : s.n Attr.rxState k 0 ≠ 0) (hup : s.legUp k p.leg)
include hk hon hup

theorem not_deaf : ¬ (512 ≤ k ∨ s.n Attr.rxState k 0 = 0 ∨ ¬ ((legPorts (s.n Attr.rxPort k 0))[p.leg]?).any s.portUp = true) :=
  not_or_intro hk.not_ge (not_or_intro hon (not_not_intro hup))

/-- A packet of the wrong shape is counted and dropped (R408). -/
theorem rtpPacketReceived_of_misshapen (h : ¬ s.packetShaped k p) :
    rtpPacketReceived k p s = s.bump Attr.rxBadPackets k 0 := by
  have hbad : ¬ p.wellFormed = true ∨ p.samples.length ≠ s.packetLen rxAttrs k ∨
      p.samples.any (·.length != s.rxCh k) = true := by
    simpa only [State.packetShaped, not_and_or, Bool.not_eq_false] using h
  simp only [rtpPacketReceived, if_neg (not_deaf hk hon hup), if_pos hbad]

variable (hshape : s.packetShaped k p)
include hshape

/-- A stream at another rate than the engine takes no packet (R404). -/
theorem rtpPacketReceived_of_mismatched (h : s.n Attr.rxState k 0 = 5) : rtpPacketReceived k p s = s := by
  simp only [rtpPacketReceived, if_neg (not_deaf hk hon hup), if_neg (not_misshapen hshape), if_pos h]

variable (hmatched : s.n Attr.rxState k 0 ≠ 5)
include hmatched

/-- A packet outside the window is counted and dropped (R410). -/
theorem rtpPacketReceived_outside (h : 8192 - (s.packetLen rxAttrs k : ℤ) ≤ s.packetDiff k p) :
    rtpPacketReceived k p s = (s.bump Attr.rxWindowErrors k 0).rxBit k 5 true := by
  unfold State.packetDiff State.packetRel at h
  simp only [rtpPacketReceived, if_neg (not_deaf hk hon hup), if_neg (not_misshapen hshape), if_neg hmatched,
    if_pos h]

/-- A packet inside the window puts its samples into the buffer at their counts, and leaves what the stream reads next
(R410, R411). -/
theorem rtpPacketReceived_inside (h : s.packetDiff k p < 8192 - (s.packetLen rxAttrs k : ℤ)) :
    ((rtpPacketReceived k p s).rxs k).ring =
      (storeSamples (s.packetRel k p) (s.packetRel k p + s.packetDiff k p) (p.samples.map fun f => f.map (s.rxCode k))
        (Store.keep (fun n => decide ((if s.ticking then (s.rxs k).next else ((s.packetRel k p : ℤ) + 1).toNat) ≤ n))
          (s.rxs k).ring)).1 ∧
    ((rtpPacketReceived k p s).rxs k).live = (s.rxs k).live ∧ ((rtpPacketReceived k p s).rxs k).next = (s.rxs k).next := by
  unfold State.packetDiff State.packetRel at h ⊢
  simp only [rtpPacketReceived, if_neg (not_deaf hk hon hup), if_neg (not_misshapen hshape), if_neg hmatched,
    if_neg h.not_ge, apply_ite (State.rxs · k), rxs_set, ite_self, setRx_rxs, and_self]

end

/-- A stream that receives, without packets for 100 ms, is lost (R411). -/
theorem streamLost_of_receiving (h : s.n Attr.rxState k 0 = 1 ∨ s.n Attr.rxState k 0 = 2 ∨ s.n Attr.rxState k 0 = 3) :
    streamLost k s = ((s.set Attr.rxState k 0 4).bump Attr.rxLosses k 0).logAt sevWarning Attr.rxLosses k 0 := if_pos h

/-- Any other stream is not lost (R411). -/
theorem streamLost_of_not_receiving (h : s.n Attr.rxState k 0 = 0 ∨ 4 ≤ s.n Attr.rxState k 0) : streamLost k s = s :=
  if_neg (by omega)

/-- A leg of a stream on two ports, without packets, ends (R413). -/
theorem legTimeout_of_live {leg : ℕ} (hleg : leg < 2) (hlive : bit (s.n Attr.rxStatus k 0) leg = true)
    (hboth : s.n Attr.rxPort k 0 = 4) :
    legTimeout k leg s = (s.rxBit k leg false).logAt sevNotice Attr.rxStatus k 0 := if_pos ⟨hleg, hlive, hboth⟩

/-- A leg that does not live does not end (R413). -/
theorem legTimeout_of_dead {leg : ℕ}
    (h : 2 ≤ leg ∨ bit (s.n Attr.rxStatus k 0) leg = false ∨ s.n Attr.rxPort k 0 ≠ 4) : legTimeout k leg s = s := by
  refine if_neg fun ⟨hleg, hlive, hboth⟩ => ?_
  rcases h with h | h | h
  · exact h.not_gt hleg
  · exact ne_true_of_eq_false h hlive
  · exact h hboth

end

/-! #### Transmit streams (R405) -/

section
variable {s : State} {k : ℕ}

/-- A stream that does not send, or has no full packet, sends nothing (R405). -/
theorem rtpPacketSend_of_waiting (h : s.n Attr.txState k 0 ≠ 1 ∧ s.n Attr.txState k 0 ≠ 4 ∨
    (s.txs k).buf.length < s.packetLen txAttrs k ∨ s.sends = false) : rtpPacketSend k s = s :=
  if_pos (h.imp not_or.mpr (Or.imp_right ne_true_of_eq_false))

/-- The oldest full packet leaves on the legs whose ports are up (R405). -/
theorem rtpPacketSend_of_full (hstate : s.n Attr.txState k 0 = 1 ∨ s.n Attr.txState k 0 = 4)
    (hfull : s.packetLen txAttrs k ≤ (s.txs k).buf.length) (hsends : s.sends = true) : rtpPacketSend k s =
      (let x := s.txs k
       let len := s.packetLen txAttrs k
       let legs := ((legPorts (s.n Attr.txPort k 0)).mapIdx fun i p => (i, p)).filter fun e => s.portUp e.2
       let u := s.setTx k { x with buf := x.buf.drop len, first := x.first + len }
       legs.foldl (fun w e => (w.bump Attr.txPackets k e.1).bump Attr.portTxFrames e.2 0)
         { u with net := { u.net with sentRtp := legs.map fun e => (e.2, s.rtpBytes k x.first (x.buf.take len)) } }) :=
  if_neg (not_or_intro (not_not_intro hstate) (not_or_intro hfull.not_gt (not_not_intro hsends)))

end

/-! #### Frames at the ports (R400) -/

section
variable {s : State} {p : ℕ} {f : EthFrame}

/-- A port that is down receives nothing (R401). -/
theorem ethernetFrameReceived_of_down (h : 4 ≤ p ∨ s.portUp p = false) : ethernetFrameReceived p f s = s :=
  if_pos (h.imp_right ne_true_of_eq_false)

section
variable (hp : p < 4) (hup : s.portUp p = true)
include hp hup

theorem not_down : ¬ (4 ≤ p ∨ ¬ s.portUp p = true) := not_or_intro hp.not_ge (not_not_intro hup)

/-- A frame with a bad check sequence is an error (R400). -/
theorem ethernetFrameReceived_of_bad_fcs (hfcs : f.fcs = false) :
    ethernetFrameReceived p f s = s.bump Attr.portRxErrors p 0 := by
  simp only [ethernetFrameReceived, if_neg (not_down hp hup), hfcs, Bool.false_eq_true, not_false_eq_true, if_true]

variable (hfcs : f.fcs = true)
include hfcs

/-- A tagged or fragmented frame, or one too long, is discarded (R400). -/
theorem ethernetFrameReceived_of_unserved (h : f.tagged = true ∨ 1518 < f.len ∨ f.fragment = true) :
    ethernetFrameReceived p f s = (s.bump Attr.portRxFrames p 0).bump Attr.portRxDiscards p 0 := by
  simp only [ethernetFrameReceived, if_neg (not_down hp hup), hfcs, not_true_eq_false, if_false, if_pos h]

/-- ARP and ICMP for the port are answered, IGMP and what matches are taken, and any other frame is discarded (R400). -/
theorem ethernetFrameReceived_of_served (htag : f.tagged = false) (hlen : f.len ≤ 1518) (hwhole : f.fragment = false) :
    ethernetFrameReceived p f s =
      (let u := s.bump Attr.portRxFrames p 0
       let mine := f.dstAddr == u.n Attr.portIpAddr p 0
       if f.etherType = 0x0806 then (if mine then u.bump Attr.portTxFrames p 0 else u)
       else if f.etherType = 0x0800 ∧ f.proto = 1 ∧ mine then u.bump Attr.portTxFrames p 0
       else if f.etherType = 0x0800 ∧ (f.proto = 2 ∨ f.proto = 17 ∧ u.udpMatches p f = true) then u
       else u.bump Attr.portRxDiscards p 0) := by
  have hserved : ¬ (f.tagged = true ∨ 1518 < f.len ∨ f.fragment = true) :=
    not_or_intro (ne_true_of_eq_false htag) (not_or_intro hlen.not_gt (ne_true_of_eq_false hwhole))
  simp only [ethernetFrameReceived, if_neg (not_down hp hup), hfcs, not_true_eq_false, if_false, if_neg hserved]
  by_cases hip : f.etherType = 0x0800
  · simp only [hip, Nat.reduceEqDiff, if_false, ne_eq, not_true_eq_false, true_and, ite_or]
  · simp only [hip, ne_eq, not_false_eq_true, if_true, false_and, if_false]

end

end

/-! #### Weld fragments (R424, R425) -/

section
variable {s : State} {p : ℕ} {f : WeldFrag}

/-- Fragments of the lane are received at the port: Weld runs, the tick runs, and a destination sums on the lane (R424). -/
def State.weldOpen (s : State) (p : ℕ) (f : WeldFrag) : Prop := (p = 2 ∨ p = 3) ∧ s.portUp p = true ∧ s.weldId ≠ 255 ∧
  s.ticking = true ∧ ((s.welds 30).any fun e => e.2 / 64 == f.lane) = true

/-- A fragment is of this system, format and rate, and of a frame that may come (R425). -/
def State.weldOurs (s : State) (f : WeldFrag) : Prop := f.system = s.n Attr.weldSystemId 0xFFFF 0 ∧ f.version = 1 ∧
  f.n = s.eng.cfg.n ∧ f.rate = s.md0Code ∧ f.sender < 32 ∧ f.frame ≤ s.weldNext + s.eng.cfg.n ∧ f.frame % s.eng.cfg.n = 0

/-- What identifies a fragment among its copies (R424). -/
def fragId (f : WeldFrag) : ℕ × ℕ × ℕ × ℕ := (f.sender, f.frame, f.lane, f.fragment)

/-- The state in which a fragment is marked as seen and its sender is heard (R424, R426). -/
def State.weldHeard (s : State) (f : WeldFrag) : State :=
  ({ s with net := { s.net with seen := fragId f :: s.net.seen } } : State).hearMember f.sender

/-- Where fragments are not received there are none. -/
theorem weldFragmentReceived_of_closed (h : ¬ s.weldOpen p f) : weldFragmentReceived p f s = s := by
  refine if_pos ?_
  simpa only [State.weldOpen, not_and_or, ne_eq, not_not] using h

/-- What WELD_FRAGMENT_RECEIVED tests for is that a fragment is not ours. -/
theorem not_foreign (hours : s.weldOurs f) : ¬ (f.system ≠ s.n Attr.weldSystemId 0xFFFF 0 ∨ f.version ≠ 1 ∨ f.n ≠ s.eng.cfg.n ∨
    f.rate ≠ s.md0Code ∨ 32 ≤ f.sender ∨ s.weldNext + s.eng.cfg.n < f.frame ∨ f.frame % s.eng.cfg.n ≠ 0) := by
  simpa only [State.weldOurs, not_or, not_lt, not_le, ne_eq, not_not] using hours

section
variable (hopen : s.weldOpen p f)
include hopen

theorem not_weldClosed : ¬ (¬ (p = 2 ∨ p = 3) ∨ ¬ s.portUp p = true ∨ s.weldId = 255 ∨ ¬ s.ticking = true ∨
    ¬ ((s.welds 30).any fun e => e.2 / 64 == f.lane) = true) := by
  obtain ⟨hport, hup, hid, htick, hlane⟩ := hopen
  simp only [hport, hup, hid, htick, hlane, not_true_eq_false, or_self, not_false_eq_true]

/-- A fragment of another system, format or rate is a mismatch (R425). -/
theorem weldFragmentReceived_of_foreign (h : ¬ s.weldOurs f) :
    weldFragmentReceived p f s = s.bump Attr.weldMismatches 0xFFFF 0 := by
  have hforeign : f.system ≠ s.n Attr.weldSystemId 0xFFFF 0 ∨ f.version ≠ 1 ∨ f.n ≠ s.eng.cfg.n ∨ f.rate ≠ s.md0Code ∨
      32 ≤ f.sender ∨ s.weldNext + s.eng.cfg.n < f.frame ∨ f.frame % s.eng.cfg.n ≠ 0 := by
    simpa only [State.weldOurs, not_and_or, not_lt, not_le] using h
  simp only [weldFragmentReceived, if_neg (not_weldClosed hopen), if_pos hforeign]

variable (hours : s.weldOurs f)
include hours

/-- A second copy does nothing (R424). -/
theorem weldFragmentReceived_of_seen (hseen : s.net.seen.contains (fragId f) = true) : weldFragmentReceived p f s = s := by
  unfold fragId at hseen
  simp only [weldFragmentReceived, if_neg (not_weldClosed hopen), if_neg (not_foreign hours), if_pos hseen]

variable (hseen : s.net.seen.contains (fragId f) = false)
include hseen

/-- A fragment after its deadline is late; its sender is heard all the same (R425, R426). -/
theorem weldFragmentReceived_of_late (hlate : f.frame < s.weldNext) :
    weldFragmentReceived p f s = (s.weldHeard f).bump Attr.weldLate 0xFFFF f.sender := by
  unfold fragId at hseen
  simp only [weldFragmentReceived, if_neg (not_weldClosed hopen), if_neg (not_foreign hours), hseen,
    Bool.false_eq_true, if_false, if_pos hlate, State.weldHeard, fragId]

/-- Any other fragment has its parts kept for their deadline (R424). -/
theorem weldFragmentReceived_of_due (hdue : s.weldNext ≤ f.frame) : weldFragmentReceived p f s =
    (let u := s.weldHeard f
     (u.countEntries f).keepParts f ((u.countEntries f).weldParts f u.weldRoom)) := by
  unfold fragId at hseen
  simp only [weldFragmentReceived, if_neg (not_weldClosed hopen), if_neg (not_foreign hours), hseen,
    Bool.false_eq_true, if_false, if_neg hdue.not_gt, State.weldHeard, fragId]

end

/-- Parts are kept with the margin they arrived by (R424, R426). -/
theorem keepParts_of_ne {l : List Part} (h : l ≠ []) : s.keepParts f l =
    (let m := recentMargins f.arrival (s.weldDue f.frame - f.arrival) s.net.margins
     ({ s with net := { s.net with parts := s.net.parts ++ l, margins := m } } : State).weldMargins m) := if_neg h

end

/-! #### The deadline (R420, R426) -/

section
variable {s : State}

/-- Without a frame that is due the deadline does nothing. -/
theorem weldDeadline_of_none (h : s.net.due = none) : weldDeadline s = s := by
  simp only [weldDeadline, h]

/-- At the deadline of a frame its totals are formed, missing parts counted and its parts dropped (R420, R426). -/
theorem weldDeadline_of_due {frame : ℕ} (h : s.net.due = some frame) : weldDeadline s =
    (let r := ({ s with net := { s.net with due := none, welded := [] } } : State).sumWelds frame
     (r.1.eraseDups.foldl (fun w m => w.bump Attr.weldMissing 0xFFFF m) r.2).dropParts frame) := by
  simp only [weldDeadline, h]

/-- Counting saturations leaves the network. -/
theorem addSat_net (code n k : ℕ) : (s.addSat code n k).net = s.net := by
  unfold State.addSat
  split
  · rfl
  · exact State.add_net ..

/-- A destination with no other contributor has its own partial, saturated to W32, as its total (R420). -/
theorem weldTotal_alone {d i frame : ℕ} (h : s.weldPeers d = []) :
    (s.weldTotal d i frame).1 = [] ∧ (s.weldTotal d i frame).2.net.welded =
      if ((frameOf s.net.own d s.eng.cfg.n).map clampW32).all (· == 0) then s.net.welded
      else Store.put s.net.welded d ((frameOf s.net.own d s.eng.cfg.n).map clampW32) := by
  simp only [State.weldTotal, h, List.foldl_nil, State.set_net, addSat_net, true_and]

/-- A member that has been silent for 64 frames is absent, which is logged (R426). -/
theorem memberAbsent_of_silent {m : ℕ} (hm : m < 32) (hgone : 64 ≤ Store.get 0 s.net.gone m)
    (hnew : bit (s.n Attr.weldMembersAbsent 0xFFFF 0) m = false) : memberAbsent m s =
      (s.set Attr.weldMembersAbsent 0xFFFF 0 ((s.n Attr.weldMembersAbsent 0xFFFF 0 + 2 ^ m : ℕ) : ℤ)).logAt sevWarning
        Attr.weldMembersAbsent 0xFFFF 0 :=
  if_neg (not_or_intro hm.not_ge (not_or_intro hgone.not_gt (ne_true_of_eq_false hnew)))

/-- Any other member is not absent, or is so already (R426). -/
theorem memberAbsent_of_heard {m : ℕ}
    (h : 32 ≤ m ∨ Store.get 0 s.net.gone m < 64 ∨ bit (s.n Attr.weldMembersAbsent 0xFFFF 0) m = true) :
    memberAbsent m s = s := if_pos h

end

end Sys2Proof.Machine

open Sys2Proof Sys2Proof.Machine

/-- Settles O41: a packet by its shape and its window, a frame by its kind, a fragment by what it is of and when it comes, the
deadline by the frame that is due. -/
theorem packetsAndWeldAct : Obligations.PacketsAndWeldAct := by
  unfold Obligations.PacketsAndWeldAct
  refine ⟨⟨?deaf, ?misshapen, ?outside, ?mismatched, ?inside, ?lost, ?notLost, ?leg, ?noLeg, ?waiting, ?sent, ?down, ?badFcs,
      ?unserved, ?served⟩,
    ?closed, ?foreign, ?seen, ?late, ?kept, ?parts, ?noParts, ?noDue, ?due, ?sums, ?drops, ?total, ?absent, ?present⟩
  case deaf => exact fun s k p h => congrArg Host.Outcome.next (rtpPacketReceived_of_deaf h)
  case misshapen =>
    exact fun s k p hk hon hup h => congrArg Host.Outcome.next (rtpPacketReceived_of_misshapen hk hon hup h)
  case outside =>
    exact fun s k p hk hon hmatched hup hshape h =>
      congrArg Host.Outcome.next (rtpPacketReceived_outside hk hon hup hshape hmatched h)
  case mismatched =>
    exact fun s k p hk h hup hshape =>
      congrArg Host.Outcome.next (rtpPacketReceived_of_mismatched hk (by rw [h]; decide) hup hshape h)
  case inside =>
    exact fun s k p hk hon hmatched hup hshape h => ⟨_, rfl, rtpPacketReceived_inside hk hon hup hshape hmatched h⟩
  case lost => exact fun s k h => congrArg Host.Outcome.next (streamLost_of_receiving h)
  case notLost => exact fun s k h => congrArg Host.Outcome.next (streamLost_of_not_receiving h)
  case leg => exact fun s k leg hleg hlive hboth => congrArg Host.Outcome.next (legTimeout_of_live hleg hlive hboth)
  case noLeg => exact fun s k leg h => congrArg Host.Outcome.next (legTimeout_of_dead h)
  case waiting => exact fun s k h => congrArg Host.Outcome.next (rtpPacketSend_of_waiting h)
  case sent => exact fun s k hstate hfull hsends => congrArg Host.Outcome.next (rtpPacketSend_of_full hstate hfull hsends)
  case down => exact fun s p f h => congrArg Host.Outcome.next (ethernetFrameReceived_of_down h)
  case badFcs => exact fun s p f hp hup h => congrArg Host.Outcome.next (ethernetFrameReceived_of_bad_fcs hp hup h)
  case unserved =>
    exact fun s p f hp hup hfcs h => congrArg Host.Outcome.next (ethernetFrameReceived_of_unserved hp hup hfcs h)
  case served =>
    exact fun s p f hp hup hfcs htag hlen hwhole =>
      congrArg Host.Outcome.next (ethernetFrameReceived_of_served hp hup hfcs htag hlen hwhole)
  case closed => exact fun s p f h => congrArg Host.Outcome.next (weldFragmentReceived_of_closed h)
  case foreign => exact fun s p f hopen h => congrArg Host.Outcome.next (weldFragmentReceived_of_foreign hopen h)
  case seen =>
    exact fun s p f hopen hours h => congrArg Host.Outcome.next (weldFragmentReceived_of_seen hopen hours h)
  case late =>
    exact fun s p f hopen hours hseen h => congrArg Host.Outcome.next (weldFragmentReceived_of_late hopen hours hseen h)
  case kept =>
    exact fun s p f hopen hours hseen h => congrArg Host.Outcome.next (weldFragmentReceived_of_due hopen hours hseen h)
  case parts => exact fun s f l => keepParts_of_ne
  case noParts => exact fun _ _ => rfl
  case noDue => exact fun s h => congrArg Host.Outcome.next (weldDeadline_of_none h)
  case due => exact fun s frame h => congrArg Host.Outcome.next (weldDeadline_of_due h)
  case sums => exact fun _ _ => rfl
  case drops => exact fun _ _ => rfl
  case total => exact fun s d i frame => weldTotal_alone
  case absent => exact fun s m hm hgone hnew => congrArg Host.Outcome.next (memberAbsent_of_silent hm hgone hnew)
  case present => exact fun s m h => congrArg Host.Outcome.next (memberAbsent_of_heard h)
end

/-! ### The Tether

Its ten frames, what each of them does once it is taken, the leases and the roles (R467 to R501). -/

section
namespace Sys2Proof.Machine

variable {s w : State} {now lane : ℕ} {b : List Byte} {f : TFrame}

/-! #### Frames as they are taken (R471 to R473) -/

/-- Each of the ten frames does nothing beyond `tetherIn` where it is not taken. -/
theorem exec_of_not_taken {e : ℕ × (ℕ → ℕ → List Byte → Instr)} (he : e ∈ tetherCommands)
    (h : s.tetherIn e.1 now lane b = (none, w)) : exec (e.2 now lane b) s = .next w := by
  have hello : s.tetherIn tHello now lane b = (none, w) → exec (.hello now lane b) s = .next w :=
    fun h => congrArg Host.Outcome.next (by simp only [hello, h])
  have renew : s.tetherIn tRenew now lane b = (none, w) → exec (.renew now lane b) s = .next w :=
    fun h => congrArg Host.Outcome.next (by simp only [renew, h])
  have ack : s.tetherIn tAck now lane b = (none, w) → exec (.ack now lane b) s = .next w :=
    fun h => congrArg Host.Outcome.next (by simp only [ack, h])
  have release : s.tetherIn tRelease now lane b = (none, w) → exec (.tetherRelease now lane b) s = .next w :=
    fun h => congrArg Host.Outcome.next (by simp only [tetherRelease, h])
  have take : s.tetherIn tTake now lane b = (none, w) → exec (.take now lane b) s = .next w :=
    fun h => congrArg Host.Outcome.next (by simp only [takeFrame, h])
  have grant : s.tetherIn tGrant now lane b = (none, w) → exec (.grant now lane b) s = .next w :=
    fun h => congrArg Host.Outcome.next (by simp only [grant, h])
  have mirror : s.tetherIn tMirror now lane b = (none, w) → exec (.mirror now lane b) s = .next w :=
    fun h => congrArg Host.Outcome.next (by simp only [mirrorFrame, h])
  have digest : s.tetherIn tDigest now lane b = (none, w) → exec (.digest now lane b) s = .next w :=
    fun h => congrArg Host.Outcome.next (by simp only [digestFrame, h])
  have adopt : s.tetherIn tAdopt now lane b = (none, w) → exec (.adopt now lane b) s = .next w :=
    fun h => congrArg Host.Outcome.next (by simp only [adoptFrame, h])
  have enrol : s.tetherIn tEnrol now lane b = (none, w) → exec (.enrol now lane b) s = .next w :=
    fun h => congrArg Host.Outcome.next (by simp only [enrolFrame, h])
  simp only [tetherCommands, List.mem_cons, List.not_mem_nil, or_false] at he
  rcases he with rfl | rfl | rfl | rfl | rfl | rfl | rfl | rfl | rfl | rfl
  exacts [hello h, renew h, ack h, release h, take h, grant h, mirror h, digest h, adopt h, enrol h]

end Sys2Proof.Machine

open Sys2Proof Sys2Proof.Machine

/-- Settles O42: `tetherIn` takes none of these frames, and a frame that is not taken does nothing more. -/
theorem tetherFramesAreChecked : Obligations.TetherFramesAreChecked := by
  unfold Obligations.TetherFramesAreChecked
  refine ⟨?barred, ?malformed, ?copy⟩
  case barred => exact fun e he s now lane b h => exec_of_not_taken he (tetherIn_barred s e.1 now lane b h)
  case malformed =>
    exact fun e he s now lane b hon hlane hup h =>
      exec_of_not_taken he (tetherIn_malformed s e.1 now lane b hon hlane hup h)
  case copy =>
    exact fun e he s now lane b f hon hlane hup h hcopy =>
      exec_of_not_taken he (tetherIn_other s e.1 now lane b f hon hlane hup h hcopy)
end

/-! ### What Tether frames do

Renewals and their answers, formation, release, digests and items to adopt (R470, R476, R477, R486, R487, R499). -/

section
namespace Sys2Proof.Machine

variable {s w : State} {now lane : ℕ} {b : List Byte} {f : TFrame}

/-! #### The token's frames -/

/-- The state with the time of the Tether noted. -/
def State.tetherAt (s : State) (now : ℕ) : State := { s with pair := { s.pair with now := now } }

/-- The state that has heard the token of a frame and settled the roles by it (R469, R478). -/
def State.settledBy (w : State) (f : TFrame) (told : Bool) : State :=
  (w.hear (tokenOf f.payload) told).settle (tokenOf f.payload)

/-- Without a pair there is no renewal. -/
theorem renewInterval_of_unpaired (h : s.n Attr.pairPairEnable 0 0 ≠ 1) : renewInterval now s = s := if_pos h

section
variable (hpair : s.n Attr.pairPairEnable 0 0 = 1)
include hpair

/-- An ACTIVE sends RENEW at each interval (R476). -/
theorem renewInterval_of_active (hrole : s.role = 1) : renewInterval now s = (s.tetherAt now).sendRenewal now := by
  have hsame : (s.tetherAt now).role = 1 := hrole
  unfold State.tetherAt at hsame ⊢
  simp only [renewInterval, hpair, ne_eq, not_true_eq_false, if_false, hsame]

/-- Any other member sends HELLO, and asks again for what it lacks of the state while it enrols (R468, R473, R485). -/
theorem renewInterval_of_other (hrole : s.role ≠ 1) : renewInterval now s =
    (let u := (s.tetherAt now).send tHello ((s.tetherAt now).token (s.tetherAt now).entitledFlag 0 0 0)
     if u.role = 2 ∧ u.n Attr.pairStandbyState 0 0 = 1 then u.askEnrol u.pair.acked else u) := by
  have hsame : (s.tetherAt now).role ≠ 1 := hrole
  unfold State.tetherAt at hsame ⊢
  simp only [renewInterval, hpair, ne_eq, not_true_eq_false, if_false, if_pos hsame]

end

/-- A STANDBY that takes a RENEW restarts its lease and answers ACK (R477). -/
theorem renew_of_taken (h : s.tetherIn tRenew now lane b = (some f, w)) : renew now lane b s =
    (let u := w.settledBy f false
     if u.role = 2 then
       let v : State := { u with pair := { u.pair with
         tRen := some now, arm := (tokenOf f.payload).flag, lease := (tokenOf f.payload).lease } }
       v.send tAck (v.token v.entitledFlag f.seq 0 0)
     else u) := by
  by_cases hrole : (w.settledBy f false).role = 2
  · refine Eq.trans ?_ (if_pos hrole).symm
    unfold State.settledBy at hrole ⊢
    simp only [renew, h, ne_eq, hrole, not_true_eq_false, if_false]
  · refine Eq.trans ?_ (if_neg hrole).symm
    unfold State.settledBy at hrole ⊢
    simp only [renew, h, ne_eq, hrole, not_false_eq_true, if_true]

section
variable (h : s.tetherIn tAck now lane b = (some f, w))
include h

/-- An ACTIVE that takes the ACK of a RENEW dates its lease from when that was sent (R477). -/
theorem ack_of_renewal {r : Renewal} (hrole : (w.settledBy f true).role = 1)
    (hlater : ∀ l, (w.settledBy f true).pair.lastAcked = some l → seqLater (tokenOf f.payload).ackSeq l = true)
    (hfind : (w.settledBy f true).pair.renewals.find? (·.seq == (tokenOf f.payload).ackSeq) = some r) :
    ack now lane b s =
      (let u := (w.settledBy f true).set Attr.pairTetherRtt 0 0 (Nat.min (now - r.sent) 4294967295 : ℕ)
       { u with pair := { u.pair with
           lastAcked := some r.seq, tAck := r.sent, armedNext := (tokenOf f.payload).flag
           renewals := u.pair.renewals.filter fun x => x.seq == r.seq || seqLater x.seq r.seq } }) := by
  unfold State.settledBy at hrole hlater hfind ⊢
  cases hlast : ((w.hear (tokenOf f.payload) true).settle (tokenOf f.payload)).pair.lastAcked with
  | none => simp only [ack, h, hlast, hrole, and_self, if_true, hfind]
  | some l => simp only [ack, h, hlast, hlater l hlast, hrole, and_self, if_true, hfind]

/-- Any other ACK only tells of the peer (R473, R477). -/
theorem ack_of_no_renewal (hno : (w.settledBy f true).role ≠ 1 ∨
    (w.settledBy f true).pair.renewals.find? (·.seq == (tokenOf f.payload).ackSeq) = none ∨
    ∃ l, (w.settledBy f true).pair.lastAcked = some l ∧ seqLater (tokenOf f.payload).ackSeq l = false) :
    ack now lane b s = w.settledBy f true := by
  unfold State.settledBy at hno ⊢
  rcases hno with hrole | hfind | ⟨l, hlast, hearlier⟩
  · simp only [ack, h, hrole, false_and, if_false]
  · simp only [ack, h, hfind, ite_self]
  · simp only [ack, h, hlast, hearlier, Bool.false_eq_true, and_false, if_false]

end

/-- An engine in RUN that is not ACTIVE grants a TAKE; an ORPHAN that grants enrols (R470). -/
theorem takeFrame_of_taken (h : s.tetherIn tTake now lane b = (some f, w)) : takeFrame now lane b s =
    (let u := w.settledBy f false
     if u.role = 1 ∨ u.engState ≠ 1 then u
     else let v := if u.role = 3 then u.beginEnrol else u
          v.send tGrant (v.token 0 f.seq 0 0)) := by
  unfold takeFrame
  rw [h]
  rfl

/-- A GRANT that answers the own TAKE makes an ORPHAN in RUN ACTIVE (R470). -/
theorem grant_of_taken (h : s.tetherIn tGrant now lane b = (some f, w)) : grant now lane b s =
    (let t := tokenOf f.payload
     let u := w.hear t false
     if u.role = 3 ∧ u.engState = 1 ∧ u.pair.taking = some t.ackSeq then u.becomeActive (Nat.max u.epoch t.epoch + 1)
     else u.settle t) := by
  simp only [grant, h]

/-- A RELEASE makes a STANDBY that is entitled ACTIVE, and another ORPHAN (R469, R499). -/
theorem tetherRelease_of_taken (h : s.tetherIn tRelease now lane b = (some f, w)) : tetherRelease now lane b s =
    (let t := tokenOf f.payload
     let u := w.hear t false
     if u.role ≠ 2 then u
     else if u.entitled = true then u.takeOver (some t.hold)
     else (u.dropRole 3).logAt sevError Attr.pairRole 0 0) := by
  simp only [tetherRelease, h]

/-- The engine that formation names answers a HELLO with TAKE (R470). -/
theorem hello_of_taken (h : s.tetherIn tHello now lane b = (some f, w)) : hello now lane b s =
    (let u := w.settledBy f true
     if u.takes (tokenOf f.payload) = true then
       let v := u.send tTake (u.token 0 0 0 0)
       { v with pair := { v.pair with taking := some (Store.get 0 v.pair.seqOut tTake) } }
     else u) := by
  unfold hello
  rw [h]
  rfl

/-! #### Digests and items to adopt (R486, R487) -/

/-- A STANDBY keeps the fragments of a digest (R487). -/
theorem digestFrame_of_taken (h : s.tetherIn tDigest now lane b = (some f, w)) : digestFrame now lane b s =
    if w.role = 2 then { w with lck := { w.lck with
      digIn := fragmentIn w.lck.digIn w.lck.digFor f.count f.payload, digFor := f.count } } else w := by
  simp only [digestFrame, h, ne_eq, ite_not]

/-- A warming STANDBY takes the fragments of an item to adopt (R486). -/
theorem adoptFrame_of_taken (h : s.tetherIn tAdopt now lane b = (some f, w)) : adoptFrame now lane b s =
    if w.role = 2 ∧ w.n Attr.pairStandbyState 0 0 = 2 then w.adoptPart f else w := by
  simp only [adoptFrame, h, ne_eq, ← not_and_or, ite_not]

end Sys2Proof.Machine

open Sys2Proof Sys2Proof.Machine

/-- Settles O43: each frame that is taken, by the role in which it finds the engine. -/
theorem tetherFramesAct : Obligations.TetherFramesAct := by
  unfold Obligations.TetherFramesAct
  refine ⟨?unpaired, ?active, ?renewal, ?other, ?renew, ?acked, ?notAcked, ?take, ?grant, ?release, ?hello, ?digest, ?adopt,
    ?part⟩
  case unpaired => exact fun s now h => congrArg Host.Outcome.next (renewInterval_of_unpaired h)
  case active => exact fun s now hpair hrole => congrArg Host.Outcome.next (renewInterval_of_active hpair hrole)
  case renewal => exact fun _ _ => rfl
  case other => exact fun s now hpair hrole => congrArg Host.Outcome.next (renewInterval_of_other hpair hrole)
  case renew => exact fun s now lane b f w h => congrArg Host.Outcome.next (renew_of_taken h)
  case acked =>
    exact fun s now lane b f w r h hrole hlater hfind => congrArg Host.Outcome.next (ack_of_renewal h hrole hlater hfind)
  case notAcked => exact fun s now lane b f w h hno => congrArg Host.Outcome.next (ack_of_no_renewal h hno)
  case take => exact fun s now lane b f w h => congrArg Host.Outcome.next (takeFrame_of_taken h)
  case grant => exact fun s now lane b f w h => congrArg Host.Outcome.next (grant_of_taken h)
  case release => exact fun s now lane b f w h => congrArg Host.Outcome.next (tetherRelease_of_taken h)
  case hello => exact fun s now lane b f w h => congrArg Host.Outcome.next (hello_of_taken h)
  case digest => exact fun s now lane b f w h => congrArg Host.Outcome.next (digestFrame_of_taken h)
  case adopt => exact fun s now lane b f w h => congrArg Host.Outcome.next (adoptFrame_of_taken h)
  case part => exact fun _ _ => rfl
end

/-! ### Leases, roles and enrolment

Lapse and expiry, giving up, the lanes, and a STANDBY that takes the state and its records (R469, R477, R479, R483, R485,
R492, R495 to R498, R501). -/

section
namespace Sys2Proof.Machine

variable {s w : State} {now : ℕ}

/-! #### Leases (R477) -/

/-- The lease of the renewals, in ns. -/
def State.leaseNs (s : State) : ℕ := 1000 * s.n Attr.pairLeaseTime 0 0

/-- An armed lease that lapses turns an ACTIVE into an ORPHAN (R477). -/
theorem leaseLapse_of_lapsed (hrole : s.role = 1) (harmed : s.pair.renewals.any (·.armed) = true)
    (hlapsed : s.pair.tAck + s.leaseNs ≤ now + guardNs) :
    leaseLapse now s = ((s.tetherAt now).bump Attr.pairLeaseLapses 0 0).yieldTo 3 :=
  if_pos ⟨hrole, harmed, hlapsed⟩

/-- Any other lease does not lapse (R477). -/
theorem leaseLapse_of_standing
    (h : s.role ≠ 1 ∨ s.pair.renewals.any (·.armed) = false ∨ now + guardNs < s.pair.tAck + s.leaseNs) :
    leaseLapse now s = s := by
  refine if_neg fun ⟨hrole, harmed, hlapsed⟩ => ?_
  rcases h with h | h | h
  · exact h hrole
  · exact ne_true_of_eq_false h harmed
  · exact h.not_ge hlapsed

section
variable {t : ℕ} (htime : s.pair.tRen = some t) (hrole : s.role = 2) (hover : t + 1000 * s.pair.lease + guardNs ≤ now)
include htime hrole hover

/-- A lease that is over expires by what its last renewal told (R469, R477). -/
theorem leaseExpiry_of_over : leaseExpiry now s = if s.pair.arm = true ∧ (s.tetherAt now).entitled = true then
    (s.tetherAt now).takeOver none else ((s.tetherAt now).dropRole 3).logAt sevWarning Attr.pairRole 0 0 := by
  unfold leaseExpiry
  rw [htime]
  exact if_neg (not_or_intro (not_not_intro hrole) hover.not_gt)

/-- The lease of a STANDBY that is entitled, whose last renewal was armed, expires into a takeover (R469, R478). -/
theorem leaseExpiry_of_entitled (harm : s.pair.arm = true) (hentitled : (s.tetherAt now).entitled = true) :
    leaseExpiry now s = (s.tetherAt now).takeOver none :=
  (leaseExpiry_of_over htime hrole hover).trans (if_pos ⟨harm, hentitled⟩)

/-- Any other lease expires into an ORPHAN (R469). -/
theorem leaseExpiry_of_not_entitled (h : s.pair.arm = false ∨ (s.tetherAt now).entitled = false) :
    leaseExpiry now s = ((s.tetherAt now).dropRole 3).logAt sevWarning Attr.pairRole 0 0 :=
  (leaseExpiry_of_over htime hrole hover).trans (if_neg fun ⟨harm, hentitled⟩ =>
    h.elim (ne_true_of_eq_false · harm) (ne_true_of_eq_false · hentitled))

end

/-- Only the lease of a STANDBY expires, once it is over (R477). -/
theorem leaseExpiry_of_standing
    (h : s.role ≠ 2 ∨ ∀ t, s.pair.tRen = some t → now < t + 1000 * s.pair.lease + guardNs) : leaseExpiry now s = s := by
  unfold leaseExpiry
  split
  · rfl
  next t ht => exact if_pos (h.imp_right fun hover => hover t ht)

/-! #### Giving up (R496 to R498) -/

/-- Without a reason, or with its renewals unarmed, an engine gives nothing up (R496). -/
theorem giveUp_of_none (h : s.pair.giveUpDue = 0 ∨ s.armed = false) : giveUp s = s :=
  if_pos (h.imp_right ne_true_of_eq_false)

/-- An ACTIVE that gives up is FAULTED for a condition, and a warming STANDBY for a switchover (R496, R497). -/
theorem giveUp_of_armed (hdue : s.pair.giveUpDue ≠ 0) (harmed : s.armed = true) : giveUp s =
    if s.pair.giveUpDue = 1 then (s.givenUp.setRole 4 0).set Attr.silPinState 0xFFFF 0 0 else s.givenUp.warmAgain :=
  if_neg (not_or_intro hdue (not_not_intro harmed))

/-- The former ACTIVE warms again with its silence pins low (R175, R497). -/
theorem warmAgain_silPins : s.warmAgain.n Attr.silPinState 0xFFFF 0 = 0 := State.n_set_self (s.setRole 2 2) Attr.silPinState 0xFFFF 0 0

/-! #### Lanes (R471, R501) -/

section
variable {lane : ℕ}

/-- A bit that is set is part of its number. -/
theorem two_pow_le_of_bit {v k : ℕ} (h : bit v k = true) : 2 ^ k ≤ v := by
  by_contra hlt
  simp [bit, Nat.div_eq_of_lt (not_le.mp hlt)] at h

/-- A lane that does not exist, or is as it was, does not change (R471). -/
theorem laneChange_of_same {up : Bool} (h : 2 ≤ lane ∨ bit (s.n Attr.pairLanes 0 0) lane = up) : laneChange lane up s = s :=
  if_pos h

variable (hlane : lane < 2)
include hlane

/-- A lane that falls is logged by an ACTIVE that is left with the other (R501). -/
theorem laneChange_down (hup : bit (s.n Attr.pairLanes 0 0) lane = true) : laneChange lane false s =
    (let u := s.set Attr.pairLanes 0 0 (s.n Attr.pairLanes 0 0 - 2 ^ lane : ℕ)
     if s.n Attr.pairLanes 0 0 ≠ 2 ^ lane ∧ s.role = 1 then u.logAt sevWarning Attr.pairLanes 0 0 else u) := by
  have hchange : ¬ (2 ≤ lane ∨ bit (s.n Attr.pairLanes 0 0) lane = false) := not_or_intro hlane.not_ge (by simp [hup])
  have hleft : s.n Attr.pairLanes 0 0 - 2 ^ lane ≠ 0 ↔ s.n Attr.pairLanes 0 0 ≠ 2 ^ lane := by
    have := two_pow_le_of_bit hup
    omega
  have hrole (v : ℤ) : (s.set Attr.pairLanes 0 0 v).role = s.role :=
    State.n_set_ne s v (attrKey_ne_of_attr (by decide) (by decide) (by decide))
  simp only [laneChange, if_neg hchange, Bool.false_eq_true, if_false, hleft, hrole]

/-- Over a lane that returns a member of a pair says HELLO (R468, R471). -/
theorem laneChange_up (hdown : bit (s.n Attr.pairLanes 0 0) lane = false) : laneChange lane true s =
    (let u := s.set Attr.pairLanes 0 0 (s.n Attr.pairLanes 0 0 + 2 ^ lane : ℕ)
     if u.n Attr.pairPairEnable 0 0 = 1 then u.send tHello (u.token u.entitledFlag 0 0 0) else u) := by
  have hchange : ¬ (2 ≤ lane ∨ bit (s.n Attr.pairLanes 0 0) lane = true) := not_or_intro hlane.not_ge (by simp [hdown])
  simp only [laneChange, if_neg hchange, if_true]

end

/-- Without a convergence period there is none to run out (R492). -/
theorem convergenceExpiry_of_none (h : s.role ≠ 2 ∨ s.pair.convergeEnd = 0) : convergenceExpiry s = s := if_pos h

/-- The convergence period of a STANDBY runs out, and its state is judged (R492, R493). -/
theorem convergenceExpiry_of_standby (hrole : s.role = 2) (hend : s.pair.convergeEnd ≠ 0) : convergenceExpiry s =
    ({ s with pair := { s.pair with now := Nat.max s.pair.now s.pair.convergeEnd, convergeEnd := 0 } } : State).judgeState :=
  if_neg (not_or_intro (not_not_intro hrole) hend)

/-! #### Mirror records (R483) -/

section
variable {lane : ℕ} {b : List Byte} {f : TFrame} (h : s.tetherIn tMirror now lane b = (some f, w))
include h

/-- Only a STANDBY takes records. -/
theorem mirrorFrame_of_other (hrole : w.role ≠ 2) : mirrorFrame now lane b s = w := by
  simp only [mirrorFrame, h, ne_eq, hrole, not_false_eq_true, if_true]

/-- A STANDBY that misses a record enrols again (R483). -/
theorem mirrorFrame_of_missing {l : ℕ} (hrole : w.role = 2) (hlast : Store.find? s.pair.seqIn tMirror = some l)
    (hgap : (l + 1) % 2 ^ 32 ≠ f.seq) : mirrorFrame now lane b s = w.beginEnrol := by
  have hany : (some l).any (fun l => (l + 1) % 2 ^ 32 != f.seq) = true := by
    rwa [Option.any_some, bne_iff_ne]
  simp only [mirrorFrame, h, hrole, ne_eq, not_true_eq_false, if_false, hlast, if_pos hany]

/-- A STANDBY takes the record after the last (R483). -/
theorem mirrorFrame_of_next (hrole : w.role = 2)
    (hnext : ∀ l, Store.find? s.pair.seqIn tMirror = some l → (l + 1) % 2 ^ 32 = f.seq) :
    mirrorFrame now lane b s = w.takeMirror ⟨f.seq, fieldAt f.payload 0 8, f.payload.drop 8⟩ := by
  have hany : ¬ (Store.find? s.pair.seqIn tMirror).any (fun l => (l + 1) % 2 ^ 32 != f.seq) = true := by
    cases hlast : Store.find? s.pair.seqIn tMirror with
    | none => simp
    | some l =>
      rw [Option.any_some, hnext l hlast, bne_self_eq_false]
      exact Bool.false_ne_true
  simp only [mirrorFrame, h, hrole, ne_eq, not_true_eq_false, if_false, if_neg hany]

end

/-- A record waits while the STANDBY enrols, before its period, and behind records that wait (R483). -/
theorem takeMirror_of_waiting {r : MirrorRec}
    (h : s.n Attr.pairStandbyState 0 0 = 1 ∨ s.eng.count < r.period ∨ s.pair.mirror ≠ []) :
    s.takeMirror r = { s with pair := { s.pair with mirror := s.pair.mirror ++ [r] } } := by
  unfold State.takeMirror
  dsimp only
  split
  · rfl
  next henrolled => exact if_pos (h.resolve_left henrolled)

/-- Any other record is applied, and counted where it is late (R483). -/
theorem takeMirror_of_due {r : MirrorRec} (henrolled : s.n Attr.pairStandbyState 0 0 ≠ 1) (hperiod : r.period ≤ s.eng.count)
    (hfirst : s.pair.mirror = []) :
    s.takeMirror r = (if r.period < s.eng.count then s.bump Attr.pairMirrorLate 0 0 else s).applyMirror r := by
  simp only [State.takeMirror, if_neg henrolled, hperiod.not_gt, hfirst, ne_eq, not_true_eq_false, or_self, if_false]

/-! #### Enrolment (R485) -/

section
variable {lane : ℕ} {b : List Byte} {f : TFrame} (h : s.tetherIn tEnrol now lane b = (some f, w))
include h

/-- An ACTIVE serves the state from the offset asked for, once it has begun (R485). -/
theorem enrolFrame_of_request (hlen : f.payload.length = 4) : enrolFrame now lane b s =
    if w.role = 1 ∧ (fieldAt f.payload 0 4 = 0 ∨ w.pair.enrolLen ≠ 0) then
      (w.set Attr.pairPeerRole 0 0 2).serveEnrol (fieldAt f.payload 0 4) else w := by
  have hserves : (w.role ≠ 1 ∨ fieldAt f.payload 0 4 ≠ 0 ∧ w.pair.enrolLen = 0) ↔
      ¬ (w.role = 1 ∧ (fieldAt f.payload 0 4 = 0 ∨ w.pair.enrolLen ≠ 0)) := by
    rw [not_and_or, not_or, ne_eq, not_not]
  simp only [enrolFrame, h, hlen, if_true, hserves, ite_not]

/-- A STANDBY that enrols takes the piece that it lacks next (R485). -/
theorem enrolFrame_of_piece (hlen : f.payload.length ≠ 4) : enrolFrame now lane b s =
    if w.role = 2 ∧ w.n Attr.pairStandbyState 0 0 = 1 ∧ fieldAt f.payload 0 4 = w.pair.acked then
      w.enrolData (fieldAt f.payload 0 4) (f.payload.drop 4) else w := by
  simp only [enrolFrame, h, if_neg hlen, ne_eq, ← not_and_or, ite_not]

end

/-- A STANDBY has all of the state that it was sent (R485). -/
def State.enrolWhole (s : State) : Prop := s.role = 2 ∧ s.n Attr.pairStandbyState 0 0 = 1 ∧ 8 ≤ s.pair.enrolLen ∧
  s.pair.enrol.length = s.pair.enrolLen

/-- What ENROLMENT_COMPLETE tests for is that the state is not whole. -/
theorem not_enrolWhole_iff : (s.role ≠ 2 ∨ s.n Attr.pairStandbyState 0 0 ≠ 1 ∨ s.pair.enrolLen < 8 ∨
    (s.pair.enrol.map (·.2)).length ≠ s.pair.enrolLen) ↔ ¬ s.enrolWhole := by
  simp only [State.enrolWhole, not_and_or, not_le, List.length_map, ne_eq]

/-- Enrolment that has not ended does nothing (R485). -/
theorem enrolmentComplete_of_part (h : s.pair.sE = none ∨ ¬ s.enrolWhole) : enrolmentComplete s = s := by
  unfold enrolmentComplete
  dsimp only
  split
  · rfl
  next sE hsE => exact if_pos (not_enrolWhole_iff.mpr (h.resolve_left (by simp [hsE])))

/-- The records that came after the state `sE` was taken. -/
def State.mirroredSince (s : State) (sE : ℕ) : List MirrorRec := s.pair.mirror.filter fun r => seqLater r.seq sE

section
variable {sE : ℕ} (hsE : s.pair.sE = some sE) (hwhole : s.enrolWhole)
include hsE hwhole

/-- A whole state of which a record is missing is enrolled for anew (R483, R485). -/
theorem enrolmentComplete_of_missing {r : MirrorRec} (hhead : (s.mirroredSince sE).head? = some r)
    (hgap : r.seq ≠ (sE + 1) % 2 ^ 32) : enrolmentComplete s = s.beginEnrol := by
  obtain ⟨l, hl⟩ := List.head?_eq_some_iff.mp hhead
  unfold State.mirroredSince at hl
  have hne : (r.seq != (sE + 1) % 2 ^ 32) = true := bne_iff_ne.mpr hgap
  simp only [enrolmentComplete, hsE, if_neg fun hpart => not_enrolWhole_iff.mp hpart hwhole, hl, hne, if_true]

/-- A whole state is applied with the records that came after it (R485). -/
theorem enrolmentComplete_of_next
    (hnext : ∀ r, (s.mirroredSince sE).head? = some r → r.seq = (sE + 1) % 2 ^ 32) : enrolmentComplete s =
      s.enrolled (recsAt s.pair.enrol.length ((s.pair.enrol.map (·.2)).drop 8)) (s.mirroredSince sE) sE := by
  unfold State.mirroredSince at hnext ⊢
  simp only [enrolmentComplete, hsE, if_neg fun hpart => not_enrolWhole_iff.mp hpart hwhole]
  cases hl : s.pair.mirror.filter fun r => seqLater r.seq sE with
  | nil => simp only [Bool.false_eq_true, if_false, List.length_map]
  | cons r l =>
    have heq : (r.seq != (sE + 1) % 2 ^ 32) = false := by simpa using hnext r (by rw [hl, List.head?_cons])
    simp only [heq, Bool.false_eq_true, if_false, List.length_map]

end

/-- An enrolled state that admission takes is applied with its queued records (R485). -/
theorem enrolled_of_ok {t : State} {recs : List Rec} {l : List MirrorRec} {sE : ℕ}
    (h : (applyRecs none (recs.filter (·.typ < 16)) s.clearReplicated).enterFresh = .ok t) :
    s.enrolled recs l sE = (l.foldl State.applyQueued (t.startWarm recs sE)).freshImage := by
  simp only [State.enrolled, h]

/-- Any other is logged (R485). -/
theorem enrolled_of_error {recs : List Rec} {l : List MirrorRec} {sE e : ℕ}
    (h : (applyRecs none (recs.filter (·.typ < 16)) s.clearReplicated).enterFresh = .error e) :
    s.enrolled recs l sE = s.logAt sevError Attr.pairStandbyState 0 0 := by
  simp only [State.enrolled, h]

end Sys2Proof.Machine

open Sys2Proof Sys2Proof.Machine

/-- Settles O44: a lease by its renewals and the entitlement, a lane by what is left, a record and the enrolled state by what
has come before them. -/
theorem rolesAndEnrolmentAct : Obligations.RolesAndEnrolmentAct := by
  unfold Obligations.RolesAndEnrolmentAct
  refine ⟨⟨?armed, ?lapsed, ?notLapsed, ?takesOver, ?orphaned, ?notExpired, ?keeps, ?givesUp, ?givenUp, ?warms, ?sameLane,
      ?laneLogged, ?laneDown, ?laneUp, ?noConvergence, ?converged⟩,
    ?notStandby, ?missing, ?taken, ?waits, ?applied, ?served, ?piece, ?data, ?part, ?enrolled, ?admitted, ?refused, ?anew,
    ?warm⟩
  case armed => exact fun _ => rfl
  case lapsed => exact fun s now hrole harmed h => congrArg Host.Outcome.next (leaseLapse_of_lapsed hrole harmed h)
  case notLapsed => exact fun s now h => congrArg Host.Outcome.next (leaseLapse_of_standing h)
  case takesOver =>
    exact fun s now t htime hrole hover harm hentitled =>
      congrArg Host.Outcome.next (leaseExpiry_of_entitled htime hrole hover harm hentitled)
  case orphaned =>
    exact fun s now t htime hrole hover h =>
      congrArg Host.Outcome.next (leaseExpiry_of_not_entitled htime hrole hover h)
  case notExpired => exact fun s now h => congrArg Host.Outcome.next (leaseExpiry_of_standing h)
  case keeps => exact fun s h => congrArg Host.Outcome.next (giveUp_of_none h)
  case givesUp => exact fun s hdue harmed => congrArg Host.Outcome.next (giveUp_of_armed hdue harmed)
  case givenUp => exact fun _ => rfl
  case warms => exact fun s => ⟨rfl, rfl, rfl, warmAgain_silPins⟩
  case sameLane => exact fun s lane up h => congrArg Host.Outcome.next (laneChange_of_same h)
  case laneLogged =>
    intro s lane hlane hup hleft hrole
    exact congrArg Host.Outcome.next ((laneChange_down hlane hup).trans (if_pos ⟨hleft, hrole⟩))
  case laneDown =>
    intro s lane hlane hup h
    exact congrArg Host.Outcome.next
      ((laneChange_down hlane hup).trans (if_neg fun ⟨hleft, hrole⟩ => h.elim hleft (· hrole)))
  case laneUp => exact fun s lane hlane hdown => congrArg Host.Outcome.next (laneChange_up hlane hdown)
  case noConvergence => exact fun s h => congrArg Host.Outcome.next (convergenceExpiry_of_none h)
  case converged => exact fun s hrole hend => congrArg Host.Outcome.next (convergenceExpiry_of_standby hrole hend)
  case notStandby => exact fun s now lane b f w h hrole => congrArg Host.Outcome.next (mirrorFrame_of_other h hrole)
  case missing =>
    exact fun s now lane b f w l h hrole hlast hgap =>
      congrArg Host.Outcome.next (mirrorFrame_of_missing h hrole hlast hgap)
  case taken =>
    exact fun s now lane b f w h hrole hnext => congrArg Host.Outcome.next (mirrorFrame_of_next h hrole hnext)
  case waits => exact fun s r => takeMirror_of_waiting
  case applied => exact fun s r => takeMirror_of_due
  case served => exact fun s now lane b f w h hlen => congrArg Host.Outcome.next (enrolFrame_of_request h hlen)
  case piece => exact fun s now lane b f w h hlen => congrArg Host.Outcome.next (enrolFrame_of_piece h hlen)
  case data => exact fun _ _ _ => rfl
  case part =>
    refine fun s h => congrArg Host.Outcome.next (enrolmentComplete_of_part (h.imp_right fun hpart => ?_))
    exact not_enrolWhole_iff.mp (by simpa only [List.length_map] using hpart)
  case enrolled =>
    exact fun s sE hsE hrole hstate hlen hall hnext =>
      congrArg Host.Outcome.next (enrolmentComplete_of_next hsE ⟨hrole, hstate, hlen, hall⟩ hnext)
  case admitted => exact fun s t recs l sE => enrolled_of_ok
  case refused => exact fun s recs l sE e => enrolled_of_error
  case anew =>
    exact fun s sE r hsE hrole hstate hlen hall hhead hgap =>
      congrArg Host.Outcome.next (enrolmentComplete_of_missing hsE ⟨hrole, hstate, hlen, hall⟩ hhead hgap)
  case warm => exact fun _ _ _ => rfl
end

/-! ### Requests of the pair

switchover, rejoin, force_active and pair_enable (R30, R468, R479, R495 to R497). -/

section
namespace Sys2Proof.Machine

variable {c : Ctx} {u s : State}

/-- switchover is accepted by an ACTIVE with armed 1 (R497). -/
theorem switchover_of_armed (h : u.armed = true) :
    switchover c u = ok { u with pair := { u.pair with giveUpDue := if u.pair.giveUpDue = 1 then 1 else 2 } } := if_pos h

/-- Any other engine refuses it (R497). -/
theorem switchover_of_unarmed (h : u.armed = false) : switchover c u = refuse rState := if_neg (ne_true_of_eq_false h)

/-- rejoin makes a FAULTED engine with no condition present an ORPHAN (R497). -/
theorem rejoin_of_faulted (hrole : u.role = 4) (hclear : u.n Attr.diaPresent 0 0 = 0) : rejoin c u = ok (u.setRole 3 0) :=
  if_pos ⟨hrole, hclear⟩

/-- Any other engine refuses it (R497). -/
theorem rejoin_refused (h : u.role ≠ 4 ∨ u.n Attr.diaPresent 0 0 ≠ 0) : rejoin c u = refuse rState :=
  if_neg (not_and_or.mpr h)

/-- force_active makes an ORPHAN or a STANDBY with both lanes down ACTIVE (R479). -/
theorem forceActive_of_alone (hrole : u.role = 3 ∨ u.role = 2) (hlanes : u.n Attr.pairLanes 0 0 % 4 = 0) :
    forceActive c u = ok (u.holdSaps.becomeActive (Nat.max u.epoch u.pair.peerEpoch + 1)) := if_pos ⟨hrole, hlanes⟩

/-- Any other engine refuses it (R479). -/
theorem forceActive_refused (h : (u.role ≠ 3 ∧ u.role ≠ 2) ∨ u.n Attr.pairLanes 0 0 % 4 ≠ 0) :
    forceActive c u = refuse rState := if_neg (not_and_or.mpr (h.imp_left not_or.mpr))

/-- pair_enable that leaves SOLO as it is needs no admission (R468). -/
theorem writePairEnable_of_same (h : (u.store c).pairEnabled.role = 0 ↔ u.role = 0) :
    writePairEnable c u = ok (u.store c).pairEnabled := if_pos (.inl h)

section
variable (hnow : c.atOnce = false) (hsolo : ¬ ((u.store c).pairEnabled.role = 0 ↔ u.role = 0))
include hnow hsolo

theorem not_same_or_atOnce : ¬ (((u.store c).pairEnabled.role = 0 ↔ u.role = 0) ∨ c.atOnce = true) :=
  not_or_intro hsolo (ne_true_of_eq_false hnow)

/-- An engine that enters or leaves SOLO has the digest's charge admitted (R30). -/
theorem writePairEnable_of_admitted (hadmits : ∀ e, (u.store c).pairEnabled.admits ≠ .no e) : writePairEnable c u =
    ok ((u.store c).pairEnabled.loadAttrs (u.store c).pairEnabled.topo (u.store c).pairEnabled.place) := by
  simp only [writePairEnable, if_neg (not_same_or_atOnce hnow hsolo)]

/-- What admission does not take is refused with its code (R30). -/
theorem writePairEnable_of_not_admitted {e : ℕ} (hno : (u.store c).pairEnabled.admits = .no e) :
    writePairEnable c u = refuse e := by
  simp only [writePairEnable, if_neg (not_same_or_atOnce hnow hsolo), hno]

end

/-- pair_enable 0 makes an engine that is not ACTIVE SOLO (R468). -/
theorem pairEnabled_of_off (hoff : s.n Attr.pairPairEnable 0 0 = 0) (hrole : s.role ≠ 1) : s.pairEnabled =
    (let u := (s.setRole 0 0).silPins
     { u with
       pair := { u.pair with
         renewals := [], tRen := none, taking := none, giveUpDue := 0, armedNext := false, mirror := [], slips := []
         convergeEnd := 0, resumeFrom := some 0 }
       lck := Lock.reset }) := by
  simp only [State.pairEnabled, if_pos hoff, if_neg hrole]

/-- pair_enable 1 makes a SOLO engine an ORPHAN, or FAULTED where bring-up stopped (R468, R536). -/
theorem pairEnabled_of_on (hon : s.n Attr.pairPairEnable 0 0 = 1) (hrole : s.role = 0) :
    s.pairEnabled = s.dropRole (if s.pow.broken then 4 else 3) := by
  simp only [State.pairEnabled, hon, one_ne_zero, if_false, if_pos hrole]

end Sys2Proof.Machine

open Sys2Proof Sys2Proof.Machine

/-- Settles O45: each request by the role it asks for, pair_enable by whether the engine enters or leaves SOLO. -/
theorem pairRequestsPerform : Obligations.PairRequestsPerform := by
  unfold Obligations.PairRequestsPerform
  refine ⟨?switches, ?noSwitch, ?rejoins, ?noRejoin, ?forced, ?notForced, ?same, ?admitted, ?refused, ?off, ?on⟩
  case switches =>
    exact performs_of_effect (eff := switchover) (fun _ _ => rfl) fun _ _ _ _ _ _ h => switchover_of_armed h
  case noSwitch =>
    exact refuses_of_effect (eff := switchover) (fun _ _ => rfl) fun _ _ _ _ _ _ h => switchover_of_unarmed h
  case rejoins =>
    exact performs_of_effect (eff := rejoin) (fun _ _ => rfl) fun _ _ _ _ _ _ ⟨hrole, hclear⟩ =>
      rejoin_of_faulted hrole hclear
  case noRejoin => exact refuses_of_effect (eff := rejoin) (fun _ _ => rfl) fun _ _ _ _ _ _ h => rejoin_refused h
  case forced =>
    exact performs_of_effect (eff := forceActive) (fun _ _ => rfl) fun _ _ _ _ _ _ ⟨hrole, hlanes⟩ =>
      forceActive_of_alone hrole hlanes
  case notForced =>
    exact refuses_of_effect (eff := forceActive) (fun _ _ => rfl) fun _ _ _ _ _ _ h => forceActive_refused h
  case same =>
    exact performs_of_effect (eff := writePairEnable) (fun _ _ => rfl) fun _ _ _ _ _ _ h => writePairEnable_of_same h
  case admitted =>
    exact performs_of_effect (eff := writePairEnable) (fun _ _ => rfl) fun _ _ _ _ hnow _ ⟨hsolo, hadmits⟩ =>
      writePairEnable_of_admitted hnow hsolo hadmits
  case refused =>
    exact fun e => refuses_of_effect (eff := writePairEnable) (fun _ _ => rfl) fun _ _ _ _ hnow _ ⟨hsolo, hno⟩ =>
      writePairEnable_of_not_admitted hnow hsolo hno
  case off => exact fun s => pairEnabled_of_off
  case on => exact fun s => pairEnabled_of_on
end

/-! ### Card and scene requests

Compaction, format and adoption of a card, and the saving, staging and deletion of scenes (R514, R515, R518 to R526). -/

section
namespace Sys2Proof.Machine

variable {c : Ctx} {u t : State} {card : CardSt} {k : ℕ}

/-! #### The card (R514, R519, R525) -/

/-- No compaction, save or format runs. -/
def State.cardIdle (s : State) : Prop := s.jrn.compaction = none ∧ s.jrn.saving = none ∧ s.jrn.format = none

theorem not_running_of_cardIdle (h : u.cardIdle) :
    ¬ (u.jrn.compaction.isSome = true ∨ u.jrn.saving.isSome = true ∨ u.jrn.format.isSome = true) := by
  obtain ⟨hcompaction, hsaving, hformat⟩ := h
  simp [hcompaction, hsaving, hformat]

theorem running_of_not_cardIdle (h : ¬ u.cardIdle) :
    u.jrn.compaction.isSome = true ∨ u.jrn.saving.isSome = true ∨ u.jrn.format.isSome = true := by
  by_contra hnone
  simp only [not_or, Bool.not_eq_true, Option.isSome_eq_false_iff, Option.isNone_iff_eq_none] at hnone
  exact h hnone

/-- A compaction of a card that is ready starts under its ticket (R515). -/
theorem compact_of_ready (hcard : u.jrn.card = some card) (hstate : u.n Attr.jrnCardState 0 0 = 2) (hidle : u.cardIdle)
    (hticket : u.openTicket (address Attr.jrnCompact 0) 1 = some (k, t)) :
    compact c u = okTicket (t.startCompaction card (some k) false) k := by
  simp only [compact, hcard, ne_eq, hstate, not_true_eq_false, if_false, if_neg (not_running_of_cardIdle hidle), hticket]

/-- There is nothing to compact without a card (R515). -/
theorem compact_of_no_card (hcard : u.jrn.card = none) : compact c u = refuse rNoBillet := by
  simp only [compact, hcard]

/-- A card that is not ready is not compacted (R515). -/
theorem compact_of_not_ready (hcard : u.jrn.card.isSome = true) (hstate : u.n Attr.jrnCardState 0 0 ≠ 2) :
    compact c u = refuse rState := by
  obtain ⟨card, hcard⟩ := Option.isSome_iff_exists.mp hcard
  simp only [compact, hcard, if_pos hstate]

/-- No compaction starts while another of the card's actions runs (R515). -/
theorem compact_of_busy (hcard : u.jrn.card.isSome = true) (hstate : u.n Attr.jrnCardState 0 0 = 2) (hbusy : ¬ u.cardIdle) :
    compact c u = refuse rBusy := by
  obtain ⟨card, hcard⟩ := Option.isSome_iff_exists.mp hcard
  simp only [compact, hcard, ne_eq, hstate, not_true_eq_false, if_false, if_pos (running_of_not_cardIdle hbusy)]

section
variable (harg : c.arg = 0xA5)
include harg

/-- There is nothing to format without a card (R525). -/
theorem formatCard_of_no_card (hcard : u.jrn.card = none) : formatCard c u = refuse rNoBillet := by
  simp only [formatCard, harg, ne_eq, not_true_eq_false, if_false, hcard, Option.isNone_none, if_true]

variable (hcard : u.jrn.card.isSome = true)
include hcard

/-- A card that is unusable, or out of the journal after errors, is not formatted (R525). -/
theorem formatCard_of_unfit (hstate : u.n Attr.jrnCardState 0 0 = 5 ∨ u.n Attr.jrnCardState 0 0 = 3) :
    formatCard c u = refuse rState := by
  obtain ⟨card, hcard⟩ := Option.isSome_iff_exists.mp hcard
  simp only [formatCard, harg, ne_eq, not_true_eq_false, if_false, hcard, Option.isNone_some, Bool.false_eq_true,
    if_pos hstate]

variable (hfit : u.n Attr.jrnCardState 0 0 ≠ 5) (hin : u.n Attr.jrnCardState 0 0 ≠ 3)
include hfit hin

/-- A format starts under its ticket (R525). -/
theorem formatCard_of_ready (hidle : u.cardIdle) (hload : u.cru.load.any (·.kind == 2) = false)
    (hticket : u.openTicket (address Attr.jrnFormat 0) 1 = some (k, t)) :
    formatCard c u = okTicket { t with jrn := { t.jrn with format := some k } } k := by
  obtain ⟨card, hcard⟩ := Option.isSome_iff_exists.mp hcard
  obtain ⟨hcompaction, hsaving, hformat⟩ := hidle
  simp only [formatCard, harg, ne_eq, not_true_eq_false, if_false, hcard, Option.isNone_some, Bool.false_eq_true,
    if_neg (not_or_intro hfit hin), hcompaction, hsaving, hformat, hload, Option.isSome_none, or_self, hticket]

/-- No format starts while another of the card's actions, or a stage, runs (R525). -/
theorem formatCard_of_busy (hbusy : ¬ u.cardIdle ∨ u.cru.load.any (·.kind == 2) = true) : formatCard c u = refuse rBusy := by
  obtain ⟨card, hcard⟩ := Option.isSome_iff_exists.mp hcard
  have hruns : u.jrn.compaction.isSome = true ∨ u.jrn.saving.isSome = true ∨ u.jrn.format.isSome = true ∨
      u.cru.load.any (·.kind == 2) = true := by
    have := hbusy.imp_left running_of_not_cardIdle
    tauto
  simp only [formatCard, harg, ne_eq, not_true_eq_false, if_false, hcard, Option.isNone_some, Bool.false_eq_true,
    if_neg (not_or_intro hfit hin), if_pos hruns]

end

/-- The state that adopts a card: its scenes are the card's, and a snapshot of it is begun (R519). -/
def State.adopting (t : State) (card : CardSt) (x : Super) (k : ℕ) : State :=
  let w := (t.jrn.dir.foldl (fun s e => s.dropScene e.1) t).mount card.mend
  let w : State := { w with jrn := { w.jrn with spare := [], dir := [], card := some card.mend } }
  (w.scenesOf ((card.mend.read x).1 ++ (card.mend.read x).2.groups.flatten)).startCompaction card.mend (some k) true

/-- A foreign card is adopted under its ticket (R519). -/
theorem adoptCard_of_foreign {copy : ℕ} {x : Super} (hcard : u.jrn.card = some card) (hsuper : card.current = some (copy, x))
    (hstate : u.n Attr.jrnCardState 0 0 = 4) (hcompaction : u.jrn.compaction = none) (hformat : u.jrn.format = none)
    (hticket : u.openTicket (address Attr.jrnAdoptCard 0) 1 = some (k, t)) :
    adoptCard c u = okTicket (t.adopting card x k) k := by
  simp only [adoptCard, hcard, hsuper, ne_eq, hstate, not_true_eq_false, if_false, hcompaction, hformat, Option.isSome_none,
    Bool.false_eq_true, or_self, hticket, State.adopting]

/-- There is nothing to adopt without a card (R519). -/
theorem adoptCard_of_no_card (hcard : u.jrn.card = none) : adoptCard c u = refuse rNoBillet := by
  simp only [adoptCard, hcard]

/-- Only a foreign card with a superblock is adopted (R519). -/
theorem adoptCard_of_other (hcard : u.jrn.card = some card) (hother : card.current = none ∨ u.n Attr.jrnCardState 0 0 ≠ 4) :
    adoptCard c u = refuse rState := by
  cases hsuper : card.current with
  | none => simp only [adoptCard, hcard, hsuper]
  | some x => simp only [adoptCard, hcard, hsuper, if_pos (hother.resolve_left (by simp [hsuper]))]

/-- No card is adopted while it is compacted or formatted (R519). -/
theorem adoptCard_of_busy (hcard : u.jrn.card = some card) (hsuper : card.current.isSome = true)
    (hstate : u.n Attr.jrnCardState 0 0 = 4) (hbusy : u.jrn.compaction.isSome = true ∨ u.jrn.format.isSome = true) :
    adoptCard c u = refuse rBusy := by
  obtain ⟨x, hsuper⟩ := Option.isSome_iff_exists.mp hsuper
  simp only [adoptCard, hcard, hsuper, ne_eq, hstate, not_true_eq_false, if_false, if_pos hbusy]

/-! #### Saves (R521) -/

/-- The nodes that a save writes: the targets of the plane that its argument names. -/
def savedNodes (c : Ctx) (t : State) : Store ℕ :=
  planeTargets (if (t.live = 0) = (c.arg = 0) then t.cru.planeA else t.cru.planeB) t.S t.D

/-- The name that a save writes. -/
def savedName (c : Ctx) (t : State) : List Byte := Store.get [] t.blobs (attrKey Attr.scnName c.q.inst 0)

/-- The bytes that a save writes. -/
def savedBytes (c : Ctx) (t : State) : List Byte := sceneBytes t.S t.D (savedName c t) t.mdTime (savedNodes c t)

/-- The sectors that a save writes, with the card that holds them. -/
def savedTo (card : CardSt) (c : Ctx) (t : State) : Option (List ℕ × CardSt) :=
  card.putScene (c.q.inst + 65536 * (t.jrn.serial + 1)) 16384 (savedBytes c t)

/-- The state whose scene lies in sectors of the card, with its directory entry committed. -/
def State.saved (t : State) (c : Ctx) (k : ℕ) (sectors : List ℕ) (card : CardSt) : State :=
  let e := sceneEntry c.q.inst (t.jrn.serial + 1) (savedBytes c t).length (savedNodes c t).length (t.S * 65536 + t.D)
    (leNat (((savedBytes c t).drop 40).take 4)) (savedName c t) sectors
  let w : State := { t with jrn := { t.jrn with serial := t.jrn.serial + 1 } }
  let w := (w.commit [actionRec c.code c.q.inst c.q.data, ⟨4, e⟩]).cardStats card
  { w with jrn := { w.jrn with saving := some (Saving.mk c.q.inst k e) } }

/-- Arguments 0 and 1 name a plane. -/
theorem not_bad_plane (harg : c.arg = 0 ∨ c.arg = 1) : ¬ (c.arg ≠ 0 ∧ c.arg ≠ 1) :=
  not_and_or.mpr (harg.imp not_not_intro not_not_intro)

section
variable (hnow : c.atOnce = false)
include hnow

/-- A save names the live or the idle plane (R521). -/
theorem save_of_bad_plane (harg : c.arg ≠ 0 ∧ c.arg ≠ 1) : save c u = refuse rRange := by
  simp only [save, hnow, Bool.false_eq_true, if_false, if_pos harg]

variable (harg : c.arg = 0 ∨ c.arg = 1)
include harg

/-- A scene is saved to a card that is ready (R521). -/
theorem save_of_not_ready (hcard : u.jrn.card.isSome = true) (hstate : u.n Attr.jrnCardState 0 0 ≠ 2) :
    save c u = refuse rState := by
  simp only [save, hnow, Bool.false_eq_true, if_false, if_neg (not_bad_plane harg), if_pos (And.intro hcard hstate)]

/-- No scene is saved during a strike or while the idle plane is loaded (R521). -/
theorem save_of_moving (hstate : u.jrn.card.isSome = true → u.n Attr.jrnCardState 0 0 = 2)
    (hmoving : u.n Attr.cruStrikeState 0 0 = 2 ∨ u.n Attr.cruIdleBusy 0 0 = 1) : save c u = refuse rBusy := by
  have hready : ¬ (u.jrn.card.isSome = true ∧ u.n Attr.jrnCardState 0 0 ≠ 2) := fun ⟨hcard, hnot⟩ => hnot (hstate hcard)
  simp only [save, hnow, Bool.false_eq_true, if_false, if_neg (not_bad_plane harg), if_neg hready, if_pos hmoving]

/-- No scene is saved while another of the card's actions runs (R521). -/
theorem save_of_occupied (hcard : u.jrn.card.isSome = true) (hstate : u.n Attr.jrnCardState 0 0 = 2)
    (hbusy : u.jrn.saving.isSome = true ∨ u.jrn.compaction.isSome = true ∨ u.jrn.format.isSome = true) :
    save c u = refuse rBusy := by
  obtain ⟨card, hcard⟩ := Option.isSome_iff_exists.mp hcard
  simp only [save, hnow, if_neg (not_bad_plane harg), hcard, ne_eq, hstate, not_true_eq_false, and_false, Bool.false_eq_true,
    if_false, if_pos hbusy, ite_self]

variable (hstrike : u.n Attr.cruStrikeState 0 0 ≠ 2) (hidle : u.n Attr.cruIdleBusy 0 0 ≠ 1)
include hstrike hidle

/-- No scene is saved without a card (R521). -/
theorem save_of_no_card (hcard : u.jrn.card = none) : save c u = refuse rNoBillet := by
  simp only [save, hnow, if_neg (not_bad_plane harg), if_neg (not_or_intro hstrike hidle), hcard, Option.isSome_none,
    Bool.false_eq_true, false_and, if_false]

variable (hstate : u.n Attr.jrnCardState 0 0 = 2) (hcard : u.jrn.card = some card) (hfree : u.cardIdle) (hticket : u.openTicket (address c.code c.q.inst) 1 = some (k, t))
include hstate hcard hfree hticket

/-- A scene whose bytes do not fit leaves the card alone (R524). -/
theorem save_of_no_room (hput : savedTo card c t = none) :
    save c u = okTicket { t with jrn := { t.jrn with saving := some (Saving.mk c.q.inst k []) } } k := by
  obtain ⟨hcompaction, hsaving, hformat⟩ := hfree
  unfold savedTo savedBytes savedName savedNodes at hput
  simp only [save, hnow, if_neg (not_bad_plane harg), if_neg (not_or_intro hstrike hidle), hcard, ne_eq, hstate,
    not_true_eq_false, and_false, Bool.false_eq_true, if_false, hcompaction, hsaving, hformat, Option.isSome_none, or_self,
    hticket, hput]

/-- A scene that fits lies on the card, and its directory entry is committed with the action (R521). -/
theorem save_of_room {sectors : List ℕ} {card2 : CardSt} (hput : savedTo card c t = some (sectors, card2)) :
    save c u = okTicket (t.saved c k sectors card2) k := by
  obtain ⟨hcompaction, hsaving, hformat⟩ := hfree
  unfold savedTo savedBytes savedName savedNodes at hput
  simp only [save, hnow, if_neg (not_bad_plane harg), if_neg (not_or_intro hstrike hidle), hcard, ne_eq, hstate,
    not_true_eq_false, and_false, Bool.false_eq_true, if_false, hcompaction, hsaving, hformat, Option.isSome_none, or_self,
    hticket, hput]
  rfl

end

/-! #### Stages (R65, R522) -/

/-- A card that is ready or read only is read. -/
theorem unread_eq_false (hstate : u.n Attr.jrnCardState 0 0 = 2 ∨ u.n Attr.jrnCardState 0 0 = 3) :
    (u.n Attr.jrnCardState 0 0 ≠ 2 ∧ u.n Attr.jrnCardState 0 0 ≠ 3) = False :=
  eq_false fun ⟨h2, h3⟩ => hstate.elim h2 h3

/-- Only a scene in the directory is staged (R522). -/
theorem stage_of_absent (hcard : u.jrn.card = some card) (hdir : Store.find? u.jrn.dir c.q.inst = none) :
    stage c u = refuse rState := by
  simp only [stage, hcard, hdir, ite_self]

section
variable {e : SceneEnt} (hnow : c.atOnce = false)
include hnow

/-- No scene is staged without a card: one in the directory lies on a card that is out (R522). -/
theorem stage_of_no_card (hcard : u.jrn.card = none) :
    stage c u = refuse (if (Store.find? u.jrn.dir c.q.inst).isSome then rNoBillet else rState) := by
  simp only [stage, hcard, hnow, Bool.false_eq_true, if_false]

/-- No scene is staged from a card that is neither ready nor read only (R522). -/
theorem stage_of_unread (hcard : u.jrn.card = some card) (hstate : u.n Attr.jrnCardState 0 0 ≠ 2)
    (hstate' : u.n Attr.jrnCardState 0 0 ≠ 3) : stage c u = refuse rState := by
  have hunread : ¬ c.atOnce = true ∧ u.n Attr.jrnCardState 0 0 ≠ 2 ∧ u.n Attr.jrnCardState 0 0 ≠ 3 :=
    ⟨ne_true_of_eq_false hnow, hstate, hstate'⟩
  simp only [stage, hcard, if_pos hunread]

variable (hcard : u.jrn.card = some card) (hstate : u.n Attr.jrnCardState 0 0 = 2 ∨ u.n Attr.jrnCardState 0 0 = 3)
  (hdir : Store.find? u.jrn.dir c.q.inst = some e)
include hcard hstate hdir

/-- No scene is staged while the idle plane is loaded or a strike waits (R522). -/
theorem stage_of_busy (hbusy : u.loadBusy = true) : stage c u = refuse rBusy := by
  simp only [stage, hcard, unread_eq_false hstate, and_false, hdir, hnow, Bool.false_eq_true, if_false, hbusy, if_true]

variable (hbusy : u.loadBusy = false)
include hbusy

/-- The idle plane is cleared and a load of the scene's rows is started (R522). -/
theorem stage_of_scene {m : Store ℕ} (hnodes : sceneNodes (card.getScene (u.n Attr.scnSize c.q.inst 0) e.sectors) = some m)
    (hticket : u.openTicket (address c.code c.q.inst)
      (leNat (((card.getScene (u.n Attr.scnSize c.q.inst 0) e.sectors).drop 8).take 4)) = some (k, t)) :
    stage c u = okTicket ((({ t with
        cru := { t.cru with load := some ⟨2, 0, insideShape m u.S u.D, k, 0, c.q.inst⟩ } } : State).set Attr.cruIdleBusy 0 0
          1).clearIdlePlane) k := by
  simp only [stage, hcard, unread_eq_false hstate, and_false, hdir, hnow, Bool.false_eq_true, if_false, hbusy, hnodes,
    Option.map_some, startLoad_ok hticket, okTicket, clearIdlePlane_n]

/-- A scene that fails its check leaves a clear plane, and its ticket ends with TYPE (R522). -/
theorem stage_of_corrupt (hnodes : sceneNodes (card.getScene (u.n Attr.scnSize c.q.inst 0) e.sectors) = none)
    (hticket : u.openTicket (address c.code c.q.inst) 1 = some (k, t)) :
    stage c u = okTicket ((t.clearIdlePlane.completeTicket k rType).logAt sevWarning Attr.scnCrc c.q.inst 0) k := by
  simp only [stage, hcard, unread_eq_false hstate, and_false, hdir, hnow, Bool.false_eq_true, if_false, hbusy, hnodes,
    Option.map_none, hticket]

end

end Sys2Proof.Machine

open Sys2Proof Sys2Proof.Machine

/-- Settles O29: each request by the card's state, what of the card's runs and, of a save, whether the bytes fit. -/
theorem cardAndSceneRequestsPerform : Obligations.CardAndSceneRequestsPerform := by
  unfold Obligations.CardAndSceneRequestsPerform
  refine ⟨⟨?compact, ?compactNoCard, ?compactNotReady, ?compactBusy, ?format, ?formatRange, ?formatNoCard, ?formatUnfit,
    ?formatBusy, ?adopt, ?adoptNoCard, ?adoptOther, ?adoptBusy⟩, ⟨?save, ?saveRange, ?saveNotReady, ?saveMoving, ?saveNoCard,
    ?saveBusy, ?stage, ?stageCorrupt, ?stageBusy, ?stageOut, ?stageNoCard, ?stageAbsent, ?stageUnread, ?delete⟩⟩
  case compact =>
    exact fun card => performsTicket_of_effect (eff := compact) (fun _ _ => rfl)
      fun _ _ _ _ _ _ _ _ ⟨hcard, hstate, hidle⟩ hticket => compact_of_ready hcard hstate hidle hticket
  case compactNoCard =>
    exact refuses_of_effect (eff := compact) (fun _ _ => rfl) fun _ _ _ _ _ _ hcard => compact_of_no_card hcard
  case compactNotReady =>
    exact refuses_of_effect (eff := compact) (fun _ _ => rfl)
      fun _ _ _ _ _ _ ⟨hcard, hstate⟩ => compact_of_not_ready hcard hstate
  case compactBusy =>
    exact refuses_of_effect (eff := compact) (fun _ _ => rfl)
      fun _ _ _ _ _ _ ⟨hcard, hstate, hbusy⟩ => compact_of_busy hcard hstate hbusy
  case format =>
    exact performsTicket_of_effect (eff := formatCard) (fun _ _ => rfl)
      fun _ _ _ _ _ _ _ _ ⟨harg, hcard, hfit, hin, hidle, hload⟩ hticket =>
        formatCard_of_ready harg hcard hfit hin hidle hload hticket
  case formatRange => exact refuses_of_effect (eff := formatCard) (fun _ _ => rfl) fun _ _ _ _ _ _ harg => if_pos harg
  case formatNoCard =>
    exact refuses_of_effect (eff := formatCard) (fun _ _ => rfl)
      fun _ _ _ _ _ _ ⟨harg, hcard⟩ => formatCard_of_no_card harg hcard
  case formatUnfit =>
    exact refuses_of_effect (eff := formatCard) (fun _ _ => rfl)
      fun _ _ _ _ _ _ ⟨harg, hcard, hstate⟩ => formatCard_of_unfit harg hcard hstate
  case formatBusy =>
    exact refuses_of_effect (eff := formatCard) (fun _ _ => rfl)
      fun _ _ _ _ _ _ ⟨harg, hcard, hfit, hin, hbusy⟩ => formatCard_of_busy harg hcard hfit hin hbusy
  case adopt =>
    exact fun card copy x => performsTicket_of_effect (eff := adoptCard) (fun _ _ => rfl)
      fun _ _ _ _ _ _ _ _ ⟨hcard, hsuper, hstate, hcompaction, hformat⟩ hticket =>
        adoptCard_of_foreign hcard hsuper hstate hcompaction hformat hticket
  case adoptNoCard =>
    exact refuses_of_effect (eff := adoptCard) (fun _ _ => rfl) fun _ _ _ _ _ _ hcard => adoptCard_of_no_card hcard
  case adoptOther =>
    exact fun card => refuses_of_effect (eff := adoptCard) (fun _ _ => rfl)
      fun _ _ _ _ _ _ ⟨hcard, hother⟩ => adoptCard_of_other hcard hother
  case adoptBusy =>
    exact fun card => refuses_of_effect (eff := adoptCard) (fun _ _ => rfl)
      fun _ _ _ _ _ _ ⟨hcard, hsuper, hstate, hbusy⟩ => adoptCard_of_busy hcard hsuper hstate hbusy
  case save =>
    refine fun card => performsTicket_of_effect (eff := save) (fun _ _ => rfl)
      fun c u k t _ _ hnow _ ⟨harg, ⟨hstate, hstrike, hidle, hsaving, hcompaction, hformat⟩, hcard⟩ hticket => ?_
    cases hput : savedTo card c t with
    | none =>
      refine (save_of_no_room hnow harg hstrike hidle hstate hcard ⟨hcompaction, hsaving, hformat⟩ hticket hput).trans ?_
      unfold savedTo savedBytes savedName savedNodes at hput
      simp only [hput]
    | some placed =>
      refine (save_of_room hnow harg hstrike hidle hstate hcard ⟨hcompaction, hsaving, hformat⟩ hticket hput).trans ?_
      unfold savedTo savedBytes savedName savedNodes at hput
      simp only [hput]
      rfl
  case saveRange =>
    exact refuses_of_effect (eff := save) (fun _ _ => rfl) fun _ _ _ _ hnow _ harg => save_of_bad_plane hnow harg
  case saveNotReady =>
    exact refuses_of_effect (eff := save) (fun _ _ => rfl)
      fun _ _ _ _ hnow _ ⟨harg, hcard, hstate⟩ => save_of_not_ready hnow harg hcard hstate
  case saveMoving =>
    exact refuses_of_effect (eff := save) (fun _ _ => rfl)
      fun _ _ _ _ hnow _ ⟨harg, hstate, hmoving⟩ => save_of_moving hnow harg hstate hmoving
  case saveNoCard =>
    exact refuses_of_effect (eff := save) (fun _ _ => rfl)
      fun _ _ _ _ hnow _ ⟨harg, hstrike, hidle, hcard⟩ => save_of_no_card hnow harg hstrike hidle hcard
  case saveBusy =>
    refine refuses_of_effect (eff := save) (fun _ _ => rfl) fun _ _ _ _ hnow _ ⟨harg, hcard, hstate, hbusy⟩ => ?_
    exact save_of_occupied hnow harg hcard hstate hbusy
  case stage =>
    exact fun card e m => performsTicket_of_effect (eff := stage) (fun _ _ => rfl)
      fun _ _ _ _ _ _ hnow _ ⟨hcard, hstate, hdir, hbusy, hnodes⟩ hticket =>
        stage_of_scene hnow hcard hstate hdir hbusy hnodes hticket
  case stageCorrupt =>
    exact fun card e => performsTicket_of_effect (eff := stage) (fun _ _ => rfl)
      fun _ _ _ _ _ _ hnow _ ⟨hcard, hstate, hdir, hbusy, hnodes⟩ hticket =>
        stage_of_corrupt hnow hcard hstate hdir hbusy hnodes hticket
  case stageBusy =>
    exact fun card e => refuses_of_effect (eff := stage) (fun _ _ => rfl)
      fun _ _ _ _ hnow _ ⟨hcard, hstate, hdir, hbusy⟩ => stage_of_busy hnow hcard hstate hdir hbusy
  case stageOut =>
    exact refuses_of_effect (eff := stage) (fun _ _ => rfl)
      fun _ _ _ _ hnow _ ⟨hcard, hdir⟩ => (stage_of_no_card hnow hcard).trans (congrArg refuse (if_pos hdir))
  case stageNoCard =>
    exact refuses_of_effect (eff := stage) (fun _ _ => rfl) fun _ _ _ _ hnow _ ⟨hcard, hdir⟩ =>
      (stage_of_no_card hnow hcard).trans (congrArg refuse (if_neg (by simp [hdir])))
  case stageAbsent =>
    refine refuses_of_effect (eff := stage) (fun _ _ => rfl) fun _ _ _ _ _ _ ⟨hcard, hdir⟩ => ?_
    obtain ⟨card, hcard⟩ := Option.isSome_iff_exists.mp hcard
    exact stage_of_absent hcard hdir
  case stageUnread =>
    refine refuses_of_effect (eff := stage) (fun _ _ => rfl) fun _ _ _ _ hnow _ ⟨hcard, hstate, hstate'⟩ => ?_
    obtain ⟨card, hcard⟩ := Option.isSome_iff_exists.mp hcard
    exact stage_of_unread hnow hcard hstate hstate'
  case delete => exact performs_of_effect (eff := deleteScene) (fun _ _ => rfl) fun _ _ _ _ _ _ _ => rfl
end

/-! ### Card and journal events

The card that comes and goes, scenes that end, groups that become durable, and the ends of compaction and format (R508, R511,
R514 to R516, R518, R519, R521, R524, R525). -/

section
namespace Sys2Proof.Machine

variable {s : State} {card : CardSt}

/-! #### The card comes and goes (R518, R519) -/

/-- The state whose card has been taken out. -/
def State.unplugged (s : State) : State :=
  let v := s.cardFails
  let v : State := { v.completeTicket? v.jrn.format rNoBillet with jrn := { v.jrn with card := none, format := none } }
  (((((((v.set Attr.jrnCardState 0 0 0).set Attr.jrnCardId 0 0 0).set Attr.jrnSectors 0 0 0).set Attr.jrnRatedCycles 0 0 0).set
    Attr.jrnRingFill 0 0 0).set Attr.jrnLifeUsed 0 0 0).set Attr.scnFreeSectors 0xFFFF 0 0).toRam

/-- The state with a card in its slot. -/
def State.holding (s : State) (x : Card) : State := { s with jrn := { s.jrn with card := some (cardOf x) } }

/-- The state with a usable card in its slot. -/
def State.plugged (s : State) (x : Card) : State :=
  (((s.holding x).set Attr.jrnCardId 0 0 (cardOf x).id).set Attr.jrnSectors 0 0 (cardOf x).sectors).set
    Attr.jrnRatedCycles 0 0 (cardOf x).rated

/-- A card that is taken out leaves none (R519). -/
theorem cardDetect_removed (hcard : s.jrn.card = some card) : cardDetect none s = s.unplugged := by
  simp only [cardDetect, hcard, State.unplugged]

/-- There is one slot: a card that is in stays the card (R519). -/
theorem cardDetect_of_same {x : Option Card} (h : s.jrn.card.isSome = x.isSome) : cardDetect x s = s := by
  cases x with
  | none => rw [Option.isSome_none, Option.isSome_eq_false_iff, Option.isNone_iff_eq_none] at h; simp only [cardDetect, h]
  | some x => obtain ⟨card, hcard⟩ := Option.isSome_iff_exists.mp h; simp only [cardDetect, hcard]

section
variable {x : Card} (hcard : s.jrn.card = none)
include hcard

/-- A card that cannot be used (R519). -/
theorem cardDetect_unusable (husable : (cardOf x).usable = false) :
    cardDetect (some x) s = (s.holding x).set Attr.jrnCardState 0 0 5 := by
  simp only [cardDetect, hcard, husable, Bool.false_eq_true, not_false_eq_true, if_true, State.holding]

variable (husable : (cardOf x).usable = true)
include husable

/-- A card without a superblock is unformatted (R519). -/
theorem cardDetect_unformatted (hsuper : (cardOf x).current = none) :
    cardDetect (some x) s = ((s.plugged x).set Attr.jrnCardState 0 0 1).cardStats (cardOf x) := by
  simp only [cardDetect, hcard, husable, not_true_eq_false, if_false, hsuper, Option.isNone_none, if_true, State.plugged,
    State.holding]

variable {e : ℕ × Super} (hsuper : (cardOf x).current = some e)
include hsuper

/-- A card that was not journalled before is foreign (R519). -/
theorem cardDetect_foreign (hlast : s.jrn.lastCard ≠ some (cardOf x).id) :
    cardDetect (some x) s = ((s.plugged x).set Attr.jrnCardState 0 0 4).cardStats (cardOf x) := by
  simp only [cardDetect, hcard, husable, not_true_eq_false, if_false, hsuper, Option.isNone_some, Bool.false_eq_true,
    State.set_jrn, hlast, State.plugged, State.holding]

/-- The card journalled before is mended, taken up and given a fresh snapshot (R518). -/
theorem cardDetect_known (hlast : s.jrn.lastCard = some (cardOf x).id) : cardDetect (some x) s =
    (let v := (((s.plugged x).mount (cardOf x).mend).set Attr.jrnCardState 0 0 2).cardStats (cardOf x).mend
     if v.n Attr.jrnCardState 0 0 = 2 then v.startCompaction (cardOf x).mend none false else v) := by
  simp only [cardDetect, hcard, husable, not_true_eq_false, if_false, hsuper, Option.isNone_some, Bool.false_eq_true,
    State.set_jrn, hlast, if_true, State.plugged, State.holding]

end

/-- An error of the card is counted and passes the journal to RAM (R518). -/
theorem cardIoError_of_card (hcard : s.jrn.card.isSome = true) :
    cardIoError s = ((s.bump Attr.jrnIoErrors 0 0).cardFails).toRam :=
  if_neg (ne_true_of_eq_false (Option.isNone_eq_false_iff.mpr hcard))

/-- Without a card there is no error (R518). -/
theorem cardIoError_of_no_card (hcard : s.jrn.card = none) : cardIoError s = s :=
  if_pos (Option.isNone_iff_eq_none.mpr hcard)

/-! #### Scenes (R516, R521, R524) -/

/-- Without a save there is none to end (R521). -/
theorem sceneComplete_of_none (hsaving : s.jrn.saving = none) : sceneComplete s = s := by
  simp only [sceneComplete, hsaving]

/-- Without a card no scene moves (R516). -/
theorem wearLevellingMove_of_no_card (hcard : s.jrn.card = none) : wearLevellingMove s = s := by
  simp only [wearLevellingMove, hcard]

section
variable {v : Saving} (hsaving : s.jrn.saving = some v)
include hsaving

/-- A scene whose sectors did not fit ends with RANGE (R524). -/
theorem sceneComplete_of_no_room (hentry : v.entry = []) : sceneComplete s =
    ({ s with jrn := { s.jrn with saving := none } } : State).sceneEnds v.scene v.ticket rRange := by
  simp only [sceneComplete, hsaving, hentry, if_true]

/-- Another ends once its directory entry is durable (R521). -/
theorem sceneComplete_of_entry (hentry : v.entry ≠ []) : sceneComplete s =
    if s.jrn.pend.any (fun g => g.recs.any fun r => r.typ == 4 && r.payload == v.entry) then s
    else (({ s with jrn := { s.jrn with saving := none } } : State).enterScene v.entry).sceneEnds v.scene v.ticket rOk := by
  simp only [sceneComplete, hsaving, hentry, if_false]

end

/-- How far the erase counts of a card lie apart (R516). -/
def CardSt.spread (card : CardSt) : ℕ :=
  let counts := (card.data.filter card.headed).map card.erases
  counts.foldl Nat.max 0 - counts.foldl Nat.min (counts.headD 0)

section
variable (hcard : s.jrn.card = some card)
include hcard

/-- No scene moves unless the card is ready, worn unevenly, and no scene is being saved (R516). -/
theorem wearLevellingMove_of_even (h : s.n Attr.jrnCardState 0 0 ≠ 2 ∨ card.spread ≤ 1000 ∨ s.jrn.saving.isSome = true) :
    wearLevellingMove s = s := by
  unfold CardSt.spread at h
  simp only [wearLevellingMove, hcard, if_pos h]

/-- Without a scene there is none to move (R516). -/
theorem wearLevellingMove_of_no_scene (hleast : leastErased card s.jrn.dir = none) : wearLevellingMove s = s := by
  simp only [wearLevellingMove, hcard, hleast, ite_self]

variable {n k : ℕ} (hleast : leastErased card s.jrn.dir = some (n, k))
include hleast

/-- A scene that finds no sector stays (R516). -/
theorem wearLevellingMove_of_no_room (halloc : card.allocate 4 (card.secId k) = none) : wearLevellingMove s = s := by
  simp only [wearLevellingMove, hcard, hleast, halloc, ite_self]

/-- The least-erased scene sector moves, and its directory entry follows (R516). -/
theorem wearLevellingMove_of_uneven {j : ℕ} {c2 : CardSt} (hstate : s.n Attr.jrnCardState 0 0 = 2) (hsaving : s.jrn.saving = none)
    (hspread : 1000 < card.spread) (halloc : card.allocate 4 (card.secId k) = some (j, c2)) : wearLevellingMove s =
      (let e := Store.get (SceneEnt.mk [] 0) s.jrn.dir n
       let e := { e with sectors := e.sectors.map fun x => if x = k then j else x }
       let w : State := { s with jrn := { s.jrn with dir := Store.put s.jrn.dir n e } }
       (w.commit [w.sceneRec n e]).cardStats ((c2.wr (secBase j + 32) (card.rd (secBase k + 32) 65504)).release k)) := by
  unfold CardSt.spread at hspread
  simp only [wearLevellingMove, hcard, hleast, halloc, ne_eq, hstate, not_true_eq_false, hsaving, Option.isSome_none,
    Bool.false_eq_true, or_false, false_or, if_neg hspread.not_ge]

end

/-! #### Groups (R22, R508, R511, R514) -/

section
variable {g : JGroup} {rest : List JGroup}

/-- The group is the first after a snapshot, and opens a sector of the ring. -/
def State.opensSector (s : State) (g : JGroup) : Bool :=
  s.jrn.compaction.any fun k => k.start.isNone && seqPlus k.at_ 1 == g.first

/-- The ring with the group programmed into it, where it has room. -/
def State.writing (s : State) (card : CardSt) (g : JGroup) : Option Tape :=
  (Tape.mk card s.jrn.ring (if s.opensSector g then 65536 else s.jrn.ringOff)).group s.jrn.nextSerial card.ringLimit g.first g.recs

/-- The group is flushed to the card now. -/
def State.flushes (s : State) (g : JGroup) : Prop := s.onCard = true ∧ s.jrn.format = none ∧ s.tooEarly g = false

/-- Without a card nothing is flushed. -/
theorem groupDurable_of_no_card (hcard : s.jrn.card = none) : groupDurable s = s := by
  simp only [groupDurable, hcard]

/-- Without a group nothing is flushed. -/
theorem groupDurable_of_no_group (hpend : s.jrn.pend = []) : groupDurable s = s := by
  cases hcard : s.jrn.card with
  | none => exact groupDurable_of_no_card hcard
  | some card => simp only [groupDurable, hcard, hpend]

/-- A group of the period that runs, and one while the card takes none, waits (R22, R518). -/
theorem groupDurable_of_waiting (hpend : s.jrn.pend = g :: rest) (hwaits : ¬ s.flushes g) : groupDurable s = s := by
  have hwait : ¬ s.onCard = true ∨ s.jrn.format.isSome = true ∨ s.tooEarly g = true := by
    by_contra hnone
    rw [not_or, not_not, not_or] at hnone
    simp only [Bool.not_eq_true, Option.isSome_eq_false_iff, Option.isNone_iff_eq_none] at hnone
    exact hwaits hnone
  cases hcard : s.jrn.card with
  | none => exact groupDurable_of_no_card hcard
  | some card => simp only [groupDurable, hcard, hpend, if_pos hwait]

section
variable (hcard : s.jrn.card = some card) (hpend : s.jrn.pend = g :: rest) (hflushes : s.flushes g)
include hcard hpend hflushes

/-- The group is programmed, and the ring compacted where it is full to three quarters (R511, R514). -/
theorem groupDurable_of_room {w : Tape} (hwritten : s.writing card g = some w) : groupDurable s =
    (s.programmed g rest w (s.opensSector g)).compactIfFull w.card (s.n Attr.jrnRingFill 0 0) := by
  obtain ⟨hon, hformat, hperiod⟩ := hflushes
  unfold State.writing State.opensSector at hwritten
  simp only [groupDurable, hcard, hpend, hon, hformat, hperiod, not_true_eq_false, Option.isSome_none, Bool.false_eq_true,
    or_self, if_false, hwritten, State.opensSector]

/-- A ring without room passes the journal to RAM (R518). -/
theorem groupDurable_of_no_room (hwritten : s.writing card g = none) :
    groupDurable s = ({ s with jrn := { s.jrn with full := true } } : State).toRam := by
  obtain ⟨hon, hformat, hperiod⟩ := hflushes
  unfold State.writing State.opensSector at hwritten
  simp only [groupDurable, hcard, hpend, hon, hformat, hperiod, not_true_eq_false, Option.isSome_none, Bool.false_eq_true,
    or_self, if_false, hwritten]

end

/-- What a group that is programmed leaves, whether or not a compaction starts (R511). -/
theorem compactIfFull_programmed {w : Tape} {o : Bool} {fill : ℕ} :
    let t := (s.programmed g rest w o).compactIfFull w.card fill
    t.jrn.pend = rest ∧ t.jrn.ring = w.sectors ∧ t.jrn.ringOff = w.off ∧ t.jrn.card = some w.card := by
  obtain ⟨hpend, hring, hoff, hcard⟩ := programmed_jrn s g rest w o
  obtain ⟨hpend', hring', hoff', hcard'⟩ := compactIfFull_keeps (s.programmed g rest w o) w.card fill
  exact ⟨hpend'.trans hpend, hring'.trans hring, hoff'.trans hoff, hcard'.trans hcard⟩

end

/-! #### Compaction and format (R514, R515, R519, R525) -/

/-- The journal lies on the card again, and the card is ready. -/
def State.journalOn (s : State) (card : CardSt) : State :=
  (((s.set Attr.jrnCardState 0 0 2).set Attr.jrnJournalState 0 0 0).set Attr.jrnRamFill 0 0 0).cardStats card

/-- The card whose superblock names the snapshot in `w`, before anything is freed. -/
def State.superseded (s : State) (k : Compaction) (w : Tape) : CardSt :=
  w.card.putSuper (match w.card.current with | some (1, _) => 2 | _ => 1)
    ⟨s.jrn.gen + 1, k.start.getD s.jrn.nextSerial, seqPlus k.at_ 1, k.snapshot⟩

/-- The sectors of the ring that the compaction keeps. -/
def State.ringKept (s : State) (k : Compaction) : List (ℕ × ℕ) :=
  s.jrn.ring.filter fun e => decide (k.start.getD s.jrn.nextSerial ≤ e.1)

/-- The card with the sectors freed that nothing names any more. -/
def State.compactedCard (s : State) (k : Compaction) (w : Tape) : CardSt :=
  let new := s.superseded k w
  let named := (s.ringKept k).map (·.2) ++ w.sectors.map (·.2)
  (new.data.filter fun x => new.headed x && ((new.use x == 2 || new.use x == 3) && !named.contains x || s.jrn.spare.contains x)).foldl
    CardSt.release new

/-- The groups that a compaction's snapshot covers. -/
def State.covered (s : State) (k : Compaction) : List JGroup :=
  s.jrn.pend.takeWhile fun g => !(k.start.isSome || seqPlus k.at_ 1 == g.first)

/-- The journal after a compaction. -/
def State.compacted (s : State) (k : Compaction) (w : Tape) : State :=
  let u : State := { s with jrn := { s.jrn with
    gen := s.jrn.gen + 1, snapshot := k.snapshot, ring := s.ringKept k, spare := [], compaction := none, full := false
    pend := s.jrn.pend.drop (s.covered k).length
    lastCard := some (s.compactedCard k w).id } }
  if s.covered k = [] then u else u.set Attr.jrnDurableSeq 0 0 k.at_

/-- Without a card or a compaction there is none to end. -/
theorem compactionComplete_of_none (h : s.jrn.card = none ∨ s.jrn.compaction = none) : compactionComplete s = s := by
  unfold compactionComplete
  split
  next card k hcard hruns => simp [hcard, hruns] at h
  next => rfl

section
variable {k : Compaction} (hcard : s.jrn.card = some card) (hruns : s.jrn.compaction = some k)
include hcard hruns

/-- A compaction that finds no room ends with BUSY (R514). -/
theorem compactionComplete_of_no_room (hwritten : (Tape.mk card [] 65536).snapshot k.snapshot 0 k.recs = none) :
    compactionComplete s = (({ s with jrn := { s.jrn with compaction := none } } : State).completeTicket? k.ticket
      rBusy).logAt sevWarning Attr.jrnRingFill 0 0 := by
  simp only [compactionComplete, hcard, hruns, hwritten]

/-- A compaction whose snapshot the card holds ends with the next generation (R514, R515, R519). -/
theorem compactionComplete_of_room {w : Tape} (hwritten : (Tape.mk card [] 65536).snapshot k.snapshot 0 k.recs = some w) :
    compactionComplete s = (((s.compacted k w).journalOn (s.compactedCard k w)).bump Attr.jrnCompactions 0 0).completeTicket?
      k.ticket rOk := by
  unfold compactionComplete
  rw [hcard, hruns]
  dsimp only
  rw [hwritten]
  rfl

end

/-- The card after a format: empty but for its superblock. -/
def State.formattedCard (s : State) (card : CardSt) : CardSt :=
  (card.data.foldl CardSt.release (card.wipe 2)).putSuper 1
    ⟨1, 0, match s.jrn.pend with | g :: _ => g.first | [] => s.jrn.nextSeq, 0⟩

/-- The journal after a format: no scene, no ring. -/
def State.formatted (s : State) (card : CardSt) : State :=
  let u : State := s.jrn.dir.foldl (fun s e => s.dropScene e.1) s
  { u with jrn := { u.jrn with
      gen := 1, snapshot := 0, ring := [], ringOff := 65536, nextSerial := 0, spare := [], full := false, format := none
      lastCard := some (s.formattedCard card).id } }

/-- A format ends at generation 1 with an empty ring and no scene (R525). -/
theorem formatComplete_of_running {k : ℕ} (hcard : s.jrn.card = some card) (hruns : s.jrn.format = some k) :
    formatComplete s = ((s.formatted card).journalOn (s.formattedCard card)).completeTicket k rOk := by
  unfold formatComplete
  rw [hcard, hruns]
  rfl

/-- Without a card or a format there is none to end. -/
theorem formatComplete_of_none (h : s.jrn.card = none ∨ s.jrn.format = none) : formatComplete s = s := by
  unfold formatComplete
  split
  next card k hcard hruns => simp [hcard, hruns] at h
  next => rfl

/-- What an event that lets a waiting OFF follow answers. -/
theorem next_offIfDurable {s t : State} (h : s = t) :
    (Host.Outcome.next s.offIfDurable : Host.Outcome State Fault Refusal) = .next t.offIfDurable := h ▸ rfl

end Sys2Proof.Machine

open Sys2Proof Sys2Proof.Machine

/-- Settles O30: each event by what the slot holds and what of the card's runs. -/
theorem cardAndJournalEventsAct : Obligations.CardAndJournalEventsAct := by
  unfold Obligations.CardAndJournalEventsAct
  refine ⟨⟨?removed, ?unusable, ?unformatted, ?foreign, ?known, ?inSlot, ?noCard, ?ioError, ?ioNoCard, ?sceneNoRoom, ?scene,
    ?moves, ?noSaving, ?even, ?noScene, ?noSector⟩, ⟨?room, ?noRoom, ?waits, ?groupNoCard, ?noGroup⟩,
    ⟨?compacted, ?compactNoRoom, ?noCompaction, ?formatted, ?noFormat⟩⟩
  case removed => exact fun s card hcard => congrArg Host.Outcome.next (cardDetect_removed hcard)
  case unusable => exact fun s x hcard husable => congrArg Host.Outcome.next (cardDetect_unusable hcard husable)
  case unformatted =>
    exact fun s x hcard husable hsuper => congrArg Host.Outcome.next (cardDetect_unformatted hcard husable hsuper)
  case foreign =>
    exact fun s x e hcard husable hsuper hlast => congrArg Host.Outcome.next (cardDetect_foreign hcard husable hsuper hlast)
  case known =>
    exact fun s x e hcard husable hsuper hlast => congrArg Host.Outcome.next (cardDetect_known hcard husable hsuper hlast)
  case inSlot => exact fun s x hcard => congrArg Host.Outcome.next (cardDetect_of_same hcard)
  case noCard => exact fun s hcard => congrArg Host.Outcome.next (cardDetect_of_same (x := none) (congrArg Option.isSome hcard))
  case ioError => exact fun s hcard => congrArg Host.Outcome.next (cardIoError_of_card hcard)
  case ioNoCard =>
    exact fun s hcard => ⟨congrArg Host.Outcome.next (cardIoError_of_no_card hcard),
      congrArg Host.Outcome.next (wearLevellingMove_of_no_card hcard)⟩
  case sceneNoRoom =>
    exact fun s v hsaving hentry => congrArg Host.Outcome.next (sceneComplete_of_no_room hsaving hentry)
  case scene => exact fun s v hsaving hentry => congrArg Host.Outcome.next (sceneComplete_of_entry hsaving hentry)
  case moves =>
    exact fun s card n k j c2 hcard hstate hsaving hspread hleast halloc =>
      congrArg Host.Outcome.next (wearLevellingMove_of_uneven hcard hleast hstate hsaving hspread halloc)
  case noSaving => exact fun s hsaving => congrArg Host.Outcome.next (sceneComplete_of_none hsaving)
  case even => exact fun s card hcard h => congrArg Host.Outcome.next (wearLevellingMove_of_even hcard h)
  case noScene => exact fun s card hcard hleast => congrArg Host.Outcome.next (wearLevellingMove_of_no_scene hcard hleast)
  case noSector =>
    exact fun s card n k hcard hleast halloc => congrArg Host.Outcome.next (wearLevellingMove_of_no_room hcard hleast halloc)
  case room =>
    exact fun s card g rest w hcard hpend hflushes hwritten =>
      ⟨next_offIfDurable (groupDurable_of_room hcard hpend hflushes hwritten), compactIfFull_programmed⟩
  case noRoom =>
    exact fun s card g rest hcard hpend hflushes hwritten =>
      next_offIfDurable (groupDurable_of_no_room hcard hpend hflushes hwritten)
  case waits => exact fun s g rest hpend hwaits => next_offIfDurable (groupDurable_of_waiting hpend hwaits)
  case groupNoCard => exact fun s hcard => next_offIfDurable (groupDurable_of_no_card hcard)
  case noGroup => exact fun s hpend => next_offIfDurable (groupDurable_of_no_group hpend)
  case compacted =>
    exact fun s card k w hcard hruns hwritten => next_offIfDurable (compactionComplete_of_room hcard hruns hwritten)
  case compactNoRoom =>
    exact fun s card k hcard hruns hwritten => next_offIfDurable (compactionComplete_of_no_room hcard hruns hwritten)
  case noCompaction => exact fun s h => next_offIfDurable (compactionComplete_of_none h)
  case formatted => exact fun s card k hcard hruns => congrArg Host.Outcome.next (formatComplete_of_running hcard hruns)
  case noFormat => exact fun s h => congrArg Host.Outcome.next (formatComplete_of_none h)
end

/-! ### Restart, LOW and OFF

The power requests and the OFF that waits for durability (R529, R540 to R542). -/

section
namespace Sys2Proof.Machine

variable {c : Ctx} {s u t : State} {k : ℕ}

/-- A restart of an engine whose renewals are not armed waits for its reset (R529). -/
theorem restart_of_unarmed (harg : c.arg = 0xA5) (harmed : u.armed = false) :
    restart c u = ok { u with pow := { u.pow with restartDue := true } } :=
  (if_neg (not_not_intro harg)).trans (congrArg ok (if_neg (ne_true_of_eq_false harmed)))

/-- A restart of an ACTIVE whose renewals are armed makes it give up (R529). -/
theorem restart_of_armed (harg : c.arg = 0xA5) (harmed : u.armed = true) : restart c u =
    ok (giveUp { u with pow := { u.pow with restartDue := true }, pair := { u.pair with giveUpDue := 1 } }) :=
  (if_neg (not_not_intro harg)).trans (congrArg ok (if_pos harmed))

/-- An engine that may rest enters LOW (R541). -/
theorem enterLow_of_resting (harg : c.arg = 2) (hrest : u.mayRest = true) :
    enterLow c u = ok (u.set Attr.powPowerState 0 0 2) :=
  (if_neg (not_not_intro harg)).trans (if_neg (not_not_intro hrest))

/-- Another does not (R541). -/
theorem enterLow_of_busy (harg : c.arg = 2) (hrest : u.mayRest = false) : enterLow c u = refuse rState :=
  (if_neg (not_not_intro harg)).trans (if_pos (ne_true_of_eq_false hrest))

/-- An engine that may not rest does not enter OFF (R541). -/
theorem enterOff_of_busy (hrest : u.mayRest = false) : enterOff c u = refuse rState := if_pos (ne_true_of_eq_false hrest)

section
variable (hrest : u.mayRest = true)
include hrest

/-- An OFF that waits is not asked for again (R542). -/
theorem enterOff_of_waiting (hdue : u.pow.offDue.isSome = true) : enterOff c u = refuse rBusy :=
  (if_neg (not_not_intro hrest)).trans (if_pos hdue)

/-- An OFF waits under its ticket (R542). -/
theorem enterOff_of_resting (hdue : u.pow.offDue = none) (hticket : u.openTicket (address Attr.powEnter 0) 0 = some (k, t)) :
    enterOff c u = okTicket { t with pow := { t.pow with offDue := some k } } k := by
  simp only [enterOff, hrest, not_true_eq_false, if_false, hdue, Option.isSome_none, Bool.false_eq_true, hticket]

end

/-- Opening a session leaves the power states. -/
theorem opened_pow (v : State) (sess : Option Session) : (v.opened sess).pow = v.pow := by
  rw [State.opened, State.event_pow]
  cases sess <;> rfl

section
variable (hdue : s.pow.offDue = some k)
include hdue

/-- An OFF follows once the journal is durable (R542). -/
theorem offIfDurable_of_durable (hdurable : s.n Attr.jrnDurableSeq 0 0 = s.n Attr.jrnCommittedSeq 0 0) : s.offIfDurable =
    (let t := (s.completeTicket k rOk).set Attr.powPowerState 0 0 3
     { t with pow := { t.pow with offDue := none, pwrOff := true } }) := by
  simp only [State.offIfDurable, hdue, hdurable, ne_eq, not_true_eq_false, if_false]

/-- An OFF waits while the journal is not durable (R542). -/
theorem offIfDurable_of_waiting (hdurable : s.n Attr.jrnDurableSeq 0 0 ≠ s.n Attr.jrnCommittedSeq 0 0) :
    s.offIfDurable = s := by
  simp only [State.offIfDurable, hdue, if_pos hdurable]

end

end Sys2Proof.Machine

open Sys2Proof Sys2Proof.Machine

/-- Settles O31: each request on its grounds; OFF through the wait for durability. -/
theorem powerRequestsPerform : Obligations.PowerRequestsPerform := by
  unfold Obligations.PowerRequestsPerform
  refine ⟨?restart, ?giveUp, ?restartRange, ?low, ?lowState, ?lowRange, ?wake, ?offState, ?offBusy, ?off, ?follows, ?waits⟩
  case restart =>
    exact performs_of_effect (eff := restart) (fun _ _ => rfl)
      fun _ _ _ _ _ _ ⟨harg, harmed⟩ => restart_of_unarmed harg harmed
  case giveUp =>
    exact performs_of_effect (eff := restart) (fun _ _ => rfl)
      fun _ _ _ _ _ _ ⟨harg, harmed⟩ => restart_of_armed harg harmed
  case restartRange => exact refuses_of_effect (eff := restart) (fun _ _ => rfl) fun _ _ _ _ _ _ harg => if_pos harg
  case low =>
    exact performs_of_effect (eff := enterLow) (fun _ _ => rfl)
      fun _ _ _ _ _ _ ⟨harg, hrest⟩ => enterLow_of_resting harg hrest
  case lowState =>
    exact refuses_of_effect (eff := enterLow) (fun _ _ => rfl) fun _ _ _ _ _ _ ⟨harg, hrest⟩ => enterLow_of_busy harg hrest
  case lowRange => exact refuses_of_effect (eff := enterLow) (fun _ _ => rfl) fun _ _ _ _ _ _ harg => if_pos harg
  case wake => exact performs_of_effect (eff := wakeFromLow) (fun _ _ => rfl) fun _ _ _ _ _ _ _ => rfl
  case offState =>
    exact fun s q sess v c h hnow hrest => next_offIfDurable (serve_error h hnow (enterOff_of_busy hrest))
  case offBusy =>
    exact fun s q sess v c h hnow hrest hdue =>
      next_offIfDurable (serve_error h hnow (enterOff_of_waiting hrest (opened_pow v sess ▸ hdue)))
  case off =>
    exact fun s q sess v c k t h hnow hrest hdue hticket =>
      next_offIfDurable (serve_ok h hnow (enterOff_of_resting hrest (opened_pow v sess ▸ hdue) hticket))
  case follows => exact fun s k hdue hdurable => offIfDurable_of_durable hdue hdurable
  case waits => exact fun s k hdue hdurable => offIfDurable_of_waiting hdue hdurable
end

/-! ### Resets

Their causes, and what they keep (R287, R295, R451, R453, R456, R505, R528, R529, R537, R542, R553). -/

section
open Sys2Proof Sys2Proof.Machine

/-- Settles O32: each event of a reset by its condition; a reset starts every other unit anew. -/
theorem resetsComeOfTheirCauses : Obligations.ResetsComeOfTheirCauses := by
  unfold Obligations.ResetsComeOfTheirCauses
  refine ⟨⟨?powerOn, ?pulse, ?shortPulse, ?restart, ?noRestart, ?wake, ?noWake, ?watchdog⟩, ?cold⟩
  case powerOn => exact fun _ _ => rfl
  case pulse => exact fun s b ns hlong => congrArg Host.Outcome.next (if_pos hlong)
  case shortPulse => exact fun s b ns hshort => congrArg Host.Outcome.next (if_neg hshort.not_ge)
  case restart => exact fun s b hdue => congrArg Host.Outcome.next (if_pos hdue)
  case noRestart =>
    refine fun s b hdue => ⟨congrArg Host.Outcome.next (if_neg (ne_true_of_eq_false hdue)), ?_⟩
    simp only [State.resetDue, hdue, Bool.false_and]
  case wake => exact fun s b hoff => congrArg Host.Outcome.next (if_pos hoff)
  case noWake => exact fun s b hoff => congrArg Host.Outcome.next (if_neg (ne_true_of_eq_false hoff))
  case watchdog => exact fun _ => rfl
  case cold =>
    intro s
    and_intros <;> rfl
end

/-! ### Firmware and bring-up

Installation, trial and confirmation of an image, and the last steps of bring-up (R295, R532, R533, R535, R536, R539, R543,
R544, R546). -/

section
namespace Sys2Proof.Machine

variable {c : Ctx} {s u t : State}

/-- An image that the ROM does not accept is not installed (R543). -/
theorem install_of_bad_image (himage : imageOk u.fuseLevel u.staged = false) : install c u = refuse rType :=
  if_pos (ne_true_of_eq_false himage)

section
variable (himage : imageOk u.fuseLevel u.staged = true)
include himage

/-- An image that the ROM accepts is installed under a ticket (R543). -/
theorem install_of_image {k : ℕ} (hfree : u.pow.installing = none)
    (hticket : u.openTicket (address Attr.fwInstall 0) 0 = some (k, t)) :
    install c u = okTicket { t with pow := { t.pow with installing := some (k, u.staged) } } k := by
  simp only [install, himage, not_true_eq_false, if_false, hfree, Option.isSome_none, Bool.false_eq_true, hticket]

/-- One image is installed at a time (R543). -/
theorem install_of_busy (hbusy : u.pow.installing.isSome = true) : install c u = refuse rBusy :=
  (if_neg (not_not_intro himage)).trans (if_pos hbusy)

end

/-- The slot that does not run holds the image, valid and untried (R543). -/
theorem installComplete_of_running {k : ℕ} {b : List Byte} (hruns : s.pow.installing = some (k, b)) : installComplete s =
    (let slot := 1 - s.runningSlot
     let w : State := { s with pow := { s.pow with
       installing := none
       slots := s.pow.slots.set slot b
       trial := if s.pow.trial = some slot then none else s.pow.trial
       boot := if s.pow.trial = some slot then s.runningSlot else s.pow.boot
       tried := s.pow.tried && s.pow.trial != some slot } }
     ((w.set Attr.fwSlotState 0 slot 1).set Attr.fwSlotVersion 0 slot (imageVersion b)).completeTicket k rOk) := by
  unfold installComplete
  rw [hruns]

/-- Without an install there is none to end. -/
theorem installComplete_of_none (hnone : s.pow.installing = none) : installComplete s = s := by
  simp only [installComplete, hnone]

/-- In recovery the staged image runs if the ROM accepts it (R535). -/
theorem runImage_of_recovery {b : BootIn} (hwaiting : u.pow.waitingIn = some b) (hrecovery : u.pow.recovery = true) :
    runImage c u = if imageOk u.fuseLevel u.staged then
      ok ((({ u with pow := { u.pow with recovery := false, waitingIn := none } } : State).set Attr.idFwVersion 0 0
        (imageVersion u.staged)).startFirmware b) else refuse rType := by
  cases himage : imageOk u.fuseLevel u.staged <;>
    simp only [runImage, hwaiting, hrecovery, himage, Bool.false_eq_true, not_false_eq_true, not_true_eq_false, if_false, if_true]

/-- Firmware that runs is not replaced by the staged image (R535). -/
theorem runImage_of_firmware (hrecovery : u.pow.recovery = false) : runImage c u = refuse rState := by
  cases hwaiting : u.pow.waitingIn with
  | none => simp only [runImage, hwaiting]
  | some b => simp only [runImage, hwaiting, hrecovery, Bool.false_eq_true, not_false_eq_true, if_true]

/-- A deep memory that is filled, or an engine in recovery, does not go on (R295). -/
theorem deepMemoryFillComplete_of_done (h : s.fab.deepReady = true ∨ s.pow.recovery = true) : deepMemoryFillComplete s = s :=
  if_pos h

section
variable (hready : s.fab.deepReady = false) (hrecovery : s.pow.recovery = false)
include hready hrecovery

/-- Deep memory is filled before bring-up waits for it (R295). -/
theorem deepMemoryFillComplete_of_early (hstep : s.n Attr.powBringUpStep 0 0 ≠ 2) :
    deepMemoryFillComplete s = { s with fab := { s.fab with deepReady := true } } :=
  (if_neg (not_or_intro (ne_true_of_eq_false hready) (ne_true_of_eq_false hrecovery))).trans (if_pos hstep)

variable (hstep : s.n Attr.powBringUpStep 0 0 = 2)
include hstep

/-- A fault that is present stops bring-up (R536). -/
theorem deepMemoryFillComplete_of_fault (hfault : s.bringUpFault = true) :
    deepMemoryFillComplete s = ({ s with fab := { s.fab with deepReady := true } } : State).stopBringUp :=
  (if_neg (not_or_intro (ne_true_of_eq_false hready) (ne_true_of_eq_false hrecovery))).trans
    ((if_neg (not_not_intro hstep)).trans (if_pos hfault))

/-- Bring-up goes on with the card, the parameters and the last state (R536). -/
theorem deepMemoryFillComplete_of_sound (hfault : s.bringUpFault = false) : deepMemoryFillComplete s =
    ({ s with fab := { s.fab with deepReady := true } } : State).findCard.agreeParams.lastState :=
  (if_neg (not_or_intro (ne_true_of_eq_false hready) (ne_true_of_eq_false hrecovery))).trans
    ((if_neg (not_not_intro hstep)).trans (if_neg (ne_true_of_eq_false hfault)))

end

/-- An entry into RUN stops where a fault is present (R539). -/
theorem syncWaitExpiry_of_fault (hentry : s.atEntry = true) (hfault : s.bringUpFault = true) :
    syncWaitExpiry s = s.stopBringUp := if_pos ⟨hentry, hfault⟩

/-- An entry into RUN that waits for its time base waits no longer (R539). -/
theorem syncWaitExpiry_of_waiting (hentry : s.atEntry = true) (hfault : s.bringUpFault = false) (hwaits : s.entryWaits = true) :
    syncWaitExpiry s = (s.logAt sevWarning Attr.powSyncWait 0 0).startTick.set Attr.powBringUpStep 0 0 6 :=
  (if_neg fun ⟨_, h⟩ => ne_true_of_eq_false hfault h).trans (if_pos ⟨hentry, hwaits⟩)

/-- Without a fault and a wait there is nothing to end (R539). -/
theorem syncWaitExpiry_of_sound (hfault : s.bringUpFault = false) (hwaits : s.entryWaits = false) : syncWaitExpiry s = s :=
  (if_neg fun ⟨_, h⟩ => ne_true_of_eq_false hfault h).trans (if_neg fun ⟨_, h⟩ => ne_true_of_eq_false hwaits h)

/-- Only an entry into RUN waits (R539). -/
theorem syncWaitExpiry_of_no_entry (hentry : s.atEntry = false) : syncWaitExpiry s = s :=
  (if_neg fun ⟨h, _⟩ => ne_true_of_eq_false hentry h).trans (if_neg fun ⟨h, _⟩ => ne_true_of_eq_false hentry h)

end Sys2Proof.Machine

open Sys2Proof Sys2Proof.Machine

/-- Settles O33: each request by the ROM's verdict and the slots, each event of bring-up by its step and its faults. -/
theorem firmwareAndBringUpAct : Obligations.FirmwareAndBringUpAct := by
  unfold Obligations.FirmwareAndBringUpAct
  refine ⟨⟨?install, ?installBusy, ?installed, ?noInstall, ?activate, ?notValid, ?confirm, ?noTrial, ?runImage, ?noRecovery⟩,
    ⟨?goesOn, ?stops, ?early, ?done, ?entryFault, ?entryWaits, ?entrySound, ?noEntry⟩⟩
  case install =>
    refine answers_of_effect (eff := install) (fun _ _ => rfl) fun c u _ _ _ _ ⟨hfree, hopens⟩ => ?_
    obtain ⟨⟨k, t⟩, hticket⟩ := Option.isSome_iff_exists.mp hopens
    cases himage : imageOk u.fuseLevel u.staged with
    | false => exact install_of_bad_image himage
    | true =>
      refine (install_of_image himage hfree hticket).trans ?_
      simp only [hticket]
      rfl
  case installBusy =>
    refine answers_of_effect (eff := install) (fun _ _ => rfl) fun c u _ _ _ _ hbusy => ?_
    cases himage : imageOk u.fuseLevel u.staged with
    | false => exact install_of_bad_image himage
    | true => exact install_of_busy himage hbusy
  case installed => exact fun s k b hruns => congrArg Host.Outcome.next (installComplete_of_running hruns)
  case noInstall => exact fun s hnone => congrArg Host.Outcome.next (installComplete_of_none hnone)
  case activate =>
    exact performs_of_effect (eff := activate) (fun _ _ => rfl) fun _ _ _ _ _ _ hvalid => if_neg (not_not_intro hvalid)
  case notValid => exact refuses_of_effect (eff := activate) (fun _ _ => rfl) fun _ _ _ _ _ _ hvalid => if_pos hvalid
  case confirm =>
    exact performs_of_effect (eff := confirm) (fun _ _ => rfl) fun _ _ _ _ _ _ htrial => if_neg (not_not_intro htrial)
  case noTrial => exact performs_of_effect (eff := confirm) (fun _ _ => rfl) fun _ _ _ _ _ _ htrial => if_pos htrial
  case runImage =>
    exact fun b => answers_of_effect (eff := runImage) (fun _ _ => rfl)
      fun _ _ _ _ _ _ ⟨hwaiting, hrecovery⟩ => runImage_of_recovery hwaiting hrecovery
  case noRecovery =>
    exact refuses_of_effect (eff := runImage) (fun _ _ => rfl) fun _ _ _ _ _ _ hrecovery => runImage_of_firmware hrecovery
  case goesOn =>
    exact fun s hready hrecovery hstep hfault =>
      congrArg Host.Outcome.next (deepMemoryFillComplete_of_sound hready hrecovery hstep hfault)
  case stops =>
    exact fun s hready hrecovery hstep hfault =>
      congrArg Host.Outcome.next (deepMemoryFillComplete_of_fault hready hrecovery hstep hfault)
  case early =>
    exact fun s hready hrecovery hstep =>
      congrArg Host.Outcome.next (deepMemoryFillComplete_of_early hready hrecovery hstep)
  case done => exact fun s h => congrArg Host.Outcome.next (deepMemoryFillComplete_of_done h)
  case entryFault => exact fun s hentry hfault => congrArg Host.Outcome.next (syncWaitExpiry_of_fault hentry hfault)
  case entryWaits =>
    exact fun s hentry hfault hwaits => congrArg Host.Outcome.next (syncWaitExpiry_of_waiting hentry hfault hwaits)
  case entrySound => exact fun s hfault hwaits => congrArg Host.Outcome.next (syncWaitExpiry_of_sound hfault hwaits)
  case noEntry => exact fun s hentry => congrArg Host.Outcome.next (syncWaitExpiry_of_no_entry hentry)
end
